-- ==== Sys2Proof/Word.lean ====
section
/-!
DEFINITION. The word types of the model and their plainest arithmetic (02 R5, R26, R53).
-/

namespace Sys2Proof

/-- A 64-bit register or address (R53). -/
abbrev Word := BitVec 64

/-- One byte of memory. -/
abbrev Byte := BitVec 8

/-- A register number of a scalar or vector word (R30, R38). -/
abbrev Reg := BitVec 5

/-- A hart context: tile number times 4 plus the context (R14, R16). -/
abbrev HartId := Fin 896

/-- A vector register: 4 element groups of up to 256 lane words (R44); lane word `l` of group `g`
for a hart of `L` lanes stands at word `g * L + l` (R45). -/
abbrev VReg := BitVec 65536

/-- A mask register: bit `i` governs element `i` (R45). -/
abbrev MReg := BitVec 8192

end Sys2Proof
end

