-- ==== Sys2Proof/Syntax.lean ====
section
/-!
DEFINITION. The instructions and steps of the LF8-224: one constructor of `Instr` for each row of
spec/opcode_table.json. Scalar words carry the fields of the table; vector words carry the fields of
R242 raw; fabric unit words carry the fields of R314; events carry the data that says whom and what
they concern (INVENTORY, Instructions).
-/

namespace Sys2Proof

/-- The fields below the major and the function of a vector word (R38, R39, R242). -/
structure VFields where
  vd : BitVec 5
  va : BitVec 5
  vb : BitVec 5
  vc : BitVec 5
  mask : BitVec 3
  width : BitVec 3
  fmt : BitVec 5
  rm : BitVec 3
  sel : BitVec 18
  deriving DecidableEq, Repr

/-- The fields of a fabric unit instruction below its operation (R314). -/
structure UFields where
  fmt : BitVec 5
  w : BitVec 2
  rm : BitVec 3
  a : BitVec 5
  b : BitVec 5
  d : BitVec 5
  deriving DecidableEq, Repr

/-- A memory request of an outside party (R129, R133): a read, or a write of the bytes given. -/
structure MemReq where
  pa : Nat
  size : Nat
  data : Option (List Byte)
  deriving DecidableEq, Repr

/-- The hart of a Lefahel peer that makes a request, by tile and context, and its stream where the request carries the
traffic of one (R128, R130). -/
structure PeerAgent where
  tile : Nat
  ctx : Nat
  stream : Option Nat
  deriving DecidableEq, Repr

/-- The extent a peer asks to register here (R136): the geometry and the owner of an entry (R127). -/
structure RsvMsg where
  module : Nat
  seq : BitVec 16
  extBase : Nat
  extSize : BitVec 2
  first : Nat
  stride : Int
  count : Nat
  esize : BitVec 2
  dir : Bool
  mode : BitVec 2
  scope : BitVec 3
  key : BitVec 9
  whole : Bool
  tile : Fin 224
  ctx : Fin 4
  stream : BitVec 4
  deriving DecidableEq, Repr

/-- What the scheduler gives one hart of a gang (R370): its context, clusters and banks. -/
structure Place where
  tile : Fin 224
  ctx : Fin 4
  clusters : BitVec 16
  banks : BitVec 64
  deriving DecidableEq, Repr

/-- One island's reading at a telemetry sample (R463): its temperature and its voltage in millivolts. -/
structure Sample where
  island : Fin 256
  celsius : Int
  mv : Nat
  millivolts : Nat
  deriving DecidableEq, Repr

/-- An object given to the loader (R71): its bytes, the address space, VLBYTES of the target hart and
the virtual address at which each section is placed. -/
structure LoadJob where
  object : List Byte
  asid : BitVec 16
  vlbytes : Nat
  bases : List Nat
  deriving DecidableEq, Repr

/-- The rows of the opcode table. -/
inductive Instr where
  /-- ADD (R200). Writes the sum of two integer registers modulo 2^64. -/
  | add (d : BitVec 5) (a : BitVec 5) (b : BitVec 5)
  /-- SUB (R200). Writes the difference of two integer registers. -/
  | sub (d : BitVec 5) (a : BitVec 5) (b : BitVec 5)
  /-- AND (R200). Writes the bitwise AND of two registers. -/
  | and (d : BitVec 5) (a : BitVec 5) (b : BitVec 5)
  /-- OR (R200). Writes the bitwise OR of two registers. -/
  | or (d : BitVec 5) (a : BitVec 5) (b : BitVec 5)
  /-- XOR (R200). Writes the bitwise XOR of two registers. -/
  | xor (d : BitVec 5) (a : BitVec 5) (b : BitVec 5)
  /-- ANDN (R200). Writes a AND NOT b. -/
  | andn (d : BitVec 5) (a : BitVec 5) (b : BitVec 5)
  /-- SLL (R200). Shifts left by register amount. -/
  | sll (d : BitVec 5) (a : BitVec 5) (b : BitVec 5)
  /-- SRL (R200). Shifts right logically by register amount. -/
  | srl (d : BitVec 5) (a : BitVec 5) (b : BitVec 5)
  /-- SRA (R200). Shifts right arithmetically by register amount. -/
  | sra (d : BitVec 5) (a : BitVec 5) (b : BitVec 5)
  /-- SLT (R200). Writes 1 if a is less than b signed. -/
  | slt (d : BitVec 5) (a : BitVec 5) (b : BitVec 5)
  /-- SLTU (R200). Writes 1 if a is less than b unsigned. -/
  | sltu (d : BitVec 5) (a : BitVec 5) (b : BitVec 5)
  /-- MIN (R200). Writes the signed minimum. -/
  | min (d : BitVec 5) (a : BitVec 5) (b : BitVec 5)
  /-- MAX (R200). Writes the signed maximum. -/
  | max (d : BitVec 5) (a : BitVec 5) (b : BitVec 5)
  /-- MINU (R200). Writes the unsigned minimum. -/
  | minu (d : BitVec 5) (a : BitVec 5) (b : BitVec 5)
  /-- MAXU (R200). Writes the unsigned maximum. -/
  | maxu (d : BitVec 5) (a : BitVec 5) (b : BitVec 5)
  /-- ADDW (R200). Adds and sign-extends the low 32 bits. -/
  | addw (d : BitVec 5) (a : BitVec 5) (b : BitVec 5)
  /-- SUBW (R200). Subtracts and sign-extends the low 32 bits. -/
  | subw (d : BitVec 5) (a : BitVec 5) (b : BitVec 5)
  /-- SH1ADD (R200). Writes (a << 1) + b. -/
  | sh1add (d : BitVec 5) (a : BitVec 5) (b : BitVec 5)
  /-- SH2ADD (R200). Writes (a << 2) + b. -/
  | sh2add (d : BitVec 5) (a : BitVec 5) (b : BitVec 5)
  /-- SH3ADD (R200). Writes (a << 3) + b. -/
  | sh3add (d : BitVec 5) (a : BitVec 5) (b : BitVec 5)
  /-- CLZ (R200). Counts leading zero bits. -/
  | clz (d : BitVec 5) (a : BitVec 5)
  /-- CTZ (R200). Counts trailing zero bits. -/
  | ctz (d : BitVec 5) (a : BitVec 5)
  /-- CPOP (R200). Counts set bits. -/
  | cpop (d : BitVec 5) (a : BitVec 5)
  /-- SLLI (R200). Shifts left by an immediate amount. -/
  | slli (d : BitVec 5) (a : BitVec 5) (s : BitVec 6)
  /-- SRLI (R200). Shifts right logically by an immediate amount. -/
  | srli (d : BitVec 5) (a : BitVec 5) (s : BitVec 6)
  /-- SRAI (R200). Shifts right arithmetically by an immediate amount. -/
  | srai (d : BitVec 5) (a : BitVec 5) (s : BitVec 6)
  /-- SEXT_B (R200). Sign-extends the low byte. -/
  | sextB (d : BitVec 5) (a : BitVec 5)
  /-- SEXT_H (R200). Sign-extends the low 16 bits. -/
  | sextH (d : BitVec 5) (a : BitVec 5)
  /-- SEXT_W (R200). Sign-extends the low 32 bits. -/
  | sextW (d : BitVec 5) (a : BitVec 5)
  /-- ZEXT_B (R200). Zero-extends the low byte. -/
  | zextB (d : BitVec 5) (a : BitVec 5)
  /-- ZEXT_H (R200). Zero-extends the low 16 bits. -/
  | zextH (d : BitVec 5) (a : BitVec 5)
  /-- ZEXT_W (R200). Zero-extends the low 32 bits. -/
  | zextW (d : BitVec 5) (a : BitVec 5)
  /-- ADDI (R201). Adds a sign-extended 16-bit immediate. -/
  | addi (d : BitVec 5) (a : BitVec 5) (i : BitVec 16)
  /-- LIK (R202). Loads a sign-extended 21-bit immediate times 65,536. -/
  | lik (d : BitVec 5) (i : BitVec 21)
  /-- PCREL (R202). Writes PC plus four times a sign-extended 21-bit offset. -/
  | pcrel (d : BitVec 5) (i : BitVec 21)
  /-- MUL (R203). Writes the low 64 bits of the product. -/
  | mul (d : BitVec 5) (a : BitVec 5) (b : BitVec 5)
  /-- MULH (R203). Writes the high 64 bits of the signed product. -/
  | mulh (d : BitVec 5) (a : BitVec 5) (b : BitVec 5)
  /-- MULHU (R203). Writes the high 64 bits of the unsigned product. -/
  | mulhu (d : BitVec 5) (a : BitVec 5) (b : BitVec 5)
  /-- MULHSU (R203). Writes the high 64 bits of signed a times unsigned b. -/
  | mulhsu (d : BitVec 5) (a : BitVec 5) (b : BitVec 5)
  /-- DIV (R203). Signed division rounded towards zero, never trapping. -/
  | div (d : BitVec 5) (a : BitVec 5) (b : BitVec 5)
  /-- DIVU (R203). Unsigned division, never trapping. -/
  | divu (d : BitVec 5) (a : BitVec 5) (b : BitVec 5)
  /-- REM (R203). Signed remainder with the sign of a. -/
  | rem (d : BitVec 5) (a : BitVec 5) (b : BitVec 5)
  /-- REMU (R203). Unsigned remainder. -/
  | remu (d : BitVec 5) (a : BitVec 5) (b : BitVec 5)
  /-- MULW (R203). Multiplies and sign-extends the low 32 bits. -/
  | mulw (d : BitVec 5) (a : BitVec 5) (b : BitVec 5)
  /-- DIVW (R203). 32-bit signed division, sign-extended. -/
  | divw (d : BitVec 5) (a : BitVec 5) (b : BitVec 5)
  /-- REMW (R203). 32-bit signed remainder, sign-extended. -/
  | remw (d : BitVec 5) (a : BitVec 5) (b : BitVec 5)
  /-- LD_I8 (R204). Loads a sign-extended byte. -/
  | ldI8 (d : BitVec 5) (a : BitVec 5) (i : BitVec 12)
  /-- LD_I16 (R204). Loads a sign-extended 16-bit value. -/
  | ldI16 (d : BitVec 5) (a : BitVec 5) (i : BitVec 12)
  /-- LD_I32 (R204). Loads a sign-extended 32-bit value. -/
  | ldI32 (d : BitVec 5) (a : BitVec 5) (i : BitVec 12)
  /-- LD_I64 (R204). Loads a 64-bit value. -/
  | ldI64 (d : BitVec 5) (a : BitVec 5) (i : BitVec 12)
  /-- LD_N8 (R204). Loads a zero-extended byte. -/
  | ldN8 (d : BitVec 5) (a : BitVec 5) (i : BitVec 12)
  /-- LD_N16 (R204). Loads a zero-extended 16-bit value. -/
  | ldN16 (d : BitVec 5) (a : BitVec 5) (i : BitVec 12)
  /-- LD_N32 (R204). Loads a zero-extended 32-bit value. -/
  | ldN32 (d : BitVec 5) (a : BitVec 5) (i : BitVec 12)
  /-- LD_F16 (R204). Loads a 16-bit float value into an f register, boxed. -/
  | ldF16 (d : BitVec 5) (a : BitVec 5) (i : BitVec 12)
  /-- LD_F32 (R204). Loads an f32 into an f register, boxed. -/
  | ldF32 (d : BitVec 5) (a : BitVec 5) (i : BitVec 12)
  /-- LD_F64 (R204). Loads an f64 into an f register. -/
  | ldF64 (d : BitVec 5) (a : BitVec 5) (i : BitVec 12)
  /-- ST_I8 (R204). Stores the low byte of a register. -/
  | stI8 (s : BitVec 5) (a : BitVec 5) (i : BitVec 12)
  /-- ST_I16 (R204). Stores the low 16 bits of a register. -/
  | stI16 (s : BitVec 5) (a : BitVec 5) (i : BitVec 12)
  /-- ST_I32 (R204). Stores the low 32 bits of a register. -/
  | stI32 (s : BitVec 5) (a : BitVec 5) (i : BitVec 12)
  /-- ST_I64 (R204). Stores a 64-bit register. -/
  | stI64 (s : BitVec 5) (a : BitVec 5) (i : BitVec 12)
  /-- ST_F16 (R204). Stores the low 16 bits of an f register. -/
  | stF16 (s : BitVec 5) (a : BitVec 5) (i : BitVec 12)
  /-- ST_F32 (R204). Stores the low 32 bits of an f register. -/
  | stF32 (s : BitVec 5) (a : BitVec 5) (i : BitVec 12)
  /-- ST_F64 (R204). Stores an f register. -/
  | stF64 (s : BitVec 5) (a : BitVec 5) (i : BitVec 12)
  /-- AMOSWAP (R206). Atomically swaps memory with a register value. -/
  | amoswap (d : BitVec 5) (a : BitVec 5) (b : BitVec 5) (q : BitVec 1) (l : BitVec 1) (z : BitVec 1) (p : BitVec 3)
  /-- AMOADD (R206). Atomically adds to memory. -/
  | amoadd (d : BitVec 5) (a : BitVec 5) (b : BitVec 5) (q : BitVec 1) (l : BitVec 1) (z : BitVec 1) (p : BitVec 3)
  /-- AMOAND (R206). Atomically ANDs into memory. -/
  | amoand (d : BitVec 5) (a : BitVec 5) (b : BitVec 5) (q : BitVec 1) (l : BitVec 1) (z : BitVec 1) (p : BitVec 3)
  /-- AMOOR (R206). Atomically ORs into memory. -/
  | amoor (d : BitVec 5) (a : BitVec 5) (b : BitVec 5) (q : BitVec 1) (l : BitVec 1) (z : BitVec 1) (p : BitVec 3)
  /-- AMOXOR (R206). Atomically XORs into memory. -/
  | amoxor (d : BitVec 5) (a : BitVec 5) (b : BitVec 5) (q : BitVec 1) (l : BitVec 1) (z : BitVec 1) (p : BitVec 3)
  /-- AMOMIN (R206). Atomic signed minimum. -/
  | amomin (d : BitVec 5) (a : BitVec 5) (b : BitVec 5) (q : BitVec 1) (l : BitVec 1) (z : BitVec 1) (p : BitVec 3)
  /-- AMOMAX (R206). Atomic signed maximum. -/
  | amomax (d : BitVec 5) (a : BitVec 5) (b : BitVec 5) (q : BitVec 1) (l : BitVec 1) (z : BitVec 1) (p : BitVec 3)
  /-- AMOMINU (R206). Atomic unsigned minimum. -/
  | amominu (d : BitVec 5) (a : BitVec 5) (b : BitVec 5) (q : BitVec 1) (l : BitVec 1) (z : BitVec 1) (p : BitVec 3)
  /-- AMOMAXU (R206). Atomic unsigned maximum. -/
  | amomaxu (d : BitVec 5) (a : BitVec 5) (b : BitVec 5) (q : BitVec 1) (l : BitVec 1) (z : BitVec 1) (p : BitVec 3)
  /-- AMOCAS (R206). Atomic compare-and-swap that always writes memory. -/
  | amocas (d : BitVec 5) (a : BitVec 5) (b : BitVec 5) (q : BitVec 1) (l : BitVec 1) (z : BitVec 1) (p : BitVec 3)
  /-- BEQ (R208). Branches if two registers are equal. -/
  | beq (a : BitVec 5) (b : BitVec 5) (o : BitVec 11)
  /-- BNE (R208). Branches if two registers differ. -/
  | bne (a : BitVec 5) (b : BitVec 5) (o : BitVec 11)
  /-- BLT (R208). Branches if a < b signed. -/
  | blt (a : BitVec 5) (b : BitVec 5) (o : BitVec 11)
  /-- BGE (R208). Branches if a >= b signed. -/
  | bge (a : BitVec 5) (b : BitVec 5) (o : BitVec 11)
  /-- BLTU (R208). Branches if a < b unsigned. -/
  | bltu (a : BitVec 5) (b : BitVec 5) (o : BitVec 11)
  /-- BGEU (R208). Branches if a >= b unsigned. -/
  | bgeu (a : BitVec 5) (b : BitVec 5) (o : BitVec 11)
  /-- BEQZ (R208). Branches if a register is zero. -/
  | beqz (a : BitVec 5) (o : BitVec 16)
  /-- BNEZ (R208). Branches if a register is non-zero. -/
  | bnez (a : BitVec 5) (o : BitVec 16)
  /-- BLTZ (R208). Branches if a register is negative. -/
  | bltz (a : BitVec 5) (o : BitVec 16)
  /-- BGEZ (R208). Branches if a register is at least zero. -/
  | bgez (a : BitVec 5) (o : BitVec 16)
  /-- BLEZ (R208). Branches if a register is at most zero. -/
  | blez (a : BitVec 5) (o : BitVec 16)
  /-- BGTZ (R208). Branches if a register is positive. -/
  | bgtz (a : BitVec 5) (o : BitVec 16)
  /-- BQT (R209). Pops the branch queue and branches if the entry is 1. -/
  | bqt (o : BitVec 16)
  /-- BQF (R209). Pops the branch queue and branches if the entry is 0. -/
  | bqf (o : BitVec 16)
  /-- J (R210). Jumps PC-relative. -/
  | j (o : BitVec 24)
  /-- CALL (R210). Pushes the return address to the return-address store and jumps. -/
  | call (o : BitVec 24)
  /-- JR (R210). Jumps to a register plus offset. -/
  | jr (a : BitVec 5) (i : BitVec 16)
  /-- CALLR (R210). Pushes the return address and jumps to a register plus offset. -/
  | callr (a : BitVec 5) (i : BitVec 16)
  /-- RET (R212). Pops the return-address store into PC, trapping on underflow. -/
  | ret
  /-- RAS_SPILL (R214). Moves the oldest return-address entries to the shadow stack. -/
  | rasSpill (a : BitVec 5) (d : BitVec 5)
  /-- RAS_FILL (R214). Restores return-address entries from the shadow stack beneath the oldest. -/
  | rasFill (a : BitVec 5) (d : BitVec 5)
  /-- RAS_DROP (R213). Discards the newest return-address entries. -/
  | rasDrop (a : BitVec 5)
  /-- FADD (R220). Scalar floating add with rounding. -/
  | fadd (d : BitVec 5) (a : BitVec 5) (b : BitVec 5) (r : BitVec 3) (f : BitVec 3)
  /-- FSUB (R220). Scalar floating subtract. -/
  | fsub (d : BitVec 5) (a : BitVec 5) (b : BitVec 5) (r : BitVec 3) (f : BitVec 3)
  /-- FMUL (R220). Scalar floating multiply. -/
  | fmul (d : BitVec 5) (a : BitVec 5) (b : BitVec 5) (r : BitVec 3) (f : BitVec 3)
  /-- FDIV (R220). Scalar floating divide. -/
  | fdiv (d : BitVec 5) (a : BitVec 5) (b : BitVec 5) (r : BitVec 3) (f : BitVec 3)
  /-- FSQRT (R220). Scalar floating square root. -/
  | fsqrt (d : BitVec 5) (a : BitVec 5) (r : BitVec 3) (f : BitVec 3)
  /-- FMIN (R220). Scalar floating minimum under R91. -/
  | fmin (d : BitVec 5) (a : BitVec 5) (b : BitVec 5) (f : BitVec 3)
  /-- FMAX (R220). Scalar floating maximum under R91. -/
  | fmax (d : BitVec 5) (a : BitVec 5) (b : BitVec 5) (f : BitVec 3)
  /-- FSGNJ (R220). Copies a with the sign of b. -/
  | fsgnj (d : BitVec 5) (a : BitVec 5) (b : BitVec 5) (f : BitVec 3)
  /-- FSGNJN (R220). Copies a with the inverted sign of b. -/
  | fsgnjn (d : BitVec 5) (a : BitVec 5) (b : BitVec 5) (f : BitVec 3)
  /-- FSGNJX (R220). Copies a with the XOR of both signs. -/
  | fsgnjx (d : BitVec 5) (a : BitVec 5) (b : BitVec 5) (f : BitVec 3)
  /-- FEQ (R220). Writes 1 if two floats are equal. -/
  | feq (d : BitVec 5) (a : BitVec 5) (b : BitVec 5) (f : BitVec 3)
  /-- FLT (R220). Writes 1 if a < b. -/
  | flt (d : BitVec 5) (a : BitVec 5) (b : BitVec 5) (f : BitVec 3)
  /-- FLE (R220). Writes 1 if a <= b. -/
  | fle (d : BitVec 5) (a : BitVec 5) (b : BitVec 5) (f : BitVec 3)
  /-- FCLASS (R220). Writes the one-hot class of a float. -/
  | fclass (d : BitVec 5) (a : BitVec 5) (f : BitVec 3)
  /-- FCVT_TO_INT (R220). Converts a float to an integer type under R89. -/
  | fcvtToInt (d : BitVec 5) (a : BitVec 5) (t : BitVec 2) (r : BitVec 3) (f : BitVec 3)
  /-- FCVT_FROM_INT (R220). Converts an integer register to a float format. -/
  | fcvtFromInt (d : BitVec 5) (a : BitVec 5) (t : BitVec 2) (r : BitVec 3) (f : BitVec 3)
  /-- FCVT_FMT (R220). Converts between floating formats. -/
  | fcvtFmt (d : BitVec 5) (a : BitVec 5) (s : BitVec 2) (r : BitVec 3) (f : BitVec 3)
  /-- FMV_X (R220). Moves raw float bits to an integer register. -/
  | fmvX (d : BitVec 5) (a : BitVec 5) (f : BitVec 3)
  /-- FMV_F (R220). Moves integer bits into an f register, boxed. -/
  | fmvF (d : BitVec 5) (a : BitVec 5) (f : BitVec 3)
  /-- FMADD (R221). Fused a*b+c with one rounding. -/
  | fmadd (d : BitVec 5) (a : BitVec 5) (b : BitVec 5) (c : BitVec 5) (f : BitVec 1) (r : BitVec 3)
  /-- FMSUB (R221). Fused a*b-c. -/
  | fmsub (d : BitVec 5) (a : BitVec 5) (b : BitVec 5) (c : BitVec 5) (f : BitVec 1) (r : BitVec 3)
  /-- FNMADD (R221). Fused -(a*b)-c. -/
  | fnmadd (d : BitVec 5) (a : BitVec 5) (b : BitVec 5) (c : BitVec 5) (f : BitVec 1) (r : BitVec 3)
  /-- FNMSUB (R221). Fused -(a*b)+c. -/
  | fnmsub (d : BitVec 5) (a : BitVec 5) (b : BitVec 5) (c : BitVec 5) (f : BitVec 1) (r : BitVec 3)
  /-- CSRR (R215). Reads a CSR, waiting for earlier convoys where R216 requires. -/
  | csrr (d : BitVec 5) (c : BitVec 12)
  /-- CSRW (R215). Swaps a CSR with a register value. -/
  | csrw (d : BitVec 5) (a : BitVec 5) (c : BitVec 12)
  /-- CSRS (R215). Sets CSR bits from a register. -/
  | csrs (d : BitVec 5) (a : BitVec 5) (c : BitVec 12)
  /-- CSRC (R215). Clears CSR bits from a register. -/
  | csrc (d : BitVec 5) (a : BitVec 5) (c : BitVec 12)
  /-- CSRSI (R215). Sets CSR bits from a 5-bit immediate. -/
  | csrsi (d : BitVec 5) (n : BitVec 5) (c : BitVec 12)
  /-- CSRCI (R215). Clears CSR bits from a 5-bit immediate. -/
  | csrci (d : BitVec 5) (n : BitVec 5) (c : BitVec 12)
  /-- FENCE (R223). Orders all earlier accesses before later ones at scope. -/
  | fence (p : BitVec 3)
  /-- FENCE_SV (R223). Orders earlier scalar accesses before later vector accesses. -/
  | fenceSv (p : BitVec 3)
  /-- FENCE_VS (R223). Waits for earlier convoys' accesses before later scalar accesses. -/
  | fenceVs (p : BitVec 3)
  /-- LDA (R223). Load with acquire ordering at scope. -/
  | lda (d : BitVec 5) (a : BitVec 5) (z : BitVec 1) (s : BitVec 2) (p : BitVec 3)
  /-- STL (R223). Store with release ordering at scope. -/
  | stl (a : BitVec 5) (b : BitVec 5) (s : BitVec 2) (p : BitVec 3)
  /-- FENCE_I (R223). Makes later fetches see stores visible at scope. -/
  | fenceI (p : BitVec 3)
  /-- ECALL (R424). Takes the environment-call trap. -/
  | ecall
  /-- EBREAK (R424). Takes the breakpoint trap, or halts when break entry is enabled. -/
  | ebreak
  /-- SRET (R424). Returns from a trap, restoring level and interrupt enable. -/
  | sret
  /-- WFI (R224). Waits until any interrupt is pending. -/
  | wfi
  /-- TLB_INV (R425). Invalidates translations of an ASID within scope and retires when complete. -/
  | tlbInv (a : BitVec 5) (b : BitVec 5) (p : BitVec 3)
  /-- STRM_CFG (R188). Checks a descriptor and configures a stream, claiming its resources. -/
  | strmCfg (d : BitVec 5) (a : BitVec 5) (n : BitVec 4)
  /-- STRM_REL (R189). Begins the release of a stream and retires at once. -/
  | strmRel (n : BitVec 4)
  /-- STRM_REL_WAIT (R189). Begins a stream release and retires when it completes. -/
  | strmRelWait (n : BitVec 4)
  /-- STRM_STAT (R190). Reads a stream's status word. -/
  | strmStat (d : BitVec 5) (n : BitVec 4)
  /-- STRM_STAT_POS (R190). Reads a stream's POS. -/
  | strmStatPos (d : BitVec 5) (n : BitVec 4)
  /-- STRM_STAT_AVAIL (R190). Reads a stream's AVAIL. -/
  | strmStatAvail (d : BitVec 5) (n : BitVec 4)
  /-- STRM_POP (R191). Pops one element of a read stream into a register. -/
  | strmPop (d : BitVec 5) (n : BitVec 4)
  /-- STRM_PUSH (R191). Pushes one element into a write stream. -/
  | strmPush (a : BitVec 5) (n : BitVec 4)
  /-- STRM_COPY (R192). Binds a read stream to a write stream and starts the copy engine. -/
  | strmCopy (d : BitVec 4) (s : BitVec 4)
  /-- STRM_RESUME (R193). Restarts a faulted stream at its faulting element. -/
  | strmResume (a : BitVec 5) (n : BitVec 4)
  /-- STRM_SAVE (R194). Saves a stream of a stopped hart to a save area and frees its resources. -/
  | strmSave (t : BitVec 5) (a : BitVec 5) (n : BitVec 4)
  /-- STRM_REST (R194). Restores a saved stream and reclaims its resources. -/
  | strmRest (t : BitVec 5) (a : BitVec 5) (n : BitVec 4)
  /-- BANK_CFG_CACHE (R159). Sets named banks to the cache role, all or nothing. -/
  | bankCfgCache (d : BitVec 5) (a : BitVec 5)
  /-- BANK_CFG_SPAD (R159). Sets named banks to the scratchpad role. -/
  | bankCfgSpad (d : BitVec 5) (a : BitVec 5)
  /-- BANK_CFG_FIFO (R159). Sets named banks to the FIFO role. -/
  | bankCfgFifo (d : BitVec 5) (a : BitVec 5)
  /-- BANK_STAT (R160). Reads a bank's role, grant and claim status. -/
  | bankStat (d : BitVec 5) (a : BitVec 5)
  /-- FE_INIT_EMPTY (R161). Sets a range of full/empty bits to empty. -/
  | feInitEmpty (a : BitVec 5) (b : BitVec 5)
  /-- FE_INIT_FULL (R161). Sets a range of full/empty bits to full, waking waiters. -/
  | feInitFull (a : BitVec 5) (b : BitVec 5)
  /-- LDF (R162). Waits for a scratchpad word to be full and loads it with acquire. -/
  | ldf (d : BitVec 5) (a : BitVec 5) (p : BitVec 3)
  /-- LDF_CLR (R162). Waits for full, loads the word and empties it atomically. -/
  | ldfClr (d : BitVec 5) (a : BitVec 5) (p : BitVec 3)
  /-- STF (R162). Stores a word and sets it full, with release. -/
  | stf (a : BitVec 5) (b : BitVec 5) (p : BitVec 3)
  /-- STF_WAIT (R162). Waits for empty, then stores and sets full. -/
  | stfWait (a : BitVec 5) (b : BitVec 5) (p : BitVec 3)
  /-- RING_CFG (R163). Configures a scratchpad ring and zeroes HEAD and TAIL. -/
  | ringCfg (q : BitVec 3) (a : BitVec 5) (b : BitVec 5)
  /-- RING_ADV_TAIL (R164). Waits for room and advances a ring's TAIL with release. -/
  | ringAdvTail (q : BitVec 3) (a : BitVec 5) (p : BitVec 3)
  /-- RING_ADV_HEAD (R164). Advances a ring's HEAD after earlier convoys retire. -/
  | ringAdvHead (q : BitVec 3) (a : BitVec 5) (p : BitVec 3)
  /-- RING_STAT (R165). Reads a ring's HEAD and occupancy. -/
  | ringStat (d : BitVec 5) (q : BitVec 3)
  /-- RING_STAT_WAIT (R165). Waits until ring occupancy reaches a count, then reads status. -/
  | ringStatWait (d : BitVec 5) (q : BitVec 3) (b : BitVec 5)
  /-- CWAIT (R380). Waits until a completion counter reaches a threshold, then acquires. -/
  | cwait (a : BitVec 5) (n : BitVec 4) (p : BitVec 3)
  /-- CREAD (R380). Reads a completion counter. -/
  | cread (d : BitVec 5) (n : BitVec 4)
  /-- CADD (R380). Releases and atomically adds to a completion counter. -/
  | cadd (a : BitVec 5) (n : BitVec 4) (p : BitVec 3)
  /-- TOK_SEND (R381). Sends a control token to a channel of a gang rank with release. -/
  | tokSend (a : BitVec 5) (b : BitVec 5) (p : BitVec 3)
  /-- TOK_WAIT (R381). Waits for and consumes a token, or returns 0 on gang termination. -/
  | tokWait (d : BitVec 5) (a : BitVec 5) (p : BitVec 3)
  /-- TOK_STAT (R381). Reads the flight counter and a channel count. -/
  | tokStat (d : BitVec 5) (a : BitVec 5)
  /-- BAR_ARRIVE (R382). Atomically arrives at a barrier word. -/
  | barArrive (d : BitVec 5) (a : BitVec 5) (p : BitVec 3)
  /-- BAR_WAIT (R383). Sleeps until a barrier word's GEN differs from the expected value. -/
  | barWait (a : BitVec 5) (b : BitVec 5) (p : BitVec 3)
  /-- KLAUNCH (R386). Reads and checks a launch record and posts it to a queue. -/
  | klaunch (d : BitVec 5) (a : BitVec 5) (b : BitVec 5)
  /-- KID (R388). Reads a gang identity value selected by sel. -/
  | kid (d : BitVec 5) (a : BitVec 5) (s : BitVec 3)
  /-- KYIELD (R389). Makes the hart's gang eligible as a pre-emption victim. -/
  | kyield
  /-- KDONE (R375). Releases streams, drains accesses and ends the hart. -/
  | kdone
  /-- HLOOP (R226). Starts a hardware loop level. -/
  | hloop (l : BitVec 2) (a : BitVec 5)
  /-- HEND (R226). Closes a hardware loop level, branching back while counting. -/
  | hend (l : BitVec 2)
  /-- HEND_C (R226). Closes perfectly nested loop levels in one word. -/
  | hendC (l : BitVec 2)
  /-- HGET (R226). Reads START, INIT or COUNT of a loop level. -/
  | hget (d : BitVec 5) (l : BitVec 2) (f : BitVec 3)
  /-- HSET (R226). Writes START, INIT or COUNT of a loop level. -/
  | hset (l : BitVec 2) (a : BitVec 5) (f : BitVec 3)
  /-- CAP_LAND_OFF (R404). Withdraws the landing and releases an unused pool. -/
  | capLandOff (d : BitVec 5)
  /-- CAP_LAND_SEND (R404). Declares the hart a capsule sender with a pool. -/
  | capLandSend (d : BitVec 5) (a : BitVec 5)
  /-- CAP_LAND_LAND (R404). Declares the hart a landing with ring, buffer and table. -/
  | capLandLand (d : BitVec 5) (a : BitVec 5)
  /-- CAP_SEND (R405). Copies an image into a pool slot and routes the new capsule. -/
  | capSend (d : BitVec 5) (a : BitVec 5) (p : BitVec 3)
  /-- CAP_RECV (R405). Waits for a capsule, copies it to the buffer and returns its dispatch address. -/
  | capRecv (d : BitVec 5) (p : BitVec 3)
  /-- CAP_FWD (R406). Forwards the held capsule to its next step. -/
  | capFwd (p : BitVec 3)
  /-- CAP_FWD_STAY (R406). Re-routes the held capsule to its current step. -/
  | capFwdStay (p : BitVec 3)
  /-- CAP_FWD_END (R406). Ends the held capsule and frees its slot. -/
  | capFwdEnd (p : BitVec 3)
  /-- CAP_INS (R407). Inserts a step into the held capsule's itinerary. -/
  | capIns (d : BitVec 5) (a : BitVec 5) (b : BitVec 5)
  /-- CAP_DEL (R407). Deletes a step from the held capsule's itinerary. -/
  | capDel (d : BitVec 5) (a : BitVec 5)
  /-- CAP_SWAP (R407). Replaces a step of the held capsule's itinerary. -/
  | capSwap (d : BitVec 5) (a : BitVec 5) (b : BitVec 5)
  /-- CAP_PARK (R408). Parks the held capsule for re-service of the same step. -/
  | capPark
  /-- CAP_PARK_FLT (R408). Marks the held capsule faulted and writes a fault record. -/
  | capParkFlt (a : BitVec 5)
  /-- CAP_PARK_REL (R408). Moves oldest faulted capsules back to the parked list. -/
  | capParkRel (d : BitVec 5) (a : BitVec 5)
  /-- VSETVL (R234). Sets VL, SEW, scope and element ordering. -/
  | vsetvl (d : BitVec 5) (a : BitVec 5) (b : BitVec 5) (e : BitVec 1) (w : BitVec 2) (p : BitVec 3)
  /-- LPART (R231). Requests clusters, clearing vector state when ownership changes. -/
  | lpart (d : BitVec 5) (a : BitVec 5)
  /-- TSHAPE (R289). Grants a matrix step shape M, N, K. -/
  | tshape (d : BitVec 5) (a : BitVec 5)
  /-- MMODE_ON (R284). Enters matrix mode. -/
  | mmodeOn
  /-- MMODE_OFF (R284). Leaves matrix mode for vector mode. -/
  | mmodeOff
  /-- FMODE_ON (R310). Enters fabric mode, turning named registers into element queues. -/
  | fmodeOn (d : BitVec 5) (a : BitVec 5) (b : BitVec 5)
  /-- FMODE_OFF (R310). Waits for quiescence, lays back queues and leaves fabric mode. -/
  | fmodeOff (d : BitVec 5) (a : BitVec 5)
  /-- MPAIR (R296). Pairs with a peer matrix hart and opens a crossing. -/
  | mpair (d : BitVec 5) (a : BitVec 5)
  /-- MPAIR_OFF (R296). Closes a matrix pairing. -/
  | mpairOff
  /-- NOP (R33). Hint of kind 0; no effect. -/
  | nop (x : BitVec 21)
  /-- PREFETCH_READ (R228). Hint to prefetch a line for reading. -/
  | prefetchRead (a : BitVec 5) (i : BitVec 16)
  /-- PREFETCH_OWN (R228). Hint to prefetch a line with ownership. -/
  | prefetchOwn (a : BitVec 5) (i : BitVec 16)
  /-- ISSUE_PAUSE_HINT (R228). Hint that the context forgoes issue for up to 64 cycles. -/
  | issuePauseHint (x : BitVec 21)
  /-- CONVOY (R46). Fetches, checks and executes a convoy group by group in slot order. -/
  | convoy (header : BitVec 32) (words : List (BitVec 64))
  /-- UNIT_MOV (R315). Fabric unit moves a token. -/
  | unitMov (u : UFields)
  /-- UNIT_ADD (R315). Fabric unit integer add. -/
  | unitAdd (u : UFields)
  /-- UNIT_SUB (R315). Fabric unit integer subtract. -/
  | unitSub (u : UFields)
  /-- UNIT_MUL (R315). Fabric unit integer multiply. -/
  | unitMul (u : UFields)
  /-- UNIT_MIN (R315). Fabric unit integer minimum. -/
  | unitMin (u : UFields)
  /-- UNIT_MAX (R315). Fabric unit integer maximum. -/
  | unitMax (u : UFields)
  /-- UNIT_AND (R315). Fabric unit AND. -/
  | unitAnd (u : UFields)
  /-- UNIT_OR (R315). Fabric unit OR. -/
  | unitOr (u : UFields)
  /-- UNIT_XOR (R315). Fabric unit XOR. -/
  | unitXor (u : UFields)
  /-- UNIT_SHL (R315). Fabric unit shift left. -/
  | unitShl (u : UFields)
  /-- UNIT_SHR (R315). Fabric unit shift right. -/
  | unitShr (u : UFields)
  /-- UNIT_SEQ (R315). Fabric unit equality test. -/
  | unitSeq (u : UFields)
  /-- UNIT_SLT (R315). Fabric unit less-than test. -/
  | unitSlt (u : UFields)
  /-- UNIT_SLE (R315). Fabric unit less-or-equal test. -/
  | unitSle (u : UFields)
  /-- UNIT_FADD (R315). Fabric unit floating add. -/
  | unitFadd (u : UFields)
  /-- UNIT_FSUB (R315). Fabric unit floating subtract. -/
  | unitFsub (u : UFields)
  /-- UNIT_FMUL (R315). Fabric unit floating multiply. -/
  | unitFmul (u : UFields)
  /-- UNIT_FMAC (R315). Fabric unit fused multiply-accumulate into a k register. -/
  | unitFmac (u : UFields)
  /-- UNIT_FMIN (R315). Fabric unit floating minimum. -/
  | unitFmin (u : UFields)
  /-- UNIT_FMAX (R315). Fabric unit floating maximum. -/
  | unitFmax (u : UFields)
  /-- UNIT_BAMAX (R316). Emits an e8m0 block scale on each 32nd firing. -/
  | unitBamax (u : UFields)
  /-- UNIT_QCVT (R316). Quantises an element under the block scale. -/
  | unitQcvt (u : UFields)
  /-- ILLEGAL_INSTRUCTION (R52). A scalar word of major 0x00, 0x16 to 0x3C or 0x3F, or with an unassigned function or non-zero reserved field, takes the illegal-instruction trap. -/
  | illegalInstruction (word : BitVec 32)
  /-- HINT (R33). A word of major 0x3D with hint kind 4 to 31 executes as a no-op. -/
  | hint (kind : BitVec 5) (x : BitVec 21)
  /-- VADD (R246). Element-wise integer add. -/
  | vadd (w : VFields)
  /-- VSUB (R246). Element-wise integer subtract. -/
  | vsub (w : VFields)
  /-- VRSUB (R246). Element-wise reverse subtract. -/
  | vrsub (w : VFields)
  /-- VMIN (R246). Element-wise integer minimum. -/
  | vmin (w : VFields)
  /-- VMAX (R246). Element-wise integer maximum. -/
  | vmax (w : VFields)
  /-- VMUL (R246). Element-wise low product. -/
  | vmul (w : VFields)
  /-- VMULH (R246). Element-wise high product. -/
  | vmulh (w : VFields)
  /-- VMACC (R246). Element-wise multiply-accumulate into vd. -/
  | vmacc (w : VFields)
  /-- VSADD (R246). Saturating add, setting SAT. -/
  | vsadd (w : VFields)
  /-- VSSUB (R246). Saturating subtract, setting SAT. -/
  | vssub (w : VFields)
  /-- VABSD (R246). Absolute difference. -/
  | vabsd (w : VFields)
  /-- VDIV (R246). Element-wise division without trapping. -/
  | vdiv (w : VFields)
  /-- VREM (R246). Element-wise remainder. -/
  | vrem (w : VFields)
  /-- VAND (R247). Element-wise AND. -/
  | vand (w : VFields)
  /-- VOR (R247). Element-wise OR. -/
  | vor (w : VFields)
  /-- VXOR (R247). Element-wise XOR. -/
  | vxor (w : VFields)
  /-- VANDN (R247). Element-wise AND NOT. -/
  | vandn (w : VFields)
  /-- VSLL (R247). Element-wise shift left. -/
  | vsll (w : VFields)
  /-- VSRL (R247). Element-wise logical shift right. -/
  | vsrl (w : VFields)
  /-- VSRA (R247). Element-wise arithmetic shift right. -/
  | vsra (w : VFields)
  /-- VMV (R247). Moves or broadcasts a value into elements. -/
  | vmv (w : VFields)
  /-- VNOT (R247). Element-wise NOT. -/
  | vnot (w : VFields)
  /-- VMSEQ (R248). Writes a mask of equal elements. -/
  | vmseq (w : VFields)
  /-- VMSNE (R248). Writes a mask of unequal elements. -/
  | vmsne (w : VFields)
  /-- VMSLT (R248). Writes a mask of less-than elements. -/
  | vmslt (w : VFields)
  /-- VMSLE (R248). Writes a mask of less-or-equal elements. -/
  | vmsle (w : VFields)
  /-- VMSGT (R248). Writes a mask of greater-than elements. -/
  | vmsgt (w : VFields)
  /-- VMSGE (R248). Writes a mask of greater-or-equal elements. -/
  | vmsge (w : VFields)
  /-- VMAND (R249). Mask AND. -/
  | vmand (w : VFields)
  /-- VMOR (R249). Mask OR. -/
  | vmor (w : VFields)
  /-- VMXOR (R249). Mask XOR. -/
  | vmxor (w : VFields)
  /-- VMANDN (R249). Mask AND NOT. -/
  | vmandn (w : VFields)
  /-- VMNOT (R249). Mask NOT. -/
  | vmnot (w : VFields)
  /-- VMSET (R249). Sets mask bits below VL. -/
  | vmset (w : VFields)
  /-- VMCLR (R249). Clears mask bits below VL. -/
  | vmclr (w : VFields)
  /-- VMTOV (R249). Expands mask bits into vector elements. -/
  | vmtov (w : VFields)
  /-- VVTOM (R249). Sets mask bits from non-zero elements. -/
  | vvtom (w : VFields)
  /-- VPOP (R249). Returns the count of set mask bits by reply. -/
  | vpop (w : VFields)
  /-- VFIRST (R249). Returns the index of the first set mask bit by reply. -/
  | vfirst (w : VFields)
  /-- VBQ_ANY (R240). Pushes 1 to the branch queue if any mask bit is set. -/
  | vbqAny (w : VFields)
  /-- VBQ_NONE (R240). Pushes 1 to the branch queue if no mask bit is set. -/
  | vbqNone (w : VFields)
  /-- VFADD (R250). Element-wise floating add. -/
  | vfadd (w : VFields)
  /-- VFSUB (R250). Element-wise floating subtract. -/
  | vfsub (w : VFields)
  /-- VFMUL (R250). Element-wise floating multiply. -/
  | vfmul (w : VFields)
  /-- VFDIV (R250). Element-wise floating divide. -/
  | vfdiv (w : VFields)
  /-- VFSQRT (R250). Element-wise square root. -/
  | vfsqrt (w : VFields)
  /-- VFMIN (R250). Element-wise floating minimum. -/
  | vfmin (w : VFields)
  /-- VFMAX (R250). Element-wise floating maximum. -/
  | vfmax (w : VFields)
  /-- VFSGNJ (R250). Element-wise sign injection. -/
  | vfsgnj (w : VFields)
  /-- VFSGNJN (R250). Element-wise negated sign injection. -/
  | vfsgnjn (w : VFields)
  /-- VFSGNJX (R250). Element-wise XOR sign injection. -/
  | vfsgnjx (w : VFields)
  /-- VFCLASS (R250). Element-wise float class. -/
  | vfclass (w : VFields)
  /-- VFMADD (R251). Element-wise fused a*b+c. -/
  | vfmadd (w : VFields)
  /-- VFMSUB (R251). Element-wise fused a*b-c. -/
  | vfmsub (w : VFields)
  /-- VFNMADD (R251). Element-wise fused -(a*b)-c. -/
  | vfnmadd (w : VFields)
  /-- VFNMSUB (R251). Element-wise fused -(a*b)+c. -/
  | vfnmsub (w : VFields)
  /-- VCVT (R253). Element-wise format conversion. -/
  | vcvt (w : VFields)
  /-- VCVT_MX (R254). Quantises blocks into an MX format with scales. -/
  | vcvtMx (w : VFields)
  /-- VCVT_DEMX (R255). Converts MX blocks out to a float format. -/
  | vcvtDemx (w : VFields)
  /-- VSLIDEUP (R256). Slides elements up by n. -/
  | vslideup (w : VFields)
  /-- VSLIDEDOWN (R256). Slides elements down by n. -/
  | vslidedown (w : VFields)
  /-- VPERM (R256). Permutes elements by an index vector. -/
  | vperm (w : VFields)
  /-- VBCAST (R256). Broadcasts element n. -/
  | vbcast (w : VFields)
  /-- VSEL (R256). Selects elements under a mask. -/
  | vsel (w : VFields)
  /-- VID (R256). Writes element indices. -/
  | vid (w : VFields)
  /-- VCOMPRESS (R273). Packs selected elements to the front. -/
  | vcompress (w : VFields)
  /-- VEXPAND (R273). Spreads packed elements to selected positions. -/
  | vexpand (w : VFields)
  /-- VREDSUM (R258). Ordered or unordered, optionally segmented, sum reduction. -/
  | vredsum (w : VFields)
  /-- VREDMIN (R258). Minimum reduction. -/
  | vredmin (w : VFields)
  /-- VREDMAX (R258). Maximum reduction. -/
  | vredmax (w : VFields)
  /-- VREDAND (R258). AND reduction. -/
  | vredand (w : VFields)
  /-- VREDOR (R258). OR reduction. -/
  | vredor (w : VFields)
  /-- VREDXOR (R258). XOR reduction. -/
  | vredxor (w : VFields)
  /-- VSCANSUM (R258). Sum scan. -/
  | vscansum (w : VFields)
  /-- VSCANMIN (R258). Minimum scan. -/
  | vscanmin (w : VFields)
  /-- VSCANMAX (R258). Maximum scan. -/
  | vscanmax (w : VFields)
  /-- VEXT (R259). Extracts one element to a scalar register by reply. -/
  | vext (w : VFields)
  /-- VINS (R259). Inserts a scalar into one element. -/
  | vins (w : VFields)
  /-- VXSEND (R260). Sends element groups into a crossing port. -/
  | vxsend (w : VFields)
  /-- VXRECV (R260). Takes element groups from a crossing port. -/
  | vxrecv (w : VFields)
  /-- VLD_STRM (R269). Loads elements from a read stream, trimming VL to those available. -/
  | vldStrm (w : VFields)
  /-- VST_STRM (R269). Produces elements into a write stream. -/
  | vstStrm (w : VFields)
  /-- VLD (R266). Unit-stride vector load. -/
  | vld (w : VFields)
  /-- VLDS (R266). Strided vector load. -/
  | vlds (w : VFields)
  /-- VLDFF (R267). Fault-only-first unit-stride load. -/
  | vldff (w : VFields)
  /-- VLDR (R268). Loads a register image by lane words. -/
  | vldr (w : VFields)
  /-- VLDM (R268). Loads a whole mask image. -/
  | vldm (w : VFields)
  /-- VST (R266). Unit-stride vector store. -/
  | vst (w : VFields)
  /-- VSTS (R266). Strided vector store. -/
  | vsts (w : VFields)
  /-- VSTR (R268). Stores a register image by lane words. -/
  | vstr (w : VFields)
  /-- VSTM (R268). Stores a whole mask image. -/
  | vstm (w : VFields)
  /-- VGATHER (R271). Gathers elements by index. -/
  | vgather (w : VFields)
  /-- VSCATTER (R271). Scatters elements by index. -/
  | vscatter (w : VFields)
  /-- VSETLF (R275). Packs fibres into a strip and sets the segment-start mask and next VL. -/
  | vsetlf (w : VFields)
  /-- VXINT (R276). Intersects two coordinate fibres. -/
  | vxint (w : VFields)
  /-- VXUNI (R276). Forms the union of two fibres. -/
  | vxuni (w : VFields)
  /-- VXMRG (R276). Merges two fibres keeping duplicates. -/
  | vxmrg (w : VFields)
  /-- ACCWIN_SUM (R279). Declares a sum accumulation window. -/
  | accwinSum (w : VFields)
  /-- ACCWIN_MIN (R279). Declares a minimum accumulation window. -/
  | accwinMin (w : VFields)
  /-- ACCWIN_MAX (R279). Declares a maximum accumulation window. -/
  | accwinMax (w : VFields)
  /-- VACC (R279). Accumulates elements into lane-private window copies. -/
  | vacc (w : VFields)
  /-- ACCMERGE (R280). Merges window copies into memory slot by slot in lane order. -/
  | accmerge (w : VFields)
  /-- VAMOSWAP (R281). Vector atomic swap per element. -/
  | vamoswap (w : VFields)
  /-- VAMOADD (R281). Vector atomic add per element. -/
  | vamoadd (w : VFields)
  /-- VAMOAND (R281). Vector atomic AND per element. -/
  | vamoand (w : VFields)
  /-- VAMOOR (R281). Vector atomic OR per element. -/
  | vamoor (w : VFields)
  /-- VAMOXOR (R281). Vector atomic XOR per element. -/
  | vamoxor (w : VFields)
  /-- VAMOMIN (R281). Vector atomic minimum per element. -/
  | vamomin (w : VFields)
  /-- VAMOMAX (R281). Vector atomic maximum per element. -/
  | vamomax (w : VFields)
  /-- MMA (R295). Floating or MX matrix multiply-accumulate from operand rings. -/
  | mma (w : VFields)
  /-- MMA_INT (R295). INT8 or INT4 matrix multiply-accumulate into i32. -/
  | mmaInt (w : VFields)
  /-- MTERN (R295). Ternary-weight matrix accumulate on the sign-select array. -/
  | mtern (w : VFields)
  /-- MSOUND (R304). Scores neurons with a ternary sketch and writes the sounding record. -/
  | msound (w : VFields)
  /-- MCHECK (R306). Computes error bounds and writes the replay list. -/
  | mcheck (w : VFields)
  /-- MZERO (R298). Zeroes the accumulator region. -/
  | mzero (w : VFields)
  /-- MST (R299). Stores scaled accumulators to memory. -/
  | mst (w : VFields)
  /-- MXCHG (R300). Swaps or adds accumulator regions between paired harts. -/
  | mxchg (w : VFields)
  /-- FLOAD (R328). Reads and checks a page set and stages it. -/
  | fload (w : VFields)
  /-- FGO (R329). Waits for quiescence and activates the staged page set. -/
  | fgo (w : VFields)
  /-- FGO_RESUME (R329). Restarts a faulted fabric region at its faulting operation. -/
  | fgoResume (w : VFields)
  /-- FDRAIN (R330). Waits for region quiescence and folds region flags into FSTAT. -/
  | fdrain (w : VFields)
  /-- FSTAT (R331). Returns the fabric region status by reply. -/
  | fstat (w : VFields)
  /-- FREL (R332). Discards the active and staged page sets. -/
  | frel (w : VFields)
  /-- VWAIT (R384). Waits on many flags until met or time-out, writing unmet mask. -/
  | vwait (w : VFields)
  /-- STEER_FIRE (R317). Router steer operator routes a token by a decider. -/
  | steerFire (page slot : Nat)
  /-- CARRY_FIRE (R317). Router carry operator fires as a loop head. -/
  | carryFire (page slot : Nat)
  /-- INVARIANT_FIRE (R317). Router invariant operator repeats a held value. -/
  | invariantFire (page slot : Nat)
  /-- MERGE_FIRE (R317). Router merge operator picks a or b by a decider. -/
  | mergeFire (page slot : Nat)
  /-- FABRIC_LOAD (R320). Fabric memory interface performs the next load of the chain. -/
  | fabricLoad
  /-- FABRIC_STORE (R320). Fabric memory interface performs the next store of the chain. -/
  | fabricStore
  /-- CONTROL_TOKEN_ARRIVAL (R325). A control token reaches a fabric region and is taken, held or discarded by TAG. -/
  | controlTokenArrival (k : Nat)
  /-- PAGE_MOVE (R326). The page allocator freezes and moves a quiescent page. -/
  | pageMove (page cluster : Nat)
  /-- TOKEN_DELIVERY (R377). A sent token is delivered into a hart's channel count. -/
  | tokenDelivery (k : Nat)
  /-- GANG_TERMINATION (R378). With FC zero and all harts waiting, every waiting tok.wait returns 0. -/
  | gangTermination (g : Nat)
  /-- INTERRUPT_ENTRY (R423). An eligible pending interrupt is taken at a boundary. -/
  | interruptEntry
  /-- TIMER_EXPIRY (R218). TIMER steps from 1 to 0 and makes the timer interrupt pending. -/
  | timerExpiry (h : HartId)
  /-- WAIT_RESUME (R196). A waiting hart's condition becomes true and its instruction proceeds. -/
  | waitResume (h : HartId)
  /-- BAR_WAIT_RECHECK (R383). A sleeping bar.wait re-reads its word after a write, invalidation or 65,536 cycles. -/
  | barWaitRecheck (h : HartId)
  /-- VWAIT_TIMEOUT (R384). The vwait time-out expires and the convoy retires with unmet bits. -/
  | vwaitTimeout (h : HartId)
  /-- MPAIR_TIMEOUT (R296). No matching mpair arrives within 1,048,576 cycles; code 3. -/
  | mpairTimeout (h : HartId)
  /-- EXTENT_REGISTER (R124). A stream engine registers the next extent at the home landing dies. -/
  | extentRegister (h : HartId) (sn : BitVec 4)
  /-- STRIP_FETCH (R173). A read stream requests the next strip when its buffer has room. -/
  | stripFetch (h : HartId) (sn : BitVec 4)
  /-- STRIP_ARRIVAL (R173). A strip arrives at the tile and raises AVAIL. -/
  | stripArrival (h : HartId) (sn : BitVec 4)
  /-- WRITE_STRIP_ACCEPT (R128). The home accepts written-back elements and advances POS. -/
  | writeStripAccept (h : HartId) (sn : BitVec 4)
  /-- STREAM_FAULT (R185). A stream engine meets a fault, stops at element f and records it. -/
  | streamFault (h : HartId) (sn : BitVec 4)
  /-- FAULT_RECORD_WRITE (R434). A waiting fault record is written when the queue has room, advancing TAIL. -/
  | faultRecordWrite (h : HartId)
  /-- RELEASE_COMPLETE (R184). A stream's release completes, freeing its context and incrementing its counter. -/
  | releaseComplete (h : HartId) (k : Nat)
  /-- COPY_COMPLETE (R181). The copy engine produces the last element and releases both streams. -/
  | copyComplete (h : HartId) (sn : BitVec 4)
  /-- REPLAY_WAKE (R134). A wake-up tag fires and parked requests re-enter in parking order. -/
  | replayWake (die : Fin 8) (entry : Nat)
  /-- HOST_SNOOP (R133). A host-originated request or snoop is served in the external-coherence class. -/
  | hostSnoop (req : MemReq)
  /-- PEER_MEM_REQUEST (R133). A Causeway CXL.mem request reaches a home and meets reservations. -/
  | peerMemRequest (module : Nat) (who : Option PeerAgent) (req : MemReq)
  /-- PEER_CONFLICT_COMPLETION (R138). A conflict completion status makes the peer hart take a precise trap. -/
  | peerConflictCompletion (h : HartId) (va : BitVec 64)
  /-- RSVREQ (R136). Request to register an extent at a peer's landing dies. -/
  | rsvreq (msg : RsvMsg)
  /-- RSVACK (R136). A peer grants an extent registration. -/
  | rsvack (seq : BitVec 16)
  /-- RSVNAK (R136). A peer refuses an extent registration; the extent runs in line mode. -/
  | rsvnak (seq : BitVec 16)
  /-- RSVREQ_TIMEOUT (R137). No answer to RSVREQ within 16 µs; the extent runs in line mode. -/
  | rsvreqTimeout (seq : BitVec 16)
  /-- RSVCUT (R136). A peer reports a split of the extent at a POS. -/
  | rsvcut (seq : BitVec 16) (pos : Nat)
  /-- RSVSTATE (R136). The owner tells a peer of an entry state change. -/
  | rsvstate (module : Nat) (seq : BitVec 16) (st : BitVec 2)
  /-- RSVREL (R136). The owner asks a peer to free an extent. -/
  | rsvrel (module : Nat) (seq : BitVec 16)
  /-- RSVDONE (R136). A peer reports release complete with all data accepted. -/
  | rsvdone (seq : BitVec 16)
  /-- PORT_DOWN (R450). A Causeway port is reported down; peer entries are freed and extents fault. -/
  | portDown (port : Fin 16) (lost : List Nat)
  /-- CIRCUIT_OPEN (R146). The route allocator completes opening a circuit or falls back to packet tracks. -/
  | circuitOpen (h : HartId) (sn : BitVec 4) (granted : Bool)
  /-- CROSSING_GROUP_ARRIVAL (R152). A sent group arrives at the receiving router, converted on a typed link. -/
  | crossingGroupArrival (h : HartId) (port : BitVec 2)
  /-- CAPSULE_ARRIVAL (R399). A capsule reaches a landing and enters the ring or the parked list. -/
  | capsuleArrival (k : Nat)
  /-- PARKED_CAPSULE_ENTER (R399). The head of the parked list moves into the ring when it has room. -/
  | parkedCapsuleEnter (h : HartId)
  /-- PLACE_GANG (R370). The die scheduler places the chosen gang whole and initialises its harts. -/
  | placeGang (die : Fin 4) (places : List Place)
  /-- AGING_STEP (R368). A ready head record's priority rises by 1 after AGE cycles. -/
  | agingStep (die : Fin 4) (q : BitVec 5)
  /-- PREEMPTION (R373). A long-waiting candidate pre-empts a victim set, which is saved. -/
  | preemption (die : Fin 4)
  /-- RESUME_GANG (R374). A resume entry is placed and its harts restored from their images. -/
  | resumeGang (die : Fin 4) (places : List Place)
  /-- HOST_SUBMISSION (R457). A command processor validates a host submission entry, posts it and writes a completion. -/
  | hostSubmission (pair : BitVec 6)
  /-- SQDB (R458). Host writes a new submission tail for a queue pair. -/
  | sqdb (pair : BitVec 6) (v : BitVec 64)
  /-- CQDB (R458). Host writes a new completion head for a queue pair. -/
  | cqdb (pair : BitVec 6) (v : BitVec 64)
  /-- QCFG_ENABLE (R458). Setting or clearing ENABLE starts or stops a host queue pair. -/
  | qcfgEnable (pair : BitVec 6) (v : BitVec 64)
  /-- EQCFG_ENABLE (R458). Setting or clearing ENABLE starts or stops a host event queue. -/
  | eqcfgEnable (e : BitVec 6) (v : BitVec 64)
  /-- DEVICE_EVENT (R445). A device event is routed to a hart interrupt and/or a host event queue. -/
  | deviceEvent (src : Nat) (detail : List (BitVec 8))
  /-- EVENT_ACK (R445). Writing ACK acknowledges a routed event. -/
  | eventAck (src : Nat)
  /-- ATS_TRANSLATION_COMPLETION (R431). A Translation Completion arrives for a waiting host-window access. -/
  | atsTranslationCompletion (asid : BitVec 16) (page : Nat) (granted : Option Nat)
  /-- PRI_RESPONSE (R431). A page-request group response lets the access retry or fault. -/
  | priResponse (asid : BitVec 16) (page : Nat) (ok : Bool)
  /-- PRI_TIMEOUT (R431). No page-request response in 256 ms gives an access fault. -/
  | priTimeout (asid : BitVec 16) (page : Nat)
  /-- ATS_INVALIDATE (R431). A host Invalidate Request drops entries and completes. -/
  | atsInvalidate (asid : BitVec 16) (page count : Nat)
  /-- SCRUB (R111). A channel controller scrubs every line of its stack each 24 hours. -/
  | scrub (die : Fin 8) (bad : List Nat)
  /-- SLCFG_WRITE (R140). A write to WINUNITS moves L2 units between tagged ways and windows. -/
  | slcfgWrite (die : Fin 4) (slice : BitVec 3) (v : BitVec 64)
  /-- WINDOW_UNIT_RECLAIM (R140). A pending unit completes its role change once drained or freed. -/
  | windowUnitReclaim (die : Fin 4) (slice : BitVec 3) (unit : BitVec 5)
  /-- HALTREQ (R440). Writing HALTREQ requests a debug halt of a hart. -/
  | haltreq (h : HartId)
  /-- HALT_ACK (R440). The hart reaches a boundary, drains or freezes, and the halt is acknowledged. -/
  | haltAck (h : HartId)
  /-- RESUMEREQ (R442). Writing RESUMEREQ resumes a halted hart at DBGPC, or single-steps. -/
  | resumereq (h : HartId)
  /-- DBGCMD_READ (R442). Debug command 1 reads a register into DBGDATA. -/
  | dbgcmdRead (h : HartId) (regno : BitVec 16)
  /-- DBGCMD_WRITE (R442). Debug command 2 writes DBGDATA into a register. -/
  | dbgcmdWrite (h : HartId) (regno : BitVec 16)
  /-- DBGCMD_SAVE_IMAGE (R442). Debug command 3 writes the halted hart's image to memory. -/
  | dbgcmdSaveImage (h : HartId)
  /-- DBGCMD_RESTORE_IMAGE (R442). Debug command 4 restores the hart's image from memory. -/
  | dbgcmdRestoreImage (h : HartId)
  /-- POWER_ON (R452). Power-on or full reset puts the module at service level 0 with only the ford. -/
  | powerOn
  /-- BEGIN (R453). Mailbox command clearing the inactive slot for a new image. -/
  | mbBegin (arg : BitVec 32)
  /-- CHUNK (R453). Mailbox command copying data window bytes into the image. -/
  | mbChunk (arg : BitVec 32)
  /-- VERIFY (R455). Mailbox command verifying the image header, SVN, digest and signature. -/
  | mbVerify (arg : BitVec 32)
  /-- BOOT (R456). Mailbox command booting the verified slot, or starting a handover at level 2. -/
  | mbBoot (arg : BitVec 32)
  /-- ABORT (R453). Mailbox command discarding an unverified image. -/
  | mbAbort (arg : BitVec 32)
  /-- LOG (R453). Mailbox command copying unread event records to the window. -/
  | mbLog (arg : BitVec 32)
  /-- KEYLOAD (R454). Mailbox command installing a wrapped key in a slot. -/
  | keyload (arg : BitVec 32)
  /-- KEYGEN (R454). Mailbox command filling a slot with an on-module generated key. -/
  | keygen (arg : BitVec 32)
  /-- KEYCLEAR (R454). Mailbox command setting a slot INVALID or BYPASS. -/
  | keyclear (arg : BitVec 32)
  /-- ATTEST (R454). Mailbox command returning a signed attestation record. -/
  | attest (arg : BitVec 32)
  /-- TRAINING_COMPLETE (R456). Firmware training of dies, stacks and ports ends, reaching level 2 or failing. -/
  | trainingComplete (ok : Bool) (part : BitVec 16)
  /-- HANDOVER_READY (R460). The new image sets READY, SLOT flips and PEND clears. -/
  | handoverReady
  /-- HANDOVER_TIMEOUT (R460). READY not set within 100 ms; cores restart from the old slot. -/
  | handoverTimeout
  /-- WSKICK (R457). Any write restarts the Watershed core's own watchdog. -/
  | wskick (core : Fin 4)
  /-- WATCHDOG_NOTICE (R462). Watchdog step 1 sets IPWD on the hart. -/
  | watchdogNotice (h : HartId)
  /-- WATCHDOG_SAVE (R462). Watchdog step 2 pre-empts and saves, or ends, the gang. -/
  | watchdogSave (h : HartId)
  /-- TILE_QUARANTINE (R462). Watchdog step 3 stops placement on the tile. -/
  | tileQuarantine (t : Fin 224)
  /-- ISLAND_RESET (R462). Watchdog step 4 resets the tile's island. -/
  | islandReset (t : Fin 224)
  /-- DIE_RESET (R462). Watchdog step 5 resets the die, discarding its gangs and queues. -/
  | dieReset (die : Fin 4)
  /-- RESET_REQUEST (R462). Watchdog step 6 sends a reset-request event to the host. -/
  | resetRequest (die : Fin 4)
  /-- TELEMETRY_SAMPLE (R463). Each millisecond island sensors are sampled and crossings logged. -/
  | telemetrySample (samples : List Sample)
  /-- LOAD_OBJECT (R71). The loader checks and places an ALF object, resolving relocations. -/
  | loadObject (job : LoadJob)
  /-- REGISTER_WRITE (R451). A write to a device register without behaviour of its own. -/
  | registerWrite (off : Nat) (v : BitVec 64)
  /-- VWAIT_RECHECK (R384). A sleeping vwait re-reads its flags after a watched line is written or invalidated, or 65,536 cycles pass. -/
  | vwaitRecheck (h : HartId)
  /-- WATERSHED_WATCHDOG_EXPIRY (R457). A Watershed core's own 100 ms watchdog runs out without a write to WSKICK. -/
  | watershedWatchdogExpiry (core : Fin 4)
  /-- TILE_RETURN (R462). Firmware returns a quarantined tile so that the scheduler may place on it again. -/
  | tileReturn (t : Fin 224)
  deriving DecidableEq, Repr

/-- The vector forms: one for each vector row of the opcode table (R35, R38). -/
inductive VOp where
  | vadd | vsub | vrsub | vmin | vmax | vmul | vmulh | vmacc | vsadd | vssub | vabsd | vdiv
  | vrem | vand | vor | vxor | vandn | vsll | vsrl | vsra | vmv | vnot | vmseq | vmsne | vmslt
  | vmsle | vmsgt | vmsge | vfadd | vfsub | vfmul | vfdiv | vfsqrt | vfmin | vfmax | vfsgnj
  | vfsgnjn | vfsgnjx | vfclass | vfmadd | vfmsub | vfnmadd | vfnmsub | vcvt | vcvtMx | vcvtDemx
  | vslideup | vslidedown | vperm | vbcast | vsel | vid | vcompress | vexpand | vredsum | vredmin
  | vredmax | vredand | vredor | vredxor | vscansum | vscanmin | vscanmax | vmand | vmor | vmxor
  | vmandn | vmnot | vmset | vmclr | vmtov | vvtom | vpop | vfirst | vbqAny | vbqNone | vld
  | vlds | vldff | vldr | vldm | vst | vsts | vstr | vstm | vgather | vscatter | vsetlf | vxint
  | vxuni | vxmrg | accwinSum | accwinMin | accwinMax | vacc | accmerge | vamoswap | vamoadd
  | vamoand | vamoor | vamoxor | vamomin | vamomax | vext | vins | vxsend | vxrecv | vldStrm
  | vstStrm | mma | mmaInt | mtern | msound | mcheck | mzero | mst | mxchg | fload | fgo | fdrain
  | fstat | frel | vwait | fgoResume
  deriving DecidableEq, Repr

/-- The operations of a fabric unit (R315). -/
inductive UOp where
  | mov | add | sub | mul | min | max | and | or | xor | shl | shr | seq | slt | sle | fadd
  | fsub | fmul | fmac | fmin | fmax | bamax | qcvt
  deriving DecidableEq, Repr

end Sys2Proof
end

