-- ==== Sys2Proof/Machine/State.lean ====
section
/-!
DEFINITION. The state of the module as plain data: the hart contexts, the tiles, the dies, the landing
dies, gangs, memory, the host side and the management side; and the state right after power-on (R452).
INVENTORY.md, State, names for each field the rule that gives it and its reset value.
-/

namespace Sys2Proof.Machine

/-! ### Hart contexts -/

/-- The four states of a context (R196). -/
inductive Run where
  | idle | running | waiting | halted
  deriving DecidableEq, Repr

/-- What a waiting hart waits in, for the rules that ask (R157, R296, R300, R378, R383, R384, R401, R443). Of an access to a
peer, `slot` names the slot and the element of a convoy, and `trim` the VL at which a `vldff` ends there (R267). -/
inductive Wait where
  | none
  | other
  | wfi
  | tok (d : Reg)
  | cap (d : Reg)
  | bar (word : Nat)
  | vwait (limit : Word)
  | mpair (d : Reg) (arg : Word)
  | mxchg (add : Bool) (fmt : BitVec 5) (rm : BitVec 3)
  | counter
  | crossSend (port : Nat)
  | crossRecv (port : Nat)
  | ring (q : Nat) (paired : Bool)
  | stream (n : Nat)
  | fe (word : Nat) (full : Bool) (stamp : Nat) (va : Word)
  | parked (die entry line : Nat)
  | peer (va : Word) (slot : Option (Nat × Nat)) (trim : Option Nat)
  deriving DecidableEq, Repr

/-- The named CSRs that hold bits of their own (R54). -/
structure Csrs where
  fstat : Word
  vcfg : Word
  vstart : Word
  lpart : Word
  tshape : Word
  mstat : Word
  soundt : Word
  sounde : Word
  cycle : Word
  timer : Word
  sstat : Word
  tvec : Word
  tcause : Word
  tval : Word
  tepc : Word
  ptbase : Word
  asid : Word
  rasp : Word
  deriving DecidableEq, Repr

/-- One hardware loop level (R225). -/
structure Loop where
  start : Word
  init : Word
  count : Word
  deriving DecidableEq, Repr

/-- One ring (R163). -/
structure Ring where
  on : Bool
  base : Word
  size : Nat
  entries : Nat
  head : BitVec 32
  tail : BitVec 32
  deriving DecidableEq, Repr

/-- The operation of an accumulation window (R277). -/
inductive WinOp where
  | sum | min | max
  deriving DecidableEq, Repr

/-- One accumulation window (R277); `sup` is the level of its `accwin` (R429). -/
structure Window where
  on : Bool
  op : WinOp
  fmt : BitVec 5
  base : Word
  count : Nat
  priv : Word
  sup : Bool
  deriving DecidableEq, Repr

/-- A store that has retired and is not yet performed everywhere (R336, R339, R351): its hart and the side of the divide on
which it stands, `reach` (0, or one more than the scope at which it is performed), the cells from `pa` up that it
writes, with `none` for a byte it leaves alone, the key it writes under, its scope where it is a release (R342), and
whether a vector load of its hart has returned it (R340). -/
structure Delayed where
  hart : HartId
  scalar : Bool
  reach : Nat
  pa : Nat
  bytes : List (Option Byte)
  key : Nat
  rel : Option Nat
  observed : Bool
  deriving DecidableEq, Repr

/-- A load that is performed before its instruction retires (R339, R353): its hart and side, and what it read. `past` names,
by register and serial number, the hart's own streams that have written there since (R346). -/
structure Early where
  hart : HartId
  scalar : Bool
  cell : Nat
  key : Nat
  bytes : List Byte
  past : List (Nat × Nat)
  deriving DecidableEq, Repr

/-- Who writes (R334): a hart, a peer, or the host. -/
inductive Agent where
  | hart (h : HartId)
  | peer
  | host
  deriving DecidableEq, Repr

/-- A release whose value stands in memory (R341): its agent, its scope, and its cells. -/
structure Rel where
  who : Agent
  scope : Nat
  cell : Nat
  size : Nat
  deriving DecidableEq, Repr

/-- A stream descriptor (R168). -/
structure Desc where
  base : Word
  stride : Word
  count : Nat
  ctrl : BitVec 32
  foldlen : Nat
  conv : BitVec 8
  deriving DecidableEq, Repr

/-- An extent that a stream has reached (R124, R125): the elements from `lo` up to but not with `hi` that lie in the page
of `size` bytes at virtual address `va`, whose frame and key are `page` and `key`, and whether it runs in line mode or
holds entries. `peer` is the sequence number of an extent at a peer (R136), and `lost` tells that its peer has gone down and
that its fault has not been met (R137). -/
structure Extent where
  lo : Nat
  hi : Nat
  page : Nat
  va : Nat
  size : Nat
  key : Nat
  line : Bool
  dies : List (Nat × Nat)
  peer : Option (BitVec 16)
  lost : Bool
  deriving DecidableEq, Repr

/-- The copy that a stream takes part in (R179, R180): the other stream, whether it has stopped, the
source elements not yet folded, and what names the copy wherever its streams are restored (R194). -/
structure CopyState where
  other : Nat
  stopped : Bool
  held : List Nat
  id : Nat
  deriving DecidableEq, Repr

/-- The stage of a released stream context (R184). -/
inductive Release where
  | no | read | write
  deriving DecidableEq, Repr

/-- One stream register and its context (R166 to R186). `buf` is the strip buffer: the elements that have arrived and are
not consumed (read), or those produced that have not left for the window (write); `win` is the window (R142);
`home` is the first element not yet home (write) or not yet delivered to the window (read); `part` holds the bytes of
scratchpad words of which more elements are to come (R157); `asking` is a circuit requested and not yet answered
(R146); `owed` names the extents at peers whose release has been sent (R136). `serial` tells the streams that one register
has held apart (R186, R189); `landed` are the cells of the elements of the strip at `home` that have been accepted under an
entry (R111). -/
structure Stream where
  num : Nat
  cfg : Bool
  desc : Desc
  sup : Bool
  stripBytes : Nat
  pos : Nat
  home : Nat
  buf : List Nat
  win : List Nat
  part : List Delayed
  status : Word
  stopAt : Option (Nat × Nat × Word)
  noMore : Bool
  extents : List Extent
  reached : Nat
  bank : Nat
  granules : List (Nat × Nat)
  circuit : Bool
  asking : Bool
  copy : Option CopyState
  release : Release
  owed : List (BitVec 16)
  saved : Bool
  lastPos : Nat
  lastAvail : Nat
  lastPc : Word
  lastSlot : Option Nat
  serial : Nat
  landed : List Nat
  deriving DecidableEq, Repr

/-- An item on a crossing (R150, R297, R300): a group of lane words, an A entry of a paired form, or an
exchange. -/
inductive Item where
  | group (words : List Word)
  | entryA (m k : Nat) (fmt : BitVec 5) (bytes : List Byte)
  deriving DecidableEq, Repr

/-- One crossing port of a hart (R149 to R151): the routing entry, the peer, the items in its receiving
buffer and the items on the way to it, and the bank of its buffer. `paired` marks a crossing of `mpair`; `circuit`
tells that what it sends has a circuit (R146, R147). -/
structure Port where
  isOpen : Bool
  entry : BitVec 32
  peer : HartId
  peerPort : Nat
  items : List Item
  flight : List Item
  bank : Nat
  paired : Bool
  circuit : Bool
  deriving DecidableEq, Repr

/-- A capsule (R395): its header fields, the words of its eight steps, its payload, and its gang and the rank
of its origin. `sent` is the release of the `cap.send` or `cap.fwd` that sent it last: its hart and scope (R405, R406). -/
structure Capsule where
  gang : Nat
  origin : Nat
  id : BitVec 32
  hops : Nat
  cur : Nat
  nsteps : Nat
  fmt : BitVec 8
  status : Nat
  fault : Nat
  slot : Nat
  user : Word
  steps : List (BitVec 32)
  payload : List Byte
  sent : HartId × Nat
  deriving DecidableEq, Repr

/-- The capsule side of a hart (R391 to R408). `frames` lists the physical frame and the key index of each
4 KiB of the pool, from its base's page up (R392); `held` is the capsule in the service buffer, with the
REWRITE flag of its operation; `sup` is the level of its `cap.land` (R429). -/
structure CapSide where
  send : Bool
  land : Bool
  sup : Bool
  hold : Bool
  bank : Nat
  poolBase : Word
  slots : Nat
  frames : List (Nat × Nat)
  inUse : List Nat
  buf : Word
  table : Word
  code : Word
  held : Option (Capsule × Bool)
  ring : List Capsule
  parked : List Capsule
  faulted : List Capsule
  deriving DecidableEq, Repr

/-- One memory operation of a page (R320). -/
structure MemOp where
  kind : Nat
  sz : BitVec 8
  seq : Nat
  pred : Nat
  succ : Nat
  hasPred : Bool
  deriving DecidableEq, Repr

/-- One link of a page (R318). -/
structure Link where
  src : BitVec 16
  dsts : List (BitVec 16)
  depth : Nat
  delay : Bool
  stype : BitVec 32
  dtype : BitVec 32
  deriving DecidableEq, Repr

/-- One unit of a page (R309, R322). -/
structure UnitProg where
  prog : List (BitVec 32)
  const : Word
  deriving DecidableEq, Repr

/-- One page of a set (R322). -/
structure Page where
  units : List UnitProg
  ops : List Nat
  mems : List MemOp
  links : List Link
  deriving DecidableEq, Repr

/-- A page set (R322, R323). -/
structure PageSet where
  pages : List Page
  qin : BitVec 32
  qout : BitVec 32
  tag : BitVec 16
  deriving DecidableEq, Repr

/-- The block state of a quantising operation (R316): the inputs seen of the block, and the held scale. -/
structure Block where
  vals : List Nat
  scale : Nat
  deriving DecidableEq, Repr

/-- How far the operation that a memory chain is at has gone (R320). -/
inductive MemStage where
  /-- It waits for its predicate token, or for its operands where it has no predicate. -/
  | start
  /-- Its predicate token was taken and was not 0. -/
  | admitted
  /-- Its operands were taken: it is issued and not yet performed. -/
  | issued (va data : Word)
  /-- It loaded a value that waits for room on the value link. -/
  | loaded (v : Word)
  deriving DecidableEq, Repr

/-- The state of an active set (R325, R326), by page and slot: the position of each unit, the block state
of each quantising instruction, the state of each operator, the tokens of each link destination, the tokens
delivered at control port 0 and not consumed (true for those that were sent, R378), and the position in the
memory chain. `rm` and `ftz` are those of FSTAT at the `fgo` (R314, R315). -/
structure ActiveSet where
  set : PageSet
  unitPos : List ((Nat × Nat) × Nat)
  blocks : List ((Nat × Nat × Nat) × Block)
  loops : List ((Nat × Nat) × Option Word)
  fifos : List (BitVec 16 × List Word)
  control : List Bool
  chain : Nat
  stage : MemStage
  rm : BitVec 3
  ftz : Bool
  sup : Bool
  startPc : Word
  clusters : List Nat
  deriving DecidableEq, Repr

/-- The fabric side of a hart (R310 to R332). -/
structure Fabric where
  qw : Nat
  inMask : BitVec 32
  outMask : BitVec 32
  queues : List (Nat × List Nat)
  staged : Option PageSet
  active : Option ActiveSet
  heldTokens : List (BitVec 16)
  flags : BitVec 7
  stale : Bool
  fault : Bool
  deriving DecidableEq, Repr

/-- One fault record (R432), in bytes. -/
abbrev Record := List Byte

/-- The fault queue of a hart (R433, R434). -/
structure FaultQ where
  base : Word
  ctl : Word
  waiting : List Record
  seq : Nat
  deriving DecidableEq, Repr

/-- The debug registers of a hart (R442) and the two requests it can hold. -/
structure Debug where
  ctl : Word
  stat : Word
  pc : Word
  cmd : Word
  data : Word
  haltReq : Bool
  stepping : Bool
  deriving DecidableEq, Repr

/-- A convoy that stands in the vector queue (R197, R238, R239): where it was, its words, the scalar operands that it read
as it was placed, the registers that its replies will write, and how many bits it will push. -/
structure Queued where
  pc : Word
  header : BitVec 32
  words : List (BitVec 64)
  x : Vector Word 32
  f : Vector Word 32
  xs : List Nat
  fs : List Nat
  pushes : Nat
  deriving DecidableEq, Repr

/-- One hart context. `vq` is the vector queue (R197), and `lag` the number of convoys that the plan lets stand in it (log 6).
`moved` is the value that a pending context-moved interrupt carries (R439); `relocs` lists the
clusters of LPART whose page has moved, each with the cluster that stands for it now (R326). `ctrRel` lists the releases that
have stepped each counter, and `tokRel` the senders of the tokens delivered to each channel, oldest first: channel or
counter, hart and scope (R341, R342, R381). -/
structure Hart where
  run : Run
  wait : Wait
  waited : Nat
  sup : Bool
  pc : Word
  x : Vector Word 32
  f : Vector Word 32
  v : Vector VReg 32
  m : Vector MReg 7
  csr : Csrs
  vdirty : Vector (BitVec 3) 32
  ras : List Word
  loops : Vector Loop 4
  ctr : Vector Word 16
  tok : Vector Nat 16
  branchQ : List Bool
  rings : Vector Ring 8
  wins : Vector Window 4
  streams : Vector Stream 16
  releasing : List Stream
  ports : Vector Port 4
  fabric : Fabric
  cap : CapSide
  gang : Option (Nat × Nat)
  banks : BitVec 64
  fq : FaultQ
  dbg : Debug
  watchdog : Nat
  ladder : Nat
  moved : Word
  relocs : List (Nat × Nat)
  delays : List Bool
  vq : List Queued
  lag : Nat
  cut : Option Nat
  ctrRel : List (Nat × HartId × Nat)
  tokRel : List (Nat × HartId × Nat)
  deriving DecidableEq, Repr

/-! ### Tiles, dies and landing dies -/

/-- A bank's role (R153). -/
inductive Role where
  | cache | spad | fifo
  deriving DecidableEq, Repr

/-- A bank: its role, whether a user has claimed it, and whether the claim converted it from a cache way
(R155). -/
structure Bank where
  role : Role
  claimed : Bool
  converted : Bool
  deriving DecidableEq, Repr

/-- A cached translation (R427, R428): its virtual page, ASID, page size in bytes, and leaf entry. -/
structure Tlb where
  asid : BitVec 16
  va : Nat
  size : Nat
  pte : Word
  deriving DecidableEq, Repr

/-- A line of an instruction cache (R16): its first cell, the key under which it was filled, and its bytes. -/
structure CodeLine where
  cell : Nat
  key : Nat
  bytes : List Byte
  deriving DecidableEq, Repr

/-- One tile. -/
structure Tile where
  banks : Vector Bank 64
  tlb : List Tlb
  icache : List CodeLine
  quarantined : Bool
  deriving DecidableEq, Repr

/-- A counter reference as bound (R363, R364): none, a context's counter, or the counter of a hart of a
gang, by rank. -/
inductive CtrRef where
  | none
  | ctx (h : HartId) (c : BitVec 4)
  | member (gang rank : Nat) (c : BitVec 4)
  deriving DecidableEq, Repr

/-- One level of a loop table (R360): spatial over tiles, spatial over dies, or temporal, with its trips. -/
structure Level where
  kind : Nat
  trips : Nat
  deriving DecidableEq, Repr

/-- One entry of a crossing table (R372). -/
structure Xing where
  rankA : Nat
  portA : Nat
  rankB : Nat
  portB : Nat
  entryA : BitVec 32
  entryB : BitVec 32
  deriving DecidableEq, Repr

/-- A ring of the object's ring section (R163): ring, base, entry size, entries. -/
structure RingDecl where
  ring : Nat
  base : Word
  shape : Word
  deriving DecidableEq, Repr

/-- An accepted launch record (R362, R365) with what it names: entry address, loop table, rings, crossings
and page set. `next` is the next instance to place. -/
structure Launch where
  id : Nat
  entry : Word
  args : Word
  inst : Nat
  prio : Nat
  ceil : Nat
  clus : Nat
  banks : Nat
  lanes : Bool
  astep : Nat
  asid : BitVec 16
  done : CtrRef
  preds : List (CtrRef × Word)
  levels : List Level
  rings : List RingDecl
  xings : List Xing
  pages : Option PageSet
  die : Nat
  queue : Nat
  next : Nat
  deriving DecidableEq, Repr

/-- An entry of a launch queue (R366, R374). -/
inductive QEntry where
  | record (l : Launch)
  | resume (gang : Nat)
  deriving DecidableEq, Repr

/-- A launch queue (R366, R368): its entries, head first, and the current priority of its head with the
cycles counted towards the next step and in all. -/
structure Queue where
  entries : List QEntry
  prio : Nat
  age : Nat
  readyFor : Nat
  deriving DecidableEq, Repr

/-- A line of 128 bytes in the tagged ways of an L2 slice (R141): the unit that holds it, the key under which it was filled
(R117), and the valid and the dirty bit of each of its four sectors. Its bytes are those of memory (log 8). -/
structure TagLine where
  line : Nat
  unit : Nat
  key : Nat
  valid : BitVec 4
  dirty : BitVec 4
  deriving DecidableEq, Repr

/-- An L2 slice (R139 to R143): the units that windows may use, the units still changing, the granules
that windows hold, and the lines in its tagged ways. A granule is named by unit and place, 16 to a unit. -/
structure Slice where
  winunits : BitVec 6
  pending : List Nat
  taken : List (Nat × Nat)
  lines : List TagLine
  deriving DecidableEq, Repr

/-- One compute die. `clock` counts the cycles that its scheduler has seen; `blocked` are the candidates that its decisions
have chosen and not placed, by queue and by record or gang, the latest first (R369); `freed` lists the clusters, by tile and
number, that page moves have freed for one (R376); `retraining` tells that step 5 of the ladder has reset the die and it has
not trained since (R462). -/
structure Die where
  schcfg : Word
  qcfg : Vector Word 32
  queues : Vector Queue 32
  served : Nat
  asidTable : Word
  poolBase : Word
  poolSize : Word
  poolSlots : Word
  poolKey : Word
  poolUsed : List Nat
  slices : Vector Slice 8
  wdcfg : Word
  clock : Nat
  blocked : List (Nat × Bool × Nat)
  freed : List (Nat × Nat)
  retraining : Bool
  deriving DecidableEq, Repr

/-- A range-reservation entry (R127), with the geometry unpacked. `coming` is the COUNT that an entry of a peer's stream had
before a cut, while elements from its new COUNT on that the peer has produced may still be on their way, and 0 otherwise
(R132, R136). -/
structure Rsv where
  dir : Bool
  mode : Nat
  state : Nat
  esize : Nat
  extsize : Nat
  key : Nat
  scope : Nat
  remote : Bool
  origin : Nat
  tile : Nat
  hart : Nat
  stream : Nat
  base : Nat
  stride : Int
  first : Nat
  count : Nat
  pos : Nat
  whole : Bool
  coming : Nat
  deriving DecidableEq, Repr

/-- Whose request is parked (R134): a hart's, that of a stream engine or of the region of a hart, or a peer's. -/
inductive Parker where
  | hart (h : HartId)
  | engine (h : HartId) (n : Nat)
  | region (h : HartId)
  | peer (module : Nat) (who : Option PeerAgent)
  deriving DecidableEq, Repr

/-- A request parked at a landing die (R134): whose it is, its tag, and the base and STATE of the entry as it parked. -/
structure Parked where
  who : Parker
  entry : Nat
  line : Nat
  base : Nat
  state : Nat
  deriving DecidableEq, Repr

/-- What a reservation message says (R136). -/
inductive MsgKind where
  | req (r : Rsv)
  | ack
  | nak
  | cut (pos : Nat)
  | state (st : Nat)
  | rel
  | done
  deriving DecidableEq, Repr

/-- A reservation message to a peer that has not left yet (R136): the module, the sequence number, and what it says. -/
structure PeerMsg where
  module : Nat
  seq : BitVec 16
  kind : MsgKind
  deriving DecidableEq, Repr

/-- A page of a frame list (R121): its virtual page, the frame, page size and key that the list holds for it, and whether
its leaf has G = 1 (R425). -/
structure FramePage where
  va : Nat
  frame : Nat
  size : Nat
  key : Nat
  global : Bool
  deriving DecidableEq, Repr

/-- A frame list that a landing die keeps (R121, R123). Its tag is the virtual pages that it lists (log 11). -/
structure FrameList where
  asid : BitVec 16
  pages : List FramePage
  deriving DecidableEq, Repr

/-- One landing die (R119): its entries by index, the requests parked there in order, and its frame lists, the most
recently used first. -/
structure Landing where
  entries : List (Nat × Rsv)
  parked : List Parked
  frames : List FrameList
  deriving DecidableEq, Repr

/-- The directory entry of a line, at both levels (R120): the tiles and the compute dies that hold it, the die that owns
it, whether the host holds it, shared (false) or owned (true), whether a snoop of the host is under way, and the key under
which its holders have filled it (R117). -/
structure DirLine where
  line : Nat
  key : Nat
  tiles : List (Fin 224)
  dies : List (Fin 4)
  owner : Option (Fin 4)
  host : Option Bool
  snoop : Bool
  deriving DecidableEq, Repr

/-! ### Gangs -/

/-- What the device keeps of a saved hart beside its image (R400, R437): the die and slot of the image, its
capsule side, its fabric side, its stream registers by number (released contexts from 16 up), its open ports,
the levels of its windows, the value of a context-moved interrupt that it has not taken (R439), and the releases that its
counters and tokens carry. -/
structure Saved where
  die : Nat
  slot : Nat
  cap : CapSide
  fabric : Fabric
  fq : FaultQ
  streams : List (Nat × Stream)
  ports : List (Nat × Port)
  oldTile : Nat
  banks : BitVec 64
  winSup : List Bool
  moved : Word
  ctrRel : List (Nat × HartId × Nat)
  tokRel : List (Nat × HartId × Nat)
  deriving DecidableEq, Repr

/-- One hart of a gang (R361): its rank, the context it runs or last ran on, whether it has ended, and its
saved part when the gang is saved. -/
structure Member where
  rank : Nat
  ctx : HartId
  done : Bool
  saved : Option Saved
  deriving DecidableEq, Repr

/-- A gang (R359, R361): its record, instance, harts, flight counter and run time. -/
structure Gang where
  id : Nat
  launch : Launch
  inst : Nat
  members : List Member
  fc : Nat
  running : Bool
  since : Nat
  yielded : Bool
  prio : Nat
  deriving DecidableEq, Repr

/-- A token on the control network (R377), with the hart and the scope of its send. -/
structure Token where
  gang : Nat
  sent : HartId × Nat
  src : Nat
  dst : Nat
  ch : Nat
  tag : BitVec 16
  deriving DecidableEq, Repr

/-- A capsule in transit from one rank to the landing of another (R397, R398). -/
structure Transit where
  src : Nat
  dst : Nat
  cap : Capsule
  deriving DecidableEq, Repr

/-! ### Memory, keys, host and management -/

/-- What tells one key's material from another's (R115, R454). -/
inductive Material where
  | none
  | fresh (n : Nat)
  | loaded (bytes : List Byte)
  deriving DecidableEq, Repr

/-- A key slot (R115): its state as R451 numbers it, and its material. -/
structure KeySlot where
  state : Nat
  mat : Material
  deriving DecidableEq, Repr

/-- A peer window (R113). `lefahel` tells that its target is a Lefahel (R136): the manual names no register for it, and a
setting of firmware gives it (log 13). -/
structure PeerWin where
  on : Bool
  base : Nat
  size : Nat
  target : Nat
  offset : Nat
  lefahel : Bool
  deriving DecidableEq, Repr

/-- A page that the host has been asked for (R431). -/
structure PageReq where
  asid : BitVec 16
  page : Nat
  deriving DecidableEq, Repr

/-- The host interface (R431, R451): enables, cached host translations, failed pages and page requests. -/
structure HostIf where
  atsen : Bool
  prien : Bool
  atc : List ((BitVec 16 × Nat) × Nat)
  failed : List PageReq
  asked : List PageReq
  pri : List PageReq
  deriving DecidableEq, Repr

/-- A host queue pair (R457, R458). -/
structure Pair where
  sqBase : Word
  cqBase : Word
  cfg : Word
  head : Nat
  tail : Nat
  cqTail : Nat
  cqHead : Nat
  phase : Bool
  error : Bool
  latched : List (Bool × Word)
  deriving DecidableEq, Repr

/-- A host event queue (R458, R459). -/
structure EvQ where
  base : Word
  cfg : Word
  tail : Nat
  head : Nat
  phase : Bool
  lost : Bool
  deriving DecidableEq, Repr

/-- The route of an event source and its unacknowledged event (R445, R451). -/
structure Route where
  src : Nat
  route : Word
  pending : Bool
  deriving DecidableEq, Repr

/-- One record of the event log (R464). -/
structure LogRec where
  seq : Nat
  source : Nat
  claimed : Bool
  stamp : Nat
  detail : List Byte
  read : Bool
  deriving DecidableEq, Repr

/-- A firmware slot (R453, R460). -/
structure FwSlot where
  image : List Byte
  verified : Bool
  deriving DecidableEq, Repr

/-- The stage of the firmware sequence (R453). -/
inductive FwStage where
  | idle | loading (len : Nat) | verified
  deriving DecidableEq, Repr

/-- The management complex (R20, R451 to R465). `islands` and `volts` are the frequencies and voltages set, `temps`,
`sensed` and `rails` what telemetry last read of the islands and the power rails; `bar0` is the base address of the
mailbox window on the host link (R452). -/
structure Mgmt where
  level : Nat
  modid : Word
  mbcmd : Word
  mbstat : Word
  mblen : Word
  window : List (Nat × Byte)
  stage : FwStage
  slots : Vector FwSlot 2
  active : Option Nat
  svnmin : Nat
  revoked : BitVec 4
  wslevel : Word
  wshand : Word
  wskick : Vector Bool 4
  log : List LogRec
  logSeq : Nat
  logLost : Nat
  islands : Vector Nat 256
  volts : Vector Nat 256
  rails : List Nat
  temps : Vector Int 256
  sensed : Vector Nat 256
  bar0 : Word
  interrupts : List Nat
  deriving DecidableEq, Repr

/-- A reservation message owed to or awaited from a peer (R136). -/
structure RsvOut where
  seq : BitVec 16
  module : Nat
  releasing : Bool
  deriving DecidableEq, Repr

/-- An object as loaded for one VLBYTES (R71): its bytes, its address space, and for each section its kind,
loaded address and size, with the ring declarations of its kernels by index. -/
structure Loaded where
  object : List Byte
  asid : BitVec 16
  vlbytes : Nat
  sections : List (Nat × Nat × Nat)
  rings : List (Nat × RingDecl)
  deriving DecidableEq, Repr

/-! ### The schedule -/

/-- One act that the agenda can name: the turn of a hart, an event of the opcode table, the choice of the hart
that the next event without a hart of its own concerns, a unit of a fabric
region, the performance of a delayed store in memory or at a scope, a load that is performed early, what lands of a
stream, what the host, a peer, a Watershed core or the vector unit does meanwhile, a message of a peer that could not be done
at once, a change of what caches, frame lists, slices and directories hold, the places that the next pre-emption gives its
candidate, the passing of island cycles, and an event that stops a hart's next convoy after some groups. -/
inductive Act where
  | hart (h : HartId)
  | event (i : Instr)
  | turnTo (h : HartId)
  | unit (h : HartId) (page slot : Nat)
  | perform (k : Nat)
  | raise (k reach : Nat)
  | early (h : HartId) (scalar : Bool) (va : Word) (size : Nat)
  | delay (h : HartId) (plan : List Bool)
  | land (h : HartId) (n : Fin 16) (k : Nat)
  | hostWrite (off : Nat) (bytes : List Byte)
  | peerWrite (module addr : Nat) (bytes : List Byte)
  | peerHold (module addr : Nat) (held : Bool)
  | sendMsg
  | askAgain (msg : RsvMsg)
  | cutAgain (seq : BitVec 16) (pos : Nat)
  | lag (h : HartId) (n : Nat)
  | vector (h : HartId)
  | codeFill (h : HartId) (va : Word)
  | codeEvict (tile : Fin 224) (k : Nat)
  | frameFill (h : HartId) (pages : List Word)
  | cacheLine (tile : Fin 224) (line key : Nat) (owned : Bool)
  | sliceFill (tile : Fin 224) (line unit : Nat) (valid : BitVec 4)
  | sliceEvict (die : Fin 4) (line : Nat)
  | hostLine (line : Nat) (owned : Bool)
  | evictLine (line : Nat)
  | snoopDone (line : Nat)
  | tlbFill (h : HartId) (va : Word)
  | tlbEvict (tile : Fin 224) (k : Nat)
  | tick (tile : Fin 224) (n : Nat)
  | cut (h : HartId) (groups : Nat)
  | poison (sector : Nat)
  | corrected (sector : Nat)
  | spots (places : List Place)
  | island (k : Fin 256) (mhz mv : Nat)
  | power (rails : List Nat)
  | wsWrite (core : Fin 4) (csr : Nat) (v : Word)
  | cfgWrite (off : Nat) (v : Word)
  deriving DecidableEq, Repr

/-- The machine. -/
structure State where
  cur : HartId
  agenda : List Act
  fresh : Nat
  focus : Nat × Nat
  spots : List Place
  mem : List Host.Cell
  sectorKey : List (Nat × KeySlot)
  delayed : List Delayed
  early : List Early
  rels : List Rel
  poison : List Nat
  full : List Nat
  tierGiB : Nat
  hdmWays : Nat
  hostBytes : Nat
  peerWin : Vector PeerWin 64
  inboundKey : Nat
  keys : Vector KeySlot 512
  hostIf : HostIf
  harts : Vector Hart 896
  tiles : Vector Tile 224
  dies : Vector Die 4
  landings : Vector Landing 8
  dir : List DirLine
  gangs : List Gang
  records : List (Nat × Nat × CtrRef)
  nextId : Nat
  tokens : List Token
  capsules : List Transit
  rsvOut : List RsvOut
  rsvSeq : BitVec 16
  rsvIn : List ((Nat × BitVec 16) × List (Nat × Nat))
  outbox : List PeerMsg
  peerHeld : List Nat
  mgmt : Mgmt
  pairs : Vector Pair 64
  evqs : Vector EvQ 64
  routes : List Route
  portsUp : BitVec 16
  loaded : List Loaded
  loadReport : Nat
  deriving DecidableEq, Repr

/-- Why a step stops with a fault. No fault of the hardware stops the machine: traps, fault records and
refusals are next states. -/
inductive Fault where
  /-- Raised by `exec` of a convoy term whose words are not as many as its header says. No bytes decode
  to such a term (R34), so no program reaches it. Safe. -/
  | malformedConvoy
  deriving DecidableEq, Repr

/-- Why an instruction has no meaning here. -/
inductive Refusal where
  /-- Raised by an arm of `exec` that has no meaning yet, with the mnemonic of the row. Safe. -/
  | notModelled (mnemonic : String)
  deriving DecidableEq, Repr

/-! ### Reset -/

/-- Every CSR at 0 (R54: every field map gives reset 0). -/
def Csrs.reset : Csrs where
  fstat := 0
  vcfg := 0
  vstart := 0
  lpart := 0
  tshape := 0
  mstat := 0
  soundt := 0
  sounde := 0
  cycle := 0
  timer := 0
  sstat := 0
  tvec := 0
  tcause := 0
  tval := 0
  tepc := 0
  ptbase := 0
  asid := 0
  rasp := 0

def Loop.reset : Loop := ⟨0, 0, 0⟩
def Ring.reset : Ring := ⟨false, 0, 0, 0, 0, 0⟩
def Window.reset : Window := ⟨false, .sum, 0, 0, 0, 0, false⟩
def Desc.reset : Desc := ⟨0, 0, 0, 0, 0, 0⟩

/-- An unconfigured stream register with status 0 (R186). -/
def Stream.reset : Stream where
  num := 0
  cfg := false
  desc := Desc.reset
  sup := false
  stripBytes := 512
  pos := 0
  home := 0
  buf := []
  win := []
  part := []
  status := 0
  stopAt := none
  noMore := false
  extents := []
  reached := 0
  bank := 0
  granules := []
  circuit := false
  asking := false
  copy := none
  release := .no
  owed := []
  saved := false
  lastPos := 0
  lastAvail := 0
  lastPc := 0
  lastSlot := none
  serial := 0
  landed := []

/-- A closed port: format 0 and link scale 0x7F (R151). -/
def Port.reset : Port := ⟨false, 0xFE0, 0, 0, [], [], 0, false, false⟩

def CapSide.reset : CapSide where
  send := false
  land := false
  sup := false
  hold := false
  bank := 0
  poolBase := 0
  slots := 0
  frames := []
  inUse := []
  buf := 0
  table := 0
  code := 0
  held := none
  ring := []
  parked := []
  faulted := []

def Fabric.reset : Fabric := ⟨0, 0, 0, [], none, none, [], 0, false, false⟩

/-- FQCTL.SIZEL is 4 (R433). -/
def FaultQ.reset : FaultQ := ⟨0, 0x400000000, [], 0⟩

def Debug.reset : Debug := ⟨0, 0, 0, 0, 0, false, false⟩

/-- A context on which no hart is placed (R196, R371). -/
def Hart.reset : Hart where
  run := .idle
  wait := .none
  waited := 0
  sup := false
  pc := 0
  x := Vector.replicate 32 0
  f := Vector.replicate 32 0
  v := Vector.replicate 32 0
  m := Vector.replicate 7 0
  csr := Csrs.reset
  vdirty := Vector.replicate 32 0
  ras := []
  loops := Vector.replicate 4 Loop.reset
  ctr := Vector.replicate 16 0
  tok := Vector.replicate 16 0
  branchQ := []
  rings := Vector.replicate 8 Ring.reset
  wins := Vector.replicate 4 Window.reset
  streams := Vector.ofFn (fun i : Fin 16 => { Stream.reset with num := i.val })
  releasing := []
  ports := Vector.replicate 4 Port.reset
  fabric := Fabric.reset
  cap := CapSide.reset
  gang := none
  banks := 0
  fq := FaultQ.reset
  dbg := Debug.reset
  watchdog := 0
  ladder := 0
  moved := 0
  relocs := []
  delays := []
  vq := []
  lag := 0
  cut := none
  ctrRel := []
  tokRel := []

/-- After reset every bank is a cache way (R153). -/
def Tile.reset : Tile := ⟨Vector.replicate 64 ⟨.cache, false, false⟩, [], [], false⟩

def Queue.reset : Queue := ⟨[], 0, 0, 0⟩

/-- WINUNITS is 8 (R139). -/
def Slice.reset : Slice := ⟨8, [], [], []⟩

/-- SCHCFG holds PREEMPT 1,048,576 and AGE 65,536 (R367); WDCFG.LIM is 2^32 (R462). -/
def Die.reset : Die where
  schcfg := 0x10000000010000
  qcfg := Vector.replicate 32 0
  queues := Vector.replicate 32 Queue.reset
  served := 31
  asidTable := 0
  poolBase := 0
  poolSize := 0
  poolSlots := 0
  poolKey := 0
  poolUsed := []
  slices := Vector.replicate 8 Slice.reset
  wdcfg := 0x100000000
  clock := 0
  blocked := []
  freed := []
  retraining := false

/-- Service level 0: only the ford answers (R452). Slot 0 holds the key made at this reset (R115). -/
def Mgmt.reset : Mgmt where
  level := 0
  modid := 0
  mbcmd := 0
  mbstat := 0
  mblen := 0
  window := []
  stage := .idle
  slots := Vector.replicate 2 ⟨[], false⟩
  active := none
  svnmin := 0
  revoked := 0
  wslevel := 0
  wshand := 0
  wskick := Vector.replicate 4 false
  log := []
  logSeq := 0
  logLost := 0
  islands := Vector.replicate 256 1800
  volts := Vector.replicate 256 550
  rails := []
  temps := Vector.replicate 256 0
  sensed := Vector.replicate 256 550
  bar0 := 0
  interrupts := []

/-- The module right after power-on (R452). -/
def State.reset : State where
  cur := 0
  agenda := []
  fresh := 1
  focus := (0, 0)
  spots := []
  mem := []
  sectorKey := []
  delayed := []
  early := []
  rels := []
  poison := []
  full := []
  tierGiB := 0
  hdmWays := 1
  hostBytes := 0
  peerWin := Vector.replicate 64 ⟨false, 0, 0, 0, 0, false⟩
  inboundKey := 0
  keys := (Vector.replicate 512 ⟨0, .none⟩).set 0 ⟨2, .fresh 0⟩
  hostIf := ⟨false, false, [], [], [], []⟩
  harts := Vector.replicate 896 Hart.reset
  tiles := Vector.replicate 224 Tile.reset
  dies := Vector.replicate 4 Die.reset
  landings := Vector.replicate 8 ⟨[], [], []⟩
  dir := []
  gangs := []
  records := []
  nextId := 0
  tokens := []
  capsules := []
  rsvOut := []
  rsvSeq := 0
  rsvIn := []
  outbox := []
  peerHeld := []
  mgmt := Mgmt.reset
  pairs := Vector.replicate 64 ⟨0, 0, 0, 0, 0, 0, 0, true, false, []⟩
  evqs := Vector.replicate 64 ⟨0, 0, 0, 0, true, false⟩
  routes := []
  portsUp := 0
  loaded := []
  loadReport := 0

end Sys2Proof.Machine
end

