-- ==== Sys2Proof/Machine/Cause.lean ====
section
/-!
DEFINITION. The causes of traps and fault records (R421), and why an operation of a hart does not complete.
-/

namespace Sys2Proof.Machine

/-- The synchronous causes and the records-only causes (R421). -/
inductive Cause where
  | instrMisaligned | fetchFault | illegalInstruction | illegalConvoy | breakpoint | envCall
  | misaligned | pageFault | permission | access | bankRole | bankGrant | atomic | memoryError
  | reservation | shadowStack | rasOverflow | rasUnderflow | branchUnderflow | vectorLength
  | laneState | crossingState | strmConfig | strmState | strmBusy | strmDirection | strmEnd
  | ringConfig | ringUnderflow | matrixShape | matrixState | windowState | windowIndex
  | fabricConfig | fabricState | tokenDest | capState | capFormat
  | peerLost | capUndeliverable | capFault
  deriving DecidableEq, Repr

/-- Why an operation of a hart ends early: a trap with its cause and value, or a wait. -/
inductive Stop where
  | trap (c : Cause) (tval : Word)
  | wait (w : Wait)
  deriving DecidableEq, Repr

/-- An operation on the state that may end early. The state it leaves then is the one to go on from. -/
abbrev Op := EStateM Stop State

/-- What an access is, for permission (R429). -/
inductive Kind where
  | fetch | read | write | shadowRead | shadowWrite
  deriving DecidableEq, Repr

/-- A leaf of a walk: the physical address reached, the key index, and the entry (R427, R428). -/
structure Leaf where
  pa : Nat
  key : Nat
  pte : Word
  size : Nat
  deriving DecidableEq, Repr

/-- A region of the physical map (R105). -/
inductive Region where
  | hbm | reserved | spad | tier | peer | host | device
  deriving DecidableEq, Repr

end Sys2Proof.Machine
end

