-- ==== Sys2Proof/Machine/Forms.lean ====
section
/-!
DEFINITION. What each form asks of its fields (R30 to R32, R38 to R40, R242 to R245, R261, R292, R314,
R327, R384), which registers a vector form reads and writes, and which forms are whole-vector or stand
alone in their convoy.
-/

namespace Sys2Proof

/-- The `len` bits of `w` from bit `lo` up (R5). -/
def fld {n : Nat} (w : BitVec n) (lo len : Nat) : BitVec len := w.extractLsb' lo len

/-- The value of a selector field `[lo + len - 1 : lo]`. -/
def VFields.selNat (w : VFields) (lo len : Nat) : Nat := (fld w.sel lo len).toNat

/-! ### Format, width and rounding codes -/

/-- The width code that R72 asks of a format code; integers (0, 1) take every width. -/
def fmtWidthOk (fmt width : Nat) : Bool :=
  match fmt with
  | 0 | 1 => decide (width ≤ 3)
  | 2 => width == 3
  | 3 => width == 2
  | 4 | 5 => width == 1
  | _ => decide (fmt ≤ 0x10) && width == 0

/-- A rounding selector that a rounding form outside VCVT accepts (R39, R85). -/
def roundOk (rm : BitVec 3) : Bool := rm != 5 && rm != 6

/-- A scope code that is not reserved (R32). -/
def scopeOk (p : BitVec 3) : Bool := decide (p.toNat ≤ 5)

/-- A field that names one of the mask registers m1 to m7 (R242). -/
def maskReg (r : BitVec 5) : Bool := decide (1 ≤ r.toNat ∧ r.toNat ≤ 7)

/-- A field that names one of the rings q0 to q7 (R292). -/
def ringReg (r : BitVec 5) : Bool := decide (r.toNat ≤ 7)

/-! ### Scalar words -/

/-- The field rules of the scalar forms beyond the fixed bits of their rows: reserved scope, rounding and
format codes and the rules between fields (R32, R206, R220 to R222, R226, R388). -/
def Instr.scalarOk (i : Instr) : Bool :=
  match i with
  | .amoswap _ _ _ q l _ p | .amoadd _ _ _ q l _ p | .amoand _ _ _ q l _ p | .amoor _ _ _ q l _ p
  | .amoxor _ _ _ q l _ p | .amomin _ _ _ q l _ p | .amomax _ _ _ q l _ p | .amominu _ _ _ q l _ p
  | .amomaxu _ _ _ q l _ p | .amocas _ _ _ q l _ p =>
    scopeOk p && (q == 1 || l == 1 || p == 0)
  | .fadd _ _ _ r f | .fsub _ _ _ r f | .fmul _ _ _ r f | .fdiv _ _ _ r f | .fsqrt _ _ r f =>
    decide (f.toNat ≤ 3) && roundOk r
  | .fmin _ _ _ f | .fmax _ _ _ f | .fsgnj _ _ _ f | .fsgnjn _ _ _ f | .fsgnjx _ _ _ f
  | .feq _ _ _ f | .flt _ _ _ f | .fle _ _ _ f => decide (f.toNat ≤ 3)
  | .fclass _ _ f | .fmvX _ _ f | .fmvF _ _ f => decide (f.toNat ≤ 3)
  | .fcvtToInt _ _ _ r f | .fcvtFromInt _ _ _ r f => decide (f.toNat ≤ 3) && roundOk r
  | .fcvtFmt _ _ s r f => decide (f.toNat ≤ 3) && roundOk r && s.toNat != f.toNat
  | .fmadd _ _ _ _ _ r | .fmsub _ _ _ _ _ r | .fnmadd _ _ _ _ _ r | .fnmsub _ _ _ _ _ r => roundOk r
  | .fence p | .fenceSv p | .fenceVs p | .fenceI p => scopeOk p
  | .lda _ _ z s p => scopeOk p && !(z == 1 && s == 3)
  | .stl _ _ _ p => scopeOk p
  | .tlbInv _ _ p => scopeOk p
  | .ldf _ _ p | .ldfClr _ _ p | .stf _ _ p | .stfWait _ _ p => scopeOk p
  | .ringAdvTail _ _ p | .ringAdvHead _ _ p => scopeOk p
  | .cwait _ _ p | .cadd _ _ p | .tokSend _ _ p | .tokWait _ _ p | .barArrive _ _ p
  | .barWait _ _ p => scopeOk p
  | .kid _ a s => decide (6 ≤ s.toNat) || a == 0
  | .hget _ _ f => decide (f.toNat ≤ 2)
  | .hset _ _ f => decide (f.toNat ≤ 2)
  | .capSend _ _ p | .capRecv _ p => scopeOk p
  | .capFwd p | .capFwdStay p | .capFwdEnd p => scopeOk p
  | .vsetvl _ _ _ _ _ p => scopeOk p
  | .hint kind _ => decide (4 ≤ kind.toNat)
  | _ => true

/-! ### Vector words -/

/-- The second-operand selector of VINT, VLOGIC, VCMP and VFP (R244). -/
def srcOk (w : VFields) (scalar imm : Bool) : Bool :=
  match w.selNat 16 2 with
  | 0 => w.vc == 0 && w.selNat 0 16 == 0
  | 1 => scalar && w.vb == 0 && w.selNat 0 16 == 0
  | 2 => imm && w.vb == 0 && w.vc == 0
  | _ => false

/-- The rules of the unit-stride, strided and image forms of R261 and R266. -/
def memSelOk (w : VFields) (acq rel imm : Bool) : Bool :=
  (acq || w.selNat 17 1 == 0) && (rel || w.selNat 16 1 == 0) && (imm || w.selNat 0 16 == 0)

/-- The rules of the selectors of VGATHER and VACC (R261): which of ACQ, REL, SHIFT, IW, WIN and RET a
form uses. -/
def idxSelOk (w : VFields) (acq rel shift iw win ret : Bool) : Bool :=
  (acq || w.selNat 17 1 == 0) && (rel || w.selNat 16 1 == 0)
    && (if shift then w.selNat 13 3 != 7 else w.selNat 13 3 == 0)
    && (iw || w.selNat 11 2 == 0) && (win || w.selNat 9 2 == 0) && (ret || w.selNat 8 1 == 0)
    && w.selNat 0 8 == 0

/-- An integer format at any width (R246). -/
def intFmt (w : VFields) : Bool := decide (w.fmt.toNat ≤ 1) && decide (w.width.toNat ≤ 3)

/-- A format from `lo` to `hi` at the width R72 gives. -/
def fmtIn (w : VFields) (lo hi : Nat) : Bool :=
  decide (lo ≤ w.fmt.toNat) && decide (w.fmt.toNat ≤ hi) && fmtWidthOk w.fmt.toNat w.width.toNat

/-- The rounding rule of a form that rounds floating formats only (R257, R278). -/
def roundIfFloat (w : VFields) : Bool := if w.fmt.toNat ≤ 1 then w.rm == 0 else roundOk w.rm

/-- The source format and width of VCVT and of operand B in MMA (sel[17:13] and sel[12:10]). -/
def VFields.fmtB (w : VFields) : Nat := w.selNat 13 5
def VFields.widthB (w : VFields) : Nat := w.selNat 10 3

/-- The formats that `mma` (func 0) takes for A and B (R293). -/
def mmaFmts (a b : Nat) : Bool :=
  (a == 4 && b == 4) || (a == 5 && b == 5) || (a == 13 && b == 13)
    || (decide (6 ≤ a ∧ a ≤ 12) && decide (6 ≤ b ∧ b ≤ 12))

/-- The ring fields and selectors common to `mma`, `mtern` and `msound` (R292). -/
def ringFormOk (w : VFields) : Bool :=
  ringReg w.va && ringReg w.vb && w.va != w.vb && w.vd == 0 && w.mask == 0 && w.rm == 0
    && fmtWidthOk w.fmt.toNat w.width.toNat && fmtWidthOk w.fmtB w.widthB && w.selNat 0 7 == 0

/-- Every field of the word is zero. -/
def VFields.isZero (w : VFields) : Bool :=
  w.vd == 0 && w.va == 0 && w.vb == 0 && w.vc == 0 && w.mask == 0 && w.width == 0 && w.fmt == 0
    && w.rm == 0 && w.sel == 0

/-- The field rules of a vector form (R40, R73, R245, R261, R292, R327, R384). A slot that breaks them
makes its convoy illegal with reason 0x8. -/
def VOp.fieldsOk (o : VOp) (w : VFields) : Bool :=
  match o with
  | .vadd | .vsub | .vrsub | .vmin | .vmax | .vmul | .vmulh | .vmacc | .vsadd | .vssub | .vabsd
  | .vdiv | .vrem | .vand | .vor | .vxor | .vandn | .vsll | .vsrl | .vsra =>
    intFmt w && w.rm == 0 && srcOk w true true
  | .vmv => intFmt w && w.rm == 0 && srcOk w true true && w.va == 0
  | .vnot => intFmt w && w.rm == 0 && w.sel == 0 && w.vb == 0 && w.vc == 0
  | .vmseq | .vmsne | .vmslt | .vmsle | .vmsgt | .vmsge =>
    fmtIn w 0 7 && w.rm == 0 && srcOk w true (decide (w.fmt.toNat ≤ 1)) && maskReg w.vd
  | .vfadd | .vfsub | .vfmul | .vfdiv => fmtIn w 2 5 && roundOk w.rm && srcOk w true false
  | .vfsqrt => fmtIn w 2 5 && roundOk w.rm && w.sel == 0 && w.vb == 0 && w.vc == 0
  | .vfmin | .vfmax | .vfsgnj | .vfsgnjn | .vfsgnjx => fmtIn w 2 5 && w.rm == 0 && srcOk w true false
  | .vfclass => fmtIn w 2 5 && w.rm == 0 && w.sel == 0 && w.vb == 0 && w.vc == 0
  | .vfmadd | .vfmsub | .vfnmadd | .vfnmsub => fmtIn w 2 5 && roundOk w.rm && w.sel == 0
  | .vcvt =>
    (if w.fmt.toNat = 0x10 then w.width == 0 && w.fmtB == 0 && w.widthB == 0
     else if w.fmtB = 0x10 then w.widthB == 0 && w.fmt == 0 && w.width == 0
     else fmtIn w 0 7 && decide (w.fmtB ≤ 7) && fmtWidthOk w.fmtB w.widthB
       && !(w.fmtB == w.fmt.toNat && w.widthB == w.width.toNat))
      && w.vb == 0 && w.selNat 0 9 == 0 && w.rm != 6 && (w.rm == 5 || w.vc == 0)
  | .vcvtMx =>
    fmtIn w 8 13 && decide (3 ≤ w.fmtB ∧ w.fmtB ≤ 5) && fmtWidthOk w.fmtB w.widthB
      && w.selNat 0 10 == 0 && w.mask == 0 && w.rm != 6 && (w.rm == 5 || w.vc == 0)
  | .vcvtDemx =>
    fmtIn w 3 5 && decide (8 ≤ w.fmtB ∧ w.fmtB ≤ 13) && w.widthB == 0
      && w.selNat 0 10 == 0 && w.mask == 0 && w.rm != 6 && (w.rm == 5 || w.vc == 0)
  | .vslideup | .vslidedown | .vbcast => intFmt w && w.rm == 0 && w.sel == 0 && w.vb == 0
  | .vperm => intFmt w && w.rm == 0 && w.sel == 0 && w.vc == 0
  | .vsel => intFmt w && w.rm == 0 && w.sel == 0 && w.vc == 0 && w.mask != 0
  | .vid => intFmt w && w.rm == 0 && w.sel == 0 && w.va == 0 && w.vb == 0 && w.vc == 0
  | .vcompress | .vexpand =>
    intFmt w && w.rm == 0 && w.sel == 0 && w.vb == 0 && w.vc == 0 && w.mask != 0
  | .vredsum | .vscansum =>
    fmtIn w 0 5 && roundIfFloat w && w.vc == 0 && w.selNat 0 13 == 0
      && (if w.selNat 16 1 = 1 then w.selNat 13 3 != 0 else w.selNat 13 3 == 0)
  | .vredmin | .vredmax | .vscanmin | .vscanmax =>
    fmtIn w 0 5 && w.rm == 0 && w.vc == 0 && w.selNat 0 13 == 0
      && (if w.selNat 16 1 = 1 then w.selNat 13 3 != 0 else w.selNat 13 3 == 0)
  | .vredand | .vredor | .vredxor =>
    intFmt w && w.rm == 0 && w.vc == 0 && w.selNat 0 13 == 0
      && (if w.selNat 16 1 = 1 then w.selNat 13 3 != 0 else w.selNat 13 3 == 0)
  | .vmand | .vmor | .vmxor | .vmandn =>
    maskReg w.vd && maskReg w.va && maskReg w.vb && w.vc == 0 && w.mask == 0 && w.width == 0
      && w.fmt == 0 && w.rm == 0 && w.sel == 0
  | .vmnot =>
    maskReg w.vd && maskReg w.va && w.vb == 0 && w.vc == 0 && w.mask == 0 && w.width == 0
      && w.fmt == 0 && w.rm == 0 && w.sel == 0
  | .vmset | .vmclr =>
    maskReg w.vd && w.va == 0 && w.vb == 0 && w.vc == 0 && w.mask == 0 && w.width == 0
      && w.fmt == 0 && w.rm == 0 && w.sel == 0
  | .vmtov =>
    maskReg w.va && w.vb == 0 && w.vc == 0 && w.mask == 0 && decide (w.width.toNat ≤ 3)
      && w.fmt == 0 && w.rm == 0 && w.sel == 0
  | .vvtom =>
    maskReg w.vd && w.vb == 0 && w.vc == 0 && w.mask == 0 && decide (w.width.toNat ≤ 3)
      && w.fmt == 0 && w.rm == 0 && w.sel == 0
  | .vpop | .vfirst =>
    maskReg w.va && w.vb == 0 && w.vc == 0 && w.mask == 0 && w.width == 0 && w.fmt == 0
      && w.rm == 0 && w.sel == 0
  | .vbqAny | .vbqNone =>
    w.vd == 0 && maskReg w.va && w.vb == 0 && w.vc == 0 && w.mask == 0 && w.width == 0
      && w.fmt == 0 && w.rm == 0 && w.sel == 0
  | .vld | .vldff => fmtIn w 0 7 && w.rm == 0 && w.va == 0 && w.vb == 0 && memSelOk w true false true
  | .vlds => fmtIn w 0 7 && w.rm == 0 && w.va == 0 && memSelOk w true false true
  | .vldr => fmtIn w 0 7 && w.width == 3 && w.rm == 0 && w.va == 0 && w.mask == 0
      && memSelOk w true false false
  | .vldm => maskReg w.vd && w.va == 0 && w.vb == 0 && w.mask == 0 && w.width == 0 && w.fmt == 0
      && w.rm == 0 && w.sel == 0
  | .vst => fmtIn w 0 7 && w.rm == 0 && w.vd == 0 && w.vb == 0 && memSelOk w false true true
  | .vsts => fmtIn w 0 7 && w.rm == 0 && w.vd == 0 && memSelOk w false true true
  | .vstr => fmtIn w 0 7 && w.width == 3 && w.rm == 0 && w.vd == 0 && w.mask == 0
      && memSelOk w false true false
  | .vstm => maskReg w.va && w.vd == 0 && w.vb == 0 && w.mask == 0 && w.width == 0 && w.fmt == 0
      && w.rm == 0 && w.sel == 0
  | .vgather => fmtIn w 0 7 && w.rm == 0 && w.va == 0 && idxSelOk w true false true true false false
  | .vscatter => fmtIn w 0 7 && w.rm == 0 && w.vd == 0 && idxSelOk w false true true true false false
  | .vsetlf =>
    w.fmt == 1 && decide (w.width.toNat ≤ 3) && w.rm == 0 && w.mask == 0 && w.vd == 0
      && w.selNat 15 3 != 0 && w.selNat 0 10 == 0
  | .vxint =>
    w.fmt == 1 && decide (w.width.toNat ≤ 3) && w.rm == 0 && w.mask == 0
      && w.selNat 15 3 != 0 && w.selNat 0 15 == 0
  | .vxuni | .vxmrg =>
    w.fmt == 1 && decide (w.width.toNat ≤ 3) && w.rm == 0 && w.mask == 0
      && w.selNat 15 3 != 0 && w.selNat 0 10 == 0
  | .accwinSum | .accwinMin | .accwinMax =>
    fmtIn w 0 5 && w.rm == 0 && w.vd == 0 && w.mask == 0
      && idxSelOk w false false false false true false
  | .vacc => fmtIn w 0 5 && roundIfFloat w && w.vd == 0 && w.vc == 0
      && idxSelOk w false false false true true false
  | .accmerge => fmtIn w 0 5 && roundIfFloat w && w.vd == 0 && w.va == 0 && w.vb == 0 && w.vc == 0
      && w.mask == 0 && idxSelOk w false true false false true false
  | .vamoadd =>
    ((decide (w.fmt.toNat ≤ 1) && (w.width == 2 || w.width == 3) && w.rm == 0)
        || (fmtIn w 2 3 && roundOk w.rm))
      && idxSelOk w true true true true false true && (w.selNat 8 1 == 1 || w.vd == 0)
  | .vamomin | .vamomax =>
    ((decide (w.fmt.toNat ≤ 1) && (w.width == 2 || w.width == 3)) || fmtIn w 2 3) && w.rm == 0
      && idxSelOk w true true true true false true && (w.selNat 8 1 == 1 || w.vd == 0)
  | .vamoswap | .vamoand | .vamoor | .vamoxor =>
    decide (w.fmt.toNat ≤ 1) && (w.width == 2 || w.width == 3) && w.rm == 0
      && idxSelOk w true true true true false true && (w.selNat 8 1 == 1 || w.vd == 0)
  | .vext | .vins => fmtIn w 0 5 && w.rm == 0 && w.mask == 0 && w.vb == 0 && w.sel == 0
  | .vxsend => w.fmt == 0 && decide (w.width.toNat ≤ 3) && w.rm == 0 && w.mask == 0 && w.vd == 0
      && w.vb == 0 && w.vc == 0 && w.selNat 0 16 == 0
  | .vxrecv => w.fmt == 0 && decide (w.width.toNat ≤ 3) && w.rm == 0 && w.mask == 0 && w.va == 0
      && w.vb == 0 && w.vc == 0 && w.selNat 0 16 == 0
  | .vldStrm => fmtIn w 0 7 && w.rm == 0 && w.va == 0 && w.vb == 0 && decide (w.vc.toNat ≤ 15)
      && w.sel == 0
  | .vstStrm => fmtIn w 0 7 && w.rm == 0 && w.vd == 0 && w.vb == 0 && decide (w.vc.toNat ≤ 15)
      && w.mask == 0 && w.sel == 0
  | .mma => ringFormOk w && w.vc == 0 && mmaFmts w.fmt.toNat w.fmtB
  | .mmaInt => ringFormOk w && w.vc == 0
      && ((w.fmt == 0 && w.width == 0 && w.fmtB == 0 && w.widthB == 0)
        || (w.fmt == 0x10 && w.fmtB == 0x10))
  | .mtern => ringFormOk w && w.vc == 0 && w.fmt == 0 && w.width == 0 && w.fmtB == 14
  | .msound => ringFormOk w && w.fmt == 0 && w.width == 0 && w.fmtB == 14 && w.selNat 7 1 == 0
  | .mcheck => w.vd == 0 && w.vb == 0 && w.mask == 0 && w.width == 0 && w.fmt == 0 && w.rm == 0
      && w.sel == 0
  | .mzero => w.isZero
  | .mst =>
    w.vd == 0 && w.mask == 0 && roundOk w.rm
      && ((decide (w.fmt.toNat ≤ 1) && decide (w.width.toNat ≤ 2)) || fmtIn w 3 7)
      && w.selNat 10 8 == 0 && w.selNat 0 6 == 0
  | .mxchg =>
    w.vd == 0 && w.va == 0 && w.vb == 0 && w.vc == 0 && w.mask == 0
      && w.selNat 9 9 == 0 && w.selNat 0 8 == 0
      && (if w.selNat 8 1 = 1 then
            w.width == 2 && ((w.fmt == 3 && roundOk w.rm) || (w.fmt == 0 && w.rm == 0))
          else w.width == 0 && w.fmt == 0 && w.rm == 0)
  | .fload => w.vd == 0 && w.va == 0 && w.vb == 0 && w.mask == 0 && w.width == 0 && w.fmt == 0
      && w.rm == 0 && w.sel == 0
  | .fgo => w.isZero
  | .fgoResume => w.vd == 0 && w.va == 0 && w.vb == 0 && w.vc == 0 && w.mask == 0 && w.width == 0
      && w.fmt == 0 && w.rm == 0 && w.sel == 0x20000
  | .fdrain | .frel => w.isZero
  | .fstat => w.va == 0 && w.vb == 0 && w.vc == 0 && w.mask == 0 && w.width == 0 && w.fmt == 0
      && w.rm == 0 && w.sel == 0
  | .vwait => maskReg w.vd && intFmt w && w.rm == 0 && w.selNat 16 2 != 3 && w.selNat 0 16 == 0

/-- The registers that a slot names, by file and by direction. -/
structure Uses where
  vr : List Nat := []
  vw : List Nat := []
  mr : List Nat := []
  mw : List Nat := []
  xr : List Nat := []
  fr : List Nat := []
  xw : List Nat := []
  fw : List Nat := []
  strm : List Nat := []
  deriving DecidableEq, Repr

/-- The predicate mask that a slot reads, if it has one (R38). -/
def VFields.maskUse (w : VFields) : List Nat := if w.mask = 0 then [] else [w.mask.toNat]

/-- What the second operand of R244 reads: a vector register, or a scalar of file `float`. -/
def srcUse (w : VFields) (float : Bool) : Uses :=
  match w.selNat 16 2 with
  | 0 => { vr := [w.vb.toNat] }
  | 1 => if float then { fr := [w.vc.toNat] } else { xr := [w.vc.toNat] }
  | _ => {}

/-- The registers that each vector form reads and writes (R36, R37, R239): from the tables of 09, 10, 12,
13 and 16. -/
def VOp.uses (o : VOp) (w : VFields) : Uses :=
  let vd := w.vd.toNat
  let va := w.va.toNat
  let vb := w.vb.toNat
  let vc := w.vc.toNat
  let k := w.maskUse
  let float := decide (2 ≤ w.fmt.toNat)
  match o with
  | .vadd | .vsub | .vrsub | .vmin | .vmax | .vmul | .vmulh | .vsadd | .vssub | .vabsd
  | .vdiv | .vrem | .vand | .vor | .vxor | .vandn | .vsll | .vsrl | .vsra =>
    let b := srcUse w false
    { b with vr := va :: b.vr, vw := [vd], mr := k }
  | .vmacc =>
    let b := srcUse w false
    { b with vr := vd :: va :: b.vr, vw := [vd], mr := k }
  | .vmv => { srcUse w false with vw := [vd], mr := k }
  | .vnot | .vfsqrt | .vfclass => { vr := [va], vw := [vd], mr := k }
  | .vmseq | .vmsne | .vmslt | .vmsle | .vmsgt | .vmsge =>
    let b := srcUse w float
    { b with vr := va :: b.vr, mw := [vd], mr := k }
  | .vfadd | .vfsub | .vfmul | .vfdiv | .vfmin | .vfmax | .vfsgnj | .vfsgnjn | .vfsgnjx =>
    let b := srcUse w true
    { b with vr := va :: b.vr, vw := [vd], mr := k }
  | .vfmadd | .vfmsub | .vfnmadd | .vfnmsub => { vr := [va, vb, vc], vw := [vd], mr := k }
  | .vcvt => { vr := [va], vw := [vd], mr := k, xr := if w.rm = 5 then [vc] else [] }
  | .vcvtMx => { vr := [va], vw := [vd, vb], xr := if w.rm = 5 then [vc] else [] }
  | .vcvtDemx => { vr := [va, vb], vw := [vd], xr := if w.rm = 5 then [vc] else [] }
  | .vslideup | .vslidedown | .vbcast => { vr := [va], vw := [vd], mr := k, xr := [vc] }
  | .vperm | .vsel => { vr := [va, vb], vw := [vd], mr := k }
  | .vid => { vw := [vd], mr := k }
  | .vcompress | .vexpand => { vr := [va], vw := [vd], mr := k }
  | .vredsum | .vredmin | .vredmax | .vredand | .vredor | .vredxor | .vscansum | .vscanmin
  | .vscanmax =>
    { vr := [va, vb], vw := [vd], mr := if w.selNat 16 1 = 1 then w.selNat 13 3 :: k else k }
  | .vmand | .vmor | .vmxor | .vmandn => { mr := [va, vb], mw := [vd] }
  | .vmnot => { mr := [va], mw := [vd] }
  | .vmset | .vmclr => { mw := [vd] }
  | .vmtov => { mr := [va], vw := [vd] }
  | .vvtom => { vr := [va], mw := [vd] }
  | .vpop | .vfirst => { mr := [va], xw := [vd] }
  | .vbqAny | .vbqNone => { mr := [va] }
  | .vld | .vldff => { vw := [vd], mr := k, xr := [vc] }
  | .vlds => { vw := [vd], mr := k, xr := [vb, vc] }
  | .vldr => { vw := [vd], xr := [vb, vc] }
  | .vldm => { mw := [vd], xr := [vc] }
  | .vst => { vr := [va], mr := k, xr := [vc] }
  | .vsts => { vr := [va], mr := k, xr := [vb, vc] }
  | .vstr => { vr := [va], xr := [vb, vc] }
  | .vstm => { mr := [va], xr := [vc] }
  | .vgather => { vr := [vb], vw := [vd], mr := k, xr := [vc] }
  | .vscatter => { vr := [va, vb], mr := k, xr := [vc] }
  | .vsetlf => { vr := [va], xr := [vb, vc], mw := [w.selNat 15 3], xw := [w.selNat 10 5] }
  | .vxint => { vr := [va, vb], vw := [vd], xr := [vc], mw := [w.selNat 15 3] }
  | .vxuni | .vxmrg =>
    { vr := [va, vb], vw := [vd], xr := [vc], mw := [w.selNat 15 3], xw := [w.selNat 10 5] }
  | .accwinSum | .accwinMin | .accwinMax => { xr := [va, vb, vc] }
  | .vacc => { vr := [va, vb], mr := k }
  | .accmerge => {}
  | .vamoswap | .vamoadd | .vamoand | .vamoor | .vamoxor | .vamomin | .vamomax =>
    { vr := [va, vb], vw := if w.selNat 8 1 = 1 then [vd] else [], mr := k, xr := [vc] }
  | .vext => if float then { vr := [va], xr := [vc], fw := [vd] } else { vr := [va], xr := [vc], xw := [vd] }
  | .vins => if float then { vw := [vd], fr := [va], xr := [vc] } else { vw := [vd], xr := [va, vc] }
  | .vxsend => { vr := [va] }
  | .vxrecv => { vw := [vd] }
  | .vldStrm => { vw := [vd], mr := k, strm := [vc] }
  | .vstStrm => { vr := [va], strm := [vc] }
  | .mma | .mmaInt | .mtern | .mzero | .mxchg => {}
  | .msound => { xr := [vc] }
  | .mcheck => { xr := [va, vc] }
  | .mst => { fr := [va], xr := [vb, vc] }
  | .fload => { xr := [vc] }
  | .fgo | .fgoResume | .fdrain | .frel => {}
  | .fstat => { xw := [vd] }
  | .vwait => { vr := [va, vb], mw := [vd], mr := k, xr := [vc] }

/-- The element-width codes that a slot names (R237, R261). `vwait` names e64 (R384). -/
def VOp.widths (o : VOp) (w : VFields) : List Nat :=
  match o with
  | .vmand | .vmor | .vmxor | .vmandn | .vmnot | .vmset | .vmclr | .vpop | .vfirst | .vbqAny
  | .vbqNone | .vldm | .vstm | .mcheck | .mzero | .fload | .fgo | .fgoResume | .fdrain | .fstat
  | .frel => []
  | .vcvt | .vcvtMx | .vcvtDemx => [w.width.toNat, w.widthB]
  | .vgather | .vscatter | .vacc | .vamoswap | .vamoadd | .vamoand | .vamoor | .vamoxor | .vamomin
  | .vamomax => [w.width.toNat, w.selNat 11 2]
  | .vwait => [3]
  | _ => [w.width.toNat]

/-- Whole-vector forms (R47, R238, R268, R274, R384). -/
def VOp.whole (o : VOp) : Bool :=
  match o with
  | .vslideup | .vslidedown | .vperm | .vbcast | .vcompress | .vexpand | .vredsum | .vredmin
  | .vredmax | .vredand | .vredor | .vredxor | .vscansum | .vscanmin | .vscanmax | .vpop | .vfirst
  | .vbqAny | .vbqNone | .vext | .vldm | .vstm | .vsetlf | .vxint | .vxuni | .vxmrg | .vwait => true
  | _ => false

/-- Forms that must be the only slot of their convoy (R268, R278), checked with reason 0x8. -/
def VOp.alone (o : VOp) : Bool :=
  match o with
  | .vldr | .vldm | .vstr | .vstm | .accwinSum | .accwinMin | .accwinMax | .accmerge => true
  | _ => false

/-- Forms that change VL (R270). -/
def VOp.setsVl (o : VOp) : Bool :=
  match o with
  | .vldff | .vldStrm | .vsetlf | .vxuni | .vxmrg => true
  | _ => false

/-- The forms that return a scalar through the reply queue (R239, R274, R327). -/
def VOp.replies (o : VOp) : Bool :=
  match o with
  | .vpop | .vfirst | .vext | .vsetlf | .vxuni | .vxmrg | .fstat => true
  | _ => false

/-- The forms that push one bit into the branch queue (R240). -/
def VOp.pushes (o : VOp) : Bool := o == .vbqAny || o == .vbqNone

/-- The unit code that admits a vector major (R35). -/
def unitOfMajor (major : Nat) : Option Nat :=
  match major with
  | 0x0A | 0x0B | 0x0C | 0x0E | 0x0F => some 0
  | 0x01 | 0x02 | 0x03 | 0x09 => some 1
  | 0x04 | 0x05 | 0x06 => some 2
  | 0x07 | 0x08 | 0x0D => some 3
  | 0x10 | 0x11 | 0x12 => some 4
  | 0x13 | 0x14 => some 5
  | _ => none

/-! ### Fabric unit words -/

/-- A source selector that is not reserved (R314). -/
def unitSrcOk (s : BitVec 5) : Bool := decide (s.toNat ≤ 0x11)

/-- A destination selector that is not reserved (R314). -/
def unitDstOk (d : BitVec 5) : Bool := decide (d.toNat ≤ 0x0F) || d == 0x1F

/-- The kinds of unit operation (R315). -/
inductive UKind where
  | int | float | quant
  deriving DecidableEq, Repr

/-- The kind of each unit operation (R315). -/
def UOp.kind : UOp → UKind
  | .mov | .add | .sub | .mul | .min | .max | .and | .or | .xor | .shl | .shr | .seq | .slt | .sle => .int
  | .fadd | .fsub | .fmul | .fmac | .fmin | .fmax => .float
  | .bamax | .qcvt => .quant

/-- The field rules of a unit instruction (R314, R315; reason 0x02 of R324). -/
def UOp.fieldsOk (o : UOp) (u : UFields) : Bool :=
  unitSrcOk u.a && unitSrcOk u.b && unitDstOk u.d
    && (match o.kind with
        | .int => decide (u.fmt.toNat ≤ 1) && u.rm == 0
        | .float => decide (2 ≤ u.fmt.toNat ∧ u.fmt.toNat ≤ 5) && fmtWidthOk u.fmt.toNat u.w.toNat
            && roundOk u.rm
        | .quant => decide (8 ≤ u.fmt.toNat ∧ u.fmt.toNat ≤ 13) && u.w == 2 && roundOk u.rm)
    && (o != .fmac || decide (8 ≤ u.d.toNat ∧ u.d.toNat ≤ 15))

end Sys2Proof
end

