-- ==== Sys2Proof/Machine/Map.lean ====
section
/-!
DEFINITION. Helpers on bit fields, byte lists and sorted or keyed lists that the rest of the machine uses.
-/

namespace Sys2Proof

/-! ### Bit fields -/

/-- `w` with the `len` bits from `lo` replaced by `v` (R5). -/
def setFld {n : Nat} (w : BitVec n) (lo : Nat) {len : Nat} (v : BitVec len) : BitVec n :=
  (w &&& ~~~((BitVec.allOnes len).setWidth n <<< lo)) ||| (v.setWidth n <<< lo)

/-- `w` with bit `i` replaced by `b`. -/
def setBit {n : Nat} (w : BitVec n) (i : Nat) (b : Bool) : BitVec n := setFld w i (BitVec.ofBool b)

/-- The number of 1 bits among the low `n` bits of `w`. -/
def popBelow (w : Nat) : Nat → Nat
  | 0 => 0
  | n + 1 => popBelow w n + (if w.testBit n then 1 else 0)

/-- The number of 1 bits of a word. -/
def popcount {n : Nat} (w : BitVec n) : Nat := popBelow w.toNat n

/-- The indices below `n` whose bit in `w` is 1, in ascending order. -/
def bitsOf {n : Nat} (w : BitVec n) : List Nat := (List.range n).filter (fun i => w.getLsbD i)

/-- A word from a Bool. -/
def boolWord (b : Bool) : Word := if b then 1 else 0

/-! ### Sorted sets of numbers -/

/-- Insertion into a rising list. -/
def setInsert (l : List Nat) (a : Nat) : List Nat :=
  match l with
  | [] => [a]
  | b :: t => if a < b then a :: b :: t else if a = b then b :: t else b :: setInsert t a

/-- Removal from a rising list. -/
def setErase (l : List Nat) (a : Nat) : List Nat := l.filter (fun b => b != a)

/-! ### Keyed lists -/

/-- The value of a key, first match. -/
def assoc {κ α : Type} [DecidableEq κ] (l : List (κ × α)) (k : κ) : Option α :=
  match l with
  | [] => none
  | (k', a) :: t => if k' = k then some a else assoc t k

/-- The list with the value of a key replaced, or added at the end. -/
def assocSet {κ α : Type} [DecidableEq κ] (l : List (κ × α)) (k : κ) (a : α) : List (κ × α) :=
  match l with
  | [] => [(k, a)]
  | (k', b) :: t => if k' = k then (k, a) :: t else (k', b) :: assocSet t k a

/-- The list without a key. -/
def assocErase {κ α : Type} [DecidableEq κ] (l : List (κ × α)) (k : κ) : List (κ × α) :=
  l.filter (fun e => decide (e.1 ≠ k))

/-- The list with element `i` replaced by its image. -/
def listUpd {α : Type} (l : List α) (i : Nat) (f : α → α) : List α :=
  match l, i with
  | [], _ => []
  | a :: t, 0 => f a :: t
  | a :: t, i + 1 => a :: listUpd t i f

/-- The list without element `i`. -/
def listDel {α : Type} (l : List α) (i : Nat) : List α := l.take i ++ l.drop (i + 1)

/-- The first index at which a predicate holds. -/
def firstIdx {α : Type} (p : α → Bool) : List α → Nat → Option Nat
  | [], _ => none
  | a :: t, i => if p a then some i else firstIdx p t (i + 1)

/-- The largest of a list, 0 for the empty one. -/
def maxNat (l : List Nat) : Nat := l.foldl Nat.max 0

/-- The number read from little-endian bytes `[at, at + n)` of a list (R5). -/
def leAt (bs : List Byte) (off n : Nat) : Nat :=
  ((bs.drop off).take n).foldr (fun b acc => b.toNat + 256 * acc) 0

/-- The first `n` bytes of a number, lowest first (R5). -/
def bytesOf : Nat → Nat → List Byte
  | 0, _ => []
  | n + 1, v => BitVec.ofNat 8 v :: bytesOf n (v / 256)

/-- The number of little-endian bytes (R5). -/
def natOf (bs : List Byte) : Nat := bs.foldr (fun b acc => b.toNat + 256 * acc) 0

/-- `a` rounded up to a multiple of `b`. -/
def roundup (a b : Nat) : Nat := (a + b - 1) / b * b

/-- A number of `n` bits read as two's complement (R74). -/
def signedNat (n v : Nat) : Int := if v < 2 ^ (n - 1) then (v : Int) else (v : Int) - 2 ^ n

/-- The low `n` bits of an integer (R74). -/
def wrapInt (n : Nat) (v : Int) : Nat := (v % (2 ^ n : Nat)).toNat

/-- The low `n` bits of `v`, sign-extended to 64 bits (R56). -/
def sextNat (n v : Nat) : Word := BitVec.ofInt 64 (signedNat n (v % 2 ^ n))

/-- The low `n` bits of `v`, zero-extended to 64 bits (R56). -/
def zextNat (n v : Nat) : Word := BitVec.ofNat 64 (v % 2 ^ n)

end Sys2Proof
end

