-- ==== Sys2Proof/Machine/Ops.lean ====
section
/-!
DEFINITION. The named operations over registers and memory bytes, taking a trap or an interrupt, and
returning from one (R53, R105, R420, R424).
-/

namespace Sys2Proof.Machine

/-! ### Harts -/

/-- The hart of a number. -/
def State.hart (s : State) (h : HartId) : Hart := s.harts[h.val]'h.isLt

/-- The state with a hart replaced by its image. -/
def State.updHart (s : State) (h : HartId) (f : Hart → Hart) : State :=
  { s with harts := s.harts.set h.val (f (s.hart h)) h.isLt }

/-- The hart whose turn it is. -/
def State.me (s : State) : Hart := s.hart s.cur

/-- The state with the hart whose turn it is replaced by its image. -/
def State.updMe (s : State) (f : Hart → Hart) : State := s.updHart s.cur f

/-- The tile of a hart (R14). -/
def tileOf (h : HartId) : Fin 224 := ⟨h.val / 4, by have := h.isLt; omega⟩

/-- The context of a hart on its tile (R16). -/
def ctxOf (h : HartId) : Nat := h.val % 4

/-- The compute die of a tile (R14). -/
def dieOf (t : Fin 224) : Fin 4 := ⟨t.val / 56, by have := t.isLt; omega⟩

/-- The hart of a tile and context. -/
def hartAt (t : Fin 224) (c : Fin 4) : HartId := ⟨t.val * 4 + c.val, by have := t.isLt; have := c.isLt; omega⟩

/-- The hart of a tile number and context number, if there is one. -/
def hartAt? (t c : Nat) : Option HartId :=
  if ht : t < 224 then if hc : c < 4 then some (hartAt ⟨t, ht⟩ ⟨c, hc⟩) else none else none

/-- The harts of a tile, by context. -/
def hartsOf (t : Fin 224) : List HartId := [hartAt t 0, hartAt t 1, hartAt t 2, hartAt t 3]

/-- Every hart context, in order. -/
def allHarts : List HartId := List.finRange 896

/-- The tile of a number. -/
def State.tile (s : State) (t : Fin 224) : Tile := s.tiles[t.val]'t.isLt

/-- The state with a tile replaced by its image. -/
def State.updTile (s : State) (t : Fin 224) (f : Tile → Tile) : State :=
  { s with tiles := s.tiles.set t.val (f (s.tile t)) t.isLt }

/-- The die of a number. -/
def State.die (s : State) (d : Fin 4) : Die := s.dies[d.val]'d.isLt

/-- The state with a die replaced by its image. -/
def State.updDie (s : State) (d : Fin 4) (f : Die → Die) : State :=
  { s with dies := s.dies.set d.val (f (s.die d)) d.isLt }

/-- The landing die of a number. -/
def State.landing (s : State) (d : Fin 8) : Landing := s.landings[d.val]'d.isLt

/-- The state with a landing die replaced by its image. -/
def State.updLanding (s : State) (d : Fin 8) (f : Landing → Landing) : State :=
  { s with landings := s.landings.set d.val (f (s.landing d)) d.isLt }

/-! ### Registers -/

/-- Integer register `r`; x0 reads as zero (R53). -/
def Hart.getX (H : Hart) (r : Reg) : Word := if r = 0 then 0 else H.x[r.toNat]'(by have := r.isLt; omega)

/-- A write of integer register `r`; a write of x0 is discarded (R53). -/
def Hart.setX (H : Hart) (r : Reg) (w : Word) : Hart :=
  if r = 0 then H else { H with x := H.x.set r.toNat w (by have := r.isLt; omega) }

/-- Floating-point register `r` (R53). -/
def Hart.getF (H : Hart) (r : Reg) : Word := H.f[r.toNat]'(by have := r.isLt; omega)

/-- A write of floating-point register `r` (R53). -/
def Hart.setF (H : Hart) (r : Reg) (w : Word) : Hart :=
  { H with f := H.f.set r.toNat w (by have := r.isLt; omega) }

/-- Integer register of the hart whose turn it is. -/
def State.getX (s : State) (r : Reg) : Word := s.me.getX r

/-- A write of an integer register of the hart whose turn it is. -/
def State.setX (s : State) (r : Reg) (w : Word) : State := s.updMe (fun H => H.setX r w)

/-- Floating-point register of the hart whose turn it is. -/
def State.getF (s : State) (r : Reg) : Word := s.me.getF r

/-- A write of a floating-point register of the hart whose turn it is. -/
def State.setF (s : State) (r : Reg) (w : Word) : State := s.updMe (fun H => H.setF r w)

/-- The program counter of the hart whose turn it is. -/
def State.pc (s : State) : Word := s.me.pc

/-- The hart whose turn it is goes on at `w`, running. -/
def State.goTo (s : State) (w : Word) : State :=
  s.updMe (fun H => { H with pc := w, run := .running, wait := .none, waited := 0, watchdog := 0, ladder := 0 })

/-- The scalar word retires: the next PC is PC + 4 (R27). -/
def State.advance (s : State) : State := s.goTo (s.pc + 4)

/-- The hart whose turn it is waits in its instruction, with no effect (R196). -/
def State.waitIn (s : State) (w : Wait) : State :=
  s.updMe (fun H => { H with run := .waiting, wait := w })

/-- A word of VSTART (R48): the slot of a trap where there is one, and the element. -/
def vstartOf (slotv : Bool) (slot elem : Nat) : Word :=
  BitVec.ofNat 64 (elem + 2 ^ 16 * slot + (if slotv then 2 ^ 18 else 0))

/-- A hart with VSTART replaced. -/
def Hart.setVstart (H : Hart) (w : Word) : Hart := { H with csr := { H.csr with vstart := w } }

/-- The lanes of a hart: 16 for each cluster it owns (R44, R230). -/
def Hart.lanes (H : Hart) : Nat := 16 * popcount (fld H.csr.lpart 0 16)

/-- The lane mode in VCFG.MODE: 0 vector, 1 matrix, 2 fabric (R232). -/
def Hart.mode (H : Hart) : Nat := (fld H.csr.vcfg 22 2).toNat

/-- VCFG.VL (R232). -/
def Hart.vl (H : Hart) : Nat := (fld H.csr.vcfg 0 16).toNat

/-- VCFG with VL replaced (R232). -/
def Hart.setVl (H : Hart) (n : Nat) : Hart :=
  { H with csr := { H.csr with vcfg := setFld H.csr.vcfg 0 (BitVec.ofNat 16 n) } }

/-- VCFG with the lane mode replaced (R232). -/
def Hart.setMode (H : Hart) (m : Nat) : Hart :=
  { H with csr := { H.csr with vcfg := setFld H.csr.vcfg 22 (BitVec.ofNat 2 m) } }

/-- VLBYTES: 512 for each cluster owned (R230). -/
def Hart.vlbytes (H : Hart) : Nat := 512 * popcount (fld H.csr.lpart 0 16)

/-- VLMAX at an element width of `8 * 2 ^ w` bits (R230). -/
def Hart.vlmax (H : Hart) (w : Nat) : Nat := 4 * H.lanes * 8 / 2 ^ w

/-- The bits of an element of width code `w` (R39). -/
def widthBits (w : Nat) : Nat := 8 * 2 ^ w

/-! ### Traps and returns -/

/-- The cause code of R421. -/
def Cause.code : Cause → Nat
  | .instrMisaligned => 0x00
  | .fetchFault => 0x01
  | .illegalInstruction => 0x02
  | .illegalConvoy => 0x03
  | .breakpoint => 0x04
  | .envCall => 0x05
  | .misaligned => 0x06
  | .pageFault => 0x07
  | .permission => 0x08
  | .access => 0x09
  | .bankRole => 0x0A
  | .bankGrant => 0x0B
  | .atomic => 0x0C
  | .memoryError => 0x0D
  | .reservation => 0x0E
  | .shadowStack => 0x0F
  | .rasOverflow => 0x10
  | .rasUnderflow => 0x11
  | .branchUnderflow => 0x12
  | .vectorLength => 0x13
  | .laneState => 0x14
  | .crossingState => 0x15
  | .strmConfig => 0x16
  | .strmState => 0x17
  | .strmBusy => 0x18
  | .strmDirection => 0x19
  | .strmEnd => 0x1A
  | .ringConfig => 0x1B
  | .ringUnderflow => 0x1C
  | .matrixShape => 0x1D
  | .matrixState => 0x1E
  | .windowState => 0x1F
  | .windowIndex => 0x20
  | .fabricConfig => 0x21
  | .fabricState => 0x22
  | .tokenDest => 0x23
  | .capState => 0x24
  | .capFormat => 0x25
  | .peerLost => 0x30
  | .capUndeliverable => 0x31
  | .capFault => 0x32

/-- Taking a trap or an interrupt (R420): TEPC, TCAUSE and TVAL are written, SPP and SPIE save the level
and SIE, SIE clears, the level becomes supervisor and the PC the handler's address. Nothing else
changes. -/
def Hart.enterTrap (H : Hart) (int : Bool) (code : Nat) (tval epc : Word) : Hart :=
  let st := setBit (setBit (setBit H.csr.sstat 8 H.sup) 5 (H.csr.sstat.getLsbD 1)) 1 false
  { H with
    csr := { H.csr with
      tepc := epc &&& ~~~3#64
      tcause := setBit (BitVec.ofNat 64 code) 63 int
      tval := tval
      sstat := st }
    sup := true
    pc := H.csr.tvec &&& ~~~3#64
    run := .running
    wait := .none
    waited := 0 }

/-- The hart whose turn it is takes a synchronous trap at its instruction (R56, R420). -/
def State.trap (s : State) (c : Cause) (tval : Word) : State :=
  s.updMe (fun H => H.enterTrap false c.code tval H.pc)

/-- Returning from a trap (R424): the level and the interrupt enable come from SPP and SPIE, SPIE becomes
1 and SPP 0, and the PC is TEPC. -/
def Hart.leaveTrap (H : Hart) : Hart :=
  let st := H.csr.sstat
  { H with
    csr := { H.csr with sstat := setBit (setBit (setBit st 1 (st.getLsbD 5)) 5 true) 8 false }
    sup := st.getLsbD 8
    pc := H.csr.tepc &&& ~~~3#64
    run := .running
    wait := .none
    waited := 0
    watchdog := 0
    ladder := 0 }

/-- The outcome of an operation of the hart whose turn it is: it retires, traps or waits (R56, R196,
R420). No effect follows a trap or a wait. -/
def runOp (op : Op Unit) (s : State) : Host.Outcome State Fault Refusal :=
  match op s with
  | .ok _ s' => .next s'
  | .error (.trap c v) s' => .next (s'.trap c v)
  | .error (.wait w) s' => .next (s'.waitIn w)

/-- End the operation with a trap. -/
def trapOp {α : Type} (c : Cause) (tval : Word) : Op α := throw (.trap c tval)

/-- End the operation with a wait. -/
def waitOp {α : Type} (w : Wait) : Op α := throw (.wait w)

/-- Trap unless the condition holds. -/
def check (b : Bool) (c : Cause) (tval : Word) : Op Unit := if b then pure () else trapOp c tval

/-- The hart whose turn it is. -/
def getMe : Op Hart := do return (← get).me

/-- Replace the hart whose turn it is by its image. -/
def updMe (f : Hart → Hart) : Op Unit := modify (fun s => s.updMe f)

/-- An integer register of the hart whose turn it is. -/
def readX (r : Reg) : Op Word := do return (← get).getX r

/-- Write an integer register of the hart whose turn it is. -/
def writeX (r : Reg) (w : Word) : Op Unit := modify (fun s => s.setX r w)

/-- Retire the scalar word. -/
def retire : Op Unit := modify State.advance

/-- Write an integer result and retire. -/
def retireX (r : Reg) (w : Word) : Op Unit := modify (fun s => (s.setX r w).advance)

/-! ### Memory bytes -/

/-- What a byte reads as that nothing has written. DESIGN CHOICE (log 2): the manual gives memory no
reset contents. Unsafe. -/
def unlisted : Byte := 0

/-- The byte of a cell (R105). -/
def memByte (m : List Host.Cell) (a : Nat) : Byte :=
  match m with
  | [] => unlisted
  | (k, b) :: t => if k = a then b else if a < k then unlisted else memByte t a

/-- Memory with the byte of a cell written, in canonical form. -/
def memPut (m : List Host.Cell) (a : Nat) (b : Byte) : List Host.Cell :=
  match m with
  | [] => if b = unlisted then [] else [(a, b)]
  | (k, c) :: t =>
    if a < k then (if b = unlisted then (k, c) :: t else (a, b) :: (k, c) :: t)
    else if a = k then (if b = unlisted then t else (a, b) :: t)
    else (k, c) :: memPut t a b

/-- The canonical form from an address up: addresses strictly rising, and no byte equal to what an
unlisted address reads as. -/
def memWfFrom : Nat → List Host.Cell → Bool
  | _, [] => true
  | lo, (k, b) :: t => decide (lo ≤ k) && b != unlisted && memWfFrom (k + 1) t

/-- The canonical form of memory. -/
def Memory.wf (m : List Host.Cell) : Bool := memWfFrom 0 m

/-- The bytes of `n` cells from `a` up. -/
def memBytes (m : List Host.Cell) (a : Nat) : Nat → List Byte
  | 0 => []
  | n + 1 => memByte m a :: memBytes m (a + 1) n

/-- Memory with the cells from `a` up written. -/
def memPutAll (m : List Host.Cell) (a : Nat) : List Byte → List Host.Cell
  | [] => m
  | b :: t => memPutAll (memPut m a b) (a + 1) t

/-! ### The physical map -/

/-- The region of a physical address (R105). -/
def regionOf (pa : Nat) : Region :=
  if pa < 0x6000000000 then .hbm
  else if pa < 0x8000000000 then .reserved
  else if pa < 0x8038000000 then .spad
  else if pa < 0x10000000000 then .reserved
  else if pa < 0x40000000000 then .tier
  else if pa < 0x1000000000000 then .reserved
  else if pa < 0xF000000000000 then .peer
  else if pa < 0xF800000000000 then .host
  else if pa < 0x10000000000000 then .device
  else .reserved

/-- The tile, bank and byte of a scratchpad address (R105). -/
def spadTile (pa : Nat) : Nat := (pa - 0x8000000000) / 0x400000
def spadBank (pa : Nat) : Nat := (pa - 0x8000000000) % 0x400000 / 0x10000

/-- The scratchpad address of a byte of a bank (R105). -/
def spadAddr (tile bank off : Nat) : Nat := 0x8000000000 + tile * 0x400000 + bank * 0x10000 + off

/-- The cell of a host address (R114). -/
def hostCell (a : Nat) : Nat := 0x1000000000000000 + a

/-- The cell of an address of another module (R113). -/
def peerCell (module a : Nat) : Nat := 0x10000000000000000 * (module + 1) + a

/-- The landing die that homes an address of HBM4 or the second tier (R108, R456). -/
def homeOf (level pa : Nat) : Fin 8 :=
  if level = 1 && decide (pa < 0x6000000000) then ⟨pa / 4096 % 2, by omega⟩
  else ⟨Nat.xor (Nat.xor (pa / 4096 % 8) (pa / 32768 % 8)) (pa / 262144 % 8) % 8, by omega⟩

/-- The offset within its stack of an HBM4 address, at a service level (R108, R456). -/
def stackOffset (level pa : Nat) : Nat :=
  pa % 2 ^ 52 / 2 ^ (if level = 1 then 13 else 15) * 2 ^ 12 + pa % 2 ^ 12

/-- The channel controller of its stack that an HBM4 address is at (R108). -/
def channelOf (level pa : Nat) : Nat :=
  Nat.xor (stackOffset level pa / 2 ^ 7 % 32) (stackOffset level pa / 2 ^ 12 % 32)

/-- The byte offset within its channel of an HBM4 address (R108). -/
def channelOffset (level pa : Nat) : Nat := stackOffset level pa / 2 ^ 12 * 128 + stackOffset level pa % 128

/-- The landing dies that exist at a service level. -/
def dieList : List (Fin 8) := [0, 1, 2, 3, 4, 5, 6, 7]

end Sys2Proof.Machine
end

