-- ==== Sys2Proof/Machine/Flags.lean ====
section
/-!
DEFINITION. The sticky flags (R87) and where they are kept (FSTAT R217, MSTAT R301), the rounding modes and
their selectors (R39, R84, R85).
-/

namespace Sys2Proof.Machine

/-- A set of sticky flags, in the order of FSTAT[6:0] (R217): NV, DZ, OF, UF, NX, SAT, TRES from bit 6. -/
abbrev Flags := BitVec 7

def flNV : Flags := 0x40
def flDZ : Flags := 0x20
def flOF : Flags := 0x10
def flUF : Flags := 0x08
def flNX : Flags := 0x04
def flSAT : Flags := 0x02
def flTRES : Flags := 0x01

/-- The flag if the condition holds. -/
def flIf (b : Bool) (f : Flags) : Flags := if b then f else 0

/-- FSTAT with flags added (R87). -/
def Hart.raise (H : Hart) (f : Flags) : Hart :=
  { H with csr := { H.csr with fstat := H.csr.fstat ||| f.setWidth 64 } }

/-- MSTAT with flags added (R87, R301). -/
def Hart.raiseM (H : Hart) (f : Flags) : Hart :=
  { H with csr := { H.csr with mstat := H.csr.mstat ||| f.setWidth 64 } }

/-- The rounding modes (R84). -/
inductive RMode where
  | rne | rtz | rdn | rup | rmm
  deriving DecidableEq, Repr

/-- The mode of a code from 0 to 4 (R84). FSTAT.RM never holds another (R85). -/
def RMode.ofCode (c : Nat) : RMode :=
  match c with
  | 1 => .rtz
  | 2 => .rdn
  | 3 => .rup
  | 4 => .rmm
  | _ => .rne

/-- The mode that a selector names: 0b111 is the mode in FSTAT (R84). -/
def Hart.rmode (H : Hart) (sel : BitVec 3) : RMode :=
  if sel = 7 then RMode.ofCode (fld H.csr.fstat 7 3).toNat else RMode.ofCode sel.toNat

/-- FSTAT.FTZ (R90, R217). -/
def Hart.ftz (H : Hart) : Bool := H.csr.fstat.getLsbD 10

end Sys2Proof.Machine
end

