-- ==== Sys2Proof/Config.lean ====
section
/-!
DEFINITION. What the manual leaves to external standards or to no rule at all, as constants without a body
(log 10, log 12), and the constants that one part is made with.
-/

namespace Sys2Proof.Config

open Sys2Proof.Machine

/-- The byte at `off` of a sector that is read under another key than it was written under: from the sector
number, the slot it was written under, the slot it is read under and its 32 plain bytes. R117 says only
that it bears no useful relation to them. FREE VALUE (log 10). -/
opaque crossKey (sector : Nat) (wrote reads : KeySlot) (plain : List Byte) (off : Nat) : Byte

/-- A value that the manual leaves open, fresh at each count. FREE VALUE (log 10). -/
opaque freeWord (n : Nat) : Word

/-- The SM3 digest of a list of bytes (an external standard, 00 and R454, R455). FREE VALUE (log 12). -/
opaque sm3 (data : List Byte) : List Byte

/-- The SM2 signature of bytes under the identity key of this part (R454, R465). FREE VALUE (log 12). -/
opaque sm2Sign (data : List Byte) : List Byte

/-- Whether a signature of bytes is valid under fused public key `k` (R455). FREE VALUE (log 12). -/
opaque sm2Verify (k : Nat) (data sig : List Byte) : Bool

/-- The plaintext of an SM2 ciphertext under the key-wrap key of this part (R454). FREE VALUE (log 12). -/
opaque sm2Decrypt (cipher : List Byte) : List Byte

/-- Whether C3 of a ciphertext matches after decryption (R454). FREE VALUE (log 12). -/
opaque sm2Match (cipher : List Byte) : Bool

/-- The x and y of the key-wrap public key of this part (R454). FREE VALUE (log 12). -/
opaque keyWrapPublic : List Byte

/-- The fused state that ATTEST digests (R454). FREE VALUE (log 12). -/
opaque fusedState : List Byte

/-- Chafen's vendor ID in the fuse block of this part (R452). FREE VALUE (log 12). -/
opaque vendorId : BitVec 16

end Sys2Proof.Config
end

