-- ==== Sys2Proof/Machine/Memory.lean ====
section
/-!
DEFINITION. The physical checks of an access (R106, R112 to R118, R154), bytes under keys (R115 to R118), poison (R111),
who sees which store (R334 to R342), and full/empty bits (R157).
-/

namespace Sys2Proof.Machine

/-! ### Key slots and regions -/

/-- The key slot of an index (R115). -/
def State.key (s : State) (k : Nat) : KeySlot := s.keys[k]?.getD ⟨0, .none⟩

/-- The slot is INVALID (R118). -/
def State.keyInvalid (s : State) (k : Nat) : Bool := (s.key k).state == 0

/-- The enabled peer window that covers an address (R113). -/
def State.peerOf (s : State) (pa : Nat) : Option PeerWin :=
  s.peerWin.toList.find? (fun w => w.on && decide (w.base ≤ pa) && decide (pa < w.base + w.size))

/-- The tiles that exist at a service level (R456). -/
def State.tilesUp (s : State) : Nat := if s.mgmt.level = 1 then 56 else 224

/-- The role of the bank behind a scratchpad address. -/
def State.roleAt (s : State) (pa : Nat) : Role :=
  match s.tiles[spadTile pa]? with
  | some t => match t.banks[spadBank pa]? with
    | some b => b.role
    | none => .cache
  | none => .cache

/-- Where the bytes of a physical address are: a cell, a fault, or a host translation not yet answered
(R105, R106, R112 to R114, R431, R456). -/
inductive Spot where
  | cell (c : Nat)
  | fault (c : Cause)
  | askHost (page : Nat)
  deriving DecidableEq, Repr

/-- The host side of R431 for an offset of the host window. -/
def State.hostPlace (s : State) (asid : BitVec 16) (off : Nat) : Spot :=
  if s.hostIf.atsen then
    match assoc s.hostIf.atc (asid, off / 4096) with
    | some p => .cell (hostCell (p * 4096 + off % 4096))
    | none =>
      if s.hostIf.failed.contains ⟨asid, off / 4096⟩ then .fault .access else .askHost (off / 4096)
  else .cell (hostCell off)

/-- The place of a physical address for accesses of an address space. -/
def State.place (s : State) (asid : BitVec 16) (pa : Nat) : Spot :=
  match regionOf pa with
  | .hbm => if s.mgmt.level = 1 && decide (0x1800000000 ≤ pa) then .fault .access else .cell pa
  | .tier =>
    if s.mgmt.level = 2 && decide (pa - 0x10000000000 < s.tierGiB * 0x40000000) then .cell pa
    else .fault .access
  | .spad =>
    if spadTile pa < s.tilesUp then
      if s.roleAt pa = .spad then .cell pa else .fault .bankRole
    else .fault .access
  | .peer =>
    if s.mgmt.level = 2 then
      match s.peerOf pa with
      | some w => .cell (peerCell w.target (w.offset + (pa - w.base)))
      | none => .fault .access
    else .fault .access
  | .host =>
    if pa - 0xF000000000000 < s.hostBytes then s.hostPlace asid (pa - 0xF000000000000)
    else .fault .access
  | .device | .reserved => .fault .access

/-- A sector is poisoned (R111). -/
def State.poisoned (s : State) (pa size : Nat) : Bool :=
  decide (regionOf pa = .hbm ∨ regionOf pa = .tier)
    && (List.range ((pa + size - 1) / 32 - pa / 32 + 1)).any (fun i => s.poison.contains (pa / 32 + i))

/-! ### Bytes under keys -/

/-- Encrypted regions (R116). -/
def encrypted (pa : Nat) : Bool := regionOf pa == .hbm || regionOf pa == .tier

/-- The byte at a place, read under a key index (R117). -/
def State.byteUnder (s : State) (cell key : Nat) : Byte :=
  if encrypted cell then
    match assoc s.sectorKey (cell / 32) with
    | some k =>
      if k = s.key key then memByte s.mem cell
      else Config.crossKey (cell / 32) k (s.key key) (memBytes s.mem (cell / 32 * 32) 32) (cell % 32)
    | none => memByte s.mem cell
  else memByte s.mem cell

/-- The `n` bytes from a cell up, read under a key index. -/
def State.bytesUnder (s : State) (cell key : Nat) : Nat → List Byte
  | 0 => []
  | n + 1 => s.byteUnder cell key :: s.bytesUnder (cell + 1) key n

/-- Before a write under a key, a sector written under another slot takes the bytes that it reads as under
the new one, since the line was written back and is now held under the new key (R117). -/
def State.rekey (s : State) (sector key : Nat) : State :=
  match assoc s.sectorKey sector with
  | some k =>
    if k = s.key key then s
    else { s with
      mem := memPutAll s.mem (sector * 32) (s.bytesUnder (sector * 32) key 32)
      sectorKey := assocSet s.sectorKey sector (s.key key) }
  | none => { s with sectorKey := assocSet s.sectorKey sector (s.key key) }

/-- One byte written at a cell under a key index. -/
def State.putByte (s : State) (cell key : Nat) (b : Byte) : State :=
  let s := if encrypted cell then s.rekey (cell / 32) key else s
  { s with mem := memPut s.mem cell b }

/-- Bytes written from a cell up under a key index. -/
def State.putBytes (s : State) (cell key : Nat) : List Byte → State
  | [] => s
  | b :: t => (s.putByte cell key b).putBytes (cell + 1) key t

/-! ### Stores that are not yet performed everywhere (R336 to R342, log 7) -/

/-- How far a hart is from another (R335): the least scope, counted from 1, that holds both. -/
def farness (a b : HartId) : Nat :=
  if a = b then 1 else if tileOf a = tileOf b then 2 else if dieOf (tileOf a) = dieOf (tileOf b) then 3 else 4

/-- Who reads memory (R334): the scalar or the vector side of a hart, an engine or the fetches of a hart, a table walk, an
agent of another module, and what reads memory itself. -/
inductive Viewer where
  | side (h : HartId) (scalar : Bool)
  | engine (h : HartId)
  | walk
  | peer
  | home
  deriving DecidableEq, Repr

/-- A retired store is seen by its own side of its hart, and by those within the scope at which it is performed
(R336, R339, R427). -/
def Delayed.seenBy (d : Delayed) : Viewer → Bool
  | .side h scalar => (d.hart == h && d.scalar == scalar) || decide (farness d.hart h ≤ d.reach)
  | .engine h => decide (farness d.hart h ≤ d.reach)
  | .walk => decide (4 ≤ d.reach)
  | .peer => decide (5 ≤ d.reach)
  | .home => false

/-- The byte of a store at a cell, if it writes there. -/
def Delayed.at (d : Delayed) (cell : Nat) : Option Byte :=
  if d.pa ≤ cell then (d.bytes[cell - d.pa]?).join else none

/-- A store has a byte among `n` cells. -/
def Delayed.meets (d : Delayed) (cell n : Nat) : Bool :=
  decide (d.pa < cell + n) && decide (cell < d.pa + d.bytes.length)

/-- A byte with stores laid over it in their order. -/
def overlay (ds : List Delayed) (cell : Nat) (b : Byte) : Byte := ds.foldl (fun b d => (d.at cell).getD b) b

/-- The bytes from a cell up with stores laid over them. -/
def overlayAll (ds : List Delayed) (cell : Nat) : List Byte → List Byte
  | [] => []
  | b :: t => overlay ds cell b :: overlayAll ds (cell + 1) t

/-- Bytes written from a cell up, but for those that the store leaves alone. -/
def State.putSome (s : State) (cell key : Nat) : List (Option Byte) → State
  | [] => s
  | some b :: t => (s.putByte cell key b).putSome (cell + 1) key t
  | none :: t => s.putSome (cell + 1) key t

/-- What is left of a release once `n` cells are overwritten (R341). -/
def Rel.without (r : Rel) (cell n : Nat) : List Rel :=
  if r.cell < cell + n ∧ cell < r.cell + r.size then
    (if r.cell < cell then [{ r with size := cell - r.cell }] else [])
      ++ (if cell + n < r.cell + r.size then [{ r with cell := cell + n, size := r.cell + r.size - (cell + n) }] else [])
  else [r]

/-- The releases at `n` cells are overwritten (R341). -/
def State.noteWrite (s : State) (cell n : Nat) : State :=
  if s.rels.isEmpty then s else { s with rels := s.rels.flatMap (fun r => r.without cell n) }

/-- A release stands at `n` cells (R341). -/
def State.noteRelease (s : State) (who : Agent) (scope cell n : Nat) : State :=
  { s with rels := if s.rels.contains ⟨who, scope, cell, n⟩ then s.rels else s.rels ++ [⟨who, scope, cell, n⟩] }

/-- The runs of cells that a list of bytes from a cell up names, as first cell and length. -/
def runsFrom (a : Nat) : List (Option Byte) → List (Nat × Nat)
  | [] => []
  | none :: t => runsFrom (a + 1) t
  | some _ :: t => match runsFrom (a + 1) t with
    | (b, n) :: r => if b = a + 1 then (a, n + 1) :: r else (a, 1) :: (b, n) :: r
    | [] => [(a, 1)]

/-- The runs of cells that a store writes. -/
def Delayed.runs (d : Delayed) : List (Nat × Nat) := runsFrom d.pa d.bytes

/-- A store performed in memory. -/
def State.performStore (s : State) (d : Delayed) : State :=
  let s := (d.runs.foldl (fun s r => s.noteWrite r.1 r.2) s).putSome d.pa d.key d.bytes
  match d.rel with
  | some scope => d.runs.foldl (fun s r => s.noteRelease (.hart d.hart) scope r.1 r.2) s
  | none => s

/-- The stores that a predicate takes, and with each the earlier ones that it overlaps, marked (R337). -/
def markDue (p : Delayed → Bool) : List Delayed → List (Delayed × Bool)
  | [] => []
  | d :: t =>
    let r := markDue p t
    (d, p d || r.any (fun e => e.2 && e.1.meets d.pa d.bytes.length)) :: r

/-- Every store that a predicate takes is performed in memory, each after the earlier ones that it overlaps (R337). -/
def State.drain (s : State) (p : Delayed → Bool) : State :=
  match s.delayed with
  | [] => s
  | ds =>
    let m := markDue p ds
    let s := ((m.filter (fun e => e.2)).map (fun e => e.1)).foldl State.performStore s
    { s with delayed := (m.filter (fun e => !e.2)).map (fun e => e.1) }

/-- Memory as a viewer has `n` cells. -/
def State.seen (s : State) (v : Viewer) (cell n : Nat) : State :=
  (s.delayed.filter (fun d => d.seenBy v && d.meets cell n)).foldl State.performStore s

/-- The `n` bytes from a cell up as a viewer reads them under a key index (R117, R337). -/
def State.read (s : State) (v : Viewer) (cell key n : Nat) : List Byte := (s.seen v cell n).bytesUnder cell key n

/-- A write of a viewer performed in memory, after the stores to those cells that it sees (R337). -/
def State.writeSome (s : State) (v : Viewer) (cell key : Nat) (bs : List (Option Byte)) : State :=
  ((s.drain (fun d => d.seenBy v && d.meets cell bs.length)).noteWrite cell bs.length).putSome cell key bs

/-- A write of bytes of a viewer. -/
def State.write (s : State) (v : Viewer) (cell key : Nat) (bs : List Byte) : State :=
  ((s.drain (fun d => d.seenBy v && d.meets cell bs.length)).noteWrite cell bs.length).putBytes cell key bs

/-- Bytes laid over a list of bytes from an offset. -/
def layBytes (bs : List (Option Byte)) (off : Nat) (new : List (Option Byte)) : List (Option Byte) :=
  bs.take off ++ new ++ bs.drop (off + new.length)

/-- A store gathered into others, one for each `n` aligned bytes (R157, R338). -/
def gatherStore (n : Nat) (acc : List Delayed) (d : Delayed) : List Delayed :=
  let g := d.pa / n * n
  match acc with
  | [] => [{ d with pa := g, bytes := layBytes (List.replicate n none) (d.pa - g) d.bytes }]
  | e :: t =>
    if e.pa = g ∧ e.key = d.key then { e with bytes := layBytes e.bytes (d.pa - g) d.bytes } :: t
    else e :: gatherStore n t d

/-! ### Loads that are performed early (R339, R353, log 31) -/

/-- An early load has a byte among `n` cells. -/
def Early.meets (e : Early) (cell n : Nat) : Bool :=
  decide (e.cell < cell + n) && decide (cell < e.cell + e.bytes.length)

/-- The early loads that a predicate takes are given up. -/
def State.forgetWhere (s : State) (p : Early → Bool) : State :=
  if s.early.isEmpty then s else { s with early := s.early.filter (fun e => !p e) }

/-- The early loads of a hart are given up: of its scalar side, or of both. -/
def State.forget (s : State) (h : HartId) (scalarOnly : Bool) : State :=
  s.forgetWhere (fun e => e.hart == h && (e.scalar || !scalarOnly))

/-- The early loads of a side of a hart that have a byte among `n` cells are given up. -/
def State.forgetAt (s : State) (h : HartId) (scalar : Bool) (cell n : Nat) : State :=
  s.forgetWhere (fun e => e.hart == h && e.scalar == scalar && e.meets cell n)

/-- The first early load that a predicate takes, and the list without it and without those before it that share a
byte with it (R337). -/
def takeFirst (p q : Early → Bool) : List Early → Option (Early × List Early)
  | [] => none
  | e :: t =>
    if p e then some (e, t)
    else match takeFirst p q t with
      | some (x, r) => some (x, if q e then r else e :: r)
      | none => none

/-- What a side of a hart has read early from a cell up, if it has. -/
def State.takeEarly (s : State) (h : HartId) (scalar : Bool) (cell key n : Nat) : Option (List Byte × State) :=
  match takeFirst (fun e => e.hart == h && e.scalar == scalar && e.cell == cell && e.key == key && e.bytes.length == n)
      (fun e => e.hart == h && e.scalar == scalar && e.meets cell n) s.early with
  | some (e, rest) => some (e.bytes, { s with early := rest })
  | none => none

/-! ### Stores and atomics of a hart -/

/-- A store of a hart's scalar or vector side, with its scope where it is a release: performed now, or kept where the
hart's plan delays it. -/
def State.store (s : State) (h : HartId) (scalar : Bool) (cell key : Nat) (bs : List (Option Byte))
    (rel : Option Nat := none) : State :=
  let s := s.forgetAt h scalar cell bs.length
  match (s.hart h).delays with
  | true :: t =>
    let s := s.updHart h (fun H => { H with delays := t })
    { s with delayed := s.delayed ++ [⟨h, scalar, 0, cell, bs, key, rel, false⟩] }
  | _ =>
    let s := (s.updHart h (fun H => { H with delays := H.delays.tail })).drain
      (fun d => d.seenBy (.side h scalar) && d.meets cell bs.length)
    s.performStore ⟨h, scalar, 0, cell, bs, key, rel, false⟩

/-- The stores that a predicate takes are performed at a scope (R335, R336): at system scope, in memory. -/
def State.raise (s : State) (p : Delayed → Bool) (scope : Nat) : State :=
  if s.delayed.isEmpty then s
  else if 5 ≤ scope then s.drain p
  else { s with delayed := s.delayed.map (fun d => if p d then { d with reach := Nat.max d.reach (scope + 1) } else d) }

/-- Every store of a hart is performed in memory. -/
def State.drainHart (s : State) (h : HartId) : State := s.drain (fun d => d.hart == h)

/-- The stores of a hart's vector side to `n` cells have been returned to its vector loads (R340). -/
def State.observe (s : State) (h : HartId) (cell n : Nat) : State :=
  if s.delayed.any (fun d => d.hart == h && !d.scalar && !d.observed && d.meets cell n) then
    { s with delayed := s.delayed.map (fun d =>
        if d.hart == h && !d.scalar && d.meets cell n then { d with observed := true } else d) }
  else s

/-- What a release of a hart orders before itself is performed at its scope (R340): the hart's accesses of its class, and
every write that it may have observed. -/
def State.release (s : State) (h : HartId) (scalarOnly : Bool) (scope : Nat) : State :=
  s.raise (fun d => d.seenBy (.side h true) || (d.hart == h && d.observed)
    || (!scalarOnly && d.seenBy (.side h false))) scope

/-- An atomic update of bytes by a side of a hart, after the stores to those cells that it sees (R337): the releases
that stand there stay (R341), and its own joins them. -/
def State.update (s : State) (h : HartId) (scalar : Bool) (cell key size : Nat) (f : Nat → Nat)
    (rel : Option Nat := none) : Nat × State :=
  let s := (s.forgetAt h scalar cell size).drain (fun d => d.seenBy (.side h scalar) && d.meets cell size)
  let old := natOf (s.bytesUnder cell key size)
  let s := s.putBytes cell key (bytesOf size (f old))
  (old, match rel with
    | some scope => s.noteRelease (.hart h) scope cell size
    | none => s)

/-! ### Acquires (R340, R341) -/

/-- How far an agent is from a hart (R335). -/
def Agent.far (a : Agent) (h : HartId) : Nat :=
  match a with
  | .hart g => farness g h
  | .peer => 5
  | .host => 6

/-- The releases at `n` cells whose value a hart may read: those in memory, and those of delayed stores that it sees. -/
def State.relsAt (s : State) (h : HartId) (cell n : Nat) : List Rel :=
  let pending := (s.delayed.filter (fun d => d.seenBy (.side h true))).flatMap (fun d =>
    match d.rel with
    | some p => d.runs.map (fun r => (⟨.hart d.hart, p, r.1, r.2⟩ : Rel))
    | none => [])
  (s.rels ++ pending).filter
    (fun r => decide (r.cell < cell + n) && decide (cell < r.cell + r.size))

/-- Some releases, by agent and scope, synchronise with an acquire of a hart at a scope (R341), or there is none to
synchronise with: the acquire then orders its hart's accesses alone (R340). -/
def syncs (h : HartId) (scope : Nat) (rs : List (Agent × Nat)) : Bool :=
  rs.isEmpty || rs.any (fun r => decide (r.1.far h ≤ Nat.min r.2 scope + 1))

/-- An acquire of the value of some releases (R340, R341): no later access of its class has been performed before it.
Where every release is one whose agent does not reach, or is not reached, it orders nothing. -/
def State.acquireFrom (s : State) (h : HartId) (scalarOnly : Bool) (scope : Nat) (rs : List (Agent × Nat)) : State :=
  if s.early.isEmpty || !syncs h scope rs then s else s.forget h scalarOnly

/-- An acquire of `n` cells (R340, R341). -/
def State.acquire (s : State) (h : HartId) (scalarOnly : Bool) (scope cell n : Nat) : State :=
  if s.early.isEmpty then s
  else s.acquireFrom h scalarOnly scope ((s.relsAt h cell n).map (fun r => (r.who, r.scope)))

/-- A release noted for a channel or counter, once. -/
def noteRel (l : List (Nat × HartId × Nat)) (k : Nat) (r : HartId × Nat) : List (Nat × HartId × Nat) :=
  if l.contains (k, r) then l else l ++ [(k, r)]

/-- The releases noted for a channel or counter, by agent and scope. -/
def relsOf (l : List (Nat × HartId × Nat)) (k : Nat) : List (Agent × Nat) :=
  (l.filter (fun e => e.1 == k)).map (fun e => (.hart e.2.1, e.2.2))

/-! ### A hart's own streams (R346) -/

/-- A stream of a hart has written `n` cells: what the hart read there early is from before that write. -/
def State.notePast (s : State) (h : HartId) (num serial cell n : Nat) : State :=
  if s.early.any (fun e => e.hart == h && e.meets cell n) then
    { s with early := s.early.map (fun e =>
        if e.hart == h && e.meets cell n then { e with past := (num, serial) :: e.past } else e) }
  else s

/-- The early loads of a hart from before the writes of one of its streams are given up: the release of the stream has
completed for the hart (R346). -/
def State.forgetPast (s : State) (h : HartId) (num serial : Nat) : State :=
  s.forgetWhere (fun e => e.hart == h && e.past.contains (num, serial))

/-! ### Full/empty bits -/

/-- The full/empty bit of the scratchpad word at an address (R157). -/
def State.isFull (s : State) (pa : Nat) : Bool := s.full.contains (pa / 8)

/-- The state with the bit of a word set. -/
def State.setFull (s : State) (pa : Nat) (b : Bool) : State :=
  { s with full := if b then setInsert s.full (pa / 8) else setErase s.full (pa / 8) }

end Sys2Proof.Machine
end

