-- ==== Sys2Proof/Machine/Directory.lean ====
section
/-!
DEFINITION. What the home directories, the L2 slices and the landing dies keep beside memory: the holders of lines (R117,
R120), the lines in the tagged ways (R141), and frame lists (R121, R123).
-/

namespace Sys2Proof.Machine

/-! ### The tagged ways (R141) -/

/-- The slice of a die that holds a line, where the die does. -/
def sliceIndex (line : Nat) : Nat := line % 8 ^^^ line / 64 % 8

/-- The slice of a tile's die through which its requests for a line enter. -/
def sliceOf (t : Fin 224) (line : Nat) : Nat := 8 * (dieOf t).val + sliceIndex line

/-- The slice of a die that holds a line replaced by its image. -/
def State.updSlice (s : State) (d : Fin 4) (line : Nat) (f : Slice → Slice) : State :=
  s.updDie d (fun D => match D.slices[sliceIndex line]? with
    | some l => { D with slices := D.slices.setIfInBounds (sliceIndex line) (f l) }
    | none => D)

/-- The slice of a die holds a line in its tagged ways. -/
def State.inSlice (s : State) (d : Fin 4) (line : Nat) : Bool :=
  ((s.die d).slices[sliceIndex line]?).any (fun l => l.lines.any (fun x => x.line == line))

/-- A line of a slice is written back, where it is dirty, and is no more. -/
def Slice.drop (l : Slice) (line : Nat) : Slice := { l with lines := l.lines.filter (fun x => x.line != line) }

/-- The slice of a die gives up a line. -/
def State.dropLine (s : State) (line : Nat) (d : Fin 4) : State :=
  if s.inSlice d line then s.updSlice d line (fun l => l.drop line) else s

/-- The dies that do not hold a line have it in no slice. -/
def State.dropLines (s : State) (line : Nat) (holders : List (Fin 4)) : State :=
  (([0, 1, 2, 3] : List (Fin 4)).filter (fun d => !holders.contains d)).foldl (fun s d => s.dropLine line d) s

/-- An access of a sector of a line: it is valid from then on, and dirty where it was written. -/
def TagLine.touch (x : TagLine) (sector : Nat) (write : Bool) : TagLine :=
  { x with valid := setBit x.valid sector true, dirty := if write then setBit x.dirty sector true else x.dirty }

/-- An access of a tile of a die at an address, where the die's slice holds the line. -/
def State.touchSlice (s : State) (d : Fin 4) (pa : Nat) (write : Bool) : State :=
  if s.inSlice d (pa / 128) then
    s.updSlice d (pa / 128) (fun l => { l with lines := l.lines.map (fun x =>
      if x.line = pa / 128 then x.touch (pa / 32 % 4) write else x) })
  else s

/-- A unit of a slice is a tagged way (R139, R140): it is not given to windows, and no change of it is pending. -/
def Slice.isWay (l : Slice) (unit : Nat) : Bool :=
  decide (l.winunits.toNat ≤ unit ∧ unit < 32) && !l.pending.contains unit && !l.taken.any (fun g => g.1 == unit)

/-! ### Holders of lines (R120) -/

/-- The directory entry of a line. -/
def State.dirAt (s : State) (line : Nat) : Option DirLine := s.dir.find? (fun e => e.line == line)

/-- Nobody holds the line of an entry. -/
def DirLine.unheld (e : DirLine) : Bool := e.tiles.isEmpty && e.dies.isEmpty && e.host.isNone

/-- The entry of a line replaced; one whose line nobody holds is no more. No slice of a die that does not hold the line has
it. -/
def State.putDir (s : State) (e : DirLine) : State :=
  let rest := s.dir.filter (fun x => x.line != e.line)
  ({ s with dir := if e.unheld then rest else e :: rest } : State).dropLines e.line e.dies

/-- The line as a tile comes to hold it, owned where it writes: other copies of an owned line are invalidated, and an
owner's is written home before a die shares it. -/
def DirLine.grant (e : DirLine) (t : Fin 224) (owned : Bool) : DirLine :=
  let d := dieOf t
  if owned then { e with tiles := [t], dies := [d], owner := some d }
  else { e with
    tiles := if e.tiles.contains t then e.tiles else t :: e.tiles
    dies := if e.dies.contains d then e.dies else d :: e.dies
    owner := if e.owner = some d then e.owner else none }

/-- No tile and no die holds the line: the home has invalidated it at each, and written a dirty copy home. -/
def DirLine.recall (e : DirLine) : DirLine := { e with tiles := [], dies := [], owner := none }

/-- The entry as a request under a key finds it (R117): holders that have filled the line under another key have written it
back and given it up. -/
def DirLine.under (e : DirLine) (key : Nat) : DirLine := if e.key = key then e else { e.recall with key := key }

/-- The host holds a line in a way that an access under a key conflicts with: the home waits for its snoop (R117, R120). -/
def State.hostHolds (s : State) (line key : Nat) (write : Bool) : Bool :=
  match s.dirAt line with
  | some e => match e.host with
    | some owned => write || owned || e.key != key
    | none => false
  | none => false

/-- The home snoops the host for a line (R120). -/
def State.snoopHost (s : State) (line : Nat) : State :=
  match s.dirAt line with
  | some e => s.putDir { e with snoop := true }
  | none => s

/-- An access of a tile under a key is recorded where the line has an entry. -/
def State.touchLine (s : State) (t : Fin 224) (pa key : Nat) (write : Bool) : State :=
  match s.dirAt (pa / 128) with
  | some e => (s.putDir ((e.under key).grant t write)).touchSlice (dieOf t) pa write
  | none => s

/-- The lines that `n` bytes touch. -/
def linesOf (pa n : Nat) : List Nat := List.range' (pa / 128) ((pa + Nat.max 1 n - 1) / 128 - pa / 128 + 1)

/-- The host holds some of the lines that a request under a key touches: those. -/
def State.hostLines (s : State) (lines : List Nat) (key : Nat) (write : Bool) : List Nat :=
  lines.filter (fun l => s.hostHolds l key write)

/-- The home snoops the host for lines (R120). -/
def State.snoopAll (s : State) (lines : List Nat) : State := lines.foldl State.snoopHost s

/-- The home has the value of a line under a key for an engine, the host or a peer: on a write no tile and no die holds it,
and on a read nobody owns it (R120, R343). -/
def State.homeLine (s : State) (key : Nat) (write : Bool) (line : Nat) : State :=
  match s.dirAt line with
  | some e => s.putDir (if write || e.owner.isSome then e.recall else e.under key)
  | none => s

/-- The home has the value of some lines. -/
def State.homeLines (s : State) (key : Nat) (write : Bool) (lines : List Nat) : State := lines.foldl (fun s l => s.homeLine key write l) s

/-- The entry of a line that nobody holds, under a key. -/
def DirLine.fresh (line key : Nat) : DirLine := ⟨line, key, [], [], none, none, false⟩

/-- A tile caches a line of encrypted memory under a key, where the host does not stand in the way. -/
def State.cacheLine (s : State) (t : Fin 224) (line key : Nat) (owned : Bool) : State :=
  if encrypted (line * 128) && !s.hostHolds line key owned then
    s.putDir ((((s.dirAt line).getD (.fresh line key)).under key).grant t owned)
  else s

/-- The slice of a tile's die fills some sectors of a line that the die holds into a unit of its tagged ways (R139, R141): a
unit of 1 MiB holds 8,192 lines. -/
def State.sliceFill (s : State) (t : Fin 224) (line unit : Nat) (valid : BitVec 4) : State :=
  match s.dirAt line, (s.die (dieOf t)).slices[sliceIndex line]? with
  | some e, some l =>
    if e.dies.contains (dieOf t) && l.isWay unit && decide ((l.lines.filter (fun x => x.unit == unit)).length < 8192) then
      s.updSlice (dieOf t) line (fun l => { (l.drop line) with lines := (l.drop line).lines ++ [⟨line, unit, e.key, valid, 0⟩] })
    else s
  | _, _ => s

/-- The host caches a line of device memory under CXL HDM-DB. -/
def State.cacheAtHost (s : State) (line : Nat) (owned : Bool) : State :=
  let e := ((s.dirAt line).getD (.fresh line 0)).under 0
  s.putDir { (if owned then e.recall else { e with owner := none }) with host := some (owned || e.host == some true) }

/-- The home slice evicts an entry: it invalidates the line at every die that holds it, and snoops the host where the host
does. -/
def State.evictLine (s : State) (line : Nat) : State :=
  match s.dirAt line with
  | some e => s.putDir { e.recall with snoop := e.host.isSome }
  | none => s

/-- The host has answered a snoop: it holds the line no longer. -/
def State.snoopDone (s : State) (line : Nat) : State :=
  match s.dirAt line with
  | some e => if e.snoop then s.putDir { e with host := none, snoop := false } else s
  | none => s

/-! ### Frame lists (R121, R123) -/

/-- The virtual pages that a list is tagged by. -/
def FrameList.tag (l : FrameList) : List Nat := l.pages.map (fun p => p.va)

/-- A list kept by a landing die, the most recently used first, at most 256 of them. -/
def Landing.keep (L : Landing) (l : FrameList) : Landing :=
  { L with frames := (l :: L.frames.filter (fun k => !(k.asid == l.asid && k.tag == l.tag))).take 256 }

/-- What a `tlb.inv` drops of the frame lists (R123, R425): every list of the ASID that it names, and every list with a page
of G = 1 that it names. -/
def FrameList.named (l : FrameList) (asid : BitVec 16) (va : Option Nat) : Bool :=
  l.asid == asid || l.pages.any (fun p => p.global && (match va with
    | some a => decide (a / p.size = p.va / p.size)
    | none => true))

/-- The frame lists that a `tlb.inv` names dropped by some landing dies (R123, R425). -/
def State.dropFrames (s : State) (asid : BitVec 16) (va : Option Nat) (ds : List (Fin 8)) : State :=
  ds.foldl (fun s d =>
    if (s.landing d).frames.isEmpty then s
    else s.updLanding d (fun L => { L with frames := L.frames.filter (fun l => !l.named asid va) })) s

/-- Pages in lists of at most 64 (R121). -/
def frameChunks (ps : List FramePage) : List (List FramePage) :=
  (List.range ((ps.length + 63) / 64)).map (fun k => (ps.drop (64 * k)).take 64)

end Sys2Proof.Machine
end

