-- ==== Sys2Proof/Machine/Translate.lean ====
section
/-!
DEFINITION. Translation (R426 to R429) and where an access made for a hart goes (R118, R422).
-/

namespace Sys2Proof.Machine

/-! ### The walk -/

/-- The fields of an entry (R428). -/
def pteV (p : Word) : Bool := p.getLsbD 0
def pteR (p : Word) : Bool := p.getLsbD 1
def pteW (p : Word) : Bool := p.getLsbD 2
def pteX (p : Word) : Bool := p.getLsbD 3
def pteU (p : Word) : Bool := p.getLsbD 4
def pteG (p : Word) : Bool := p.getLsbD 5
def pteH (p : Word) : Bool := p.getLsbD 6
def pteSS (p : Word) : Bool := p.getLsbD 7
def pteC (p : Word) : Bool := p.getLsbD 8
def ptePpn (p : Word) : Nat := (fld p 12 40).toNat
def pteKey (p : Word) : Nat := (fld p 52 9).toNat

/-- The entry is a leaf (R427). -/
def pteLeaf (p : Word) : Bool := pteR p || pteW p || pteX p

/-- The bytes of a leaf's page at a level (R427). -/
def pageSize (lvl : Nat) (c : Bool) : Nat :=
  match lvl with
  | 0 => if c then 0x10000 else 0x1000
  | 1 => 0x200000
  | _ => 0x40000000

/-- The entry breaks R428 at its level. -/
def pteBad (lvl : Nat) (p : Word) : Bool :=
  fld p 61 3 != 0 || fld p 9 3 != 0 || (pteW p && !pteR p)
    || (pteSS p && !(pteR p && pteW p && !pteX p))
    || (if pteLeaf p then
          decide (3 ≤ lvl) || (pteC p && lvl != 0) || (!pteC p && ptePpn p % (pageSize lvl false / 4096) != 0)
        else pteC p || pteSS p || pteH p || pteG p || pteU p || lvl == 0)

/-- Why a walk gives no leaf: a fault, or a table in the host window whose page the host must translate first
(R427, R431). -/
inductive Miss where
  | fault (c : Cause)
  | askHost (page : Nat)
  deriving DecidableEq, Repr

/-- A read of a table entry under a key index (R106, R111, R118, R427). -/
def State.tableRead (s : State) (asid : BitVec 16) (a key : Nat) : Except Miss Word :=
  if s.keyInvalid key then .error (.fault .access)
  else match s.place asid a with
    | .cell c =>
      if s.poisoned a 8 then .error (.fault .memoryError)
      else .ok (BitVec.ofNat 64 (natOf (s.read .walk c key 8)))
    | .fault _ => .error (.fault .access)
    | .askHost p => .error (.askHost p)

/-- The 16 entries of a 64 KiB page agree (R428): entry `j` has C, the bits of the first, and the next
frame. -/
def State.groupOk (s : State) (asid : BitVec 16) (a key : Nat) (first : Word) : Nat → Except Miss Bool
  | 0 => .ok true
  | j + 1 =>
    match s.groupOk asid a key first j with
    | .error c => .error c
    | .ok false => .ok false
    | .ok true =>
      match s.tableRead asid (a + 8 * j) key with
      | .error c => .error c
      | .ok p =>
        .ok (pteC p && fld p 52 12 == fld first 52 12 && fld p 1 11 == fld first 1 11 && pteV p
          && ptePpn p == ptePpn first + j)

/-- The walk below a table at level `lvl` (R427). -/
def State.walkFrom (s : State) (asid : BitVec 16) (va : Nat) (lvl a key : Nat) : Except Miss Leaf :=
  let idx := va / 2 ^ (12 + 9 * lvl) % 512
  match s.tableRead asid (a + 8 * idx) key with
  | .error c => .error c
  | .ok p =>
    if !pteV p || pteBad lvl p then .error (.fault .pageFault)
    else if pteLeaf p then
      let size := pageSize lvl (pteC p)
      let leaf : Leaf := ⟨ptePpn p * 4096 / size * size + va % size, pteKey p, p, size⟩
      if pteC p then
        let base := a + 8 * (idx / 16 * 16)
        match s.tableRead asid base key with
        | .error c => .error c
        | .ok first =>
          if ptePpn first % 16 != 0 then .error (.fault .pageFault)
          else match s.groupOk asid base key first 16 with
            | .error c => .error c
            | .ok true => .ok { leaf with pa := ptePpn first * 4096 + va % size }
            | .ok false => .error (.fault .pageFault)
      else .ok leaf
    else match lvl with
      | 0 => .error (.fault .pageFault)
      | n + 1 => s.walkFrom asid va n (ptePpn p * 4096) (pteKey p)

/-- The address is a sign-extended 57-bit address (R427). -/
def canonicalVa (va : Nat) : Bool := va / 2 ^ 56 == 0 || va / 2 ^ 56 == 0xFF

/-- The walk of a virtual address from a PTBASE (R427). -/
def State.walk (s : State) (ptbase : Word) (asid : BitVec 16) (va : Nat) : Except Miss Leaf :=
  if canonicalVa va then s.walkFrom asid va 4 ((fld ptbase 12 40).toNat * 4096) (fld ptbase 52 9).toNat
  else .error (.fault .pageFault)

/-- The table entries that a walk below a table at level `lvl` reads (R427). -/
def State.walkReads (s : State) (asid : BitVec 16) (va : Nat) (lvl a key : Nat) : List Nat :=
  let at_ := a + 8 * (va / 2 ^ (12 + 9 * lvl) % 512)
  at_ :: (match lvl, s.tableRead asid at_ key with
    | n + 1, .ok p => if pteV p && !pteBad lvl p && !pteLeaf p then s.walkReads asid va n (ptePpn p * 4096) (pteKey p)
      else []
    | _, _ => [])

/-- A cached translation of the tile that holds the page of an address (R427: it may be used until a
`tlb.inv` that reaches it; log 11). -/
def State.tlbHit (s : State) (t : Fin 224) (asid : BitVec 16) (va : Nat) : Option Leaf :=
  match (s.tile t).tlb.find? (fun e => (e.asid == asid || pteG e.pte) && decide (va / e.size = e.va / e.size)) with
  | some e => some ⟨ptePpn e.pte * 4096 / e.size * e.size + va % e.size, pteKey e.pte, e.pte, e.size⟩
  | none => none

/-- The permission that an access asks of a leaf (R429). A store to a shadow-stack page is the trap
"shadow stack" whatever else the entry refuses (R205). -/
def permFault (kind : Kind) (sup : Bool) (p : Word) : Option Cause :=
  match kind with
  | .fetch => if pteX p && (pteU p != sup) then none else some .permission
  | .read => if pteR p && (sup || pteU p) then none else some .permission
  | .write =>
    if pteSS p then some .shadowStack
    else if pteW p && (sup || pteU p) then none else some .permission
  | .shadowRead | .shadowWrite => if pteSS p then none else some .shadowStack

/-- The address space of a hart (R426). -/
def Hart.space (H : Hart) : BitVec 16 := fld H.csr.asid 0 16

/-- Translation and permission of an access made for a hart at a level (R422, R427, R429). -/
def State.translate (s : State) (h : HartId) (sup : Bool) (kind : Kind) (va : Nat) : Except Miss Leaf :=
  let H := s.hart h
  let leaf :=
    match s.tlbHit (tileOf h) H.space va with
    | some l => if canonicalVa va then Except.ok l else Except.error (Miss.fault Cause.pageFault)
    | none => s.walk H.csr.ptbase H.space va
  match leaf with
  | .error e => .error e
  | .ok l =>
    match permFault kind sup l.pte with
    | some c => .error (.fault c)
    | none => .ok l

/-- Where an access made for a hart goes: translation, permission, key, then region (R118, R422). -/
inductive Reach where
  | to (l : Leaf) (cell : Nat)
  | fault (c : Cause)
  | askHost (page : Nat)
  deriving DecidableEq, Repr

/-- The reach of an access of a hart. -/
def State.reach (s : State) (h : HartId) (sup : Bool) (kind : Kind) (va : Nat) : Reach :=
  match s.translate h sup kind va with
  | .error (.fault c) => .fault c
  | .error (.askHost p) => .askHost p
  | .ok l =>
    if s.keyInvalid l.key then .fault .access
    else match s.place (s.hart h).space l.pa with
      | .cell c => .to l c
      | .fault c => .fault c
      | .askHost p => .askHost p

/-- The host is asked for a translation of an address space, once for each page (R431). -/
def State.askFor (s : State) (asid : BitVec 16) (page : Nat) : State :=
  let req : PageReq := ⟨asid, page⟩
  { s with hostIf := { s.hostIf with
    asked := if s.hostIf.asked.contains req then s.hostIf.asked else s.hostIf.asked ++ [req] } }

end Sys2Proof.Machine
end

