-- ==== Sys2Proof/Machine/Windows.lean ====
section
/-!
DEFINITION. What streams and crossings hold of a die: the windows of the slices (R140 to R143), the FIFO banks of a tile
(R153, R155), stream contexts (R166) and circuits (R146, R147).
-/

namespace Sys2Proof.Machine

/-! ### Windows of the slices -/

/-- The granules that a slice offers for placement (R140): those of units 0 to WINUNITS − 1 whose change is
not pending and that no window holds. -/
def Slice.free (l : Slice) : List (Nat × Nat) :=
  (((List.range l.winunits.toNat).filter (fun u => !l.pending.contains u)).flatMap
    (fun u => (List.range 16).map (fun g => (u, g)))).filter (fun g => !l.taken.contains g)

/-- A window of `n` granules placed for a tile (R143): in the slice of its row or the next with room. The
granules are named by die × 8 + slice and by unit × 16 + place. DESIGN CHOICE (log 30): of the slice's free granules, any of
which may serve (R142), those of the lowest unit and place. -/
def State.placeWindow (s : State) (t : Fin 224) (n : Nat) : Option (State × List (Nat × Nat)) :=
  let d := dieOf t
  let row := t.val % 56 / 7
  let order := (List.range 8).map (fun i => (row + i) % 8)
  match order.find? (fun k => match (s.die d).slices[k]? with
      | some l => decide (n ≤ l.free.length)
      | none => false) with
  | none => none
  | some k =>
    match (s.die d).slices[k]? with
    | none => none
    | some l =>
      let got := l.free.take n
      some (s.updDie d (fun D => { D with slices := D.slices.setIfInBounds k { l with taken := l.taken ++ got } }),
        got.map (fun g => (8 * d.val + k, g.1 * 16 + g.2)))

/-- The granules of a window given back (R140, R184). -/
def State.freeWindow (s : State) (gs : List (Nat × Nat)) : State :=
  gs.foldl (fun s g => s.updDie ⟨g.1 / 8 % 4, by omega⟩ (fun D =>
    match D.slices[g.1 % 8]? with
    | some l => { D with slices :=
        D.slices.setIfInBounds (g.1 % 8) { l with taken := l.taken.filter (fun x => x != (g.2 / 16, g.2 % 16)) } }
    | none => D)) s

/-! ### Banks as FIFOs -/

/-- The banks of a tile in a role (R153). -/
def Tile.inRole (T : Tile) (r : Role) : List Nat :=
  (List.range 64).filter (fun b => match T.banks[b]? with | some k => k.role == r | none => false)

/-- The grant masks of a tile's harts together (R155). -/
def State.granted (s : State) (t : Fin 224) : BitVec 64 :=
  (hartsOf t).foldl (fun m h => m ||| (s.hart h).banks) 0

/-- The bank that a FIFO user of the tile gets (R155): an unclaimed FIFO bank, or a cache bank outside
every grant mask when two cache banks then remain; and whether it is converted. DESIGN CHOICE (log 30): of
several such banks, one inside a grant mask before others, which a crossing end could use (R370), and the one of the lowest
number. -/
def State.fifoBank (s : State) (t : Fin 224) : Option (Nat × Bool) :=
  let T := s.tile t
  let spare := (T.inRole .fifo).filter (fun b => match T.banks[b]? with | some k => !k.claimed | none => false)
  match (spare.find? (fun b => (s.granted t).getLsbD b)).or spare.head? with
  | some b => some (b, false)
  | none =>
    let cache := T.inRole .cache
    if cache.length < 3 then none
    else match cache.find? (fun b => !(s.granted t).getLsbD b) with
      | some b => some (b, true)
      | none => none

/-- A bank of a tile replaced by its image. -/
def State.updBank (s : State) (t : Fin 224) (b : Nat) (f : Bank → Bank) : State :=
  s.updTile t (fun T => match T.banks[b]? with
    | some k => { T with banks := T.banks.setIfInBounds b (f k) }
    | none => T)

/-- The tile claims a FIFO bank for a crossing end at a placement, which R370 takes outside every grant mask: an
unclaimed FIFO bank there, else a cache bank as R155 has it. -/
def State.claimOutside (s : State) (t : Fin 224) : Option (State × Nat) :=
  let T := s.tile t
  match (T.inRole .fifo).find? (fun b => !(s.granted t).getLsbD b && (match T.banks[b]? with
      | some k => !k.claimed
      | none => false)) with
  | some b => some (s.updBank t b (fun _ => ⟨.fifo, true, false⟩), b)
  | none =>
    let cache := T.inRole .cache
    if cache.length < 3 then none
    else (cache.find? (fun b => !(s.granted t).getLsbD b)).map (fun b =>
      (s.updBank t b (fun _ => ⟨.fifo, true, true⟩), b))

/-- The tile claims a FIFO bank (R155). -/
def State.claimFifo (s : State) (t : Fin 224) : Option (State × Nat) :=
  match s.fifoBank t with
  | some (b, conv) => some (s.updBank t b (fun _ => ⟨.fifo, true, conv⟩), b)
  | none => none

/-- The user of a FIFO bank frees it; a bank converted for it returns to the cache role (R155). -/
def State.freeFifo (s : State) (t : Fin 224) (b : Nat) : State :=
  s.updBank t b (fun k => if k.converted then ⟨.cache, false, false⟩ else { k with claimed := false })

/-- The bank of a crossing of a gang that finishes returns to the cache role (R372, R375). -/
def State.fifoToCache (s : State) (t : Fin 224) (b : Nat) : State := s.updBank t b (fun _ => ⟨.cache, false, false⟩)

/-- The stream contexts of a tile that are in use (R166). -/
def State.contexts (s : State) (t : Fin 224) : Nat :=
  (hartsOf t).foldl (fun n h =>
    n + ((s.hart h).streams.toList.filter (fun u => u.cfg)).length
      + ((s.hart h).releasing.filter (fun u => !u.saved)).length) 0

/-- The tracks per direction between columns 6 and 7 of a row that stream circuits may use (R146, R147): the
length-4 tracks, but for the one that the capsule network keeps from boot on, and the length-16 tracks. -/
def rowTracks : Nat := (8 - 1) + 4

/-- The streams of a hart that have a circuit. -/
def Hart.wired (H : Hart) : List Stream := (H.streams.toList ++ H.releasing).filter (fun t => t.circuit)

/-- The slice of a stream's window, named as a granule names it. -/
def Stream.slice (t : Stream) : Option Nat := t.granules.head?.map (fun g => g.1)

/-- The stream circuits in a direction at a slice (R146, R147): a read stream's leads from its window's slice to the tile, a
write stream's from the tile to the slice. -/
def State.sliceCircuits (s : State) (slice : Nat) (dir : Bool) : Nat :=
  (allHarts.map (fun h => ((s.hart h).wired.filter (fun t => t.desc.ctrl.getLsbD 0 == dir && t.slice == some slice)).length)).sum

/-- A stream's circuit crosses from one die to another (R146): from its window's die to its tile's, or back. -/
def Stream.crosses (t : Stream) (tile : Fin 224) (a b : Fin 4) : Bool :=
  match t.slice with
  | some k => if t.desc.ctrl.getLsbD 0 then dieOf tile == a && k / 8 == b.val else k / 8 == a.val && dieOf tile == b
  | none => false

/-- The circuits that cross the boundary from one die to another (R147): those of crossings and of streams. -/
def State.dieCircuits (s : State) (a b : Fin 4) : Nat :=
  (allHarts.map (fun h =>
    ((s.hart h).ports.toList.filter (fun p =>
      p.isOpen && p.circuit && dieOf (tileOf h) == a && dieOf (tileOf p.peer) == b)).length
    + ((s.hart h).wired.filter (fun t => t.crosses (tileOf h) a b)).length)).sum

/-- A circuit can be had from one die to another (R147): within a die, as far as this limit goes, always, across an
edge-adjacent boundary while fewer than 64 cross it that way, and across a diagonal one while fewer than 32 do. -/
def State.circuitFree (s : State) (a b : Fin 4) : Bool :=
  a == b || decide (s.dieCircuits a b < if a.val + b.val = 3 then 32 else 64)

/-- The stream circuits of a tile (R147). -/
def State.circuits (s : State) (t : Fin 224) : Nat :=
  (hartsOf t).foldl (fun n h =>
    n + ((s.hart h).streams.toList.filter (fun u => u.cfg && u.circuit)).length
      + ((s.hart h).releasing.filter (fun u => u.circuit)).length) 0

end Sys2Proof.Machine
end

