-- ==== Sys2Proof/Machine/Reserve.lean ====
section
/-!
DEFINITION. Streams as their engines see them, range reservations, and what a conflicting access does:
the geometry of elements (R168 to R172), entries (R124 to R131), conflicts, splits, waits and traps (R129
to R134), and fault records (R432, R434).
-/

namespace Sys2Proof.Machine

/-! ### Fields of a descriptor (R169) -/

def Desc.dir (d : Desc) : Bool := d.ctrl.getLsbD 0
def Desc.mode (d : Desc) : Nat := (fld d.ctrl 1 2).toNat
def Desc.esize (d : Desc) : Nat := 2 ^ (fld d.ctrl 3 2).toNat
def Desc.fmt (d : Desc) : Nat := (fld d.ctrl 5 5).toNat
def Desc.scope (d : Desc) : Nat := (fld d.ctrl 10 3).toNat
def Desc.idx (d : Desc) : Nat := (fld d.ctrl 13 2).toNat
def Desc.ishift (d : Desc) : Nat := (fld d.ctrl 15 3).toNat
def Desc.wingran (d : Desc) : Nat := (fld d.ctrl 18 4).toNat + 1
def Desc.counter (d : Desc) : Nat := (fld d.ctrl 22 4).toNat
def Desc.cen (d : Desc) : Bool := d.ctrl.getLsbD 26
def Desc.fold (d : Desc) : Nat := (fld d.ctrl 27 2).toNat
def Desc.ford (d : Desc) : Bool := d.ctrl.getLsbD 29
def Desc.convRm (d : Desc) : Nat := (fld d.conv 0 3).toNat
def Desc.convSat (d : Desc) : Bool := d.conv.getLsbD 3

/-- The elements of a strip (R172). -/
def Stream.strip (t : Stream) : Nat := t.stripBytes / t.desc.esize

/-- The elements that the strip buffer of 64 KiB holds (R167). -/
def Stream.capacity (t : Stream) : Nat := 65536 / t.desc.esize

/-- The elements that the window holds (R142). A read stream without a window takes a strip at a time. -/
def Stream.windowRoom (t : Stream) : Nat :=
  if t.granules.isEmpty then (if t.desc.dir then 0 else t.strip) else t.granules.length * 65536 / t.desc.esize

/-- The elements that a write stream has produced and that are not home. -/
def Stream.made (t : Stream) : List Nat := t.win ++ t.buf

/-- The first `m` of those elements are home. -/
def Stream.homed (t : Stream) (m : Nat) : Stream :=
  { t with home := t.home + m, win := t.win.drop m, buf := t.buf.drop (m - t.win.length) }

/-- Only the first `m` of those elements stay. -/
def Stream.keepMade (t : Stream) (m : Nat) : Stream :=
  { t with win := t.win.take m, buf := t.buf.take (m - t.win.length) }

/-- Full strips leave the strip buffer for the window while it has room, and the partial one at the release (R142,
R177). -/
def Stream.leave (t : Stream) : Stream :=
  let whole (n : Nat) := n / t.strip * t.strip
  let limit := t.home + t.windowRoom
  let upto := if t.release = .write ∧ t.pos ≤ limit then t.pos else whole (Nat.min t.pos limit)
  let k := upto - (t.home + t.win.length)
  { t with win := t.win ++ t.buf.take k, buf := t.buf.drop k }

/-- The elements of a write stream that the home may accept: those in the window, or, without a window, those of the
strips that are full (R142, R143, R177). -/
def Stream.sent (t : Stream) : Nat :=
  if t.granules.isEmpty then (if t.release = .write then t.pos else t.pos / t.strip * t.strip) - t.home
  else t.win.length

/-- The stream of a hart. -/
def Hart.stream (H : Hart) (n : Nat) : Stream := H.streams[n]?.getD Stream.reset

/-- A hart with a stream replaced. -/
def Hart.setStream (H : Hart) (n : Nat) (t : Stream) : Hart :=
  { H with streams := H.streams.setIfInBounds n t }

/-- A status bit of a stream set or cleared (R186). -/
def Stream.mark (t : Stream) (i : Nat) (b : Bool) : Stream := { t with status := setBit t.status i b }

/-- DONE follows POS (R186). -/
def Stream.setPos (t : Stream) (p : Nat) : Stream :=
  { t with pos := p, status := setBit t.status 7 (decide (p = t.desc.count)) }

/-- AVAIL (R174). DESIGN CHOICE (log 19): a write stream has its free room from its configuration on, where R188 sets
AVAIL to 0. -/
def Stream.avail (t : Stream) : Nat :=
  if t.desc.dir then Nat.min (t.capacity - t.buf.length) (t.desc.count - t.pos) else t.buf.length

/-! ### Elements and their bytes -/

/-- Floor and ceiling of a quotient of integers. -/
def floorDiv (a b : Int) : Int := Int.fdiv a b
def ceilDiv (a b : Int) : Int := -(Int.fdiv (-a) b)

/-- Some element `j` with `lo ≤ j < hi` at `base + j * stride`, of `e` bytes, has a byte in the `n` bytes
from `at` (R128). -/
def touches (base stride : Int) (e : Nat) (lo hi : Nat) (off n : Int) : Bool :=
  let first := off - e + 1
  let last := off + n - 1
  if stride = 0 then decide (lo < hi) && decide (first ≤ base ∧ base ≤ last)
  else
    let (a, b) := if 0 < stride then (ceilDiv (first - base) stride, floorDiv (last - base) stride)
      else (ceilDiv (last - base) stride, floorDiv (first - base) stride)
    decide (max a (lo : Int) ≤ min b ((hi : Int) - 1))

/-! ### Element addresses and element accesses of an engine -/

/-- Why an element cannot be transferred now: a fault (R185), or a host translation that is not there yet (R431). -/
inductive ElemStop where
  | fault (c : Cause) (va : Nat)
  | ask (page : Nat)
  deriving DecidableEq, Repr

/-- The virtual address of the index of element `j` (R170). -/
def Desc.indexVa (d : Desc) (j : Nat) : Nat :=
  (d.stride + BitVec.ofNat 64 ((if d.idx = 1 then 4 else 8) * j)).toNat

/-- The virtual address of element `j` (R170). An indexed stream reads its index with a plain read. -/
def State.elemVa (s : State) (h : HartId) (t : Stream) (j : Nat) : Except ElemStop Nat :=
  let d := t.desc
  if d.idx = 0 then .ok ((d.base + BitVec.ofNat 64 j * d.stride).toNat)
  else
    let n := if d.idx = 1 then 4 else 8
    let ia := d.indexVa j
    match s.reach h t.sup .read ia with
    | .to l c =>
      if s.poisoned l.pa n then .error (.fault .memoryError ia)
      else .ok ((d.base + BitVec.ofNat 64 (natOf (s.read (.engine h) c l.key n) * 2 ^ d.ishift)).toNat)
    | .fault c => .error (.fault c ia)
    | .askHost p => .error (.ask p)

/-- The value of element `j` as the engine reads it (R170, R173, R185). -/
def State.readElem (s : State) (h : HartId) (t : Stream) (j : Nat) : Except ElemStop Nat :=
  match s.elemVa h t j with
  | .error e => .error e
  | .ok va =>
    match s.reach h t.sup .read va with
    | .to l c =>
      if s.poisoned l.pa t.desc.esize then .error (.fault .memoryError va)
      else .ok (natOf (s.read (.engine h) c l.key t.desc.esize))
    | .fault c => .error (.fault c va)
    | .askHost p => .error (.ask p)

/-- An element after `j` has a byte in the aligned word at a virtual address (R157). -/
def State.wordGoesOn (s : State) (h : HartId) (t : Stream) (j word : Nat) : Bool :=
  let d := t.desc
  if d.idx = 0 then touches (d.base.toNat : Int) d.stride.toInt d.esize (j + 1) d.count (word : Int) 8
  else (List.range' (j + 1) (d.count - (j + 1))).any (fun k => match s.elemVa h t k with
    | .ok va => va / 8 == word / 8
    | .error _ => false)

/-- The bytes that an engine writes in a scratchpad word become visible, and its bit is set (R157, R347). What the hart has
read there early is from before the stream's write (R346). -/
def State.fillWord (t : Stream) (s : State) (d : Delayed) : State :=
  ((s.notePast d.hart t.num t.serial d.pa 8).writeSome (.engine d.hart) d.pa d.key d.bytes).setFull d.pa true

/-- Element `j` lies in an extent (R124): of a strided stream by its place, of an indexed one by its page. -/
def State.inExtent (s : State) (h : HartId) (t : Stream) (e : Extent) (j : Nat) : Bool :=
  if t.desc.idx = 0 then decide (e.lo ≤ j ∧ j < e.hi)
  else match s.elemVa h t j with
    | .ok va => va / e.size == e.va / e.size
    | .error _ => false

/-- Element `j` lies in an extent whose peer has gone down, and that fault has not been met (R137). -/
def State.lostElem (s : State) (h : HartId) (t : Stream) (j : Nat) : Bool :=
  t.extents.any (fun e => e.lost && s.inExtent h t e j)

/-- Element `j` written home by the engine (R128). In scratchpad a word and its bit change together, when the engine
has its last byte there (R157). -/
def State.writeElem (s : State) (h : HartId) (t : Stream) (j v : Nat) : Except ElemStop (State × Stream) :=
  match s.elemVa h t j with
  | .error e => .error e
  | .ok va =>
    if s.lostElem h t j then .error (.fault .peerLost va)
    else match s.reach h t.sup .write va with
    | .to l c =>
      let bs := bytesOf t.desc.esize v
      if regionOf l.pa = .spad then
        let part := gatherStore 8 t.part ⟨h, false, 0, c, bs.map some, l.key, none, false⟩
        if s.wordGoesOn h t j (va / 8 * 8) then .ok (s, { t with part := part })
        else
          let word (d : Delayed) : Bool := d.pa == c / 8 * 8 && d.key == l.key
          .ok ((part.filter word).foldl (State.fillWord t) s, { t with part := part.filter (fun d => !word d) })
      else .ok ((s.notePast h t.num t.serial c bs.length).write (.engine h) c l.key bs, t)
    | .fault c => .error (.fault c va)
    | .askHost p => .error (.ask p)

/-- The words of which no further element comes, at the end of a release or a save (R157, R184, R194). -/
def State.fillParts (s : State) (t : Stream) : State × Stream := (t.part.foldl (State.fillWord t) s, { t with part := [] })

/-- Elements from `j` on written home in order, up to the first that cannot be: the count written, and why it ends. -/
def State.writeElems (s : State) (h : HartId) (t : Stream) (j : Nat) :
    List Nat → State × Stream × Nat × Option ElemStop
  | [] => (s, t, 0, none)
  | v :: vs =>
    match s.writeElem h t j v with
    | .error e => (s, t, 0, some e)
    | .ok (s', t') =>
      let (s'', t'', n, e) := s'.writeElems h t' (j + 1) vs
      (s'', t'', n + 1, e)

/-- An entry of an extent, named by die and index, covers the extent's element `j` still (R128). -/
def State.entryHolds (s : State) (j : Nat) (q : Nat × Nat) : Bool :=
  if hd : q.1 < 8 then
    match (s.landing ⟨q.1, hd⟩).entries.find? (fun x => x.1 == q.2) with
    | some x => x.2.whole || decide (x.2.pos ≤ j)
    | none => false
  else false

/-- Element `j` lies in an extent that is not in line mode, and has not passed there. -/
def State.inHeld (s : State) (h : HartId) (t : Stream) (j : Nat) : Bool :=
  t.extents.any (fun e => !e.line && s.inExtent h t e j && (e.dies.isEmpty || e.dies.any (s.entryHolds (j - e.lo))))

/-- The cells of the elements from `lo` up to but not with `hi` that are not in line mode. -/
def State.heldCells (s : State) (h : HartId) (t : Stream) (lo hi : Nat) : List Nat :=
  (List.range' lo (hi - lo)).filterMap (fun j =>
    if s.inHeld h t j then
      match s.elemVa h t j with
      | .ok va => match s.reach h t.sup .write va with
        | .to _ c => some c
        | _ => none
      | .error _ => none
    else none)

/-- Elements of `size` bytes at the cells include every byte of a sector. -/
def coversSector (cells : List Nat) (size sector : Nat) : Bool :=
  (List.range 32).all (fun b =>
    cells.any (fun c => decide (c ≤ sector * 32 + b) && decide (sector * 32 + b < c + size)))

/-- The written-back elements from `j` on, `n` in all, clear the poison of every sector that the elements of
one strip cover whole (R111). A strip may have landed in pieces: `landed` keeps the cells of those that came before. -/
def State.cleanStrips (s : State) (h : HartId) (t : Stream) (j n : Nat) : State × Stream :=
  if n = 0 then (s, t)
  else
    let sl := t.strip
    let strips := List.range' (j / sl) ((j + n - 1) / sl - j / sl + 1)
    let cells := strips.map (fun k =>
      (if k * sl < j then t.landed else [])
        ++ s.heldCells h t (Nat.max j (k * sl)) (Nat.min (j + n) ((k + 1) * sl)))
    ({ s with poison := s.poison.filter (fun q => !(cells.any (fun cs => coversSector cs t.desc.esize q))) },
      { t with landed := if (j + n) % sl = 0 then [] else cells.getLast?.getD [] })

/-! ### Fault records -/

/-- The header of a record (R432): VADDR, INDEX, PC, CAUSE, KIND, UNIT, HART, TILE, FLAGS, SEQ. -/
def recordBytes (h : HartId) (vaddr index pc : Nat) (cause : Cause) (kind unit : Nat)
    (slot : Option Nat) (dir : Bool) (seq : Nat) : Record :=
  bytesOf 8 vaddr ++ bytesOf 8 index ++ bytesOf 8 pc
    ++ [BitVec.ofNat 8 cause.code, BitVec.ofNat 8 kind, BitVec.ofNat 8 unit,
        BitVec.ofNat 8 (ctxOf h + (match slot with | some k => 4 * k + 16 | none => 0))]
    ++ bytesOf 2 (tileOf h).val ++ [BitVec.ofNat 8 (if dir then 1 else 0), BitVec.ofNat 8 seq]

/-- A record that a hart's engine produces waits in the tile until it is written (R434). -/
def Hart.addRecord (H : Hart) (mk : Nat → Record) : Hart :=
  { H with fq := { H.fq with waiting := H.fq.waiting ++ [mk (H.fq.seq % 256)], seq := H.fq.seq + 1 } }

/-- The record of a stream fault (R185, R432). -/
def Hart.streamRecord (H : Hart) (h : HartId) (n : Nat) (t : Stream) (f va : Nat) (c : Cause) : Hart :=
  H.addRecord (recordBytes h va f t.lastPc.toNat c (if t.copy.isSome then 1 else 0) n t.lastSlot t.desc.dir)

/-! ### Entries -/

/-- The bytes of an extent (R127). -/
def extBytes (e : Nat) : Nat :=
  match e with
  | 0 => 0x1000
  | 1 => 0x10000
  | 2 => 0x200000
  | _ => 0x40000000

/-- The line of 128 bytes at `line * 128` lies in the extent of an entry. -/
def Rsv.spans (r : Rsv) (line : Nat) : Bool :=
  decide (r.base * 4096 ≤ line * 128 ∧ line * 128 < r.base * 4096 + extBytes r.extsize)

/-- Some element from `lo` up to but not with `hi` of an entry has a byte in the line. -/
def Rsv.within (r : Rsv) (lo hi line : Nat) : Bool :=
  touches ((r.base * 4096 + r.first : Nat) : Int) r.stride (2 ^ r.esize) lo hi ((line * 128 : Nat) : Int) 128

/-- The entry covers the line of 128 bytes at `line * 128` (R128). -/
def Rsv.covers (r : Rsv) (line : Nat) : Bool := if r.whole then r.spans line else r.within r.pos r.count line

/-- Elements that a peer's stream had produced before a cut may still be on their way to the line (R132, R136). -/
def Rsv.awaits (r : Rsv) (line : Nat) : Bool :=
  r.coming != 0 && (if r.whole then r.spans line else r.within r.count r.coming line)

/-- The entry stands in the way of requests for the line. -/
def Rsv.stands (r : Rsv) (line : Nat) : Bool := r.covers line || r.awaits line

/-- Who makes a request (R133): a hart or engine of this module, a hart of a Lefahel peer, another CXL requester, or the
host and all snoops. -/
inductive Requester where
  | hart (h : HartId)
  | lefahel (module : Nat) (who : PeerAgent)
  | cxl
  | external
  deriving DecidableEq, Repr

/-- What an entry does with a conflicting request (R133). -/
inductive Verdict where
  | wait | split | trap | early
  deriving DecidableEq, Repr

/-- The outcome of a conflict (R133). STATE: 0 ACTIVE, 1 SUSPENDED, 2 FAULTED, 3 RELEASING; MODE: 0 wait,
1 split, 2 trap. DESIGN CHOICE (log 24): a RELEASING entry in trap mode waits, as the table has it, where R356 says of its
program that a met store traps. What meets a cut entry of a peer's stream waits until the peer has freed it (DEDUCED,
log 24). -/
def Rsv.verdict (r : Rsv) (who : Requester) : Verdict :=
  let mode := match r.mode with
    | 0 => Verdict.wait
    | 1 => .split
    | _ => .trap
  if r.coming ≠ 0 then .wait
  else match who with
  | .hart _ | .lefahel _ _ =>
    match r.state with
    | 1 => if r.mode = 0 then .split else mode
    | 3 => .wait
    | _ => mode
  | .cxl =>
    match r.state with
    | 0 => if r.mode = 0 then .wait else .split
    | 3 => .wait
    | _ => .split
  | .external => if r.state = 3 then .early else .split

/-- The entry is the requester's own (R130). -/
def Rsv.ownedBy (r : Rsv) (who : Requester) : Bool :=
  match who with
  | .hart h => !r.remote && r.tile == (tileOf h).val && r.hart == ctxOf h
  | .lefahel module a => r.remote && r.origin == module && r.tile == a.tile && r.hart == a.ctx
  | _ => false

/-- The entries replaced by their image where a predicate holds; `none` frees the entry. -/
def State.mapEntries (s : State) (f : Rsv → Option Rsv) : State :=
  { s with landings := s.landings.map (fun l =>
      { l with entries := l.entries.filterMap (fun e => (f e.2).map (fun r => (e.1, r))) }) }

/-- The entry belongs to a stream of a hart of this module. -/
def Rsv.ofStream (r : Rsv) (h : HartId) (n : Nat) : Bool :=
  !r.remote && r.tile == (tileOf h).val && r.hart == ctxOf h && r.stream == n

/-- The STATE of the entries named by die and index set (R133). -/
def State.setStateAt (s : State) (ds : List (Nat × Nat)) (st : Nat) : State :=
  { s with landings := s.landings.mapIdx (fun d l =>
      { l with entries := l.entries.map (fun e =>
          if ds.contains (d, e.1) then (e.1, { e.2 with state := st }) else e) }) }

/-- The entries named by die and index freed (R135). -/
def State.freeAt (s : State) (ds : List (Nat × Nat)) : State :=
  { s with landings := s.landings.mapIdx (fun d l =>
      { l with entries := l.entries.filter (fun e => !ds.contains (d, e.1)) }) }

/-- The entries that a stream holds, by die and index. -/
def Stream.entryRefs (t : Stream) : List (Nat × Nat) := t.extents.flatMap (fun e => e.dies)

/-- A message to the peers that hold some extents (R136). -/
def State.tellPeers (s : State) (es : List Extent) (k : MsgKind) : State :=
  es.foldl (fun s e => match e.peer, s.peerOf e.page with
    | some q, some w => { s with outbox := s.outbox ++ [⟨w.target, q, k⟩] }
    | _, _ => s) s

/-- The STATE of the entries of a stream, here and at peers (R133, R136). -/
def State.setEntries (s : State) (t : Stream) (st : Nat) : State :=
  (s.setStateAt t.entryRefs st).tellPeers t.extents (.state st)

/-! ### Where a stream is -/

/-- Where a stream's context is: in a register of a hart, among the released and saved contexts of a hart, or with a saved
hart of a gang (R184, R194, R437). -/
inductive StreamAt where
  | reg (h : HartId) (n : Nat)
  | released (h : HartId) (k : Nat)
  | gang (g r k : Nat)
  deriving DecidableEq, Repr

/-- The contexts of a hart with their places. -/
def State.streamsOf (s : State) (h : HartId) : List (StreamAt × Stream) :=
  (((s.hart h).streams.toList.mapIdx (fun n t => (StreamAt.reg h n, t))).filter (fun e => e.2.cfg))
    ++ (s.hart h).releasing.mapIdx (fun k t => (StreamAt.released h k, t))

/-- The contexts of the streams of saved harts of gangs with their places. -/
def State.savedStreams (s : State) : List (StreamAt × Stream) :=
  s.gangs.flatMap (fun G => G.members.flatMap (fun m => match m.saved with
    | some v => v.streams.mapIdx (fun k e => (StreamAt.gang G.id m.rank k, e.2))
    | none => []))

/-- The physical address of the image of a saved hart (R435). -/
def State.imageBase (s : State) (k : Saved) : Nat :=
  match s.dies[k.die]? with
  | some D => D.poolBase.toNat + k.slot * D.poolSize.toNat
  | none => 0

/-- The key index of the images of a die (R435). -/
def State.imageKey (s : State) (die : Nat) : Nat :=
  match s.dies[die]? with
  | some D => D.poolKey.toNat
  | none => 0

/-- `n` bytes of the image of a saved hart, from an offset. -/
def State.imageRead (s : State) (k : Saved) (off n : Nat) : List Byte :=
  s.bytesUnder (s.imageBase k + off) (s.imageKey k.die) n

/-- The context at a place, if there is one. -/
def State.streamAt (s : State) (p : StreamAt) : Option Stream :=
  let l := match p with
    | .reg h _ | .released h _ => s.streamsOf h
    | .gang _ _ _ => s.savedStreams
  (l.find? (fun e => e.1 == p)).map (fun e => e.2)

/-- A context replaced by its image. -/
def State.putAt (s : State) (p : StreamAt) (t : Stream) : State :=
  match p with
  | .reg h n => s.updHart h (fun H => H.setStream n t)
  | .released h k => s.updHart h (fun H => { H with releasing := listUpd H.releasing k (fun _ => t) })
  | .gang g r k => { s with gangs := s.gangs.map (fun G => if G.id = g then
      { G with members := G.members.map (fun m => if m.rank = r then
          { m with saved := m.saved.map (fun v =>
              { v with streams := listUpd v.streams k (fun e => (e.1, t)) }) } else m) } else G) }

/-- The hart on which a context is, or was when its gang was saved. -/
def State.hostHart (s : State) (p : StreamAt) : HartId :=
  match p with
  | .reg h _ | .released h _ => h
  | .gang g r _ => ((s.gangs.find? (fun G => G.id == g)).bind (fun G =>
      (G.members.find? (fun m => m.rank == r)).map (fun m => m.ctx))).getD 0

/-- The stream holds the entry of a landing die and index. -/
def Stream.owns (t : Stream) (d k : Nat) : Bool := t.extents.any (fun e => e.dies.contains (d, k))

/-- The context that holds the entry of a landing die and index, of a stream of hart `h`. -/
def State.holder (s : State) (h : HartId) (d k : Nat) : Option (StreamAt × Stream) :=
  (s.streamsOf h ++ s.savedStreams).find? (fun e => e.2.owns d k)

/-- The entry of a landing die and index is that of a stream of a saved hart of a gang. -/
def State.heldBySaved (s : State) (d k : Nat) : Bool := s.savedStreams.any (fun e => e.2.owns d k)

/-! ### Giving up extents -/

/-- RSVREL is sent for some extents of a stream that lie at peers, and RSVDONE is awaited (R136). -/
def State.relPeers (s : State) (es : List Extent) : State :=
  (es.foldl (fun s e => match e.peer, s.peerOf e.page with
    | some q, some w => { s with rsvOut := s.rsvOut.filter (fun r => r.seq != q) ++ [⟨q, w.target, true⟩] }
    | _, _ => s) s).tellPeers es .rel

/-- A stream gives up some of its extents: their entries are freed, at peers by RSVREL (R124, R135, R136). -/
def State.giveUp (s : State) (t : Stream) (es : List Extent) : State × Stream :=
  ((s.freeAt (es.flatMap (fun e => e.dies))).relPeers es, { t with owed := t.owed ++ es.filterMap (fun e => e.peer) })

/-- The least element from `j` on that a landing die homes, of at most `n` (R127). -/
def Rsv.homedFrom (level : Nat) (r : Rsv) (d : Fin 8) (j : Nat) : Nat → Nat
  | 0 => j
  | n + 1 =>
    if homeOf level ((r.base * 4096 + r.first : Nat) + (j : Int) * r.stride).toNat = d then j
    else r.homedFrom level d (j + 1) n

/-- An entry of a landing die with its POS at the least element from `j` on that is homed there (R127, R128). A page of
4 KiB is homed at one die; a WHOLE entry has no POS. -/
def Rsv.withPos (level : Nat) (r : Rsv) (d : Fin 8) (j : Nat) : Rsv :=
  if r.whole then r
  else { r with pos := if r.extsize = 0 then j else r.homedFrom level d j (r.count - j) }

/-- POS of the entries of a stream follows the front of the stream (R128), and extents that are wholly
passed give back their entries (R124). -/
def State.passed (s : State) (t : Stream) (front : Nat) : State × Stream :=
  let gone := t.extents.filter (fun e => decide (e.hi ≤ front))
  let kept := t.extents.filter (fun e => decide (front < e.hi))
  let (s, t) := s.giveUp t gone
  let s := kept.foldl (fun s e => e.dies.foldl (fun s q =>
    if hd : q.1 < 8 then
      s.updLanding ⟨q.1, hd⟩ (fun l => { l with entries := l.entries.map (fun x =>
        if x.1 = q.2 then (x.1, x.2.withPos s.mgmt.level ⟨q.1, hd⟩ (Nat.max x.2.pos (front - e.lo))) else x) })
    else s) s) s
  (s, { t with extents := kept })

/-! ### Splits -/

/-- The entries that a request for a line conflicts with, with their indices (R129, R130). The
hart that owns the entry of a saved stream runs on no context. -/
def State.conflicts (s : State) (who : Requester) (line : Nat) (write : Bool) : List (Fin 8 × Nat × Rsv) :=
  if encrypted (line * 128) then
    let d := homeOf s.mgmt.level (line * 128)
    ((s.landing d).entries.filter
        (fun e => (e.2.dir || write) && !(e.2.ownedBy who && !s.heldBySaved d.val e.1) && e.2.stands line)).map (fun e => (d, e.1, e.2))
  else []

/-- The two streams of a copy stop together (R185). -/
def Hart.stopCopy (H : Hart) (t : Stream) (stopped : Bool) : Hart :=
  match t.copy with
  | none => H
  | some c =>
    let o := H.stream c.other
    match o.copy with
    | none => H
    | some oc => if oc.id = c.id then H.setStream c.other { o with copy := some { oc with stopped := stopped } } else H

/-- A stream as it stops at element `f` (R185). The lost extents that hold the element have had their fault (R137). -/
def State.stopped (s : State) (h : HartId) (t : Stream) (f va : Nat) (c : Cause) : Stream :=
  Stream.mark { t with
    stopAt := some (f, c.code, BitVec.ofNat 64 va)
    copy := t.copy.map (fun k => { k with stopped := true })
    extents := t.extents.map (fun e => if c = .peerLost ∧ s.inExtent h t e f then { e with lost := false } else e) } 5 true

/-- Stream `n` of a hart, held in `t`, stops at element `f` with a cause (R185): its entries go FAULTED, a record
waits to be written, and the other stream of its copy stops with it. -/
def State.stopAtFault (s : State) (h : HartId) (n : Nat) (t : Stream) (f va : Nat) (c : Cause) : State × Stream :=
  ((s.setEntries t 2).updHart h (fun H => (H.streamRecord h n t f va c).stopCopy t true), s.stopped h t f va c)

/-- A write stream's produced elements made home (R132, R135), at most `k` of them: the stream after it, and why it ends
where it does. -/
def State.drainStream (s : State) (h : HartId) (t : Stream) (k : Nat) : State × Stream × Option (Nat × ElemStop) :=
  if t.desc.dir then
    let vs := (match t.stopAt with
      | some (f, _, _) => t.made.take (f - t.home)
      | none => t.made).take k
    let (s', t', n, e) := s.writeElems h t t.home vs
    let (s', t') := s'.cleanStrips h t' t.home n
    (s', t'.homed n, e.map (fun e => (t.home + n, e)))
  else (s, t, none)

/-- A stream that is cut (R132): LINE and SPLIT are set, and the WHOLE entries are given up. -/
def Stream.cutMarks (t : Stream) : Stream :=
  (({ t with
    noMore := true
    extents := t.extents.map (fun e =>
      { e with line := true, dies := if t.desc.idx = 0 then e.dies else [] }) } : Stream).mark 2 true).mark 3 true

/-- The peers free the extents of a stream that has been cut (R132, R136). -/
def State.leavePeers (s : State) (t : Stream) : State × Stream :=
  (s.relPeers t.extents, { t with
    owed := t.owed ++ t.extents.filterMap (fun e => e.peer)
    extents := t.extents.map (fun e => { e with peer := none }) })

/-- The split of a stream held in `t` (R132): what it has produced is made home; a fault met on the way stops the
stream under R185. Where a host translation is not there yet it is asked for, and the split ends unfinished, unless its
request may not be held (R133): then the elements from there on stay with the stream. -/
def State.splitStream (s : State) (hold : Bool) (h : HartId) (n : Nat) (t : Stream) : State × Stream × Bool :=
  let (s, t, e) := s.drainStream h t t.made.length
  let cut (s : State) (t : Stream) : State × Stream := s.leavePeers t.cutMarks
  match e with
  | none => let (s, t) := cut s t; (s, t, true)
  | some (f, .fault c va) =>
    let (s, t) := cut s t
    let (s, t) := s.stopAtFault h n t f va c
    (s, t, true)
  | some (_, .ask p) =>
    let s := s.askFor (s.hart h).space p
    if hold then (s, t, false) else let (s, t) := cut s t; (s, t, true)

/-! ### Streams of harts that are not there (R132, R133, R437) -/

/-- Where an access of a saved stream goes: for a hart of a saved gang, by the page table and the address space of its image
(R436). -/
def State.reachSaved (s : State) (p : StreamAt) (t : Stream) (kind : Kind) (va : Nat) : Reach :=
  match p with
  | .reg h _ | .released h _ => s.reach h t.sup kind va
  | .gang g r _ =>
    match ((s.gangs.find? (fun G => G.id == g)).bind (fun G => G.members.find? (fun m => m.rank == r))).bind (fun m => m.saved) with
    | none => .fault .access
    | some v =>
      let word (off : Nat) : Word := BitVec.ofNat 64 (natOf (s.imageRead v off 8))
      let asid := fld (word 0x270) 0 16
      match s.walk (word 0x268) asid va with
      | .error (.fault c) => .fault c
      | .error (.askHost q) => .askHost q
      | .ok l => match permFault kind t.sup l.pte with
        | some c => .fault c
        | none =>
          if s.keyInvalid l.key then .fault .access
          else match s.place asid l.pa with
            | .cell c => .to l c
            | .fault c => .fault c
            | .askHost q => .askHost q

/-- The virtual address of element `j` of a saved stream. -/
def State.savedVa (s : State) (p : StreamAt) (t : Stream) (j : Nat) : Except (Cause × Nat) (Option Nat) :=
  let d := t.desc
  if d.idx = 0 then .ok (some (d.base + BitVec.ofNat 64 j * d.stride).toNat)
  else
    let n := if d.idx = 1 then 4 else 8
    match s.reachSaved p t .read (d.indexVa j) with
    | .to l c =>
      if s.poisoned l.pa n then .error (.memoryError, d.indexVa j)
      else .ok (some (d.base + BitVec.ofNat 64 (natOf (s.read .home c l.key n) * 2 ^ d.ishift)).toNat)
    | .fault c => .error (c, d.indexVa j)
    | .askHost _ => .ok none

/-- The cell and the key of element `j` of a saved stream: by the frame of its extent while it holds entries there, and else by
translation. `none` where the host must translate first, or the element lies in scratchpad, which is in the image. -/
def State.savedCell (s : State) (p : StreamAt) (t : Stream) (j : Nat) : Except (Cause × Nat) (Option (Nat × Nat)) :=
  match s.savedVa p t j with
  | .error e => .error e
  | .ok none => .ok none
  | .ok (some va) =>
    let held (e : Extent) : Bool := !e.dies.isEmpty
      && (if t.desc.idx = 0 then decide (e.lo ≤ j ∧ j < e.hi) else va / e.size == e.va / e.size)
    match t.extents.find? held with
    | some e => .ok (some (e.page + va % e.size, e.key))
    | none => match s.reachSaved p t .write va with
      | .to l c => .ok (if regionOf l.pa = .spad then none else some (c, l.key))
      | .fault c => .error (c, va)
      | .askHost _ => .ok none

/-- A saved stream stops at element `f` (R185); its record waits with the hart. -/
def State.stopSaved (s : State) (p : StreamAt) (t : Stream) (f va : Nat) (c : Cause) : State × Stream :=
  let h := s.hostHart p
  let u := s.stopped h t f va c
  match p with
  | .reg _ _ | .released _ _ => ((s.setEntries t 2).updHart h (fun H => H.streamRecord h t.num t f va c), u)
  | .gang g r _ =>
    ({ s.setEntries t 2 with gangs := s.gangs.map (fun G => if G.id = g then
        { G with members := G.members.map (fun m => if m.rank = r then
            { m with saved := m.saved.map (fun v =>
                { v with fq := (({ Hart.reset with fq := v.fq }).streamRecord h t.num t f va c).fq }) } else m) } else G) }, u)

/-- The produced elements of a saved stream made home (R132, R133, R437), from `home` on and up to a fault. Over at most `k`
elements. -/
def State.homeSaved (s : State) (p : StreamAt) (t : Stream) : Nat → State × Stream
  | 0 => (s, t)
  | k + 1 =>
    match t.made with
    | [] => (s, t)
    | v :: _ =>
      if t.desc.dir = false ∨ t.stopAt.isSome ∧ (t.stopAt.map (fun e => decide (e.1 ≤ t.home))) = some true then (s, t)
      else match s.savedCell p t t.home with
        | .ok (some (c, key)) => (s.write .home c key (bytesOf t.desc.esize v)).homeSaved p (t.homed 1) k
        | .ok none => (s, t)
        | .error (c, va) => if t.stopAt.isSome then (s, t) else s.stopSaved p t t.home va c

/-- Entries cut at their POS (R132): COUNT is set to it, and the WHOLE ones are freed. An entry of a peer's write stream
stands until the peer frees it, for what the peer had produced is still to come (DEDUCED, log 24). -/
def Rsv.cutHere (r : Rsv) : Option Rsv :=
  if r.remote && r.dir then some { r with
    count := if r.whole then r.count else r.pos
    coming := if r.whole then 1 else Nat.max r.coming r.count }
  else if r.whole then none
  else some { r with count := r.pos }

/-- The entries named by die and index are cut (R132). -/
def State.cutAt (s : State) (ds : List (Nat × Nat)) : State :=
  { s with landings := s.landings.mapIdx (fun d l =>
      { l with entries := l.entries.filterMap (fun e =>
          if ds.contains (d, e.1) then e.2.cutHere.map (fun r => (e.1, r)) else some e) }) }

/-- The context of an entry's stream replaced as an operation on the stream has it, and whether the operation is done. -/
def State.onHolder (s : State) (d k : Nat) (r : Rsv) (f : State → StreamAt → Stream → State × Stream × Bool) : State × Bool :=
  match (hartAt? r.tile r.hart).bind (fun h => s.holder h d k) with
  | some (p, t) =>
    let (s, t, done) := f s p t
    (s.putAt p t, done)
  | none => (s, true)

/-- A saved stream, or one of a saved hart: what it holds is made home without its hart. -/
def StreamAt.parked (p : StreamAt) (t : Stream) : Bool :=
  match p with
  | .gang _ _ _ => true
  | _ => t.saved

/-- POS of an extent that a peer has registered here: the least of its entries'. -/
def State.posOf (s : State) (refs : List (Nat × Nat)) : Nat :=
  (refs.filterMap (fun q => if hd : q.1 < 8 then
      ((s.landing ⟨q.1, hd⟩).entries.find? (fun e => e.1 == q.2)).map (fun e => e.2.pos)
    else none)).foldl Nat.min (2 ^ 40)

/-- The peer whose extents hold some entries is told that each is cut, at its own POS (R136). -/
def State.tellCut (s : State) (ds : List (Nat × Nat)) : State :=
  { s with outbox := s.outbox ++ (s.rsvIn.filter (fun e => e.2.any (fun x => ds.contains x))).map (fun e =>
      ⟨e.1.1, e.1.2, .cut (s.posOf e.2)⟩) }

/-- The entries of the stream that holds an entry, by die and index. -/
def State.streamRefs (s : State) (r : Rsv) (d k : Nat) : List (Nat × Nat) :=
  if r.remote then
    (dieList.flatMap (fun i => ((s.landing i).entries.filter (fun e =>
      e.2.remote && e.2.origin == r.origin && e.2.tile == r.tile && e.2.hart == r.hart && e.2.stream == r.stream)).map
        (fun e => (i.val, e.1))))
  else match (hartAt? r.tile r.hart).bind (fun h => s.holder h d k) with
    | some (_, t) => t.entryRefs
    | none => [(d, k)]

/-- The split of a stream, wherever its context is (R132, R133), and whether it is done. -/
def State.splitAt (s : State) (hold : Bool) (p : StreamAt) (n : Nat) (t : Stream) : State × Stream × Bool :=
  if p.parked t then
    let (s, t) := s.homeSaved p t (t.made.length + 1)
    let (s, t) := s.leavePeers t.cutMarks
    (s, t, true)
  else s.splitStream hold (s.hostHart p) n t

/-- The split that an entry calls for (R132), and whether it is done: every entry of the stream has its COUNT set to its POS,
and the WHOLE ones are freed. An entry of a peer's stream is cut in the same way, and its owner is told (R136). -/
def State.splitEntry (s : State) (hold : Bool) (d k : Nat) (r : Rsv) : State × Bool :=
  let refs := s.streamRefs r d k
  if r.remote then ((s.tellCut refs).cutAt refs, true)
  else
    let (s, done) := s.onHolder d k r (fun s p t => s.splitAt hold p r.stream t)
    (if done then s.cutAt refs else s, done)

/-- The early write-back of a RELEASING stream for a host request (R133), and whether it is done: produced elements are made
home and nothing else of the stream changes. Those of a peer's stream are on their way. -/
def State.earlyEntry (s : State) (d k : Nat) (r : Rsv) : State × Bool :=
  if r.remote then (s, false)
  else s.onHolder d k r (fun s p t =>
    if p.parked t then
      let (s, t) := s.homeSaved p t (t.made.length + 1)
      (s, t, true)
    else
      let (s, t, e) := s.drainStream (s.hostHart p) t t.made.length
      (match e with
        | some (_, .ask q) => s.askFor (s.hart (s.hostHart p)).space q
        | _ => s, t, true))

/-! ### Windows under another key (R117) -/

/-- No slice has placed a window. -/
def State.noWindows (s : State) : Bool := s.dies.toList.all (fun D => D.slices.toList.all (fun l => l.taken.isEmpty))

/-- The window of a stream of a hart holds an element at a place that a test takes. -/
def State.windowAt (s : State) (h : HartId) (t : Stream) (hit : Leaf → Bool) : Bool :=
  (List.range' (if t.desc.dir then t.home else t.home - t.win.length) t.win.length).any (fun j =>
    match s.elemVa h t j with
    | .ok va => match s.translate h t.sup (if t.desc.dir then .write else .read) va with
      | .ok l => hit l
      | .error _ => false
    | .error _ => false)

/-- A window is written back and invalidated: a write stream's elements there go home, and a read stream fetches its again. -/
def State.emptyWindow (s : State) (h : HartId) (t : Stream) : State × Stream :=
  if t.desc.dir then
    let (s, t, _) := s.drainStream h t t.win.length
    s.passed t t.home
  else (s, { t with home := t.home - t.win.length, win := [] })

/-- The windows that hold an element at a place that a test takes are written back and invalidated (R117). -/
def State.flushWindows (s : State) (hit : Leaf → Bool) : State :=
  if s.noWindows then s
  else (allHarts.flatMap s.streamsOf).foldl (fun s e =>
    let h := s.hostHart e.1
    match s.streamAt e.1 with
    | some t => if !t.saved && s.windowAt h t hit then
        let (s, t) := s.emptyWindow h t
        s.putAt e.1 t
      else s
    | none => s) s

/-! ### Meeting the entries of lines (R129 to R134) -/

/-- The result of the reservation check of an access (R132, R134): it is served, trapped, parked under a tag, or waits
behind requests that were there first, or for elements that are not home yet. -/
inductive Conflict where
  | served
  | trap
  | park (die : Fin 8) (entry line : Nat)
  | behind
  deriving DecidableEq, Repr

/-- The entries that a request for some lines conflicts with, with the line. -/
def State.clashes (s : State) (who : Requester) (lines : List Nat) (write : Bool) :
    List (Nat × Fin 8 × Nat × Rsv) :=
  lines.flatMap (fun l => (s.conflicts who l write).map (fun c => (l, c)))

/-- An operation on an entry, if the request still conflicts with it. -/
def State.onClash (who : Requester) (write : Bool) (f : State → Nat → Nat → Rsv → State × Bool)
    (a : State × Bool) (c : Nat × Fin 8 × Nat × Rsv) : State × Bool :=
  match (a.1.conflicts who c.1 write).find? (fun x => x.1 == c.2.1 && x.2.1 == c.2.2.1) with
  | some (d, k, r) => let (s, done) := f a.1 d.val k r; (s, a.2 && done)
  | none => a

/-- The host's requests and snoops, which no reservation holds (R133). -/
def Requester.held (who : Requester) : Bool :=
  match who with
  | .external => false
  | _ => true

/-- The reservation check of the lines of an access under a key (R117, R132): a trap makes no split; otherwise every split
is made, and then a wait parks the request. -/
def State.meetAll (s : State) (who : Requester) (lines : List Nat) (key : Nat) (write : Bool) : State × Conflict :=
  let cs := s.clashes who lines write
  let of (v : Verdict) := cs.filter (fun c => c.2.2.2.verdict who == v)
  if !(of .trap).isEmpty then (s, .trap)
  else
    let a := (of .split).foldl (State.onClash who write (fun s => s.splitEntry who.held)) (s, true)
    let (s, done) := (of .early).foldl (State.onClash who write State.earlyEntry) a
    match (s.clashes who lines write).filter (fun c => c.2.2.2.verdict who == .wait) with
    | (l, d, k, _) :: _ => (s, .park d k l)
    | [] =>
      if done then (s.flushWindows (fun l => lines.contains (l.pa / 128) && l.key != key), .served) else (s, .behind)

/-- Some line of an access meets an entry that traps it: then no split is made for any of them (R132). -/
def State.meetsTrap (s : State) (who : Requester) (lines : List Nat) (write : Bool) : Bool :=
  (s.clashes who lines write).any (fun c => c.2.2.2.verdict who == .trap)

/-! ### Parking (R134, R141, R144) -/

/-- A parked request is still there: a hart's while it waits so, an engine's while its stream is there, a region's while
it is active. -/
def State.live (s : State) (d : Fin 8) (p : Parked) : Bool :=
  match p.who with
  | .hart h => (s.hart h).wait == .parked d.val p.entry p.line
  | .engine h n => (s.hart h).run != .halted
      && (((s.hart h).stream n).cfg || (s.hart h).releasing.any (fun t => t.num == n && !t.saved))
  | .region h => (s.hart h).run != .halted && (s.hart h).fabric.active.isSome
  | .peer _ _ => true

/-- The wake-up tag of a parked request has fired (R134): its entry is gone, is in another STATE, or does not cover the
line. -/
def State.fired (s : State) (d : Fin 8) (p : Parked) : Bool :=
  match (s.landing d).entries.find? (fun e => e.1 == p.entry) with
  | none => true
  | some e => e.2.state != p.state || e.2.base != p.base || !e.2.stands p.line

/-- The requests parked for a line, in order. -/
def State.parkedAt (s : State) (line : Nat) : List Parked :=
  let d := homeOf s.mgmt.level (line * 128)
  (s.landing d).parked.filter (fun p => p.line == line && s.live d p)

/-- The tile that a parked request comes from. -/
def Parker.tile (p : Parker) : Option (Fin 224) :=
  match p with
  | .hart h | .engine h _ | .region h => some (tileOf h)
  | .peer _ _ => none

/-- A woken request waits to re-enter the slice through which a tile's requests for a line enter (R144). -/
def State.wokenAt (s : State) (t : Fin 224) (line : Nat) : Bool :=
  dieList.any (fun d => (s.landing d).parked.any (fun p => s.live d p && s.fired d p
    && (p.who.tile.map (fun u => sliceOf u p.line)) == some (sliceOf t line)))

/-- A request for a line waits behind others (R134, R144): a parked one behind those with its tag that were parked before
it, a new one behind those whose tag has fired, at its line or, of tiles, in its slice. -/
def State.waitsBehind (s : State) (who : Parker) (line : Nat) : Bool :=
  let l := s.parkedAt line
  match l.find? (fun p => p.who == who) with
  | some me => (l.takeWhile (fun p => p.who != who)).any (fun p => p.entry == me.entry)
  | none => l.any (s.fired (homeOf s.mgmt.level (line * 128))) || (match who.tile with
    | some t => s.wokenAt t line
    | none => false)

/-- A replay entry of a slice is free for a tile (R134): one of its two, or one of the 16 shared ones. -/
def State.replayRoom (s : State) (t : Fin 224) (line : Nat) : Bool :=
  let tiles := dieList.flatMap (fun d => ((s.landing d).parked.filter (s.live d)).filterMap (fun p =>
    p.who.tile.filter (fun u => sliceOf u p.line == sliceOf t line)))
  let used (u : Fin 224) : Nat := (tiles.filter (fun x => x == u)).length
  decide (used t < 2) || decide (((tiles.eraseDups).map (fun u => used u - 2)).sum < 16)

/-- Somebody's requests are parked. -/
def State.isParked (s : State) (who : Parker) : Bool :=
  s.landings.toList.any (fun l => l.parked.any (fun p => p.who == who))

/-- Somebody's requests are no longer parked. -/
def State.unpark (s : State) (who : Parker) : State :=
  if s.isParked who then
    { s with landings := s.landings.map (fun l => { l with parked := l.parked.filter (fun p => p.who != who) }) }
  else s

/-- None of a hart's requests is parked: its own, its engines', or its region's. -/
def State.unparkHart (s : State) (h : HartId) : State :=
  let own (p : Parker) : Bool := match p with
    | .hart g | .engine g _ | .region g => g == h
    | .peer _ _ => false
  if s.landings.toList.any (fun l => l.parked.any (fun p => own p.who)) then
    { s with landings := s.landings.map (fun l => { l with parked := l.parked.filter (fun p => !own p.who) }) }
  else s

/-- A request parks at an entry for a line, behind those already there (R134), or stays as it is parked. A peer may have
several. Without a replay entry it waits in its own miss queue, with no place. -/
def State.park (s : State) (who : Parker) (d : Fin 8) (entry line : Nat) : State :=
  if (s.landing d).parked.any (fun p => p.who == who && p.entry == entry && p.line == line && s.live d p) then s
  else
    let s := match who with
      | .peer _ _ => s
      | _ => s.unpark who
    let room := match who.tile with
      | some t => s.replayRoom t line
      | none => true
    match (s.landing d).entries.find? (fun e => e.1 == entry) with
    | some e => if room then s.updLanding d (fun l => { l with parked := l.parked ++ [⟨who, entry, line, e.2.base, e.2.state⟩] })
        else s
    | none => s

/-- What was parked for a line that is served is parked no longer. -/
def State.unparkAt (s : State) (who : Parker) (lines : List Nat) : State :=
  if s.isParked who then
    { s with landings := s.landings.map (fun l =>
        { l with parked := l.parked.filter (fun p => !(p.who == who && lines.contains p.line)) }) }
  else s

/-- The check of an access in its turn (R132, R134, R144): what is served is parked no longer. -/
def State.meetInTurn (s : State) (p : Parker) (who : Requester) (lines : List Nat) (key : Nat) (write : Bool) :
    State × Conflict :=
  if lines.any (s.waitsBehind p) then (s, .behind)
  else match s.meetAll who lines key write with
    | (s', .served) => (s'.unparkAt p lines, .served)
    | (s', .park d k l) => (s'.park p d k l, .park d k l)
    | x => x

/-- A line behind a peer window at which a wait-mode entry of the peer holds an access (R138, R350). -/
def State.peerWaits (s : State) (pa : Nat) : Bool :=
  if regionOf pa = .peer then match s.peerOf pa with
    | some w => s.peerHeld.contains (peerCell w.target (w.offset + (pa - w.base)) / 128)
    | none => false
  else false

end Sys2Proof.Machine
end

