-- ==== Sys2Proof/Machine/CsrFile.lean ====
section
/-!
DEFINITION. The CSR file: numbers and privileges (R54, R55), reads, and writes under the field rules of
each CSR (R9, R51, R85, R217, R218, R229, R232, R241, R288, R289, R301, R302, R394, R418, R419, R426).
-/

namespace Sys2Proof.Machine

/-- Who may do what with a CSR (R54). -/
inductive CsrAccess where
  | none | read | readWrite
  deriving DecidableEq, Repr

/-- The user access of a CSR number (R54). -/
def csrUser (n : Nat) : CsrAccess :=
  match n with
  | 0x000 | 0x005 | 0x006 | 0x007 | 0x00A => .readWrite
  | 0x001 | 0x002 | 0x003 | 0x004 | 0x008 | 0x009 => .read
  | _ => if 0x020 ≤ n ∧ n ≤ 0x03F then .read else .none

/-- The supervisor access of a CSR number (R54). -/
def csrSup (n : Nat) : CsrAccess :=
  if n = 0x009 then .read
  else if n ≤ 0x00A ∨ (0x020 ≤ n ∧ n ≤ 0x03F) ∨ (0x100 ≤ n ∧ n ≤ 0x107) then .readWrite
  else .none

/-- The access is legal at the level (R55). -/
def csrLegal (sup : Bool) (n : Nat) (write : Bool) : Bool :=
  match (if sup then csrSup n else csrUser n) with
  | .none => false
  | .read => !write
  | .readWrite => true

/-- The events routed to a hart are unacknowledged (R445, R451). -/
def State.ipext (s : State) (h : HartId) : Bool :=
  s.routes.any (fun r => r.pending && r.route.getLsbD 10 && (fld r.route 0 8).toNat == (tileOf h).val
    && (fld r.route 8 2).toNat == ctxOf h)

/-- FQCTL.TAIL and HEAD (R433). -/
def FaultQ.tail (q : FaultQ) : Nat := (fld q.ctl 16 16).toNat
def FaultQ.head (q : FaultQ) : Nat := (fld q.ctl 0 16).toNat
def FaultQ.size (q : FaultQ) : Nat := 2 ^ (fld q.ctl 32 4).toNat

/-- IPFQ is 1 while TAIL differs from HEAD or a record waits (R434). -/
def FaultQ.pending (q : FaultQ) : Bool := q.tail != q.head || !q.waiting.isEmpty

/-- SSTAT as it reads: IPEXT and IPFQ are computed (R418). -/
def State.sstat (s : State) (h : HartId) : Word :=
  let H := s.hart h
  setBit (setBit H.csr.sstat 26 (s.ipext h)) 25 H.fq.pending

/-- CAPCTL as it reads (R394). -/
def CapSide.ctl (c : CapSide) : Word :=
  let n (lo len v : Nat) (w : Word) : Word := setFld w lo (BitVec.ofNat len v)
  setBit (setBit (setBit (setBit
    (n 35 9 c.inUse.length (n 26 9 c.slots (n 17 9 (Nat.min c.parked.length 511)
      (n 11 6 (if c.land then c.bank else 0) 0)))) 3 c.hold) 2 c.held.isSome) 1 c.land) 0 c.send

/-- The value that a CSR of a hart reads as (R54). -/
def State.csrRead (s : State) (h : HartId) (n : Nat) : Word :=
  let H := s.hart h
  match n with
  | 0x000 => H.csr.fstat
  | 0x001 => H.csr.vcfg
  | 0x002 => H.csr.vstart
  | 0x003 => H.csr.lpart
  | 0x004 => H.csr.tshape
  | 0x005 => H.csr.mstat
  | 0x006 => H.csr.soundt
  | 0x007 => H.csr.sounde
  | 0x008 => H.cap.ctl
  | 0x009 => H.csr.cycle
  | 0x00A => H.csr.timer
  | 0x100 => s.sstat h
  | 0x101 => H.csr.tvec
  | 0x102 => H.csr.tcause
  | 0x103 => H.csr.tval
  | 0x104 => H.csr.tepc
  | 0x105 => H.csr.ptbase
  | 0x106 => H.csr.asid
  | 0x107 => H.csr.rasp
  | _ => if 0x020 ≤ n ∧ n ≤ 0x03F then (H.vdirty[n - 0x020]?.getD 0).setWidth 64 else 0

/-- The grant of a requested shape (R289). -/
def tshapeGrant (L m n k : Nat) : Nat × Nat × Nat :=
  (Nat.min 128 (roundup (Nat.max m 1) 4), Nat.min (2 * L) (roundup (Nat.max n 1) 16),
   Nat.min 512 (roundup (Nat.max k 1) 32))

/-- TSHAPE with its M, N and K replaced (R288). -/
def setShape (w : Word) (m n k : Nat) : Word :=
  setFld (setFld (setFld w 0 (BitVec.ofNat 16 m)) 16 (BitVec.ofNat 16 n)) 32 (BitVec.ofNat 16 k)

/-- A write of FSTAT: a reserved mode leaves RM unchanged (R85, R217). -/
def fstatWrite (old w : Word) : Word :=
  let v := w &&& 0x7FF#64
  if 5 ≤ (fld v 7 3).toNat then setFld v 7 (fld old 7 3) else v

/-- A write of VCFG: MODE stays, a reserved SCOPE stays, VL is clamped to the VLMAX of the written SEW
(R232). -/
def Hart.vcfgWrite (H : Hart) (w : Word) : Word :=
  let v := setFld (w &&& 0xFFFFFF#64) 22 (fld H.csr.vcfg 22 2)
  let v := if 6 ≤ (fld v 18 3).toNat then setFld v 18 (fld H.csr.vcfg 18 3) else v
  setFld v 0 (BitVec.ofNat 16 (Nat.min (fld v 0 16).toNat (H.vlmax (fld v 16 2).toNat)))

/-- A write of SSTAT: IE, SPP, SPIE and SIE are written, IPMOV and IPWD clear on 1 (R418). -/
def sstatWrite (old w : Word) : Word :=
  let keep := old &&& 0x1000000#64
  let rw := w &&& 0x1F0122#64
  let ip := old &&& ~~~w &&& 0x18000000#64
  keep ||| rw ||| ip

/-- A hart with a CSR written (R9, R54). CYCLE is never written (R55). -/
def Hart.csrWrite (H : Hart) (n : Nat) (w : Word) : Hart :=
  let c := H.csr
  match n with
  | 0x000 => { H with csr := { c with fstat := fstatWrite c.fstat w } }
  | 0x001 => { H with csr := { c with vcfg := H.vcfgWrite w } }
  | 0x002 => { H with csr := { c with vstart := w &&& 0x7FFFF#64 } }
  | 0x003 => { H with csr := { c with lpart := setFld (c.lpart) 16 (fld w 16 16) } }
  | 0x004 =>
    if H.mode = 1 then
      let g := tshapeGrant H.lanes (fld w 0 16).toNat (fld w 16 16).toNat (fld w 32 16).toNat
      { H with csr := { c with tshape := setShape c.tshape g.1 g.2.1 g.2.2 } }
    else H
  | 0x005 => { H with csr := { c with mstat := w &&& 0x1FF#64 } }
  | 0x006 => { H with csr := { c with soundt := w &&& 0xFFFFFFFF#64 } }
  | 0x007 => { H with csr := { c with sounde := w &&& 0xFFFFFFFF#64 } }
  | 0x008 => { H with cap := { H.cap with hold := w.getLsbD 3 } }
  | 0x00A => { H with csr := { c with timer := w, sstat := setBit c.sstat 24 false } }
  | 0x100 => { H with csr := { c with sstat := sstatWrite c.sstat w } }
  | 0x101 => { H with csr := { c with tvec := w &&& ~~~3#64 } }
  | 0x102 => { H with csr := { c with tcause := w &&& 0x80000000000000FF#64 } }
  | 0x103 => { H with csr := { c with tval := w } }
  | 0x104 => { H with csr := { c with tepc := w &&& ~~~3#64 } }
  | 0x105 => { H with csr := { c with ptbase := w &&& 0x1FFFFFFFFFFFF000#64 } }
  | 0x106 => { H with csr := { c with asid := w &&& 0xFFFF#64 } }
  | 0x107 => { H with csr := { c with rasp := w &&& ~~~7#64 } }
  | _ =>
    if 0x020 ≤ n ∧ n ≤ 0x03F then
      if (fld w 0 3).toNat ≤ 4 then { H with vdirty := H.vdirty.setIfInBounds (n - 0x020) (fld w 0 3) } else H
    else H

end Sys2Proof.Machine
end

