-- ==== Sys2Proof/Machine/Device.lean ====
section
/-!
DEFINITION. The device registers of R451 as harts read and write them: module status, key slot states, peer
windows, event routing, the host interface, the die registers (R139, R140, R367, R430, R435, R462), the
fault queues (R433), the debug module (R442) and the reservation diagnostic (R127).
-/

namespace Sys2Proof.Machine

/-- A reservation entry as its 256 bits (R127). -/
def Rsv.bits (r : Rsv) : BitVec 256 :=
  let n (lo len v : Nat) (w : BitVec 256) : BitVec 256 := setFld w lo (BitVec.ofNat len v)
  n 255 1 1 (n 254 1 (if r.dir then 1 else 0) (n 252 2 r.mode (n 250 2 r.state (n 248 2 r.esize
    (n 246 2 r.extsize (n 237 9 r.key (n 234 3 r.scope (n 233 1 (if r.remote then 1 else 0)
    (n 222 11 r.origin (n 214 8 r.tile (n 212 2 r.hart (n 208 4 r.stream (n 168 40 r.base
    (setFld (n 106 30 r.first (n 66 40 r.count (n 26 40 r.pos
      (n 25 1 (if r.whole then 1 else 0) 0)))) 136 (BitVec.ofInt 32 r.stride)))))))))))))))

/-- The depth class of a queue (R367). -/
def Queue.fill (q : Queue) : Nat :=
  let n := (q.entries.filter (fun e => match e with | .record _ => true | .resume _ => false)).length
  if n = 0 then 0 else if n ≤ 16 then 1 else if n ≤ 32 then 2 else if n ≤ 48 then 3
  else if n ≤ 63 then 4 else 5

/-- A read of the die block (R451). -/
def Die.regRead (D : Die) (off : Nat) : Word :=
  if off = 0x000 then D.schcfg
  else if 0x100 ≤ off ∧ off < 0x200 then
    let q := (off - 0x100) / 8
    setFld (D.qcfg[q]?.getD 0) 0 (BitVec.ofNat 3 ((D.queues[q]?.getD Queue.reset).fill))
  else if off = 0x200 then D.asidTable
  else if off = 0x300 then D.poolBase
  else if off = 0x308 then D.poolSize
  else if off = 0x310 then D.poolSlots
  else if off = 0x318 then D.poolKey
  else if 0x400 ≤ off ∧ off < 0x440 then
    (D.slices[(off - 0x400) / 8]?.getD Slice.reset).winunits.setWidth 64
  else if off = 0x500 then D.wdcfg
  else 0

/-- A write of SLCFG (R139, R140): units gained are pending while lines may be held in them; a unit that a
window still holds never left the windows. -/
def Slice.cfgWrite (l : Slice) (v : Word) : Slice :=
  let n := (fld v 0 6).toNat
  if 24 < n then l
  else
    let gained := (List.range n).filter (fun u => decide (l.winunits.toNat ≤ u)
      && !(l.taken.any (fun g => g.1 == u)))
    { l with winunits := BitVec.ofNat 6 n, pending := (l.pending.filter (fun u => decide (u < n))) ++ gained }

/-- A write of the die block (R367, R430, R435, R462). -/
def Die.regWrite (D : Die) (off : Nat) (v : Word) : Die :=
  if off = 0x000 then { D with schcfg := v }
  else if 0x100 ≤ off ∧ off < 0x200 then
    { D with qcfg := D.qcfg.setIfInBounds ((off - 0x100) / 8) (v &&& 0xF0#64) }
  else if off = 0x200 then { D with asidTable := v }
  else if off = 0x300 then { D with poolBase := v }
  else if off = 0x308 then { D with poolSize := v }
  else if off = 0x310 then { D with poolSlots := v }
  else if off = 0x318 then { D with poolKey := v }
  else if 0x400 ≤ off ∧ off < 0x440 then
    let k := (off - 0x400) / 8
    match D.slices[k]? with
    | some l => { D with slices := D.slices.setIfInBounds k (l.cfgWrite v) }
    | none => D
  else if off = 0x500 then { D with wdcfg := v &&& 0xFFFFFFFFFFFF#64 }
  else D

/-- A write of FQBASE (R433). -/
def FaultQ.writeBase (q : FaultQ) (v : Word) : FaultQ := { q with base := v &&& 0x1FFFFFFFFFFFFFC0#64 }

/-- A write of FQCTL (R433): SIZEL from 4 to 12 and HEAD; TAIL stays, and a write that would make
TAIL − HEAD exceed the size is ignored. -/
def FaultQ.writeCtl (q : FaultQ) (v : Word) : FaultQ :=
  let sizel := (fld v 32 4).toNat
  let sizel' := if 4 ≤ sizel ∧ sizel ≤ 12 then fld v 32 4 else fld q.ctl 32 4
  let ctl := setFld (setFld q.ctl 32 sizel') 0 (fld v 0 16)
  if 2 ^ sizel'.toNat < (q.tail + 65536 - (fld v 0 16).toNat) % 65536 then q else { q with ctl := ctl }

/-! ### Debug hold (R443) -/

/-- The engine of a stream of a hart waits at an entry of a held hart: the party that fills or drains the stream's strip buffer
is under hold. -/
def State.engineHeld (s : State) (held : List HartId) (h : HartId) (n : Nat) : Bool :=
  s.landings.toList.any (fun l => l.parked.any (fun p => p.who == .engine h n && l.entries.any (fun e =>
    e.1 == p.entry && !e.2.remote && (match hartAt? e.2.tile e.2.hart with
      | some k => held.contains k
      | none => false))))

/-- One round of the spread of the hold: the harts held because of those in `held`. A ring is filled and drained by its own
hart (R163, R164), and an exchange crosses the crossing of the pair (R300). -/
def State.holdRound (s : State) (held : List HartId) : List HartId :=
  allHarts.filter (fun h =>
    let H := s.hart h
    held.contains h
      || (match H.wait with
        | .crossSend p | .crossRecv p => match H.ports[p]? with
          | some q => q.isOpen && held.contains q.peer
          | none => false
        | .mxchg _ _ _ => match H.ports[(fld H.csr.tshape 50 2).toNat]? with
          | some q => q.isOpen && held.contains q.peer
          | none => false
        | .stream n => s.engineHeld held h n
        | .tok _ | .cap _ | .counter => match H.gang with
          | some (g, _) =>
            s.gangs.any (fun G => G.id == g && G.members.any (fun m => m.saved.isNone && !m.done && held.contains m.ctx))
              || held.any (fun k => (s.hart k).run == .halted
                && (((s.hart k).cap.held.toList.map (fun c => c.1)) ++ (s.hart k).cap.parked).any (fun c => c.gang == g))
          | none => false
        | _ => false))

/-- The harts that are under debug hold (R443), after `n` rounds. -/
def State.holdSet (s : State) : Nat → List HartId
  | 0 => allHarts.filter (fun h => (s.hart h).run == .halted)
  | n + 1 =>
    let held := s.holdSet n
    if held.isEmpty then [] else s.holdRound held

/-- The hart is under debug hold (R443). A chain of producers has at most as many links as there are
harts. -/
def State.underHold (s : State) (h : HartId) : Bool :=
  if (s.hart h).run == .halted then true
  else if (s.hart h).run == .waiting then (s.holdSet 896).contains h
  else false

/-- A read of the debug block (R442). A context with no placed hart reads DBGSTAT as 0; REGNO and CMD are
write-only and read 0 (R8). -/
def Hart.dbgRead (H : Hart) (off : Nat) : Word :=
  match off with
  | 0x00 => H.dbg.ctl
  | 0x08 => if H.run = .idle then 0 else H.dbg.stat
  | 0x10 => H.dbg.pc
  | 0x18 => setFld 0#64 20 (fld H.dbg.cmd 20 2)
  | 0x20 => H.dbg.data
  | _ => 0

/-- The hart is halted and the halt acknowledged (R442). -/
def Hart.halted (H : Hart) : Bool := H.run == .halted && H.dbg.stat.getLsbD 0

/-- A halted hart runs again at DBGPC (R442); with STEP it halts after one instruction. After an `ebreak`
halt whose DBGPC is still the `ebreak`, the next instruction runs (R441). -/
def Hart.resumeDebug (H : Hart) : Hart :=
  if H.halted then
    let pc := if (fld H.dbg.stat 2 2 == 1) && H.dbg.pc == H.pc then H.dbg.pc + 4 else H.dbg.pc
    { H with run := .running, wait := .none, pc := pc,
             dbg := { H.dbg with stat := 0, haltReq := false, stepping := H.dbg.ctl.getLsbD 4 } }
  else H

/-- The STATE of the entries of the configured streams of a hart (R440). -/
def State.setStreamEntries (s : State) (h : HartId) (st : Stream → Nat) : State :=
  ((s.hart h).streams.toList.filter (fun t => t.cfg)).foldl (fun s t => s.setEntries t (st t)) s

/-- The debug module resumes a halted hart: its stream entries leave SUSPENDED, those of a faulted stream for FAULTED
(R440, R442). -/
def State.resumeHalted (s : State) (h : HartId) : State :=
  if (s.hart h).halted then
    (s.setStreamEntries h (fun t => if t.stopAt.isSome then 2 else 0)).updHart h Hart.resumeDebug
  else s

/-- DBGCMD with a result (R442). -/
def Hart.dbgResult (H : Hart) (r : Nat) : Hart :=
  { H with dbg := { H.dbg with cmd := setFld 0#64 20 (BitVec.ofNat 2 r) } }

/-- Commands 1 and 2 on register REGNO (R442). -/
def State.dbgReg (s : State) (h : HartId) (write : Bool) (regno : Nat) : State :=
  let H := s.hart h
  if !H.halted then s.updHart h (fun H => H.dbgResult 2)
  else if regno < 0x40 then
    let r : Reg := BitVec.ofNat 5 regno
    if write then
      s.updHart h (fun H => (if regno < 0x20 then H.setX r H.dbg.data else H.setF r H.dbg.data).dbgResult 0)
    else
      let v := if regno < 0x20 then H.getX r else H.getF r
      s.updHart h (fun H => { H with dbg := { H.dbg with data := v } }.dbgResult 0)
  else if 0x1000 ≤ regno ∧ csrLegal true (regno - 0x1000) write then
    if write then s.updHart h (fun H => (H.csrWrite (regno - 0x1000) H.dbg.data).dbgResult 0)
    else
      let v := s.csrRead h (regno - 0x1000)
      s.updHart h (fun H => { H with dbg := { H.dbg with data := v } }.dbgResult 0)
  else s.updHart h (fun H => H.dbgResult 3)

/-- A write of the debug block (R442): writes for a context with no placed hart are ignored. Commands 3 and
4 go busy until the debug module performs them. -/
def State.dbgWrite (s : State) (h : HartId) (off : Nat) (v : Word) : State :=
  let H := s.hart h
  if H.run = .idle then s
  else match off with
    | 0x00 =>
      let s := s.updHart h (fun H => { H with dbg := { H.dbg with ctl := v &&& 0x1C#64 } })
      let s := if v.getLsbD 0 then s.updHart h (fun H => { H with dbg := { H.dbg with haltReq := true } }) else s
      if v.getLsbD 1 then s.resumeHalted h else s
    | 0x10 => if H.halted then s.updHart h (fun H => { H with dbg := { H.dbg with pc := v &&& ~~~3#64 } }) else s
    | 0x18 =>
      let cmd := (fld v 0 4).toNat
      let regno := (fld v 4 16).toNat
      if !H.halted then s.updHart h (fun H => H.dbgResult 2)
      else if cmd = 1 then s.dbgReg h false regno
      else if cmd = 2 then s.dbgReg h true regno
      else if cmd = 3 ∨ cmd = 4 then
        s.updHart h (fun H => { H with dbg := { H.dbg with cmd := setFld (v &&& 0xF#64) 20 (1#2) } })
      else s.updHart h (fun H => H.dbgResult 3)
    | 0x20 => s.updHart h (fun H => { H with dbg := { H.dbg with data := v } })
    | _ => s

/-- The route of an event source (R451). -/
def State.routeOf (s : State) (e : Nat) : Route :=
  (s.routes.find? (fun r => r.src == e)).getD ⟨e, 0, false⟩

/-- The route of an event source replaced. -/
def State.setRoute (s : State) (r : Route) : State :=
  { s with routes := if s.routes.any (fun q => q.src == r.src)
      then s.routes.map (fun q => if q.src == r.src then r else q) else s.routes ++ [r] }

/-- A read of a device register at an offset (R451). Unassigned offsets read 0. -/
def State.devRead (s : State) (off : Nat) : Word :=
  if off = 0x0 then s.mgmt.modid
  else if off = 0x8 then BitVec.ofNat 64 s.mgmt.level
  else if 0x10000 ≤ off ∧ off < 0x11000 then BitVec.ofNat 64 (s.key ((off - 0x10000) / 8)).state
  else if 0x20000 ≤ off ∧ off < 0x20800 then
    match s.peerWin[(off - 0x20000) / 32]? with
    | some w =>
      match (off - 0x20000) % 32 / 8 with
      | 0 => BitVec.ofNat 64 w.base
      | 1 => if w.on then BitVec.ofNat 64 w.size else 0
      | 2 => BitVec.ofNat 64 w.target
      | _ => BitVec.ofNat 64 w.offset
    | none => 0
  else if 0x30000 ≤ off ∧ off < 0x40000 then
    if off % 16 = 0 then (s.routeOf ((off - 0x30000) / 16)).route else 0
  else if off = 0x40000 then boolWord s.hostIf.atsen ||| (boolWord s.hostIf.prien <<< 1)
  else if 0x100000 ≤ off ∧ off < 0x500000 then
    match s.dies[(off - 0x100000) / 0x100000]? with
    | some D => D.regRead ((off - 0x100000) % 0x100000)
    | none => 0
  else if 0x1000000 ≤ off ∧ off < 0x10E0000 then
    match hartAt? ((off - 0x1000000) / 0x1000) ((off % 0x1000) / 0x100) with
    | some h =>
      match off % 0x100 with
      | 0x0 => (s.hart h).fq.base
      | 0x8 => (s.hart h).fq.ctl
      | _ => 0
    | none => 0
  else if 0x2000000 ≤ off ∧ off < 0x20E0000 then
    match hartAt? ((off - 0x2000000) / 0x1000) ((off % 0x1000) / 0x100) with
    | some h =>
      let w := (s.hart h).dbgRead (off % 0x100)
      if off % 0x100 = 8 then setBit w 1 (s.underHold h) else w
    | none => 0
  else if 0x4000000 ≤ off ∧ off < 0x4080000 then
    match s.landings[(off - 0x4000000) / 0x10000]? with
    | some l =>
      match assoc l.entries (off % 0x10000 / 32) with
      | some r => BitVec.ofNat 64 (r.bits.toNat / 2 ^ (8 * (off % 32)))
      | none => 0
    | none => 0
  else 0

/-- A write of a device register by a hart at supervisor level (R451). Writes to blocks that only the
Watershed writes, and to unassigned offsets, are ignored. -/
def State.devWrite (s : State) (off : Nat) (v : Word) : State :=
  if 0x30000 ≤ off ∧ off < 0x40000 then
    let e := (off - 0x30000) / 16
    if off % 16 = 0 then s.setRoute { s.routeOf e with route := v &&& 0x3FFFF#64 }
    else if v.getLsbD 0 then s.setRoute { s.routeOf e with pending := false } else s
  else if off = 0x40000 then
    { s with hostIf := { s.hostIf with atsen := v.getLsbD 0, prien := v.getLsbD 1 } }
  else if 0x100000 ≤ off ∧ off < 0x500000 then
    let d : Fin 4 := ⟨(off - 0x100000) / 0x100000 % 4, by omega⟩
    s.updDie d (fun D => D.regWrite ((off - 0x100000) % 0x100000) v)
  else if 0x1000000 ≤ off ∧ off < 0x10E0000 then
    match hartAt? ((off - 0x1000000) / 0x1000) ((off % 0x1000) / 0x100) with
    | some h =>
      match off % 0x100 with
      | 0x0 => s.updHart h (fun H => { H with fq := H.fq.writeBase v })
      | 0x8 => s.updHart h (fun H => { H with fq := H.fq.writeCtl v })
      | _ => s
    | none => s
  else if 0x2000000 ≤ off ∧ off < 0x20E0000 then
    match hartAt? ((off - 0x2000000) / 0x1000) ((off % 0x1000) / 0x100) with
    | some h => s.dbgWrite h (off % 0x100) v
    | none => s
  else s

end Sys2Proof.Machine
end

