-- ==== Sys2Proof/Machine/Access.lean ====
section
/-!
DEFINITION. Accesses of the hart whose turn it is: scalar loads and stores, atomics, the words of full/empty
bits (R129 to R134, R204 to R207, R337 to R342).
-/

namespace Sys2Proof.Machine

/-! ### The reservation check of the hart whose turn it is -/

/-- The hart waits behind requests that were there before its own (R134, R144): where it is parked, it stays so. -/
def waitBehind : Op Unit := do
  let s ← get
  match s.me.wait with
  | .parked d e l => waitOp (.parked d e l)
  | _ => waitOp .other

/-- The line of an address is had for the hart under a key (R117, R120): where the host holds it, its snoop is awaited. -/
def takeLine (s : State) (pa key : Nat) (write : Bool) : Op Unit := do
  if s.hostHolds (pa / 128) key write then
    set (s.snoopHost (pa / 128))
    waitOp .other
  else set (s.touchLine (tileOf s.cur) pa key write)

/-- The reservation check of the line of an address (R129 to R134, R138, R350). Without a replay entry the hart waits
all the same, with no place among those parked. -/
def checkLine (pa key : Nat) (va : Word) (write : Bool) : Op Unit := do
  let s ← get
  if s.peerWaits pa then waitOp (.peer va none none)
  else
    match s.meetInTurn (.hart s.cur) (.hart s.cur) [pa / 128] key write with
    | (s', .served) => takeLine s' pa key write
    | (_, .trap) => trapOp .reservation va
    | (s', .park d e l) =>
      set s'
      waitOp (if s'.isParked (.hart s'.cur) then .parked d.val e l else .other)
    | (_, .behind) => waitBehind

/-! ### Loads and stores -/

/-- The host is asked for a translation for the hart whose turn it is (R431). -/
def State.askHost (s : State) (page : Nat) : State := s.askFor s.me.space page

/-- The physical addresses that an access of a hart reaches for: those of the table entries that its walk reads,
and its own (R427). -/
def State.reachesFor (s : State) (h : HartId) (va : Nat) : List Nat :=
  let H := s.hart h
  match s.tlbHit (tileOf h) H.space va with
  | some l => [l.pa]
  | none =>
    s.walkReads H.space va 4 ((fld H.csr.ptbase 12 40).toNat * 4096) (fld H.csr.ptbase 52 9).toNat
      ++ (match s.walk H.csr.ptbase H.space va with
        | .ok l => [l.pa]
        | .error _ => [])

/-- A page request that failed ends with the access that it failed for (R431): a later access asks again. -/
def State.endFailed (s : State) (h : HartId) (va : Nat) : State :=
  if s.hostIf.failed.isEmpty then s
  else
    let pages := ((s.reachesFor h va).filter (fun pa => regionOf pa == .host)).map (fun pa =>
      (⟨(s.hart h).space, (pa - 0xF000000000000) / 4096⟩ : PageReq))
    { s with hostIf := { s.hostIf with failed := s.hostIf.failed.filter (fun r => !pages.contains r) } }

/-- The hart asks the host for a translation and waits (R431). -/
def askHost (page : Nat) : Op Leaf := do
  modify (fun s => s.askHost page)
  waitOp .other

/-- Where an access made for the hart at a level goes (R422, R429): misalignment, then translation, permission
and key. -/
def reachAs (sup : Bool) (kind : Kind) (va : Word) (size : Nat) : Op (Leaf × Nat) := do
  check (decide (va.toNat % size = 0)) .misaligned va
  let s ← get
  match s.reach s.cur sup kind va.toNat with
  | .to l c => return (l, c)
  | .fault c => do
    modify (fun s => s.endFailed s.cur va.toNat)
    trapOp c va
  | .askHost p => do
    let l ← askHost p
    return (l, 0)

/-- Where an access of the hart goes, at its current level. -/
def reachOp (kind : Kind) (va : Word) (size : Nat) : Op (Leaf × Nat) := do
  let s ← get
  reachAs s.me.sup kind va size

/-- The device register that an 8-byte access of supervisor code reaches, if it reaches one (R451). -/
def State.deviceAt (s : State) (kind : Kind) (va : Word) (size : Nat) : Option Nat :=
  if s.me.sup && size == 8 && va.toNat % 8 == 0 then
    match s.translate s.cur true kind va.toNat with
    | .ok l =>
      if regionOf l.pa = .device && !s.keyInvalid l.key then some (l.pa - 0xF800000000000) else none
    | .error _ => none
  else none

/-- An atomic may be executed at an address (R207). -/
def State.atomicOk (s : State) (pa : Nat) : Bool :=
  match regionOf pa with
  | .host => false
  | .peer => match s.peerOf pa with
    | some w => w.lefahel
    | none => true
  | _ => true

/-- What the scalar side reads at a place: what a load performed early has read there, if the plan holds one, and else
what the side sees now (R337, R339, R353). An acquire, given with its scope, is not performed early (R340). -/
def readScalar (va : Word) (l : Leaf) (c size : Nat) (acq : Option Nat := none) : Op Nat := do
  let s ← get
  match if acq.isSome then none else s.takeEarly s.cur true c l.key size with
  | some (bs, s) =>
    set s
    return natOf bs
  | none =>
    checkLine l.pa l.key va false
    let s ← get
    check (!s.poisoned l.pa size) .memoryError va
    let v := natOf (s.read (.side s.cur true) c l.key size)
    let s := s.forgetAt s.cur true c size
    set (match acq with
      | some scope => s.acquire s.cur true scope c size
      | none => s)
    return v

/-- `mem_read(va, size, plain)` of the scalar side (R56, R204, R205, R339), or with an acquire at a scope; `atomic` where
it reaches only what an AMO reaches (R383). -/
def loadScalar (va : Word) (size : Nat) (atomic : Bool := false) (acq : Option Nat := none) : Op Nat := do
  let s ← get
  match (if atomic then none else s.deviceAt .read va size) with
  | some off => return (s.devRead off).toNat
  | none =>
    let (l, c) ← reachOp .read va size
    check (!atomic || s.atomicOk l.pa) .atomic va
    readScalar va l c size acq

/-- A release of the hart's scalar accesses at a scope, where there is one (R340). -/
def State.releaseAt (s : State) (rel : Option Nat) : State :=
  match rel with
  | some scope => s.release s.cur true scope
  | none => s

/-- `mem_write(va, size, v, plain)` of the scalar side (R56, R204, R205, R339), or with a release at a scope (R340). -/
def storeScalar (va : Word) (size v : Nat) (rel : Option Nat := none) : Op Unit := do
  let s ← get
  match s.deviceAt .write va size with
  | some off => set ((s.releaseAt rel).devWrite off (BitVec.ofNat 64 v))
  | none =>
    let (l, c) ← reachOp .write va size
    checkLine l.pa l.key va true
    modify (fun s => (s.releaseAt rel).store s.cur true c l.key ((bytesOf size v).map some) rel)

/-- A load of the return-address store's spill and fill forms (R214). -/
def loadShadow (va : Word) : Op Word := do
  let (l, c) ← reachOp .shadowRead va 8
  return BitVec.ofNat 64 (← readScalar va l c 8)

/-- A store of the return-address store's spill form (R214). -/
def storeShadow (va v : Word) : Op Unit := do
  let (l, c) ← reachOp .shadowWrite va 8
  checkLine l.pa l.key va true
  modify (fun s => s.store s.cur true c l.key ((bytesOf 8 v.toNat).map some))

/-- One single-copy-atomic read and write at an address (R206, R207), with an acquire or a release at the scopes given
(R342): the old value is returned. -/
def atomicScalar (va : Word) (size : Nat) (f : Nat → Nat) (acq rel : Option Nat := none) : Op Nat := do
  let (l, c) ← reachOp .write va size
  let s ← get
  check (s.atomicOk l.pa) .atomic va
  checkLine l.pa l.key va true
  let s ← get
  check (!s.poisoned l.pa size) .memoryError va
  let s := s.releaseAt rel
  let s := match acq with
    | some scope => s.acquire s.cur true scope c size
    | none => s
  let (old, s) := s.update s.cur true c l.key size f rel
  set s
  return old

/-- The full/empty word at an address (R162): misaligned, then translation, then "bank role" where the
address is in no scratchpad bank. -/
def feWord (kind : Kind) (va : Word) : Op (Leaf × Nat) := do
  check (decide (va.toNat % 8 = 0)) .misaligned va
  let s ← get
  match s.translate s.cur s.me.sup kind va.toNat with
  | .error (.fault c) => do
    modify (fun s => s.endFailed s.cur va.toNat)
    trapOp c va
  | .error (.askHost p) => do
    let l ← askHost p
    return (l, 0)
  | .ok l =>
    if s.keyInvalid l.key then trapOp .access va
    else if regionOf l.pa = .spad then
      match s.place s.me.space l.pa with
      | .cell c => return (l, c)
      | .fault c => trapOp c va
      | .askHost _ => trapOp .bankRole va
    else trapOp .bankRole va

end Sys2Proof.Machine
end

