-- ==== Sys2Proof/WellFormed.lean ====
section
/-!
DEFINITION. Which instructions are well formed: the field rules of each scalar, vector, unit and convoy
row (R30 to R40, R314). An event has no encoding and is well formed whatever its operands.
-/

namespace Sys2Proof

/-- The vector form and fields of an instruction that is a vector word. -/
def Instr.vector? (i : Instr) : Option (VOp × VFields) :=
  match i with
  | .vadd w => some (.vadd, w)
  | .vsub w => some (.vsub, w)
  | .vrsub w => some (.vrsub, w)
  | .vmin w => some (.vmin, w)
  | .vmax w => some (.vmax, w)
  | .vmul w => some (.vmul, w)
  | .vmulh w => some (.vmulh, w)
  | .vmacc w => some (.vmacc, w)
  | .vsadd w => some (.vsadd, w)
  | .vssub w => some (.vssub, w)
  | .vabsd w => some (.vabsd, w)
  | .vdiv w => some (.vdiv, w)
  | .vrem w => some (.vrem, w)
  | .vand w => some (.vand, w)
  | .vor w => some (.vor, w)
  | .vxor w => some (.vxor, w)
  | .vandn w => some (.vandn, w)
  | .vsll w => some (.vsll, w)
  | .vsrl w => some (.vsrl, w)
  | .vsra w => some (.vsra, w)
  | .vmv w => some (.vmv, w)
  | .vnot w => some (.vnot, w)
  | .vmseq w => some (.vmseq, w)
  | .vmsne w => some (.vmsne, w)
  | .vmslt w => some (.vmslt, w)
  | .vmsle w => some (.vmsle, w)
  | .vmsgt w => some (.vmsgt, w)
  | .vmsge w => some (.vmsge, w)
  | .vfadd w => some (.vfadd, w)
  | .vfsub w => some (.vfsub, w)
  | .vfmul w => some (.vfmul, w)
  | .vfdiv w => some (.vfdiv, w)
  | .vfsqrt w => some (.vfsqrt, w)
  | .vfmin w => some (.vfmin, w)
  | .vfmax w => some (.vfmax, w)
  | .vfsgnj w => some (.vfsgnj, w)
  | .vfsgnjn w => some (.vfsgnjn, w)
  | .vfsgnjx w => some (.vfsgnjx, w)
  | .vfclass w => some (.vfclass, w)
  | .vfmadd w => some (.vfmadd, w)
  | .vfmsub w => some (.vfmsub, w)
  | .vfnmadd w => some (.vfnmadd, w)
  | .vfnmsub w => some (.vfnmsub, w)
  | .vcvt w => some (.vcvt, w)
  | .vcvtMx w => some (.vcvtMx, w)
  | .vcvtDemx w => some (.vcvtDemx, w)
  | .vslideup w => some (.vslideup, w)
  | .vslidedown w => some (.vslidedown, w)
  | .vperm w => some (.vperm, w)
  | .vbcast w => some (.vbcast, w)
  | .vsel w => some (.vsel, w)
  | .vid w => some (.vid, w)
  | .vcompress w => some (.vcompress, w)
  | .vexpand w => some (.vexpand, w)
  | .vredsum w => some (.vredsum, w)
  | .vredmin w => some (.vredmin, w)
  | .vredmax w => some (.vredmax, w)
  | .vredand w => some (.vredand, w)
  | .vredor w => some (.vredor, w)
  | .vredxor w => some (.vredxor, w)
  | .vscansum w => some (.vscansum, w)
  | .vscanmin w => some (.vscanmin, w)
  | .vscanmax w => some (.vscanmax, w)
  | .vmand w => some (.vmand, w)
  | .vmor w => some (.vmor, w)
  | .vmxor w => some (.vmxor, w)
  | .vmandn w => some (.vmandn, w)
  | .vmnot w => some (.vmnot, w)
  | .vmset w => some (.vmset, w)
  | .vmclr w => some (.vmclr, w)
  | .vmtov w => some (.vmtov, w)
  | .vvtom w => some (.vvtom, w)
  | .vpop w => some (.vpop, w)
  | .vfirst w => some (.vfirst, w)
  | .vbqAny w => some (.vbqAny, w)
  | .vbqNone w => some (.vbqNone, w)
  | .vld w => some (.vld, w)
  | .vlds w => some (.vlds, w)
  | .vldff w => some (.vldff, w)
  | .vldr w => some (.vldr, w)
  | .vldm w => some (.vldm, w)
  | .vst w => some (.vst, w)
  | .vsts w => some (.vsts, w)
  | .vstr w => some (.vstr, w)
  | .vstm w => some (.vstm, w)
  | .vgather w => some (.vgather, w)
  | .vscatter w => some (.vscatter, w)
  | .vsetlf w => some (.vsetlf, w)
  | .vxint w => some (.vxint, w)
  | .vxuni w => some (.vxuni, w)
  | .vxmrg w => some (.vxmrg, w)
  | .accwinSum w => some (.accwinSum, w)
  | .accwinMin w => some (.accwinMin, w)
  | .accwinMax w => some (.accwinMax, w)
  | .vacc w => some (.vacc, w)
  | .accmerge w => some (.accmerge, w)
  | .vamoswap w => some (.vamoswap, w)
  | .vamoadd w => some (.vamoadd, w)
  | .vamoand w => some (.vamoand, w)
  | .vamoor w => some (.vamoor, w)
  | .vamoxor w => some (.vamoxor, w)
  | .vamomin w => some (.vamomin, w)
  | .vamomax w => some (.vamomax, w)
  | .vext w => some (.vext, w)
  | .vins w => some (.vins, w)
  | .vxsend w => some (.vxsend, w)
  | .vxrecv w => some (.vxrecv, w)
  | .vldStrm w => some (.vldStrm, w)
  | .vstStrm w => some (.vstStrm, w)
  | .mma w => some (.mma, w)
  | .mmaInt w => some (.mmaInt, w)
  | .mtern w => some (.mtern, w)
  | .msound w => some (.msound, w)
  | .mcheck w => some (.mcheck, w)
  | .mzero w => some (.mzero, w)
  | .mst w => some (.mst, w)
  | .mxchg w => some (.mxchg, w)
  | .fload w => some (.fload, w)
  | .fgo w => some (.fgo, w)
  | .fdrain w => some (.fdrain, w)
  | .fstat w => some (.fstat, w)
  | .frel w => some (.frel, w)
  | .vwait w => some (.vwait, w)
  | .fgoResume w => some (.fgoResume, w)
  | _ => none

/-- The unit operation and fields of an instruction that is a unit word. -/
def Instr.unit? (i : Instr) : Option (UOp × UFields) :=
  match i with
  | .unitMov u => some (.mov, u)
  | .unitAdd u => some (.add, u)
  | .unitSub u => some (.sub, u)
  | .unitMul u => some (.mul, u)
  | .unitMin u => some (.min, u)
  | .unitMax u => some (.max, u)
  | .unitAnd u => some (.and, u)
  | .unitOr u => some (.or, u)
  | .unitXor u => some (.xor, u)
  | .unitShl u => some (.shl, u)
  | .unitShr u => some (.shr, u)
  | .unitSeq u => some (.seq, u)
  | .unitSlt u => some (.slt, u)
  | .unitSle u => some (.sle, u)
  | .unitFadd u => some (.fadd, u)
  | .unitFsub u => some (.fsub, u)
  | .unitFmul u => some (.fmul, u)
  | .unitFmac u => some (.fmac, u)
  | .unitFmin u => some (.fmin, u)
  | .unitFmax u => some (.fmax, u)
  | .unitBamax u => some (.bamax, u)
  | .unitQcvt u => some (.qcvt, u)
  | _ => none

/-- The fixed bits of a convoy header that say how many vector words follow (R34). -/
def convoyShape (header : BitVec 32) (words : List (BitVec 64)) : Bool :=
  fld header 26 6 == 0x3E && decide (words.length = (fld header 24 2).toNat + 1)

/-- The instruction keeps the field rules of its row. `illegalInstruction` is the row of the words that no
rule accepts, so it is never well formed. -/
def Instr.wf (i : Instr) : Bool :=
  match i with
  | .convoy header words => convoyShape header words
  | .illegalInstruction _ => false
  | i =>
    match i.vector? with
    | some (o, w) => o.fieldsOk w
    | none =>
      match i.unit? with
      | some (o, u) => o.fieldsOk u
      | none => i.scalarOk

end Sys2Proof
end

