-- ==== Sys2Proof/Decode.lean ====
section
/-!
DEFINITION. The decoder and, after it, the encoder: scalar words (R30 to R33, R52), convoys (R26, R34),
vector words (R38, R242) and fabric unit words (R314). Decoding is total: a word that no row accepts
decodes to `illegalInstruction`, and bytes that hold no whole instruction are rejected by name.
-/

namespace Sys2Proof

/-! ### Scalar words -/

/-- Scalar major 0x01 (Op). -/
def decodeOp (w : BitVec 32) : Option Instr :=
  match (fld w 6 5).toNat with
  | 0 => if fld w 0 6 = 0x0#6 then some (.add (fld w 21 5) (fld w 16 5) (fld w 11 5)) else none
  | 1 => if fld w 0 6 = 0x0#6 then some (.sub (fld w 21 5) (fld w 16 5) (fld w 11 5)) else none
  | 2 => if fld w 0 6 = 0x0#6 then some (.and (fld w 21 5) (fld w 16 5) (fld w 11 5)) else none
  | 3 => if fld w 0 6 = 0x0#6 then some (.or (fld w 21 5) (fld w 16 5) (fld w 11 5)) else none
  | 4 => if fld w 0 6 = 0x0#6 then some (.xor (fld w 21 5) (fld w 16 5) (fld w 11 5)) else none
  | 5 => if fld w 0 6 = 0x0#6 then some (.andn (fld w 21 5) (fld w 16 5) (fld w 11 5)) else none
  | 6 => if fld w 0 6 = 0x0#6 then some (.sll (fld w 21 5) (fld w 16 5) (fld w 11 5)) else none
  | 7 => if fld w 0 6 = 0x0#6 then some (.srl (fld w 21 5) (fld w 16 5) (fld w 11 5)) else none
  | 8 => if fld w 0 6 = 0x0#6 then some (.sra (fld w 21 5) (fld w 16 5) (fld w 11 5)) else none
  | 9 => if fld w 0 6 = 0x0#6 then some (.slt (fld w 21 5) (fld w 16 5) (fld w 11 5)) else none
  | 10 => if fld w 0 6 = 0x0#6 then some (.sltu (fld w 21 5) (fld w 16 5) (fld w 11 5)) else none
  | 11 => if fld w 0 6 = 0x0#6 then some (.min (fld w 21 5) (fld w 16 5) (fld w 11 5)) else none
  | 12 => if fld w 0 6 = 0x0#6 then some (.max (fld w 21 5) (fld w 16 5) (fld w 11 5)) else none
  | 13 => if fld w 0 6 = 0x0#6 then some (.minu (fld w 21 5) (fld w 16 5) (fld w 11 5)) else none
  | 14 => if fld w 0 6 = 0x0#6 then some (.maxu (fld w 21 5) (fld w 16 5) (fld w 11 5)) else none
  | 15 => if fld w 0 6 = 0x0#6 then some (.addw (fld w 21 5) (fld w 16 5) (fld w 11 5)) else none
  | 16 => if fld w 0 6 = 0x0#6 then some (.subw (fld w 21 5) (fld w 16 5) (fld w 11 5)) else none
  | 17 => if fld w 0 6 = 0x0#6 then some (.sh1add (fld w 21 5) (fld w 16 5) (fld w 11 5)) else none
  | 18 => if fld w 0 6 = 0x0#6 then some (.sh2add (fld w 21 5) (fld w 16 5) (fld w 11 5)) else none
  | 19 => if fld w 0 6 = 0x0#6 then some (.sh3add (fld w 21 5) (fld w 16 5) (fld w 11 5)) else none
  | 20 => if fld w 11 5 = 0x0#5 ∧ fld w 0 6 = 0x0#6 then some (.clz (fld w 21 5) (fld w 16 5)) else none
  | 21 => if fld w 11 5 = 0x0#5 ∧ fld w 0 6 = 0x0#6 then some (.ctz (fld w 21 5) (fld w 16 5)) else none
  | 22 => if fld w 11 5 = 0x0#5 ∧ fld w 0 6 = 0x0#6 then some (.cpop (fld w 21 5) (fld w 16 5)) else none
  | 23 => if fld w 11 5 = 0x0#5 then some (.slli (fld w 21 5) (fld w 16 5) (fld w 0 6)) else none
  | 24 => if fld w 11 5 = 0x0#5 then some (.srli (fld w 21 5) (fld w 16 5) (fld w 0 6)) else none
  | 25 => if fld w 11 5 = 0x0#5 then some (.srai (fld w 21 5) (fld w 16 5) (fld w 0 6)) else none
  | 26 => if fld w 11 5 = 0x0#5 ∧ fld w 0 6 = 0x0#6 then some (.sextB (fld w 21 5) (fld w 16 5)) else if fld w 11 5 = 0x0#5 ∧ fld w 0 6 = 0x1#6 then some (.sextH (fld w 21 5) (fld w 16 5)) else if fld w 11 5 = 0x0#5 ∧ fld w 0 6 = 0x2#6 then some (.sextW (fld w 21 5) (fld w 16 5)) else none
  | 27 => if fld w 11 5 = 0x0#5 ∧ fld w 0 6 = 0x0#6 then some (.zextB (fld w 21 5) (fld w 16 5)) else if fld w 11 5 = 0x0#5 ∧ fld w 0 6 = 0x1#6 then some (.zextH (fld w 21 5) (fld w 16 5)) else if fld w 11 5 = 0x0#5 ∧ fld w 0 6 = 0x2#6 then some (.zextW (fld w 21 5) (fld w 16 5)) else none
  | _ => none

/-- Scalar major 0x02 (Opi). -/
def decodeOpi (w : BitVec 32) : Option Instr :=
  some (.addi (fld w 21 5) (fld w 16 5) (fld w 0 16))

/-- Scalar major 0x03 (MulDiv). -/
def decodeMulDiv (w : BitVec 32) : Option Instr :=
  match (fld w 6 5).toNat with
  | 0 => if fld w 0 6 = 0x0#6 then some (.mul (fld w 21 5) (fld w 16 5) (fld w 11 5)) else none
  | 1 => if fld w 0 6 = 0x0#6 then some (.mulh (fld w 21 5) (fld w 16 5) (fld w 11 5)) else none
  | 2 => if fld w 0 6 = 0x0#6 then some (.mulhu (fld w 21 5) (fld w 16 5) (fld w 11 5)) else none
  | 3 => if fld w 0 6 = 0x0#6 then some (.mulhsu (fld w 21 5) (fld w 16 5) (fld w 11 5)) else none
  | 4 => if fld w 0 6 = 0x0#6 then some (.div (fld w 21 5) (fld w 16 5) (fld w 11 5)) else none
  | 5 => if fld w 0 6 = 0x0#6 then some (.divu (fld w 21 5) (fld w 16 5) (fld w 11 5)) else none
  | 6 => if fld w 0 6 = 0x0#6 then some (.rem (fld w 21 5) (fld w 16 5) (fld w 11 5)) else none
  | 7 => if fld w 0 6 = 0x0#6 then some (.remu (fld w 21 5) (fld w 16 5) (fld w 11 5)) else none
  | 8 => if fld w 0 6 = 0x0#6 then some (.mulw (fld w 21 5) (fld w 16 5) (fld w 11 5)) else none
  | 9 => if fld w 0 6 = 0x0#6 then some (.divw (fld w 21 5) (fld w 16 5) (fld w 11 5)) else none
  | 10 => if fld w 0 6 = 0x0#6 then some (.remw (fld w 21 5) (fld w 16 5) (fld w 11 5)) else none
  | _ => none

/-- Scalar major 0x04 (Load). -/
def decodeLoad (w : BitVec 32) : Option Instr :=
  match (fld w 12 4).toNat with
  | 0 => some (.ldI8 (fld w 21 5) (fld w 16 5) (fld w 0 12))
  | 1 => some (.ldI16 (fld w 21 5) (fld w 16 5) (fld w 0 12))
  | 2 => some (.ldI32 (fld w 21 5) (fld w 16 5) (fld w 0 12))
  | 3 => some (.ldI64 (fld w 21 5) (fld w 16 5) (fld w 0 12))
  | 4 => some (.ldN8 (fld w 21 5) (fld w 16 5) (fld w 0 12))
  | 5 => some (.ldN16 (fld w 21 5) (fld w 16 5) (fld w 0 12))
  | 6 => some (.ldN32 (fld w 21 5) (fld w 16 5) (fld w 0 12))
  | 7 => some (.ldF16 (fld w 21 5) (fld w 16 5) (fld w 0 12))
  | 8 => some (.ldF32 (fld w 21 5) (fld w 16 5) (fld w 0 12))
  | 9 => some (.ldF64 (fld w 21 5) (fld w 16 5) (fld w 0 12))
  | _ => none

/-- Scalar major 0x05 (Store). -/
def decodeStore (w : BitVec 32) : Option Instr :=
  match (fld w 12 4).toNat with
  | 0 => some (.stI8 (fld w 21 5) (fld w 16 5) (fld w 0 12))
  | 1 => some (.stI16 (fld w 21 5) (fld w 16 5) (fld w 0 12))
  | 2 => some (.stI32 (fld w 21 5) (fld w 16 5) (fld w 0 12))
  | 3 => some (.stI64 (fld w 21 5) (fld w 16 5) (fld w 0 12))
  | 7 => some (.stF16 (fld w 21 5) (fld w 16 5) (fld w 0 12))
  | 8 => some (.stF32 (fld w 21 5) (fld w 16 5) (fld w 0 12))
  | 9 => some (.stF64 (fld w 21 5) (fld w 16 5) (fld w 0 12))
  | _ => none

/-- Scalar major 0x06 (Amo). -/
def decodeAmo (w : BitVec 32) : Option Instr :=
  match (fld w 6 5).toNat with
  | 0 => some (.amoswap (fld w 21 5) (fld w 16 5) (fld w 11 5) (fld w 5 1) (fld w 4 1) (fld w 3 1) (fld w 0 3))
  | 1 => some (.amoadd (fld w 21 5) (fld w 16 5) (fld w 11 5) (fld w 5 1) (fld w 4 1) (fld w 3 1) (fld w 0 3))
  | 2 => some (.amoand (fld w 21 5) (fld w 16 5) (fld w 11 5) (fld w 5 1) (fld w 4 1) (fld w 3 1) (fld w 0 3))
  | 3 => some (.amoor (fld w 21 5) (fld w 16 5) (fld w 11 5) (fld w 5 1) (fld w 4 1) (fld w 3 1) (fld w 0 3))
  | 4 => some (.amoxor (fld w 21 5) (fld w 16 5) (fld w 11 5) (fld w 5 1) (fld w 4 1) (fld w 3 1) (fld w 0 3))
  | 5 => some (.amomin (fld w 21 5) (fld w 16 5) (fld w 11 5) (fld w 5 1) (fld w 4 1) (fld w 3 1) (fld w 0 3))
  | 6 => some (.amomax (fld w 21 5) (fld w 16 5) (fld w 11 5) (fld w 5 1) (fld w 4 1) (fld w 3 1) (fld w 0 3))
  | 7 => some (.amominu (fld w 21 5) (fld w 16 5) (fld w 11 5) (fld w 5 1) (fld w 4 1) (fld w 3 1) (fld w 0 3))
  | 8 => some (.amomaxu (fld w 21 5) (fld w 16 5) (fld w 11 5) (fld w 5 1) (fld w 4 1) (fld w 3 1) (fld w 0 3))
  | 9 => some (.amocas (fld w 21 5) (fld w 16 5) (fld w 11 5) (fld w 5 1) (fld w 4 1) (fld w 3 1) (fld w 0 3))
  | _ => none

/-- Scalar major 0x07 (Branch). -/
def decodeBranch (w : BitVec 32) : Option Instr :=
  match (fld w 21 5).toNat with
  | 0 => some (.beq (fld w 16 5) (fld w 11 5) (fld w 0 11))
  | 1 => some (.bne (fld w 16 5) (fld w 11 5) (fld w 0 11))
  | 2 => some (.blt (fld w 16 5) (fld w 11 5) (fld w 0 11))
  | 3 => some (.bge (fld w 16 5) (fld w 11 5) (fld w 0 11))
  | 4 => some (.bltu (fld w 16 5) (fld w 11 5) (fld w 0 11))
  | 5 => some (.bgeu (fld w 16 5) (fld w 11 5) (fld w 0 11))
  | 16 => some (.beqz (fld w 16 5) (fld w 0 16))
  | 17 => some (.bnez (fld w 16 5) (fld w 0 16))
  | 18 => some (.bltz (fld w 16 5) (fld w 0 16))
  | 19 => some (.bgez (fld w 16 5) (fld w 0 16))
  | 20 => some (.blez (fld w 16 5) (fld w 0 16))
  | 21 => some (.bgtz (fld w 16 5) (fld w 0 16))
  | 22 => if fld w 16 5 = 0x0#5 then some (.bqt (fld w 0 16)) else none
  | 23 => if fld w 16 5 = 0x0#5 then some (.bqf (fld w 0 16)) else none
  | _ => none

/-- Scalar major 0x08 (Jump). -/
def decodeJump (w : BitVec 32) : Option Instr :=
  match (fld w 24 2).toNat with
  | 0 => some (.j (fld w 0 24))
  | 1 => some (.call (fld w 0 24))
  | 2 => match (fld w 21 3).toNat with
    | 0 => some (.jr (fld w 16 5) (fld w 0 16))
    | 1 => some (.callr (fld w 16 5) (fld w 0 16))
    | 2 => if fld w 0 21 = 0x0#21 then some .ret else none
    | 3 => if fld w 5 11 = 0x0#11 then some (.rasSpill (fld w 16 5) (fld w 0 5)) else none
    | 4 => if fld w 5 11 = 0x0#11 then some (.rasFill (fld w 16 5) (fld w 0 5)) else none
    | 5 => if fld w 0 16 = 0x0#16 then some (.rasDrop (fld w 16 5)) else none
    | _ => none
  | _ => none

/-- Scalar major 0x09 (Lik). -/
def decodeLik (w : BitVec 32) : Option Instr :=
  some (.lik (fld w 21 5) (fld w 0 21))

/-- Scalar major 0x0A (Pcrel). -/
def decodePcrel (w : BitVec 32) : Option Instr :=
  some (.pcrel (fld w 21 5) (fld w 0 21))

/-- Scalar major 0x0B (Fp). -/
def decodeFp (w : BitVec 32) : Option Instr :=
  match (fld w 6 5).toNat with
  | 0 => some (.fadd (fld w 21 5) (fld w 16 5) (fld w 11 5) (fld w 3 3) (fld w 0 3))
  | 1 => some (.fsub (fld w 21 5) (fld w 16 5) (fld w 11 5) (fld w 3 3) (fld w 0 3))
  | 2 => some (.fmul (fld w 21 5) (fld w 16 5) (fld w 11 5) (fld w 3 3) (fld w 0 3))
  | 3 => some (.fdiv (fld w 21 5) (fld w 16 5) (fld w 11 5) (fld w 3 3) (fld w 0 3))
  | 4 => if fld w 11 5 = 0x0#5 then some (.fsqrt (fld w 21 5) (fld w 16 5) (fld w 3 3) (fld w 0 3)) else none
  | 5 => if fld w 3 3 = 0x0#3 then some (.fmin (fld w 21 5) (fld w 16 5) (fld w 11 5) (fld w 0 3)) else none
  | 6 => if fld w 3 3 = 0x0#3 then some (.fmax (fld w 21 5) (fld w 16 5) (fld w 11 5) (fld w 0 3)) else none
  | 7 => if fld w 3 3 = 0x0#3 then some (.fsgnj (fld w 21 5) (fld w 16 5) (fld w 11 5) (fld w 0 3)) else none
  | 8 => if fld w 3 3 = 0x0#3 then some (.fsgnjn (fld w 21 5) (fld w 16 5) (fld w 11 5) (fld w 0 3)) else none
  | 9 => if fld w 3 3 = 0x0#3 then some (.fsgnjx (fld w 21 5) (fld w 16 5) (fld w 11 5) (fld w 0 3)) else none
  | 10 => if fld w 3 3 = 0x0#3 then some (.feq (fld w 21 5) (fld w 16 5) (fld w 11 5) (fld w 0 3)) else none
  | 11 => if fld w 3 3 = 0x0#3 then some (.flt (fld w 21 5) (fld w 16 5) (fld w 11 5) (fld w 0 3)) else none
  | 12 => if fld w 3 3 = 0x0#3 then some (.fle (fld w 21 5) (fld w 16 5) (fld w 11 5) (fld w 0 3)) else none
  | 13 => if fld w 11 5 = 0x0#5 ∧ fld w 3 3 = 0x0#3 then some (.fclass (fld w 21 5) (fld w 16 5) (fld w 0 3)) else none
  | 14 => if fld w 13 3 = 0x0#3 then some (.fcvtToInt (fld w 21 5) (fld w 16 5) (fld w 11 2) (fld w 3 3) (fld w 0 3)) else none
  | 15 => if fld w 13 3 = 0x0#3 then some (.fcvtFromInt (fld w 21 5) (fld w 16 5) (fld w 11 2) (fld w 3 3) (fld w 0 3)) else none
  | 16 => if fld w 13 3 = 0x0#3 then some (.fcvtFmt (fld w 21 5) (fld w 16 5) (fld w 11 2) (fld w 3 3) (fld w 0 3)) else none
  | 17 => if fld w 11 5 = 0x0#5 ∧ fld w 3 3 = 0x0#3 then some (.fmvX (fld w 21 5) (fld w 16 5) (fld w 0 3)) else none
  | 18 => if fld w 11 5 = 0x0#5 ∧ fld w 3 3 = 0x0#3 then some (.fmvF (fld w 21 5) (fld w 16 5) (fld w 0 3)) else none
  | _ => none

/-- Scalar major 0x0C (Fma). -/
def decodeFma (w : BitVec 32) : Option Instr :=
  match (fld w 4 2).toNat with
  | 0 => some (.fmadd (fld w 21 5) (fld w 16 5) (fld w 11 5) (fld w 6 5) (fld w 3 1) (fld w 0 3))
  | 1 => some (.fmsub (fld w 21 5) (fld w 16 5) (fld w 11 5) (fld w 6 5) (fld w 3 1) (fld w 0 3))
  | 2 => some (.fnmadd (fld w 21 5) (fld w 16 5) (fld w 11 5) (fld w 6 5) (fld w 3 1) (fld w 0 3))
  | 3 => some (.fnmsub (fld w 21 5) (fld w 16 5) (fld w 11 5) (fld w 6 5) (fld w 3 1) (fld w 0 3))
  | _ => none

/-- Scalar major 0x0D (Csr). -/
def decodeCsr (w : BitVec 32) : Option Instr :=
  match (fld w 12 4).toNat with
  | 0 => if fld w 16 5 = 0x0#5 then some (.csrr (fld w 21 5) (fld w 0 12)) else none
  | 1 => some (.csrw (fld w 21 5) (fld w 16 5) (fld w 0 12))
  | 2 => some (.csrs (fld w 21 5) (fld w 16 5) (fld w 0 12))
  | 3 => some (.csrc (fld w 21 5) (fld w 16 5) (fld w 0 12))
  | 4 => some (.csrsi (fld w 21 5) (fld w 16 5) (fld w 0 12))
  | 5 => some (.csrci (fld w 21 5) (fld w 16 5) (fld w 0 12))
  | _ => none

/-- Scalar major 0x0E (Order). -/
def decodeOrder (w : BitVec 32) : Option Instr :=
  match (fld w 6 5).toNat with
  | 0 => if fld w 11 15 = 0x0#15 ∧ fld w 3 3 = 0x0#3 then some (.fence (fld w 0 3)) else none
  | 1 => if fld w 11 15 = 0x0#15 ∧ fld w 3 3 = 0x0#3 then some (.fenceSv (fld w 0 3)) else none
  | 2 => if fld w 11 15 = 0x0#15 ∧ fld w 3 3 = 0x0#3 then some (.fenceVs (fld w 0 3)) else none
  | 3 => if fld w 11 5 = 0x0#5 then some (.lda (fld w 21 5) (fld w 16 5) (fld w 5 1) (fld w 3 2) (fld w 0 3)) else none
  | 4 => if fld w 21 5 = 0x0#5 ∧ fld w 5 1 = 0x0#1 then some (.stl (fld w 16 5) (fld w 11 5) (fld w 3 2) (fld w 0 3)) else none
  | 5 => if fld w 11 15 = 0x0#15 ∧ fld w 3 3 = 0x0#3 then some (.fenceI (fld w 0 3)) else none
  | _ => none

/-- Scalar major 0x0F (Sys). -/
def decodeSys (w : BitVec 32) : Option Instr :=
  match (fld w 6 5).toNat with
  | 0 => if fld w 11 15 = 0x0#15 ∧ fld w 0 6 = 0x0#6 then some (.ecall) else none
  | 1 => if fld w 11 15 = 0x0#15 ∧ fld w 0 6 = 0x0#6 then some (.ebreak) else none
  | 2 => if fld w 11 15 = 0x0#15 ∧ fld w 0 6 = 0x0#6 then some (.sret) else none
  | 3 => if fld w 11 15 = 0x0#15 ∧ fld w 0 6 = 0x0#6 then some (.wfi) else none
  | 4 => if fld w 21 5 = 0x0#5 ∧ fld w 3 3 = 0x0#3 then some (.tlbInv (fld w 16 5) (fld w 11 5) (fld w 0 3)) else none
  | _ => none

/-- Scalar major 0x10 (Stream). -/
def decodeStream (w : BitVec 32) : Option Instr :=
  match (fld w 6 5).toNat, (fld w 3 3).toNat with
  | 0, 0 => if fld w 15 1 = 0x0#1 ∧ fld w 0 3 = 0x0#3 then some (.strmCfg (fld w 21 5) (fld w 16 5) (fld w 11 4)) else none
  | 1, 0 => if fld w 15 11 = 0x0#11 ∧ fld w 0 3 = 0x0#3 then some (.strmRel (fld w 11 4)) else none
  | 1, 1 => if fld w 15 11 = 0x0#11 ∧ fld w 0 3 = 0x0#3 then some (.strmRelWait (fld w 11 4)) else none
  | 2, 0 => if fld w 15 6 = 0x0#6 ∧ fld w 0 3 = 0x0#3 then some (.strmStat (fld w 21 5) (fld w 11 4)) else none
  | 2, 1 => if fld w 15 6 = 0x0#6 ∧ fld w 0 3 = 0x0#3 then some (.strmStatPos (fld w 21 5) (fld w 11 4)) else none
  | 2, 2 => if fld w 15 6 = 0x0#6 ∧ fld w 0 3 = 0x0#3 then some (.strmStatAvail (fld w 21 5) (fld w 11 4)) else none
  | 3, 0 => if fld w 15 6 = 0x0#6 ∧ fld w 0 3 = 0x0#3 then some (.strmPop (fld w 21 5) (fld w 11 4)) else none
  | 4, 0 => if fld w 21 5 = 0x0#5 ∧ fld w 15 1 = 0x0#1 ∧ fld w 0 3 = 0x0#3 then some (.strmPush (fld w 16 5) (fld w 11 4)) else none
  | 5, 0 => if fld w 25 1 = 0x0#1 ∧ fld w 15 6 = 0x0#6 ∧ fld w 0 3 = 0x0#3 then some (.strmCopy (fld w 21 4) (fld w 11 4)) else none
  | 6, 0 => if fld w 21 5 = 0x0#5 ∧ fld w 15 1 = 0x0#1 ∧ fld w 0 3 = 0x0#3 then some (.strmResume (fld w 16 5) (fld w 11 4)) else none
  | 7, 0 => if fld w 15 1 = 0x0#1 ∧ fld w 0 3 = 0x0#3 then some (.strmSave (fld w 21 5) (fld w 16 5) (fld w 11 4)) else none
  | 7, 1 => if fld w 15 1 = 0x0#1 ∧ fld w 0 3 = 0x0#3 then some (.strmRest (fld w 21 5) (fld w 16 5) (fld w 11 4)) else none
  | _, _ => none

/-- Scalar major 0x11 (Bank). -/
def decodeBank (w : BitVec 32) : Option Instr :=
  match (fld w 6 5).toNat, (fld w 3 3).toNat with
  | 0, 0 => if fld w 11 5 = 0x0#5 ∧ fld w 0 3 = 0x0#3 then some (.bankCfgCache (fld w 21 5) (fld w 16 5)) else none
  | 0, 1 => if fld w 11 5 = 0x0#5 ∧ fld w 0 3 = 0x0#3 then some (.bankCfgSpad (fld w 21 5) (fld w 16 5)) else none
  | 0, 2 => if fld w 11 5 = 0x0#5 ∧ fld w 0 3 = 0x0#3 then some (.bankCfgFifo (fld w 21 5) (fld w 16 5)) else none
  | 1, 0 => if fld w 11 5 = 0x0#5 ∧ fld w 0 3 = 0x0#3 then some (.bankStat (fld w 21 5) (fld w 16 5)) else none
  | 2, 0 => if fld w 21 5 = 0x0#5 ∧ fld w 0 3 = 0x0#3 then some (.feInitEmpty (fld w 16 5) (fld w 11 5)) else none
  | 2, 1 => if fld w 21 5 = 0x0#5 ∧ fld w 0 3 = 0x0#3 then some (.feInitFull (fld w 16 5) (fld w 11 5)) else none
  | 3, 0 => if fld w 11 5 = 0x0#5 then some (.ldf (fld w 21 5) (fld w 16 5) (fld w 0 3)) else none
  | 3, 1 => if fld w 11 5 = 0x0#5 then some (.ldfClr (fld w 21 5) (fld w 16 5) (fld w 0 3)) else none
  | 4, 0 => if fld w 21 5 = 0x0#5 then some (.stf (fld w 16 5) (fld w 11 5) (fld w 0 3)) else none
  | 4, 1 => if fld w 21 5 = 0x0#5 then some (.stfWait (fld w 16 5) (fld w 11 5) (fld w 0 3)) else none
  | 5, 0 => if fld w 24 2 = 0x0#2 ∧ fld w 0 3 = 0x0#3 then some (.ringCfg (fld w 21 3) (fld w 16 5) (fld w 11 5)) else none
  | 6, 0 => if fld w 24 2 = 0x0#2 ∧ fld w 11 5 = 0x0#5 then some (.ringAdvTail (fld w 21 3) (fld w 16 5) (fld w 0 3)) else none
  | 6, 1 => if fld w 24 2 = 0x0#2 ∧ fld w 11 5 = 0x0#5 then some (.ringAdvHead (fld w 21 3) (fld w 16 5) (fld w 0 3)) else none
  | 7, 0 => if fld w 19 2 = 0x0#2 ∧ fld w 11 5 = 0x0#5 ∧ fld w 0 3 = 0x0#3 then some (.ringStat (fld w 21 5) (fld w 16 3)) else none
  | 7, 1 => if fld w 19 2 = 0x0#2 ∧ fld w 0 3 = 0x0#3 then some (.ringStatWait (fld w 21 5) (fld w 16 3) (fld w 11 5)) else none
  | _, _ => none

/-- Scalar major 0x12 (Sync). -/
def decodeSync (w : BitVec 32) : Option Instr :=
  match (fld w 6 5).toNat with
  | 0 => if fld w 21 5 = 0x0#5 ∧ fld w 15 1 = 0x0#1 ∧ fld w 3 3 = 0x0#3 then some (.cwait (fld w 16 5) (fld w 11 4) (fld w 0 3)) else none
  | 1 => if fld w 15 6 = 0x0#6 ∧ fld w 0 6 = 0x0#6 then some (.cread (fld w 21 5) (fld w 11 4)) else none
  | 2 => if fld w 21 5 = 0x0#5 ∧ fld w 15 1 = 0x0#1 ∧ fld w 3 3 = 0x0#3 then some (.cadd (fld w 16 5) (fld w 11 4) (fld w 0 3)) else none
  | 3 => if fld w 21 5 = 0x0#5 ∧ fld w 3 3 = 0x0#3 then some (.tokSend (fld w 16 5) (fld w 11 5) (fld w 0 3)) else none
  | 4 => if fld w 11 5 = 0x0#5 ∧ fld w 3 3 = 0x0#3 then some (.tokWait (fld w 21 5) (fld w 16 5) (fld w 0 3)) else none
  | 5 => if fld w 11 5 = 0x0#5 ∧ fld w 0 6 = 0x0#6 then some (.tokStat (fld w 21 5) (fld w 16 5)) else none
  | 6 => if fld w 11 5 = 0x0#5 ∧ fld w 3 3 = 0x0#3 then some (.barArrive (fld w 21 5) (fld w 16 5) (fld w 0 3)) else none
  | 7 => if fld w 21 5 = 0x0#5 ∧ fld w 3 3 = 0x0#3 then some (.barWait (fld w 16 5) (fld w 11 5) (fld w 0 3)) else none
  | _ => none

/-- Scalar major 0x13 (Kernel). -/
def decodeKernel (w : BitVec 32) : Option Instr :=
  match (fld w 6 5).toNat, (fld w 3 3).toNat with
  | 0, 0 => if fld w 0 3 = 0x0#3 then some (.klaunch (fld w 21 5) (fld w 16 5) (fld w 11 5)) else none
  | 1, _ => if fld w 11 5 = 0x0#5 ∧ fld w 0 3 = 0x0#3 then some (.kid (fld w 21 5) (fld w 16 5) (fld w 3 3)) else none
  | 2, 0 => if fld w 11 15 = 0x0#15 ∧ fld w 0 3 = 0x0#3 then some (.kyield) else none
  | 3, 0 => if fld w 11 15 = 0x0#15 ∧ fld w 0 3 = 0x0#3 then some (.kdone) else none
  | 24, 0 => if fld w 23 3 = 0x0#3 ∧ fld w 11 5 = 0x0#5 ∧ fld w 0 3 = 0x0#3 then some (.hloop (fld w 21 2) (fld w 16 5)) else none
  | 25, 0 => if fld w 23 3 = 0x0#3 ∧ fld w 11 10 = 0x0#10 ∧ fld w 0 3 = 0x0#3 then some (.hend (fld w 21 2)) else none
  | 25, 1 => if fld w 23 3 = 0x0#3 ∧ fld w 11 10 = 0x0#10 ∧ fld w 0 3 = 0x0#3 then some (.hendC (fld w 21 2)) else none
  | 26, _ => if fld w 18 3 = 0x0#3 ∧ fld w 11 5 = 0x0#5 ∧ fld w 0 3 = 0x0#3 then some (.hget (fld w 21 5) (fld w 16 2) (fld w 3 3)) else none
  | 27, _ => if fld w 23 3 = 0x0#3 ∧ fld w 11 5 = 0x0#5 ∧ fld w 0 3 = 0x0#3 then some (.hset (fld w 21 2) (fld w 16 5) (fld w 3 3)) else none
  | _, _ => none

/-- Scalar major 0x14 (Capsule). -/
def decodeCapsule (w : BitVec 32) : Option Instr :=
  match (fld w 6 5).toNat, (fld w 3 3).toNat with
  | 0, 0 => if fld w 11 10 = 0x0#10 ∧ fld w 0 3 = 0x0#3 then some (.capLandOff (fld w 21 5)) else none
  | 0, 1 => if fld w 11 5 = 0x0#5 ∧ fld w 0 3 = 0x0#3 then some (.capLandSend (fld w 21 5) (fld w 16 5)) else none
  | 0, 2 => if fld w 11 5 = 0x0#5 ∧ fld w 0 3 = 0x0#3 then some (.capLandLand (fld w 21 5) (fld w 16 5)) else none
  | 1, 0 => if fld w 11 5 = 0x0#5 then some (.capSend (fld w 21 5) (fld w 16 5) (fld w 0 3)) else none
  | 2, 0 => if fld w 11 10 = 0x0#10 then some (.capRecv (fld w 21 5) (fld w 0 3)) else none
  | 3, 0 => if fld w 11 15 = 0x0#15 then some (.capFwd (fld w 0 3)) else none
  | 3, 1 => if fld w 11 15 = 0x0#15 then some (.capFwdStay (fld w 0 3)) else none
  | 3, 2 => if fld w 11 15 = 0x0#15 then some (.capFwdEnd (fld w 0 3)) else none
  | 4, 0 => if fld w 0 3 = 0x0#3 then some (.capIns (fld w 21 5) (fld w 16 5) (fld w 11 5)) else none
  | 5, 0 => if fld w 11 5 = 0x0#5 ∧ fld w 0 3 = 0x0#3 then some (.capDel (fld w 21 5) (fld w 16 5)) else none
  | 6, 0 => if fld w 0 3 = 0x0#3 then some (.capSwap (fld w 21 5) (fld w 16 5) (fld w 11 5)) else none
  | 7, 0 => if fld w 11 15 = 0x0#15 ∧ fld w 0 3 = 0x0#3 then some (.capPark) else none
  | 7, 1 => if fld w 21 5 = 0x0#5 ∧ fld w 11 5 = 0x0#5 ∧ fld w 0 3 = 0x0#3 then some (.capParkFlt (fld w 16 5)) else none
  | 7, 2 => if fld w 11 5 = 0x0#5 ∧ fld w 0 3 = 0x0#3 then some (.capParkRel (fld w 21 5) (fld w 16 5)) else none
  | _, _ => none

/-- Scalar major 0x15 (Vcfg). -/
def decodeVcfg (w : BitVec 32) : Option Instr :=
  match (fld w 8 3).toNat with
  | 0 => if fld w 7 1 = 0x0#1 ∧ fld w 3 1 = 0x0#1 then some (.vsetvl (fld w 21 5) (fld w 16 5) (fld w 11 5) (fld w 6 1) (fld w 4 2) (fld w 0 3)) else none
  | 1 => if fld w 11 5 = 0x0#5 ∧ fld w 0 8 = 0x0#8 then some (.lpart (fld w 21 5) (fld w 16 5)) else none
  | 2 => if fld w 11 5 = 0x0#5 ∧ fld w 0 8 = 0x0#8 then some (.tshape (fld w 21 5) (fld w 16 5)) else none
  | 3 => if fld w 11 15 = 0x0#15 ∧ fld w 0 8 = 0x1#8 then some (.mmodeOn) else if fld w 11 15 = 0x0#15 ∧ fld w 0 8 = 0x0#8 then some (.mmodeOff) else none
  | 4 => if fld w 0 8 = 0x1#8 then some (.fmodeOn (fld w 21 5) (fld w 16 5) (fld w 11 5)) else if fld w 11 5 = 0x0#5 ∧ fld w 0 8 = 0x0#8 then some (.fmodeOff (fld w 21 5) (fld w 16 5)) else none
  | 5 => if fld w 11 5 = 0x0#5 ∧ fld w 0 8 = 0x1#8 then some (.mpair (fld w 21 5) (fld w 16 5)) else if fld w 11 15 = 0x0#15 ∧ fld w 0 8 = 0x0#8 then some (.mpairOff) else none
  | _ => none

/-- Scalar major 0x3D (Hint). -/
def decodeHint (w : BitVec 32) : Option Instr :=
  match (fld w 21 5).toNat with
  | 0 => some (.nop (fld w 0 21))
  | 1 => some (.prefetchRead (fld w 16 5) (fld w 0 16))
  | 2 => some (.prefetchOwn (fld w 16 5) (fld w 0 16))
  | 3 => some (.issuePauseHint (fld w 0 21))
  | _ => some (.hint (fld w 21 5) (fld w 0 21))

/-- The instruction whose encoding table row matches the word, before its field rules (R30, R32, R52). -/
def scalarRow (w : BitVec 32) : Option Instr :=
  match (fld w 26 6).toNat with
  | 1 => decodeOp w
  | 2 => decodeOpi w
  | 3 => decodeMulDiv w
  | 4 => decodeLoad w
  | 5 => decodeStore w
  | 6 => decodeAmo w
  | 7 => decodeBranch w
  | 8 => decodeJump w
  | 9 => decodeLik w
  | 10 => decodePcrel w
  | 11 => decodeFp w
  | 12 => decodeFma w
  | 13 => decodeCsr w
  | 14 => decodeOrder w
  | 15 => decodeSys w
  | 16 => decodeStream w
  | 17 => decodeBank w
  | 18 => decodeSync w
  | 19 => decodeKernel w
  | 20 => decodeCapsule w
  | 21 => decodeVcfg w
  | 61 => decodeHint w
  | _ => none

/-- The instruction of a scalar word (R32, R52): a word that breaks a rule is the illegal instruction. -/
def decodeScalar (w : BitVec 32) : Instr :=
  match scalarRow w with
  | some i => if i.scalarOk then i else .illegalInstruction w
  | none => .illegalInstruction w

/-! ### Vector and unit words -/

/-- The vector major of a form (R35). -/
def VOp.major : VOp → BitVec 6
  | .vadd => 0x01
  | .vsub => 0x01
  | .vrsub => 0x01
  | .vmin => 0x01
  | .vmax => 0x01
  | .vmul => 0x01
  | .vmulh => 0x01
  | .vmacc => 0x01
  | .vsadd => 0x01
  | .vssub => 0x01
  | .vabsd => 0x01
  | .vdiv => 0x01
  | .vrem => 0x01
  | .vand => 0x02
  | .vor => 0x02
  | .vxor => 0x02
  | .vandn => 0x02
  | .vsll => 0x02
  | .vsrl => 0x02
  | .vsra => 0x02
  | .vmv => 0x02
  | .vnot => 0x02
  | .vmseq => 0x03
  | .vmsne => 0x03
  | .vmslt => 0x03
  | .vmsle => 0x03
  | .vmsgt => 0x03
  | .vmsge => 0x03
  | .vfadd => 0x04
  | .vfsub => 0x04
  | .vfmul => 0x04
  | .vfdiv => 0x04
  | .vfsqrt => 0x04
  | .vfmin => 0x04
  | .vfmax => 0x04
  | .vfsgnj => 0x04
  | .vfsgnjn => 0x04
  | .vfsgnjx => 0x04
  | .vfclass => 0x04
  | .vfmadd => 0x05
  | .vfmsub => 0x05
  | .vfnmadd => 0x05
  | .vfnmsub => 0x05
  | .vcvt => 0x06
  | .vcvtMx => 0x06
  | .vcvtDemx => 0x06
  | .vslideup => 0x07
  | .vslidedown => 0x07
  | .vperm => 0x07
  | .vbcast => 0x07
  | .vsel => 0x07
  | .vid => 0x07
  | .vcompress => 0x07
  | .vexpand => 0x07
  | .vredsum => 0x08
  | .vredmin => 0x08
  | .vredmax => 0x08
  | .vredand => 0x08
  | .vredor => 0x08
  | .vredxor => 0x08
  | .vscansum => 0x08
  | .vscanmin => 0x08
  | .vscanmax => 0x08
  | .vmand => 0x09
  | .vmor => 0x09
  | .vmxor => 0x09
  | .vmandn => 0x09
  | .vmnot => 0x09
  | .vmset => 0x09
  | .vmclr => 0x09
  | .vmtov => 0x09
  | .vvtom => 0x09
  | .vpop => 0x09
  | .vfirst => 0x09
  | .vbqAny => 0x09
  | .vbqNone => 0x09
  | .vld => 0x0a
  | .vlds => 0x0a
  | .vldff => 0x0a
  | .vldr => 0x0a
  | .vldm => 0x0a
  | .vst => 0x0b
  | .vsts => 0x0b
  | .vstr => 0x0b
  | .vstm => 0x0b
  | .vgather => 0x0c
  | .vscatter => 0x0c
  | .vsetlf => 0x0d
  | .vxint => 0x0d
  | .vxuni => 0x0d
  | .vxmrg => 0x0d
  | .accwinSum => 0x0e
  | .accwinMin => 0x0e
  | .accwinMax => 0x0e
  | .vacc => 0x0e
  | .accmerge => 0x0e
  | .vamoswap => 0x0e
  | .vamoadd => 0x0e
  | .vamoand => 0x0e
  | .vamoor => 0x0e
  | .vamoxor => 0x0e
  | .vamomin => 0x0e
  | .vamomax => 0x0e
  | .vext => 0x0f
  | .vins => 0x0f
  | .vxsend => 0x0f
  | .vxrecv => 0x0f
  | .vldStrm => 0x0f
  | .vstStrm => 0x0f
  | .mma => 0x10
  | .mmaInt => 0x10
  | .mtern => 0x11
  | .msound => 0x11
  | .mcheck => 0x11
  | .mzero => 0x12
  | .mst => 0x12
  | .mxchg => 0x12
  | .fload => 0x13
  | .fgo => 0x13
  | .fdrain => 0x13
  | .fstat => 0x13
  | .frel => 0x13
  | .vwait => 0x14
  | .fgoResume => 0x13

/-- The function of a form within its major (the tables of 09, 10, 12, 13 and 16). -/
def VOp.func : VOp → BitVec 6
  | .vadd => 0x00
  | .vsub => 0x01
  | .vrsub => 0x02
  | .vmin => 0x03
  | .vmax => 0x04
  | .vmul => 0x05
  | .vmulh => 0x06
  | .vmacc => 0x07
  | .vsadd => 0x08
  | .vssub => 0x09
  | .vabsd => 0x0a
  | .vdiv => 0x0b
  | .vrem => 0x0c
  | .vand => 0x00
  | .vor => 0x01
  | .vxor => 0x02
  | .vandn => 0x03
  | .vsll => 0x04
  | .vsrl => 0x05
  | .vsra => 0x06
  | .vmv => 0x07
  | .vnot => 0x08
  | .vmseq => 0x00
  | .vmsne => 0x01
  | .vmslt => 0x02
  | .vmsle => 0x03
  | .vmsgt => 0x04
  | .vmsge => 0x05
  | .vfadd => 0x00
  | .vfsub => 0x01
  | .vfmul => 0x02
  | .vfdiv => 0x03
  | .vfsqrt => 0x04
  | .vfmin => 0x05
  | .vfmax => 0x06
  | .vfsgnj => 0x07
  | .vfsgnjn => 0x08
  | .vfsgnjx => 0x09
  | .vfclass => 0x0a
  | .vfmadd => 0x00
  | .vfmsub => 0x01
  | .vfnmadd => 0x02
  | .vfnmsub => 0x03
  | .vcvt => 0x00
  | .vcvtMx => 0x01
  | .vcvtDemx => 0x02
  | .vslideup => 0x00
  | .vslidedown => 0x01
  | .vperm => 0x02
  | .vbcast => 0x03
  | .vsel => 0x04
  | .vid => 0x05
  | .vcompress => 0x06
  | .vexpand => 0x07
  | .vredsum => 0x00
  | .vredmin => 0x01
  | .vredmax => 0x02
  | .vredand => 0x03
  | .vredor => 0x04
  | .vredxor => 0x05
  | .vscansum => 0x08
  | .vscanmin => 0x09
  | .vscanmax => 0x0a
  | .vmand => 0x00
  | .vmor => 0x01
  | .vmxor => 0x02
  | .vmandn => 0x03
  | .vmnot => 0x04
  | .vmset => 0x05
  | .vmclr => 0x06
  | .vmtov => 0x07
  | .vvtom => 0x08
  | .vpop => 0x09
  | .vfirst => 0x0a
  | .vbqAny => 0x0b
  | .vbqNone => 0x0c
  | .vld => 0x00
  | .vlds => 0x01
  | .vldff => 0x02
  | .vldr => 0x03
  | .vldm => 0x04
  | .vst => 0x00
  | .vsts => 0x01
  | .vstr => 0x02
  | .vstm => 0x03
  | .vgather => 0x00
  | .vscatter => 0x01
  | .vsetlf => 0x00
  | .vxint => 0x01
  | .vxuni => 0x02
  | .vxmrg => 0x03
  | .accwinSum => 0x00
  | .accwinMin => 0x01
  | .accwinMax => 0x02
  | .vacc => 0x03
  | .accmerge => 0x04
  | .vamoswap => 0x08
  | .vamoadd => 0x09
  | .vamoand => 0x0a
  | .vamoor => 0x0b
  | .vamoxor => 0x0c
  | .vamomin => 0x0d
  | .vamomax => 0x0e
  | .vext => 0x00
  | .vins => 0x01
  | .vxsend => 0x02
  | .vxrecv => 0x03
  | .vldStrm => 0x10
  | .vstStrm => 0x11
  | .mma => 0x00
  | .mmaInt => 0x01
  | .mtern => 0x00
  | .msound => 0x01
  | .mcheck => 0x02
  | .mzero => 0x00
  | .mst => 0x01
  | .mxchg => 0x02
  | .fload => 0x00
  | .fgo => 0x01
  | .fdrain => 0x02
  | .fstat => 0x03
  | .frel => 0x04
  | .vwait => 0x00
  | .fgoResume => 0x01

/-- The form that a major and a function name; `none` where the major does not assign the function.
`resume` is sel[17], which tells `fgo.resume` from `fgo` (R327). -/
def VOp.ofCodes (major func : BitVec 6) (resume : Bool) : Option VOp :=
  match major.toNat, func.toNat with
  | 1, 0 => some .vadd
  | 1, 1 => some .vsub
  | 1, 2 => some .vrsub
  | 1, 3 => some .vmin
  | 1, 4 => some .vmax
  | 1, 5 => some .vmul
  | 1, 6 => some .vmulh
  | 1, 7 => some .vmacc
  | 1, 8 => some .vsadd
  | 1, 9 => some .vssub
  | 1, 10 => some .vabsd
  | 1, 11 => some .vdiv
  | 1, 12 => some .vrem
  | 2, 0 => some .vand
  | 2, 1 => some .vor
  | 2, 2 => some .vxor
  | 2, 3 => some .vandn
  | 2, 4 => some .vsll
  | 2, 5 => some .vsrl
  | 2, 6 => some .vsra
  | 2, 7 => some .vmv
  | 2, 8 => some .vnot
  | 3, 0 => some .vmseq
  | 3, 1 => some .vmsne
  | 3, 2 => some .vmslt
  | 3, 3 => some .vmsle
  | 3, 4 => some .vmsgt
  | 3, 5 => some .vmsge
  | 4, 0 => some .vfadd
  | 4, 1 => some .vfsub
  | 4, 2 => some .vfmul
  | 4, 3 => some .vfdiv
  | 4, 4 => some .vfsqrt
  | 4, 5 => some .vfmin
  | 4, 6 => some .vfmax
  | 4, 7 => some .vfsgnj
  | 4, 8 => some .vfsgnjn
  | 4, 9 => some .vfsgnjx
  | 4, 10 => some .vfclass
  | 5, 0 => some .vfmadd
  | 5, 1 => some .vfmsub
  | 5, 2 => some .vfnmadd
  | 5, 3 => some .vfnmsub
  | 6, 0 => some .vcvt
  | 6, 1 => some .vcvtMx
  | 6, 2 => some .vcvtDemx
  | 7, 0 => some .vslideup
  | 7, 1 => some .vslidedown
  | 7, 2 => some .vperm
  | 7, 3 => some .vbcast
  | 7, 4 => some .vsel
  | 7, 5 => some .vid
  | 7, 6 => some .vcompress
  | 7, 7 => some .vexpand
  | 8, 0 => some .vredsum
  | 8, 1 => some .vredmin
  | 8, 2 => some .vredmax
  | 8, 3 => some .vredand
  | 8, 4 => some .vredor
  | 8, 5 => some .vredxor
  | 8, 8 => some .vscansum
  | 8, 9 => some .vscanmin
  | 8, 10 => some .vscanmax
  | 9, 0 => some .vmand
  | 9, 1 => some .vmor
  | 9, 2 => some .vmxor
  | 9, 3 => some .vmandn
  | 9, 4 => some .vmnot
  | 9, 5 => some .vmset
  | 9, 6 => some .vmclr
  | 9, 7 => some .vmtov
  | 9, 8 => some .vvtom
  | 9, 9 => some .vpop
  | 9, 10 => some .vfirst
  | 9, 11 => some .vbqAny
  | 9, 12 => some .vbqNone
  | 10, 0 => some .vld
  | 10, 1 => some .vlds
  | 10, 2 => some .vldff
  | 10, 3 => some .vldr
  | 10, 4 => some .vldm
  | 11, 0 => some .vst
  | 11, 1 => some .vsts
  | 11, 2 => some .vstr
  | 11, 3 => some .vstm
  | 12, 0 => some .vgather
  | 12, 1 => some .vscatter
  | 13, 0 => some .vsetlf
  | 13, 1 => some .vxint
  | 13, 2 => some .vxuni
  | 13, 3 => some .vxmrg
  | 14, 0 => some .accwinSum
  | 14, 1 => some .accwinMin
  | 14, 2 => some .accwinMax
  | 14, 3 => some .vacc
  | 14, 4 => some .accmerge
  | 14, 8 => some .vamoswap
  | 14, 9 => some .vamoadd
  | 14, 10 => some .vamoand
  | 14, 11 => some .vamoor
  | 14, 12 => some .vamoxor
  | 14, 13 => some .vamomin
  | 14, 14 => some .vamomax
  | 15, 0 => some .vext
  | 15, 1 => some .vins
  | 15, 2 => some .vxsend
  | 15, 3 => some .vxrecv
  | 15, 16 => some .vldStrm
  | 15, 17 => some .vstStrm
  | 16, 0 => some .mma
  | 16, 1 => some .mmaInt
  | 17, 0 => some .mtern
  | 17, 1 => some .msound
  | 17, 2 => some .mcheck
  | 18, 0 => some .mzero
  | 18, 1 => some .mst
  | 18, 2 => some .mxchg
  | 19, 0 => some .fload
  | 19, 1 => if resume then some .fgoResume else some .fgo
  | 19, 2 => some .fdrain
  | 19, 3 => some .fstat
  | 19, 4 => some .frel
  | 20, 0 => some .vwait
  | _, _ => none

/-- The row of the opcode table for a vector form with its fields. -/
noncomputable def VOp.toInstr (o : VOp) (w : VFields) : Instr :=
  match o with
  | .vadd => .vadd w
  | .vsub => .vsub w
  | .vrsub => .vrsub w
  | .vmin => .vmin w
  | .vmax => .vmax w
  | .vmul => .vmul w
  | .vmulh => .vmulh w
  | .vmacc => .vmacc w
  | .vsadd => .vsadd w
  | .vssub => .vssub w
  | .vabsd => .vabsd w
  | .vdiv => .vdiv w
  | .vrem => .vrem w
  | .vand => .vand w
  | .vor => .vor w
  | .vxor => .vxor w
  | .vandn => .vandn w
  | .vsll => .vsll w
  | .vsrl => .vsrl w
  | .vsra => .vsra w
  | .vmv => .vmv w
  | .vnot => .vnot w
  | .vmseq => .vmseq w
  | .vmsne => .vmsne w
  | .vmslt => .vmslt w
  | .vmsle => .vmsle w
  | .vmsgt => .vmsgt w
  | .vmsge => .vmsge w
  | .vfadd => .vfadd w
  | .vfsub => .vfsub w
  | .vfmul => .vfmul w
  | .vfdiv => .vfdiv w
  | .vfsqrt => .vfsqrt w
  | .vfmin => .vfmin w
  | .vfmax => .vfmax w
  | .vfsgnj => .vfsgnj w
  | .vfsgnjn => .vfsgnjn w
  | .vfsgnjx => .vfsgnjx w
  | .vfclass => .vfclass w
  | .vfmadd => .vfmadd w
  | .vfmsub => .vfmsub w
  | .vfnmadd => .vfnmadd w
  | .vfnmsub => .vfnmsub w
  | .vcvt => .vcvt w
  | .vcvtMx => .vcvtMx w
  | .vcvtDemx => .vcvtDemx w
  | .vslideup => .vslideup w
  | .vslidedown => .vslidedown w
  | .vperm => .vperm w
  | .vbcast => .vbcast w
  | .vsel => .vsel w
  | .vid => .vid w
  | .vcompress => .vcompress w
  | .vexpand => .vexpand w
  | .vredsum => .vredsum w
  | .vredmin => .vredmin w
  | .vredmax => .vredmax w
  | .vredand => .vredand w
  | .vredor => .vredor w
  | .vredxor => .vredxor w
  | .vscansum => .vscansum w
  | .vscanmin => .vscanmin w
  | .vscanmax => .vscanmax w
  | .vmand => .vmand w
  | .vmor => .vmor w
  | .vmxor => .vmxor w
  | .vmandn => .vmandn w
  | .vmnot => .vmnot w
  | .vmset => .vmset w
  | .vmclr => .vmclr w
  | .vmtov => .vmtov w
  | .vvtom => .vvtom w
  | .vpop => .vpop w
  | .vfirst => .vfirst w
  | .vbqAny => .vbqAny w
  | .vbqNone => .vbqNone w
  | .vld => .vld w
  | .vlds => .vlds w
  | .vldff => .vldff w
  | .vldr => .vldr w
  | .vldm => .vldm w
  | .vst => .vst w
  | .vsts => .vsts w
  | .vstr => .vstr w
  | .vstm => .vstm w
  | .vgather => .vgather w
  | .vscatter => .vscatter w
  | .vsetlf => .vsetlf w
  | .vxint => .vxint w
  | .vxuni => .vxuni w
  | .vxmrg => .vxmrg w
  | .accwinSum => .accwinSum w
  | .accwinMin => .accwinMin w
  | .accwinMax => .accwinMax w
  | .vacc => .vacc w
  | .accmerge => .accmerge w
  | .vamoswap => .vamoswap w
  | .vamoadd => .vamoadd w
  | .vamoand => .vamoand w
  | .vamoor => .vamoor w
  | .vamoxor => .vamoxor w
  | .vamomin => .vamomin w
  | .vamomax => .vamomax w
  | .vext => .vext w
  | .vins => .vins w
  | .vxsend => .vxsend w
  | .vxrecv => .vxrecv w
  | .vldStrm => .vldStrm w
  | .vstStrm => .vstStrm w
  | .mma => .mma w
  | .mmaInt => .mmaInt w
  | .mtern => .mtern w
  | .msound => .msound w
  | .mcheck => .mcheck w
  | .mzero => .mzero w
  | .mst => .mst w
  | .mxchg => .mxchg w
  | .fload => .fload w
  | .fgo => .fgo w
  | .fdrain => .fdrain w
  | .fstat => .fstat w
  | .frel => .frel w
  | .vwait => .vwait w
  | .fgoResume => .fgoResume w

/-- The operation code of a unit operation (R315). -/
def UOp.code : UOp → BitVec 6
  | .mov => 0x00
  | .add => 0x01
  | .sub => 0x02
  | .mul => 0x03
  | .min => 0x04
  | .max => 0x05
  | .and => 0x06
  | .or => 0x07
  | .xor => 0x08
  | .shl => 0x09
  | .shr => 0x0a
  | .seq => 0x0b
  | .slt => 0x0c
  | .sle => 0x0d
  | .fadd => 0x10
  | .fsub => 0x11
  | .fmul => 0x12
  | .fmac => 0x13
  | .fmin => 0x14
  | .fmax => 0x15
  | .bamax => 0x18
  | .qcvt => 0x19

/-- The unit operation of a code; `none` for a reserved one (R315). -/
def UOp.ofCode (c : BitVec 6) : Option UOp :=
  match c.toNat with
  | 0 => some .mov
  | 1 => some .add
  | 2 => some .sub
  | 3 => some .mul
  | 4 => some .min
  | 5 => some .max
  | 6 => some .and
  | 7 => some .or
  | 8 => some .xor
  | 9 => some .shl
  | 10 => some .shr
  | 11 => some .seq
  | 12 => some .slt
  | 13 => some .sle
  | 16 => some .fadd
  | 17 => some .fsub
  | 18 => some .fmul
  | 19 => some .fmac
  | 20 => some .fmin
  | 21 => some .fmax
  | 24 => some .bamax
  | 25 => some .qcvt
  | _ => none

/-- The row of the opcode table for a unit operation with its fields. -/
def UOp.toInstr (o : UOp) (u : UFields) : Instr :=
  match o with
  | .mov => .unitMov u
  | .add => .unitAdd u
  | .sub => .unitSub u
  | .mul => .unitMul u
  | .min => .unitMin u
  | .max => .unitMax u
  | .and => .unitAnd u
  | .or => .unitOr u
  | .xor => .unitXor u
  | .shl => .unitShl u
  | .shr => .unitShr u
  | .seq => .unitSeq u
  | .slt => .unitSlt u
  | .sle => .unitSle u
  | .fadd => .unitFadd u
  | .fsub => .unitFsub u
  | .fmul => .unitFmul u
  | .fmac => .unitFmac u
  | .fmin => .unitFmin u
  | .fmax => .unitFmax u
  | .bamax => .unitBamax u
  | .qcvt => .unitQcvt u

/-- The fields of a vector word (R38, R242). -/
def vfieldsOf (w : BitVec 64) : VFields where
  vd := fld w 47 5
  va := fld w 42 5
  vb := fld w 37 5
  vc := fld w 32 5
  mask := fld w 29 3
  width := fld w 26 3
  fmt := fld w 21 5
  rm := fld w 18 3
  sel := fld w 0 18

/-- The form and fields of a vector word; `none` where the major or the function is unassigned. -/
def decodeVector (w : BitVec 64) : Option (VOp × VFields) :=
  match VOp.ofCodes (fld w 58 6) (fld w 52 6) (fld w 17 1 == 1) with
  | some o => some (o, vfieldsOf w)
  | none => none

/-- The fields of a unit word (R314). -/
def ufieldsOf (w : BitVec 32) : UFields where
  fmt := fld w 21 5
  w := fld w 19 2
  rm := fld w 16 3
  a := fld w 11 5
  b := fld w 6 5
  d := fld w 1 5

/-- The operation and fields of a unit word; `none` for a reserved operation or a set bit 0 (R314). -/
def decodeUnit (w : BitVec 32) : Option (UOp × UFields) :=
  if fld w 0 1 = 0 then
    match UOp.ofCode (fld w 26 6) with
    | some o => some (o, ufieldsOf w)
    | none => none
  else none

/-! ### Instructions in memory -/

/-- What stands for an instruction: a scalar word, a fabric unit word, a vector word, or a convoy. -/
inductive Code where
  | scalar (w : BitVec 32)
  | unit (w : BitVec 32)
  | vector (w : BitVec 64)
  | convoy (header : BitVec 32) (words : List (BitVec 64))
  deriving DecidableEq, Repr

/-- The instruction that a code stands for. A vector or unit word that breaks its field rules stands for
none (R42, R324). -/
noncomputable def decode (c : Code) : Option Instr :=
  match c with
  | .scalar w => if fld w 26 6 = 0x3E then none else some (decodeScalar w)
  | .unit w =>
    match decodeUnit w with
    | some (o, u) => if o.fieldsOk u then some (o.toInstr u) else none
    | none => none
  | .vector w =>
    match decodeVector w with
    | some (o, v) => if o.fieldsOk v then some (o.toInstr v) else none
    | none => none
  | .convoy header words => if convoyShape header words then some (.convoy header words) else none

/-- Why bytes hold no instruction. -/
inductive Reject where
  /-- Fewer than four bytes remain. -/
  | shortWord
  /-- A convoy header with fewer vector words than its count names (R34). -/
  | shortConvoy
  deriving DecidableEq, Repr

/-- The little-endian number of a list of bytes (R5). -/
def leNat : List Byte → Nat
  | [] => 0
  | b :: bs => b.toNat + 256 * leNat bs

/-- The first `n` bytes of a number, lowest first (R5). -/
def leBytes : Nat → Nat → List Byte
  | 0, _ => []
  | n + 1, v => BitVec.ofNat 8 v :: leBytes n (v / 256)

/-- `n` vector words of eight bytes each (R26). -/
def takeWords : Nat → List Byte → List (BitVec 64)
  | 0, _ => []
  | n + 1, bs => BitVec.ofNat 64 (leNat (bs.take 8)) :: takeWords n (bs.drop 8)

/-- The instruction at the head of a list of bytes and the bytes after it (R26 to R28). -/
def decodeBytes (bs : List Byte) : Except Reject (Instr × List Byte) :=
  if bs.length < 4 then .error .shortWord
  else
    let w := BitVec.ofNat 32 (leNat (bs.take 4))
    let rest := bs.drop 4
    if fld w 26 6 = 0x3E then
      let n := (fld w 24 2).toNat + 1
      if rest.length < 8 * n then .error .shortConvoy
      else .ok (.convoy w (takeWords n rest), rest.drop (8 * n))
    else .ok (decodeScalar w, rest)

/-- The instruction that the decoder reads from an instruction of which the opcode table gives the low
`nbits` bits. A scalar word or a convoy header is decoded as at a program counter. The table's vector
rows are 64-bit words and are decoded as the words of a convoy slot. A unit row has the length of a
scalar word, and at a program counter it is the scalar word that its bits encode (R28). -/
noncomputable def decodeTableWord (nbits w : Nat) : Option Instr :=
  if nbits = 64 then decode (.vector (BitVec.ofNat 64 w))
  else
    match decodeBytes (leBytes 36 (w % 2 ^ nbits)) with
    | .ok (i, _) => some i
    | .error _ => none

/-! ### The encoder -/

/-- The word of a scalar instruction, from the formats of R30 and the encodings of 06 R158, 07 R187,
08 R200 to R228, 09 R233, 12 R284 to R296, 13 R310, 16 R379, R385 and 17 R402; `none` for every other row. -/
def encodeScalar (i : Instr) : Option (BitVec 32) :=
  match i with
  | .add d a b => some (0x1#6 ++ d ++ a ++ b ++ 0x0#11)
  | .sub d a b => some (0x1#6 ++ d ++ a ++ b ++ 0x40#11)
  | .and d a b => some (0x1#6 ++ d ++ a ++ b ++ 0x80#11)
  | .or d a b => some (0x1#6 ++ d ++ a ++ b ++ 0xc0#11)
  | .xor d a b => some (0x1#6 ++ d ++ a ++ b ++ 0x100#11)
  | .andn d a b => some (0x1#6 ++ d ++ a ++ b ++ 0x140#11)
  | .sll d a b => some (0x1#6 ++ d ++ a ++ b ++ 0x180#11)
  | .srl d a b => some (0x1#6 ++ d ++ a ++ b ++ 0x1c0#11)
  | .sra d a b => some (0x1#6 ++ d ++ a ++ b ++ 0x200#11)
  | .slt d a b => some (0x1#6 ++ d ++ a ++ b ++ 0x240#11)
  | .sltu d a b => some (0x1#6 ++ d ++ a ++ b ++ 0x280#11)
  | .min d a b => some (0x1#6 ++ d ++ a ++ b ++ 0x2c0#11)
  | .max d a b => some (0x1#6 ++ d ++ a ++ b ++ 0x300#11)
  | .minu d a b => some (0x1#6 ++ d ++ a ++ b ++ 0x340#11)
  | .maxu d a b => some (0x1#6 ++ d ++ a ++ b ++ 0x380#11)
  | .addw d a b => some (0x1#6 ++ d ++ a ++ b ++ 0x3c0#11)
  | .subw d a b => some (0x1#6 ++ d ++ a ++ b ++ 0x400#11)
  | .sh1add d a b => some (0x1#6 ++ d ++ a ++ b ++ 0x440#11)
  | .sh2add d a b => some (0x1#6 ++ d ++ a ++ b ++ 0x480#11)
  | .sh3add d a b => some (0x1#6 ++ d ++ a ++ b ++ 0x4c0#11)
  | .clz d a => some (0x1#6 ++ d ++ a ++ 0x500#16)
  | .ctz d a => some (0x1#6 ++ d ++ a ++ 0x540#16)
  | .cpop d a => some (0x1#6 ++ d ++ a ++ 0x580#16)
  | .slli d a s => some (0x1#6 ++ d ++ a ++ 0x17#10 ++ s)
  | .srli d a s => some (0x1#6 ++ d ++ a ++ 0x18#10 ++ s)
  | .srai d a s => some (0x1#6 ++ d ++ a ++ 0x19#10 ++ s)
  | .sextB d a => some (0x1#6 ++ d ++ a ++ 0x680#16)
  | .sextH d a => some (0x1#6 ++ d ++ a ++ 0x681#16)
  | .sextW d a => some (0x1#6 ++ d ++ a ++ 0x682#16)
  | .zextB d a => some (0x1#6 ++ d ++ a ++ 0x6c0#16)
  | .zextH d a => some (0x1#6 ++ d ++ a ++ 0x6c1#16)
  | .zextW d a => some (0x1#6 ++ d ++ a ++ 0x6c2#16)
  | .addi d a i => some (0x2#6 ++ d ++ a ++ i)
  | .lik d i => some (0x9#6 ++ d ++ i)
  | .pcrel d i => some (0xa#6 ++ d ++ i)
  | .mul d a b => some (0x3#6 ++ d ++ a ++ b ++ 0x0#11)
  | .mulh d a b => some (0x3#6 ++ d ++ a ++ b ++ 0x40#11)
  | .mulhu d a b => some (0x3#6 ++ d ++ a ++ b ++ 0x80#11)
  | .mulhsu d a b => some (0x3#6 ++ d ++ a ++ b ++ 0xc0#11)
  | .div d a b => some (0x3#6 ++ d ++ a ++ b ++ 0x100#11)
  | .divu d a b => some (0x3#6 ++ d ++ a ++ b ++ 0x140#11)
  | .rem d a b => some (0x3#6 ++ d ++ a ++ b ++ 0x180#11)
  | .remu d a b => some (0x3#6 ++ d ++ a ++ b ++ 0x1c0#11)
  | .mulw d a b => some (0x3#6 ++ d ++ a ++ b ++ 0x200#11)
  | .divw d a b => some (0x3#6 ++ d ++ a ++ b ++ 0x240#11)
  | .remw d a b => some (0x3#6 ++ d ++ a ++ b ++ 0x280#11)
  | .ldI8 d a i => some (0x4#6 ++ d ++ a ++ 0x0#4 ++ i)
  | .ldI16 d a i => some (0x4#6 ++ d ++ a ++ 0x1#4 ++ i)
  | .ldI32 d a i => some (0x4#6 ++ d ++ a ++ 0x2#4 ++ i)
  | .ldI64 d a i => some (0x4#6 ++ d ++ a ++ 0x3#4 ++ i)
  | .ldN8 d a i => some (0x4#6 ++ d ++ a ++ 0x4#4 ++ i)
  | .ldN16 d a i => some (0x4#6 ++ d ++ a ++ 0x5#4 ++ i)
  | .ldN32 d a i => some (0x4#6 ++ d ++ a ++ 0x6#4 ++ i)
  | .ldF16 d a i => some (0x4#6 ++ d ++ a ++ 0x7#4 ++ i)
  | .ldF32 d a i => some (0x4#6 ++ d ++ a ++ 0x8#4 ++ i)
  | .ldF64 d a i => some (0x4#6 ++ d ++ a ++ 0x9#4 ++ i)
  | .stI8 s a i => some (0x5#6 ++ s ++ a ++ 0x0#4 ++ i)
  | .stI16 s a i => some (0x5#6 ++ s ++ a ++ 0x1#4 ++ i)
  | .stI32 s a i => some (0x5#6 ++ s ++ a ++ 0x2#4 ++ i)
  | .stI64 s a i => some (0x5#6 ++ s ++ a ++ 0x3#4 ++ i)
  | .stF16 s a i => some (0x5#6 ++ s ++ a ++ 0x7#4 ++ i)
  | .stF32 s a i => some (0x5#6 ++ s ++ a ++ 0x8#4 ++ i)
  | .stF64 s a i => some (0x5#6 ++ s ++ a ++ 0x9#4 ++ i)
  | .amoswap d a b q l z p => some (0x6#6 ++ d ++ a ++ b ++ 0x0#5 ++ q ++ l ++ z ++ p)
  | .amoadd d a b q l z p => some (0x6#6 ++ d ++ a ++ b ++ 0x1#5 ++ q ++ l ++ z ++ p)
  | .amoand d a b q l z p => some (0x6#6 ++ d ++ a ++ b ++ 0x2#5 ++ q ++ l ++ z ++ p)
  | .amoor d a b q l z p => some (0x6#6 ++ d ++ a ++ b ++ 0x3#5 ++ q ++ l ++ z ++ p)
  | .amoxor d a b q l z p => some (0x6#6 ++ d ++ a ++ b ++ 0x4#5 ++ q ++ l ++ z ++ p)
  | .amomin d a b q l z p => some (0x6#6 ++ d ++ a ++ b ++ 0x5#5 ++ q ++ l ++ z ++ p)
  | .amomax d a b q l z p => some (0x6#6 ++ d ++ a ++ b ++ 0x6#5 ++ q ++ l ++ z ++ p)
  | .amominu d a b q l z p => some (0x6#6 ++ d ++ a ++ b ++ 0x7#5 ++ q ++ l ++ z ++ p)
  | .amomaxu d a b q l z p => some (0x6#6 ++ d ++ a ++ b ++ 0x8#5 ++ q ++ l ++ z ++ p)
  | .amocas d a b q l z p => some (0x6#6 ++ d ++ a ++ b ++ 0x9#5 ++ q ++ l ++ z ++ p)
  | .beq a b o => some (0xe0#11 ++ a ++ b ++ o)
  | .bne a b o => some (0xe1#11 ++ a ++ b ++ o)
  | .blt a b o => some (0xe2#11 ++ a ++ b ++ o)
  | .bge a b o => some (0xe3#11 ++ a ++ b ++ o)
  | .bltu a b o => some (0xe4#11 ++ a ++ b ++ o)
  | .bgeu a b o => some (0xe5#11 ++ a ++ b ++ o)
  | .beqz a o => some (0xf0#11 ++ a ++ o)
  | .bnez a o => some (0xf1#11 ++ a ++ o)
  | .bltz a o => some (0xf2#11 ++ a ++ o)
  | .bgez a o => some (0xf3#11 ++ a ++ o)
  | .blez a o => some (0xf4#11 ++ a ++ o)
  | .bgtz a o => some (0xf5#11 ++ a ++ o)
  | .bqt o => some (0x1ec0#16 ++ o)
  | .bqf o => some (0x1ee0#16 ++ o)
  | .j o => some (0x20#8 ++ o)
  | .call o => some (0x21#8 ++ o)
  | .jr a i => some (0x110#11 ++ a ++ i)
  | .callr a i => some (0x111#11 ++ a ++ i)
  | .ret => some (0x22400000#32)
  | .rasSpill a d => some (0x113#11 ++ a ++ 0x0#11 ++ d)
  | .rasFill a d => some (0x114#11 ++ a ++ 0x0#11 ++ d)
  | .rasDrop a => some (0x115#11 ++ a ++ 0x0#16)
  | .fadd d a b r f => some (0xb#6 ++ d ++ a ++ b ++ 0x0#5 ++ r ++ f)
  | .fsub d a b r f => some (0xb#6 ++ d ++ a ++ b ++ 0x1#5 ++ r ++ f)
  | .fmul d a b r f => some (0xb#6 ++ d ++ a ++ b ++ 0x2#5 ++ r ++ f)
  | .fdiv d a b r f => some (0xb#6 ++ d ++ a ++ b ++ 0x3#5 ++ r ++ f)
  | .fsqrt d a r f => some (0xb#6 ++ d ++ a ++ 0x4#10 ++ r ++ f)
  | .fmin d a b f => some (0xb#6 ++ d ++ a ++ b ++ 0x28#8 ++ f)
  | .fmax d a b f => some (0xb#6 ++ d ++ a ++ b ++ 0x30#8 ++ f)
  | .fsgnj d a b f => some (0xb#6 ++ d ++ a ++ b ++ 0x38#8 ++ f)
  | .fsgnjn d a b f => some (0xb#6 ++ d ++ a ++ b ++ 0x40#8 ++ f)
  | .fsgnjx d a b f => some (0xb#6 ++ d ++ a ++ b ++ 0x48#8 ++ f)
  | .feq d a b f => some (0xb#6 ++ d ++ a ++ b ++ 0x50#8 ++ f)
  | .flt d a b f => some (0xb#6 ++ d ++ a ++ b ++ 0x58#8 ++ f)
  | .fle d a b f => some (0xb#6 ++ d ++ a ++ b ++ 0x60#8 ++ f)
  | .fclass d a f => some (0xb#6 ++ d ++ a ++ 0x68#13 ++ f)
  | .fcvtToInt d a t r f => some (0xb#6 ++ d ++ a ++ 0x0#3 ++ t ++ 0xe#5 ++ r ++ f)
  | .fcvtFromInt d a t r f => some (0xb#6 ++ d ++ a ++ 0x0#3 ++ t ++ 0xf#5 ++ r ++ f)
  | .fcvtFmt d a s r f => some (0xb#6 ++ d ++ a ++ 0x0#3 ++ s ++ 0x10#5 ++ r ++ f)
  | .fmvX d a f => some (0xb#6 ++ d ++ a ++ 0x88#13 ++ f)
  | .fmvF d a f => some (0xb#6 ++ d ++ a ++ 0x90#13 ++ f)
  | .fmadd d a b c f r => some (0xc#6 ++ d ++ a ++ b ++ c ++ 0x0#2 ++ f ++ r)
  | .fmsub d a b c f r => some (0xc#6 ++ d ++ a ++ b ++ c ++ 0x1#2 ++ f ++ r)
  | .fnmadd d a b c f r => some (0xc#6 ++ d ++ a ++ b ++ c ++ 0x2#2 ++ f ++ r)
  | .fnmsub d a b c f r => some (0xc#6 ++ d ++ a ++ b ++ c ++ 0x3#2 ++ f ++ r)
  | .csrr d c => some (0xd#6 ++ d ++ 0x0#9 ++ c)
  | .csrw d a c => some (0xd#6 ++ d ++ a ++ 0x1#4 ++ c)
  | .csrs d a c => some (0xd#6 ++ d ++ a ++ 0x2#4 ++ c)
  | .csrc d a c => some (0xd#6 ++ d ++ a ++ 0x3#4 ++ c)
  | .csrsi d n c => some (0xd#6 ++ d ++ n ++ 0x4#4 ++ c)
  | .csrci d n c => some (0xd#6 ++ d ++ n ++ 0x5#4 ++ c)
  | .fence p => some (0x7000000#29 ++ p)
  | .fenceSv p => some (0x7000008#29 ++ p)
  | .fenceVs p => some (0x7000010#29 ++ p)
  | .lda d a z s p => some (0xe#6 ++ d ++ a ++ 0x3#10 ++ z ++ s ++ p)
  | .stl a b s p => some (0x1c0#11 ++ a ++ b ++ 0x8#6 ++ s ++ p)
  | .fenceI p => some (0x7000028#29 ++ p)
  | .ecall => some (0x3c000000#32)
  | .ebreak => some (0x3c000040#32)
  | .sret => some (0x3c000080#32)
  | .wfi => some (0x3c0000c0#32)
  | .tlbInv a b p => some (0x1e0#11 ++ a ++ b ++ 0x20#8 ++ p)
  | .strmCfg d a n => some (0x10#6 ++ d ++ a ++ 0x0#1 ++ n ++ 0x0#11)
  | .strmRel n => some (0x8000#17 ++ n ++ 0x40#11)
  | .strmRelWait n => some (0x8000#17 ++ n ++ 0x48#11)
  | .strmStat d n => some (0x10#6 ++ d ++ 0x0#6 ++ n ++ 0x80#11)
  | .strmStatPos d n => some (0x10#6 ++ d ++ 0x0#6 ++ n ++ 0x88#11)
  | .strmStatAvail d n => some (0x10#6 ++ d ++ 0x0#6 ++ n ++ 0x90#11)
  | .strmPop d n => some (0x10#6 ++ d ++ 0x0#6 ++ n ++ 0xc0#11)
  | .strmPush a n => some (0x200#11 ++ a ++ 0x0#1 ++ n ++ 0x100#11)
  | .strmCopy d s => some (0x20#7 ++ d ++ 0x0#6 ++ s ++ 0x140#11)
  | .strmResume a n => some (0x200#11 ++ a ++ 0x0#1 ++ n ++ 0x180#11)
  | .strmSave t a n => some (0x10#6 ++ t ++ a ++ 0x0#1 ++ n ++ 0x1c0#11)
  | .strmRest t a n => some (0x10#6 ++ t ++ a ++ 0x0#1 ++ n ++ 0x1c8#11)
  | .bankCfgCache d a => some (0x11#6 ++ d ++ a ++ 0x0#16)
  | .bankCfgSpad d a => some (0x11#6 ++ d ++ a ++ 0x8#16)
  | .bankCfgFifo d a => some (0x11#6 ++ d ++ a ++ 0x10#16)
  | .bankStat d a => some (0x11#6 ++ d ++ a ++ 0x40#16)
  | .feInitEmpty a b => some (0x220#11 ++ a ++ b ++ 0x80#11)
  | .feInitFull a b => some (0x220#11 ++ a ++ b ++ 0x88#11)
  | .ldf d a p => some (0x11#6 ++ d ++ a ++ 0x18#13 ++ p)
  | .ldfClr d a p => some (0x11#6 ++ d ++ a ++ 0x19#13 ++ p)
  | .stf a b p => some (0x220#11 ++ a ++ b ++ 0x20#8 ++ p)
  | .stfWait a b p => some (0x220#11 ++ a ++ b ++ 0x21#8 ++ p)
  | .ringCfg q a b => some (0x44#8 ++ q ++ a ++ b ++ 0x140#11)
  | .ringAdvTail q a p => some (0x44#8 ++ q ++ a ++ 0x30#13 ++ p)
  | .ringAdvHead q a p => some (0x44#8 ++ q ++ a ++ 0x31#13 ++ p)
  | .ringStat d q => some (0x11#6 ++ d ++ 0x0#2 ++ q ++ 0x1c0#16)
  | .ringStatWait d q b => some (0x11#6 ++ d ++ 0x0#2 ++ q ++ b ++ 0x1c8#11)
  | .cwait a n p => some (0x240#11 ++ a ++ 0x0#1 ++ n ++ 0x0#8 ++ p)
  | .cread d n => some (0x12#6 ++ d ++ 0x0#6 ++ n ++ 0x40#11)
  | .cadd a n p => some (0x240#11 ++ a ++ 0x0#1 ++ n ++ 0x10#8 ++ p)
  | .tokSend a b p => some (0x240#11 ++ a ++ b ++ 0x18#8 ++ p)
  | .tokWait d a p => some (0x12#6 ++ d ++ a ++ 0x20#13 ++ p)
  | .tokStat d a => some (0x12#6 ++ d ++ a ++ 0x140#16)
  | .barArrive d a p => some (0x12#6 ++ d ++ a ++ 0x30#13 ++ p)
  | .barWait a b p => some (0x240#11 ++ a ++ b ++ 0x38#8 ++ p)
  | .klaunch d a b => some (0x13#6 ++ d ++ a ++ b ++ 0x0#11)
  | .kid d a s => some (0x13#6 ++ d ++ a ++ 0x1#10 ++ s ++ 0x0#3)
  | .kyield => some (0x4c000080#32)
  | .kdone => some (0x4c0000c0#32)
  | .hloop l a => some (0x98#9 ++ l ++ a ++ 0x600#16)
  | .hend l => some (0x98#9 ++ l ++ 0x640#21)
  | .hendC l => some (0x98#9 ++ l ++ 0x648#21)
  | .hget d l f => some (0x13#6 ++ d ++ 0x0#3 ++ l ++ 0x1a#10 ++ f ++ 0x0#3)
  | .hset l a f => some (0x98#9 ++ l ++ a ++ 0x1b#10 ++ f ++ 0x0#3)
  | .capLandOff d => some (0x14#6 ++ d ++ 0x0#21)
  | .capLandSend d a => some (0x14#6 ++ d ++ a ++ 0x8#16)
  | .capLandLand d a => some (0x14#6 ++ d ++ a ++ 0x10#16)
  | .capSend d a p => some (0x14#6 ++ d ++ a ++ 0x8#13 ++ p)
  | .capRecv d p => some (0x14#6 ++ d ++ 0x10#18 ++ p)
  | .capFwd p => some (0xa000018#29 ++ p)
  | .capFwdStay p => some (0xa000019#29 ++ p)
  | .capFwdEnd p => some (0xa00001a#29 ++ p)
  | .capIns d a b => some (0x14#6 ++ d ++ a ++ b ++ 0x100#11)
  | .capDel d a => some (0x14#6 ++ d ++ a ++ 0x140#16)
  | .capSwap d a b => some (0x14#6 ++ d ++ a ++ b ++ 0x180#11)
  | .capPark => some (0x500001c0#32)
  | .capParkFlt a => some (0x280#11 ++ a ++ 0x1c8#16)
  | .capParkRel d a => some (0x14#6 ++ d ++ a ++ 0x1d0#16)
  | .vsetvl d a b e w p => some (0x15#6 ++ d ++ a ++ b ++ 0x0#4 ++ e ++ w ++ 0x0#1 ++ p)
  | .lpart d a => some (0x15#6 ++ d ++ a ++ 0x100#16)
  | .tshape d a => some (0x15#6 ++ d ++ a ++ 0x200#16)
  | .mmodeOn => some (0x54000301#32)
  | .mmodeOff => some (0x54000300#32)
  | .fmodeOn d a b => some (0x15#6 ++ d ++ a ++ b ++ 0x401#11)
  | .fmodeOff d a => some (0x15#6 ++ d ++ a ++ 0x400#16)
  | .mpair d a => some (0x15#6 ++ d ++ a ++ 0x501#16)
  | .mpairOff => some (0x54000500#32)
  | .nop x => some (0x7a0#11 ++ x)
  | .prefetchRead a i => some (0x7a1#11 ++ a ++ i)
  | .prefetchOwn a i => some (0x7a2#11 ++ a ++ i)
  | .issuePauseHint x => some (0x7a3#11 ++ x)
  | .hint kind x => some (0x3d#6 ++ kind ++ x)
  | .illegalInstruction word => some word
  | _ => none

/-- The word of a vector form with its fields (R242). -/
def encodeVector (o : VOp) (w : VFields) : BitVec 64 :=
  o.major ++ o.func ++ w.vd ++ w.va ++ w.vb ++ w.vc ++ w.mask ++ w.width ++ w.fmt ++ w.rm ++ w.sel

/-- The word of a unit operation with its fields (R314). -/
def encodeUnit (o : UOp) (u : UFields) : BitVec 32 :=
  o.code ++ u.fmt ++ u.w ++ u.rm ++ u.a ++ u.b ++ u.d ++ 0#1

/-- The code of an instruction; `none` for an event. -/
def encode (i : Instr) : Option Code :=
  match i with
  | .convoy header words => some (.convoy header words)
  | i =>
    match i.vector? with
    | some (o, w) => some (.vector (encodeVector o w))
    | none =>
      match i.unit? with
      | some (o, u) => some (.unit (encodeUnit o u))
      | none =>
        match encodeScalar i with
        | some w => some (.scalar w)
        | none => none

/-- The bytes of a code, in memory order (R5, R26). -/
def Code.bytes (c : Code) : List Byte :=
  match c with
  | .scalar w | .unit w => leBytes 4 w.toNat
  | .vector w => leBytes 8 w.toNat
  | .convoy header words => leBytes 4 header.toNat ++ words.flatMap (fun v => leBytes 8 v.toNat)

end Sys2Proof
end

