-- ==== Sys2Proof/Machine/Operands.lean ====
section
/-!
DEFINITION. The operand forms of scalar words (R5, R56, R201, R202, R204, R208, R210, R214) and the elements
of vector and mask registers (R44, R45, R73, R244).
-/

namespace Sys2Proof.Machine

/-! ### Scalar operands -/

/-- A sign-extended immediate (R56). -/
def simm {n : Nat} (i : BitVec n) : Word := i.signExtend 64

/-- The effective address of an M format word: X[xa] + sext(imm12) (R204). -/
def State.ea (s : State) (a : Reg) (i : BitVec 12) : Word := s.getX a + simm i

/-- A PC-relative target: own address + 4 × sext(offset) (R202, R208, R210). -/
def State.target {n : Nat} (s : State) (o : BitVec n) : Word := s.pc + 4 * simm o

/-- A register-indirect target (R210). -/
def State.targetX (s : State) (a : Reg) (i : BitVec 16) : Word := s.getX a + simm i

/-- An instruction address is a multiple of 4 (R27, R211). -/
def aligned4 (w : Word) : Bool := fld w 0 2 == 0

/-- The word of a scalar instruction, as TVAL of an illegal-instruction trap shows it (R32, R55). -/
def scalarWord (i : Instr) : Word := ((encodeScalar i).getD 0).setWidth 64

/-- The illegal-instruction trap of a scalar instruction (R32, R55). -/
def State.illegal (s : State) (i : Instr) : State := s.trap .illegalInstruction (scalarWord i)

/-- End the operation with the illegal-instruction trap unless the condition holds (R32). -/
def legal (b : Bool) (i : Instr) : Op Unit := check b .illegalInstruction (scalarWord i)

/-! ### Elements -/

/-- The elements of a group at a width code for `L` lanes (R44). -/
def groupElems (L w : Nat) : Nat := L * 8 / 2 ^ w

/-- The bit of a vector register at which element `i` stands (R45). -/
def elemPos (L w i : Nat) : Nat :=
  let E := groupElems L w
  let k := i % E
  (i / E * L + k % L) * 64 + k / L * widthBits w

/-- Element `i` of a vector register at a width code (R45). -/
def elemOf (L w : Nat) (v : VReg) (i : Nat) : Nat := v.toNat >>> elemPos L w i % 2 ^ widthBits w

/-- A vector register with element `i` replaced (R45). -/
def setElem (L w : Nat) (v : VReg) (i x : Nat) : VReg :=
  setFld v (elemPos L w i) (BitVec.ofNat (widthBits w) x)

/-- The lane words of a register by index: word `g * L + l` is lane `l` of group `g` (R45, R268). -/
def laneWord (v : VReg) (k : Nat) : Word := fld v (64 * k) 64

/-- A vector register with a lane word replaced. -/
def setLaneWord (v : VReg) (k : Nat) (w : Word) : VReg := setFld v (64 * k) w

/-- A vector register of a hart. -/
def Hart.getV (H : Hart) (r : Nat) : VReg := H.v[r]?.getD 0

/-- A hart with a vector register replaced. -/
def Hart.setV (H : Hart) (r : Nat) (v : VReg) : Hart := { H with v := H.v.setIfInBounds r v }

/-- A mask register of a hart; m1 to m7 stand at 0 to 6. The predicate field 0 names no mask and every
element is active (R38). -/
def Hart.getM (H : Hart) (r : Nat) : MReg := if r = 0 then BitVec.allOnes 8192 else H.m[r - 1]?.getD 0

/-- A hart with a mask register replaced. -/
def Hart.setM (H : Hart) (r : Nat) (v : MReg) : Hart :=
  if r = 0 then H else { H with m := H.m.setIfInBounds (r - 1) v }

/-- Element `i` of vector register `r` of a hart at a width code. -/
def Hart.elem (H : Hart) (r w i : Nat) : Nat := elemOf H.lanes w (H.getV r) i

/-- A hart with element `i` of vector register `r` replaced. -/
def Hart.putElem (H : Hart) (r w i x : Nat) : Hart := H.setV r (setElem H.lanes w (H.getV r) i x)

/-- Bit `i` of mask register `r`. -/
def Hart.bit (H : Hart) (r i : Nat) : Bool := (H.getM r).getLsbD i

/-- A hart with bit `i` of mask register `r` replaced. -/
def Hart.putBit (H : Hart) (r i : Nat) (b : Bool) : Hart := H.setM r (setBit (H.getM r) i b)

end Sys2Proof.Machine
end

