-- ==== Sys2Proof/Machine/LoadStore.lean ====
section
/-!
DEFINITION. Scalar loads, stores, atomics and the acquire, release and fence forms (R204 to R207, R222,
R223).
-/

namespace Sys2Proof.Machine

/-! ### Loads and stores -/

/-- A value of `size` bytes boxed in an `f` register (R219). -/
def boxed (size v : Nat) : Word :=
  setFld (BitVec.allOnes 64) 0 (BitVec.ofNat (8 * size) v)

/-- A load into an integer register (R204). -/
def loadX (size : Nat) (ext : Nat → Word) (d a : Reg) (i : BitVec 12) (s : State) :
    Host.Outcome State Fault Refusal :=
  runOp (do let v ← loadScalar (s.ea a i) size; retireX d (ext v)) s

/-- A load into a floating-point register (R204, R219). -/
def loadF (size : Nat) (d a : Reg) (i : BitVec 12) (s : State) : Host.Outcome State Fault Refusal :=
  runOp (do
    let v ← loadScalar (s.ea a i) size
    modify (fun s => (s.setF d (boxed size v)).advance)) s

/-- A store of the low bytes of a word (R204). -/
def storeW (size : Nat) (v : Word) (a : Reg) (i : BitVec 12) (s : State) :
    Host.Outcome State Fault Refusal :=
  runOp (do storeScalar (s.ea a i) size v.toNat; retire) s

def execLdI8 (d a : Reg) (i : BitVec 12) (s : State) : Host.Outcome State Fault Refusal :=
  loadX 1 (sextNat 8) d a i s
def execLdI16 (d a : Reg) (i : BitVec 12) (s : State) : Host.Outcome State Fault Refusal :=
  loadX 2 (sextNat 16) d a i s
def execLdI32 (d a : Reg) (i : BitVec 12) (s : State) : Host.Outcome State Fault Refusal :=
  loadX 4 (sextNat 32) d a i s
def execLdI64 (d a : Reg) (i : BitVec 12) (s : State) : Host.Outcome State Fault Refusal :=
  loadX 8 (zextNat 64) d a i s
def execLdN8 (d a : Reg) (i : BitVec 12) (s : State) : Host.Outcome State Fault Refusal :=
  loadX 1 (zextNat 8) d a i s
def execLdN16 (d a : Reg) (i : BitVec 12) (s : State) : Host.Outcome State Fault Refusal :=
  loadX 2 (zextNat 16) d a i s
def execLdN32 (d a : Reg) (i : BitVec 12) (s : State) : Host.Outcome State Fault Refusal :=
  loadX 4 (zextNat 32) d a i s
def execLdF16 (d a : Reg) (i : BitVec 12) (s : State) : Host.Outcome State Fault Refusal :=
  loadF 2 d a i s
def execLdF32 (d a : Reg) (i : BitVec 12) (s : State) : Host.Outcome State Fault Refusal :=
  loadF 4 d a i s
def execLdF64 (d a : Reg) (i : BitVec 12) (s : State) : Host.Outcome State Fault Refusal :=
  loadF 8 d a i s
def execStI8 (r a : Reg) (i : BitVec 12) (s : State) : Host.Outcome State Fault Refusal :=
  storeW 1 (s.getX r) a i s
def execStI16 (r a : Reg) (i : BitVec 12) (s : State) : Host.Outcome State Fault Refusal :=
  storeW 2 (s.getX r) a i s
def execStI32 (r a : Reg) (i : BitVec 12) (s : State) : Host.Outcome State Fault Refusal :=
  storeW 4 (s.getX r) a i s
def execStI64 (r a : Reg) (i : BitVec 12) (s : State) : Host.Outcome State Fault Refusal :=
  storeW 8 (s.getX r) a i s
def execStF16 (r a : Reg) (i : BitVec 12) (s : State) : Host.Outcome State Fault Refusal :=
  storeW 2 (s.getF r) a i s
def execStF32 (r a : Reg) (i : BitVec 12) (s : State) : Host.Outcome State Fault Refusal :=
  storeW 4 (s.getF r) a i s
def execStF64 (r a : Reg) (i : BitVec 12) (s : State) : Host.Outcome State Fault Refusal :=
  storeW 8 (s.getF r) a i s

/-! ### Atomics -/

/-- The bytes of an atomic (R206). -/
def amoSize (z : BitVec 1) : Nat := if z = 1 then 8 else 4

/-- A scope code where a bit asks for an ordering (R206). -/
def scopeIf (b : BitVec 1) (p : BitVec 3) : Option Nat := if b = 1 then some p.toNat else none

/-- An atomic (R206, R342): the new value from the size in bits, the old value and the operand; `q` acquires and `l`
releases at scope `p`. -/
def amo (f : Nat → Nat → Nat → Nat) (d a b : Reg) (q l z : BitVec 1) (p : BitVec 3) (s : State) :
    Host.Outcome State Fault Refusal :=
  runOp (do
    let n := amoSize z
    let o ← atomicScalar (s.getX a) n (fun o => f (8 * n) o ((s.getX b).toNat % 2 ^ (8 * n)))
      (scopeIf q p) (scopeIf l p)
    retireX d (sextNat (8 * n) o)) s

/-- The signed smaller and larger of two `n`-bit numbers (R206). -/
def minSigned (n o b : Nat) : Nat := if signedNat n b < signedNat n o then b else o
def maxSigned (n o b : Nat) : Nat := if signedNat n o < signedNat n b then b else o

def execAmoswap (d a b : Reg) (q l z : BitVec 1) (p : BitVec 3) (s : State) :
    Host.Outcome State Fault Refusal := amo (fun _ _ x => x) d a b q l z p s
def execAmoadd (d a b : Reg) (q l z : BitVec 1) (p : BitVec 3) (s : State) :
    Host.Outcome State Fault Refusal := amo (fun n o x => (o + x) % 2 ^ n) d a b q l z p s
def execAmoand (d a b : Reg) (q l z : BitVec 1) (p : BitVec 3) (s : State) :
    Host.Outcome State Fault Refusal := amo (fun _ o x => o &&& x) d a b q l z p s
def execAmoor (d a b : Reg) (q l z : BitVec 1) (p : BitVec 3) (s : State) :
    Host.Outcome State Fault Refusal := amo (fun _ o x => o ||| x) d a b q l z p s
def execAmoxor (d a b : Reg) (q l z : BitVec 1) (p : BitVec 3) (s : State) :
    Host.Outcome State Fault Refusal := amo (fun _ o x => o ^^^ x) d a b q l z p s
def execAmomin (d a b : Reg) (q l z : BitVec 1) (p : BitVec 3) (s : State) :
    Host.Outcome State Fault Refusal := amo minSigned d a b q l z p s
def execAmomax (d a b : Reg) (q l z : BitVec 1) (p : BitVec 3) (s : State) :
    Host.Outcome State Fault Refusal := amo maxSigned d a b q l z p s
def execAmominu (d a b : Reg) (q l z : BitVec 1) (p : BitVec 3) (s : State) :
    Host.Outcome State Fault Refusal := amo (fun _ o x => Nat.min o x) d a b q l z p s
def execAmomaxu (d a b : Reg) (q l z : BitVec 1) (p : BitVec 3) (s : State) :
    Host.Outcome State Fault Refusal := amo (fun _ o x => Nat.max o x) d a b q l z p s
/-- AMOCAS (R206): memory is written even when the comparison fails. -/
def execAmocas (d a b : Reg) (q l z : BitVec 1) (p : BitVec 3) (s : State) :
    Host.Outcome State Fault Refusal :=
  amo (fun n o x => if o = (s.getX d).toNat % 2 ^ n then x else o) d a b q l z p s

/-! ### Acquire, release and fences -/

/-- FENCE (R223): the hart's stores are performed at the scope, and no later load has been performed before it. -/
def execFence (p : BitVec 3) (s : State) : Host.Outcome State Fault Refusal :=
  .next ((s.raise (fun d => d.hart == s.cur) p.toNat).forget s.cur false).advance
/-- FENCE_SV (R223): the hart's scalar stores are performed at the scope, and no vector load of a later convoy has been
performed before it. -/
def execFenceSv (p : BitVec 3) (s : State) : Host.Outcome State Fault Refusal :=
  .next ((s.raise (fun d => d.hart == s.cur && d.scalar) p.toNat).forgetWhere
    (fun e => e.hart == s.cur && !e.scalar)).advance
/-- FENCE_VS (R223): the stores of the hart's earlier convoys are performed at the scope, and no later scalar load has
been performed before it. -/
def execFenceVs (p : BitVec 3) (s : State) : Host.Outcome State Fault Refusal :=
  .next ((s.raise (fun d => d.hart == s.cur && !d.scalar) p.toNat).forget s.cur true).advance
/-- The lines that a tile's instruction cache holds are dropped (R223). -/
def State.dropCode (s : State) (t : Fin 224) : State :=
  if (s.tile t).icache.isEmpty then s else s.updTile t (fun T => { T with icache := [] })

/-- FENCE_I (R223): the hart's own stores are performed at the scope, and its later fetches read what is visible there. -/
def execFenceI (p : BitVec 3) (s : State) : Host.Outcome State Fault Refusal :=
  .next ((s.raise (fun d => d.hart == s.cur) p.toNat).dropCode (tileOf s.cur)).advance
/-- LDA (R222, R223): an acquire at the scope. -/
def execLda (d a : Reg) (z : BitVec 1) (n : BitVec 2) (p : BitVec 3) (s : State) :
    Host.Outcome State Fault Refusal :=
  let size := 2 ^ n.toNat
  runOp (do
    let v ← loadScalar (s.getX a) size (acq := some p.toNat)
    retireX d (if z = 1 then zextNat (8 * size) v else sextNat (8 * size) v)) s
/-- STL (R222, R223): a release at the scope. -/
def execStl (a b : Reg) (n : BitVec 2) (p : BitVec 3) (s : State) :
    Host.Outcome State Fault Refusal :=
  runOp (do
    let size := 2 ^ n.toNat
    storeScalar (s.getX a) size (s.getX b).toNat (some p.toNat)
    retire) s

end Sys2Proof.Machine
end

