-- ==== Sys2Proof/Machine/Banks.lean ====
section
/-!
DEFINITION. Bank roles, full/empty bits and rings: major 0x11 (R153 to R165).
-/

namespace Sys2Proof.Machine

/-! ### Bank roles -/

/-- The role codes (R153). -/
def Role.code : Role → Nat
  | .cache => 0
  | .spad => 1
  | .fifo => 2

/-- The bytes of a range of cells read as unlisted, and the full/empty bits of its words as empty (R156). -/
def State.clearRange (s : State) (a n : Nat) : State :=
  { s with
    mem := s.mem.filter (fun c => decide (c.1 < a ∨ a + n ≤ c.1))
    full := s.full.filter (fun w => decide (w < a / 8 ∨ (a + n) / 8 ≤ w)) }

/-- A hart blocked in `ldf` or `stf.wait` on a word of a bank of cells from `a` is released with the trap
"bank role" (R156, R162). -/
def Hart.feRelease (H : Hart) (a : Nat) : Hart :=
  match H.run, H.wait with
  | .waiting, .fe w _ _ va =>
    if a ≤ 8 * w ∧ 8 * w < a + 0x10000 then H.enterTrap false Cause.bankRole.code va H.pc else H
  | _, _ => H

/-- A bank of a tile changes role (R156). Stores accepted at a scratchpad bank complete before its contents
are discarded, and harts blocked on its words are released. -/
def State.changeRole (s : State) (t : Fin 224) (b : Nat) (r : Role) : State :=
  match (s.tile t).banks[b]? with
  | none => s
  | some k =>
    if k.role = r then s
    else
      let a := spadAddr t.val b 0
      let s := if k.role = .spad then
          { s with
              harts := s.harts.map (fun H => H.feRelease a)
              delayed := s.delayed.filter (fun d => decide (d.pa < a ∨ a + 0x10000 ≤ d.pa))
              early := s.early.filter (fun e => decide (e.cell < a ∨ a + 0x10000 ≤ e.cell)) }
        else s
      let s := if k.role = .spad ∨ r = .spad then s.clearRange a 0x10000 else s
      s.updBank t b (fun _ => ⟨r, false, false⟩)

/-- `bank.cfg` (R159): the result code and the tile's banks after it. -/
def bankCfg (r : Role) (d a : Reg) (s : State) : Host.Outcome State Fault Refusal :=
  let m := s.getX a
  let t := tileOf s.cur
  if !s.me.sup && (m &&& ~~~s.me.banks) != 0 then .next (s.trap .bankGrant m)
  else
    let T := s.tile t
    let named := bitsOf m
    let busy := named.any (fun b => match T.banks[b]? with
      | some k => k.role == .fifo && k.claimed
      | none => false)
    let left := ((List.range 64).filter (fun b =>
      if m.getLsbD b then r == .cache else match T.banks[b]? with
        | some k => k.role == .cache
        | none => false)).length
    if m = 0 then .next ((s.setX d 0).advance)
    else if busy then .next ((s.setX d 2).advance)
    else if left < 2 then .next ((s.setX d 1).advance)
    else .next (((named.foldl (fun s b => s.changeRole t b r) s).setX d 0).advance)

/-- BANK_CFG_CACHE (R159). -/
def execBankCfgCache (d a : Reg) (s : State) : Host.Outcome State Fault Refusal := bankCfg .cache d a s
/-- BANK_CFG_SPAD (R159). -/
def execBankCfgSpad (d a : Reg) (s : State) : Host.Outcome State Fault Refusal := bankCfg .spad d a s
/-- BANK_CFG_FIFO (R159). -/
def execBankCfgFifo (d a : Reg) (s : State) : Host.Outcome State Fault Refusal := bankCfg .fifo d a s

/-- BANK_STAT (R160). -/
def execBankStat (d a : Reg) (s : State) : Host.Outcome State Fault Refusal :=
  let b := (fld (s.getX a) 0 6).toNat
  let k := ((s.tile (tileOf s.cur)).banks[b]?).getD ⟨.cache, false, false⟩
  let w := BitVec.ofNat 64 (k.role.code + (if s.me.banks.getLsbD b then 4 else 0)
    + (if k.role = .fifo ∧ k.claimed = true then 8 else 0))
  .next ((s.setX d w).advance)

/-! ### Full/empty bits -/

/-- The physical words of `n` words from a virtual address up, all in scratchpad banks of the tile of the
first (R161). -/
def feWords (tile : Option Nat) (va : Word) : Nat → Op (List Nat)
  | 0 => return []
  | n + 1 => do
    let (l, _) ← feWord .write va
    let t := tile.getD (spadTile l.pa)
    check (spadTile l.pa == t) .bankRole va
    let rest ← feWords (some t) (va + 8) n
    return l.pa :: rest

/-- `fe.init` (R161). -/
def feInit (i : Instr) (full : Bool) (a b : Reg) (s : State) : Host.Outcome State Fault Refusal :=
  runOp (do
    legal (fld (s.getX b) 32 32 == 0) i
    check (decide ((s.getX a).toNat % 8 = 0)) .misaligned (s.getX a)
    let ws ← feWords none (s.getX a) (fld (s.getX b) 0 32).toNat
    modify (fun s => ws.foldl (fun s pa => s.setFull pa full) s)
    retire) s

/-- FE_INIT_EMPTY (R161). -/
def execFeInitEmpty (a b : Reg) (s : State) : Host.Outcome State Fault Refusal :=
  feInit (.feInitEmpty a b) false a b s
/-- FE_INIT_FULL (R161). -/
def execFeInitFull (a b : Reg) (s : State) : Host.Outcome State Fault Refusal :=
  feInit (.feInitFull a b) true a b s

/-- Another hart waits for the same state of the word, and asked before this one (R157). -/
def State.feBehind (s : State) (word : Nat) (full : Bool) : Bool :=
  let mine := match s.me.wait with
    | .fe w f k _ => if w = word ∧ f = full then some k else none
    | _ => none
  allHarts.any (fun h => h != s.cur && (s.hart h).run == .waiting &&
    (match (s.hart h).wait with
      | .fe w f k _ => w == word && f == full && (match mine with
        | some m => decide (k < m)
        | none => true)
      | _ => false))

/-- The hart waits for a word to be full or empty, keeping its place (R157, R162). -/
def feWait (word : Nat) (full : Bool) (va : Word) : Op Unit := do
  let s ← get
  match s.me.wait with
  | .fe w f k _ => if w = word ∧ f = full then waitOp (.fe w f k va)
                   else do set { s with fresh := s.fresh + 1 }; waitOp (.fe word full s.fresh va)
  | _ => do set { s with fresh := s.fresh + 1 }; waitOp (.fe word full s.fresh va)

/-- `ldf` (R162), an acquire at scope `p`. What either side of the hart has read of the word before is older (R347). -/
def ldfOp (clr : Bool) (d a : Reg) (p : BitVec 3) (s : State) : Host.Outcome State Fault Refusal :=
  runOp (do
    let va := s.getX a
    let (l, c) ← feWord .read va
    if !s.isFull l.pa || s.feBehind (l.pa / 8) true then feWait (l.pa / 8) true va
    else
      let v := BitVec.ofNat 64 (natOf (s.read (.side s.cur true) c l.key 8))
      let s := ((s.forgetAt s.cur true c 8).forgetAt s.cur false c 8).acquire s.cur true p.toNat c 8
      set (((if clr then s.setFull l.pa false else s).setX d v).advance)) s

/-- LDF (R162). -/
def execLdf (d a : Reg) (p : BitVec 3) (s : State) : Host.Outcome State Fault Refusal := ldfOp false d a p s
/-- LDF_CLR (R162). -/
def execLdfClr (d a : Reg) (p : BitVec 3) (s : State) : Host.Outcome State Fault Refusal := ldfOp true d a p s

/-- `stf` (R162), a release at scope `p`. The word and its bit are written at once. -/
def stfOp (wait : Bool) (a b : Reg) (p : BitVec 3) (s : State) : Host.Outcome State Fault Refusal :=
  runOp (do
    let va := s.getX a
    let (l, c) ← feWord .write va
    if wait && (s.isFull l.pa || s.feBehind (l.pa / 8) false) then feWait (l.pa / 8) false va
    else
      let s := ((s.release s.cur true p.toNat).forgetAt s.cur true c 8).write (.side s.cur true) c l.key
        (bytesOf 8 (s.getX b).toNat)
      set (((s.noteRelease (.hart s.cur) p.toNat c 8).setFull l.pa true).advance)) s

/-- STF (R162). -/
def execStf (a b : Reg) (p : BitVec 3) (s : State) : Host.Outcome State Fault Refusal := stfOp false a b p s
/-- STF_WAIT (R162). -/
def execStfWait (a b : Reg) (p : BitVec 3) (s : State) : Host.Outcome State Fault Refusal :=
  stfOp true a b p s

/-! ### Rings -/

/-- A ring of a hart. -/
def Hart.ring (H : Hart) (q : BitVec 3) : Ring := H.rings[q.toNat]'q.isLt

/-- A hart with a ring replaced. -/
def Hart.setRing (H : Hart) (q : BitVec 3) (r : Ring) : Hart :=
  { H with rings := H.rings.set q.toNat r q.isLt }

/-- The occupancy of a ring (R164). -/
def Ring.occ (r : Ring) : Nat := (r.tail - r.head).toNat

/-- The shape operand of `ring.cfg` is legal (R163). -/
def ringShapeOk (base shape : Word) : Bool :=
  let e := (fld shape 0 16).toNat
  let n := (fld shape 16 16).toNat
  base.toNat % 64 == 0 && e % 64 == 0 && decide (64 ≤ e ∧ e ≤ 32768) && decide (2 ≤ n ∧ n ≤ 4096)
    && fld shape 32 32 == 0

/-- The leaves of the pages from a virtual address up to its end, as for a load (R163). -/
def ringPages (va stop : Nat) : Nat → Op (List Leaf)
  | 0 => return []
  | n + 1 => do
    if stop ≤ va then return []
    else
      let s ← get
      match s.translate s.cur s.me.sup .read (va % 2 ^ 64) with
      | .error (.fault c) => do
        modify (fun s => s.endFailed s.cur (va % 2 ^ 64))
        trapOp c (BitVec.ofNat 64 va)
      | .error (.askHost p) => do
        let _ ← askHost p
        return []
      | .ok l =>
        check (!s.keyInvalid l.key) .access (BitVec.ofNat 64 va)
        let rest ← ringPages ((va / 4096 + 1) * 4096) stop n
        return l :: rest

/-- A physical page piece lies in a scratchpad bank of a tile (R163). -/
def State.inSpadOf (s : State) (t : Fin 224) (pa : Nat) : Bool :=
  regionOf pa == .spad && spadTile pa == t.val && s.roleAt pa == .spad

/-- `ring.cfg` on a hart's ring (R163). -/
def ringConfigure (q : BitVec 3) (base shape : Word) : Op Unit := do
  check (ringShapeOk base shape) .ringConfig shape
  let e := (fld shape 0 16).toNat
  let n := (fld shape 16 16).toNat
  let ls ← ringPages base.toNat (base.toNat + e * n) (e * n / 4096 + 2)
  let s ← get
  check (ls.all (fun l => s.inSpadOf (tileOf s.cur) l.pa)) .ringConfig shape
  updMe (fun H => H.setRing q ⟨true, base, e, n, 0, 0⟩)

/-- RING_CFG (R163). -/
def execRingCfg (q : BitVec 3) (a b : Reg) (s : State) : Host.Outcome State Fault Refusal :=
  runOp (do ringConfigure q (s.getX a) (s.getX b); retire) s

/-- RING_ADV_TAIL (R164): a release of the hart's earlier writes, scalar and vector. -/
def execRingAdvTail (q : BitVec 3) (a : Reg) (p : BitVec 3) (s : State) :
    Host.Outcome State Fault Refusal :=
  runOp (do
    let r := s.me.ring q
    let n := (s.getX a).toNat
    check r.on .ringConfig 0
    check (decide (n ≤ r.entries)) .ringConfig (s.getX a)
    if r.entries < r.occ + n then waitOp (.ring q.toNat false)
    if n ≠ 0 then
      modify (fun s => ((s.release s.cur false p.toNat).forgetWhere (fun e => e.hart == s.cur && !e.scalar)).updMe (fun H =>
        H.setRing q { r with tail := r.tail + BitVec.ofNat 32 n }))
    retire) s

/-- RING_ADV_HEAD (R164). -/
def execRingAdvHead (q : BitVec 3) (a : Reg) (_p : BitVec 3) (s : State) :
    Host.Outcome State Fault Refusal :=
  runOp (do
    let r := s.me.ring q
    let n := (s.getX a).toNat
    check r.on .ringConfig 0
    check (decide (n ≤ r.occ)) .ringUnderflow (s.getX a)
    updMe (fun H => H.setRing q { r with head := r.head + BitVec.ofNat 32 n })
    retire) s

/-- The word of `ring.stat` (R165). -/
def Ring.stat (r : Ring) : Word := setFld (r.head.setWidth 64 <<< 32) 0 (BitVec.ofNat 16 r.occ)

/-- RING_STAT (R165). -/
def execRingStat (d : Reg) (q : BitVec 3) (s : State) : Host.Outcome State Fault Refusal :=
  let r := s.me.ring q
  if r.on then .next ((s.setX d r.stat).advance) else .next (s.trap .ringConfig 0)

/-- RING_STAT_WAIT (R165). -/
def execRingStatWait (d : Reg) (q : BitVec 3) (b : Reg) (s : State) : Host.Outcome State Fault Refusal :=
  let r := s.me.ring q
  if !r.on then .next (s.trap .ringConfig 0)
  else if r.entries < (s.getX b).toNat then .next (s.trap .ringConfig (s.getX b))
  else if r.occ < (s.getX b).toNat then .next (s.waitIn (.ring q.toNat false))
  else .next ((s.setX d r.stat).advance)

end Sys2Proof.Machine
end

