-- ==== Sys2Proof/Machine/Log.lean ====
section
/-!
DEFINITION. The event log of the Watershed (R464).
-/

namespace Sys2Proof.Machine

/-- The records that the log holds (R464). -/
def logSize : Nat := 4096

/-- A record appended to the log (R464): the oldest is overwritten when it is full. The timestamp counts a
clock of its own (R463), which the manual ties to nothing: a free value (log 10). -/
def State.logEvent (s : State) (source : Nat) (claimed : Bool) (detail : List Byte) : State :=
  let m := s.mgmt
  let r : LogRec := ⟨m.logSeq, source, claimed, (Config.freeWord s.fresh).toNat, detail, false⟩
  let full := decide (logSize ≤ m.log.length)
  { s with
    fresh := s.fresh + 1
    mgmt := { m with
      log := (if full then m.log.tail else m.log) ++ [r]
      logSeq := m.logSeq + 1
      logLost := if full then m.logLost + 1 else m.logLost } }

/-- A record of an event whose source number the manual does not give (log 10). -/
def State.logOwn (s : State) (detail : List Byte) : State :=
  let src := (Config.freeWord s.fresh).toNat % 65536
  { s with fresh := s.fresh + 1 }.logEvent src false detail

/-- The detail of an event where the manual lays none out (log 10). -/
def freeDetail (n : Nat) : List Byte := (List.range 5).flatMap (fun k => bytesOf 8 (Config.freeWord (n + k)).toNat)

/-- A step or an error recorded in the event log, with a detail that the manual leaves open (R111, R434, R462). -/
def State.noteStep (s : State) : State := ({ s with fresh := s.fresh + 5 } : State).logOwn (freeDetail s.fresh)

end Sys2Proof.Machine
end

