-- ==== Sys2Proof/Machine/Num.lean ====
section
/-!
DEFINITION. Numbers: the floating formats (R72, R77, R78), exact values, rounding and overflow (R84, R86,
R88, R90), the exact operations with their flags (R79, R87, R91), and conversions (R89).
-/

namespace Sys2Proof.Machine

/-! ### Formats -/

/-- What a format has beside its finite values (R78). -/
inductive Special where
  | ieee | nanOnly | finite
  deriving DecidableEq, Repr

/-- A floating format (R77): exponent bits, fraction bits, bias, and special encodings. -/
structure FFmt where
  e : Nat
  m : Nat
  bias : Nat
  sp : Special
  deriving DecidableEq, Repr

def fmtF64 : FFmt := ⟨11, 52, 1023, .ieee⟩
def fmtF32 : FFmt := ⟨8, 23, 127, .ieee⟩
def fmtF16 : FFmt := ⟨5, 10, 15, .ieee⟩
def fmtBf16 : FFmt := ⟨8, 7, 127, .ieee⟩
def fmtE4m3 : FFmt := ⟨4, 3, 7, .nanOnly⟩
def fmtE5m2 : FFmt := ⟨5, 2, 15, .ieee⟩
def fmtE2m3 : FFmt := ⟨2, 3, 1, .finite⟩
def fmtE3m2 : FFmt := ⟨3, 2, 3, .finite⟩
def fmtE2m1 : FFmt := ⟨2, 1, 1, .finite⟩

/-- The floating format of a format code, with the element formats of the MX codes (R72). -/
def fmtOfCode (c : Nat) : FFmt :=
  match c with
  | 0x02 => fmtF64
  | 0x03 => fmtF32
  | 0x04 => fmtF16
  | 0x05 => fmtBf16
  | 0x06 | 0x08 => fmtE4m3
  | 0x07 | 0x09 => fmtE5m2
  | 0x0A => fmtE2m3
  | 0x0B => fmtE3m2
  | _ => fmtE2m1

/-- The bits of a format. -/
def FFmt.bits (f : FFmt) : Nat := 1 + f.e + f.m

/-- The magnitude bits of the largest finite value (R77, R78). -/
def FFmt.maxMag (f : FFmt) : Nat :=
  match f.sp with
  | .ieee => (2 ^ f.e - 1) * 2 ^ f.m - 1
  | .nanOnly => 2 ^ (f.e + f.m) - 2
  | .finite => 2 ^ (f.e + f.m) - 1

/-- The exponent of the smallest subnormal (R77). -/
def FFmt.minExp (f : FFmt) : Int := 1 - (f.bias : Int) - f.m

/-- The canonical NaN (R78); a format without one gives +0 (R88). -/
def FFmt.nan (f : FFmt) : Nat :=
  match f.sp with
  | .ieee => (2 ^ f.e - 1) * 2 ^ f.m + 2 ^ (f.m - 1)
  | .nanOnly => 2 ^ (f.e + f.m) - 1
  | .finite => 0

/-- The bits of an infinity of a format that has one. -/
def FFmt.inf (f : FFmt) (neg : Bool) : Nat :=
  (if neg then 2 ^ (f.e + f.m) else 0) + (2 ^ f.e - 1) * 2 ^ f.m

/-- Magnitude bits with a sign. -/
def FFmt.signed (f : FFmt) (neg : Bool) (mag : Nat) : Nat := (if neg then 2 ^ (f.e + f.m) else 0) + mag

/-- FTZ acts on this format (R90). -/
def FFmt.flushes (f : FFmt) : Bool := f == fmtF64 || f == fmtF32 || f == fmtF16 || f == fmtBf16

/-- A value: a NaN, an infinity, or `(-1)^neg × mant × 2^exp`. -/
inductive FVal where
  | nan (sig : Bool)
  | inf (neg : Bool)
  | num (neg : Bool) (mant : Nat) (exp : Int)
  deriving DecidableEq, Repr

/-- The value of an encoding (R77, R78); under `ftz` a subnormal reads as zero (R90). -/
def FFmt.decode (f : FFmt) (ftz : Bool) (b : Nat) : FVal :=
  let neg := b.testBit (f.e + f.m)
  let E := b / 2 ^ f.m % 2 ^ f.e
  let F := b % 2 ^ f.m
  let top := 2 ^ f.e - 1
  if f.sp = .ieee ∧ E = top then
    if F = 0 then .inf neg else .nan (!F.testBit (f.m - 1))
  else if f.sp = .nanOnly ∧ E = top ∧ F = 2 ^ f.m - 1 then .nan false
  else if E = 0 then .num neg (if ftz && f.flushes then 0 else F) f.minExp
  else .num neg (2 ^ f.m + F) (f.minExp + (E - 1 : Nat))

def FVal.isNan : FVal → Bool
  | .nan _ => true
  | _ => false

/-- NV for a signalling NaN input (R79). -/
def FVal.sig : FVal → Flags
  | .nan true => flNV
  | _ => 0

def FVal.neg : FVal → FVal
  | .nan q => .nan q
  | .inf n => .inf (!n)
  | .num n m e => .num (!n) m e

def FVal.isZero : FVal → Bool
  | .num _ 0 _ => true
  | _ => false

/-- A value times a power of two. -/
def FVal.scale : FVal → Int → FVal
  | .num n m e, k => .num n m (e + k)
  | v, _ => v

/-- The exact value of an integer. -/
def FVal.ofInt (i : Int) : FVal := .num (decide (i < 0)) i.natAbs 0

/-! ### Rounding -/

/-- How a result is rounded: by a mode (R84), or by the random value of R86. -/
inductive Rounding where
  | mode (m : RMode)
  | stoch (r : Nat)
  deriving DecidableEq, Repr

/-- Whether a magnitude between `n` and `n + 1` quanta, `rem / 2^sh` above `n`, goes to `n + 1` (R84,
R86). -/
def Rounding.up (r : Rounding) (neg : Bool) (n rem sh : Nat) : Bool :=
  if rem = 0 then false
  else match r with
    | .mode .rne => decide (2 ^ sh < 2 * rem) || (decide (2 * rem = 2 ^ sh) && n % 2 == 1)
    | .mode .rtz => false
    | .mode .rdn => neg
    | .mode .rup => !neg
    | .mode .rmm => decide (2 ^ sh ≤ 2 * rem)
    | .stoch v =>
      if neg then !decide (v < 2 ^ 24 * (2 ^ sh - rem) / 2 ^ sh)
      else decide (v < 2 ^ 24 * rem / 2 ^ sh)

/-- A magnitude `mant × 2^exp` in quanta of `2^q`, rounded, and whether it is inexact. -/
def roundQuanta (r : Rounding) (neg : Bool) (mant : Nat) (exp q : Int) : Nat × Bool :=
  if q ≤ exp then (mant * 2 ^ (exp - q).toNat, false)
  else
    let sh := (q - exp).toNat
    let n := mant / 2 ^ sh
    let rem := mant % 2 ^ sh
    (if r.up neg n rem sh then n + 1 else n, rem != 0)

/-- The magnitude bits of `mant × 2^exp` rounded to a format with no upper limit, whether inexact, and
whether tiny: below the smallest normal after rounding with unbounded exponent (R84, R87). -/
def FFmt.roundMag (f : FFmt) (r : Rounding) (neg : Bool) (mant : Nat) (exp : Int) : Nat × Bool × Bool :=
  let qu := exp + Nat.log2 mant - f.m
  let q := max qu f.minExp
  let (n, inexact) := roundQuanta r neg mant exp q
  let (u, _) := roundQuanta r neg mant exp qu
  let tiny := decide (qu < f.minExp) && !(decide (qu + 1 = f.minExp) && u == 2 ^ (f.m + 1))
  (n + (q - f.minExp).toNat * 2 ^ f.m, inexact, tiny)

/-- A magnitude beyond the largest finite rounds to infinity rather than to the largest finite (R88). -/
def RMode.toInf (m : RMode) (neg : Bool) : Bool :=
  match m with
  | .rne | .rmm => true
  | .rtz => false
  | .rdn => neg
  | .rup => !neg

/-- The mode that decides overflow: stochastic rounding overflows as RNE (R86). -/
def Rounding.base : Rounding → RMode
  | .mode m => m
  | .stoch _ => .rne

/-- A value rounded to a format (R84, R86, R88, R90): its bits and the flags. A signalling NaN is reported
by the operation that read it. -/
def FFmt.round (f : FFmt) (r : Rounding) (sat ftz : Bool) (v : FVal) : Nat × Flags :=
  match v with
  | .nan _ => (f.nan, if f.sp = .finite then flNV else 0)
  | .inf neg =>
    match f.sp with
    | .ieee => (f.inf neg, 0)
    | .nanOnly => if sat then (f.signed neg f.maxMag, flSAT ||| flNX) else (f.nan, flNV)
    | .finite => (f.signed neg f.maxMag, flSAT ||| flNX)
  | .num neg 0 _ => (f.signed neg 0, 0)
  | .num neg mant exp =>
    let r := match r with
      | .stoch _ => if f.maxMag < (f.roundMag (.mode .rtz) neg mant exp).1
            || ((f.roundMag (.mode .rtz) neg mant exp).1 == f.maxMag
                && (f.roundMag (.mode .rtz) neg mant exp).2.1) then .mode .rne else r
      | _ => r
    let (mag, inexact, tiny) := f.roundMag r neg mant exp
    if f.maxMag < mag then
      if sat || f.sp == .finite then (f.signed neg f.maxMag, flOF ||| flNX ||| flSAT)
      else if r.base.toInf neg then
        (if f.sp = .nanOnly then f.nan else f.inf neg, flOF ||| flNX)
      else (f.signed neg f.maxMag, flOF ||| flNX)
    else if ftz && f.flushes && decide (0 < mag ∧ mag < 2 ^ f.m) then (f.signed neg 0, flUF ||| flNX)
    else (f.signed neg mag, flIf inexact flNX ||| flIf (inexact && tiny) flUF)

/-! ### Exact operations -/

/-- The signed integer mantissa of a value at an exponent not above its own. -/
def mantAt (neg : Bool) (mant : Nat) (exp e : Int) : Int :=
  let m : Int := (mant * 2 ^ (exp - e).toNat : Nat)
  if neg then -m else m

/-- The exact sum; `rdn` decides the sign of an exact zero sum of operands of opposite signs (R84). -/
def FVal.add (rdn : Bool) (a b : FVal) : FVal × Flags :=
  match a, b with
  | .nan _, _ | _, .nan _ => (.nan false, a.sig ||| b.sig)
  | .inf x, .inf y => if x = y then (.inf x, 0) else (.nan false, flNV)
  | .inf x, _ => (.inf x, 0)
  | _, .inf y => (.inf y, 0)
  | .num na ma ea, .num nb mb eb =>
    let e := min ea eb
    let t := mantAt na ma ea e + mantAt nb mb eb e
    if t = 0 then (.num (if na = nb then na else rdn) 0 e, 0)
    else (.num (decide (t < 0)) t.natAbs e, 0)

/-- The exact product. -/
def FVal.mul (a b : FVal) : FVal × Flags :=
  match a, b with
  | .nan _, _ | _, .nan _ => (.nan false, a.sig ||| b.sig)
  | .inf x, .inf y => (.inf (x != y), 0)
  | .inf x, .num n m _ => if m = 0 then (.nan false, flNV) else (.inf (x != n), 0)
  | .num n m _, .inf y => if m = 0 then (.nan false, flNV) else (.inf (n != y), 0)
  | .num na ma ea, .num nb mb eb => (.num (na != nb) (ma * mb) (ea + eb), 0)

/-- The exact `a × b + c`; 0 × ∞ sets NV even when `c` is a quiet NaN (R221). -/
def FVal.fma (rdn : Bool) (a b c : FVal) : FVal × Flags :=
  let (p, fp) := a.mul b
  match p with
  | .nan _ => (.nan false, fp ||| c.sig)
  | p => let (t, ft) := p.add rdn c; (t, fp ||| ft)

/-- The quotient, with more bits than any format holds and a last bit that stands for the rest. -/
def FVal.div (a b : FVal) : FVal × Flags :=
  match a, b with
  | .nan _, _ | _, .nan _ => (.nan false, a.sig ||| b.sig)
  | .inf _, .inf _ => (.nan false, flNV)
  | .inf x, .num n _ _ => (.inf (x != n), 0)
  | .num n _ e, .inf y => (.num (n != y) 0 e, 0)
  | .num na ma ea, .num nb mb eb =>
    if mb = 0 then (if ma = 0 then (.nan false, flNV) else (.inf (na != nb), flDZ))
    else
      let sh := 130 + Nat.log2 mb
      let q := ma * 2 ^ sh / mb
      let rest := ma * 2 ^ sh % mb
      (.num (na != nb) (2 * q + (if rest = 0 then 0 else 1)) (ea - eb - sh - 1), 0)

/-- The integer square root of `n`, from bit `k - 1` of the root down. -/
def isqrt (n : Nat) : Nat → Nat → Nat
  | 0, r => r
  | k + 1, r => if (r + 2 ^ k) * (r + 2 ^ k) ≤ n then isqrt n k (r + 2 ^ k) else isqrt n k r

/-- The square root, with more bits than any format holds and a last bit that stands for the rest. -/
def FVal.sqrt (a : FVal) : FVal × Flags :=
  match a with
  | .nan _ => (.nan false, a.sig)
  | .inf neg => if neg then (.nan false, flNV) else (.inf false, 0)
  | .num neg m e =>
    if m = 0 then (.num neg 0 e, 0)
    else if neg then (.nan false, flNV)
    else
      let sh := 130 + e.emod 2
      let n := m * 2 ^ sh.toNat
      let r := isqrt n 128 0
      (.num false (2 * r + (if r * r = n then 0 else 1)) ((e - sh) / 2 - 1), 0)

/-- The order of two values that are not NaN; `none` when one is. -/
def FVal.cmp (a b : FVal) : Option Ordering :=
  match a, b with
  | .nan _, _ | _, .nan _ => none
  | .inf x, .inf y => some (if x = y then .eq else if x then .lt else .gt)
  | .inf x, _ => some (if x then .lt else .gt)
  | _, .inf y => some (if y then .gt else .lt)
  | .num na ma ea, .num nb mb eb =>
    let e := min ea eb
    some (compare (mantAt na ma ea e) (mantAt nb mb eb e))

/-- `a` is the smaller in the order of R91, where −0 is less than +0. -/
def FVal.less (a b : FVal) : Bool :=
  match a.cmp b with
  | some .lt => true
  | some .eq => match a, b with
    | .num na 0 _, .num nb 0 _ => na && !nb
    | _, _ => false
  | _ => false

/-- Minimum or maximum under R91 over encodings: the bits and the flags. Under FTZ a subnormal operand
counts as zero. -/
def FFmt.minmax (f : FFmt) (ftz isMax : Bool) (a b : Nat) : Nat × Flags :=
  let va := f.decode ftz a
  let vb := f.decode ftz b
  let flush (v : FVal) (x : Nat) : Nat := match v with
    | .num n 0 _ => f.signed n 0
    | _ => x
  let fl := va.sig ||| vb.sig
  match va, vb with
  | .nan _, .nan _ => (f.nan, fl)
  | .nan _, v => (flush v b, fl)
  | v, .nan _ => (flush v a, fl)
  | _, _ => if va.less vb != isMax then (flush va a, fl) else (flush vb b, fl)

/-- The class of an encoding, one bit set (R220 `fclass`). -/
def FFmt.classify (f : FFmt) (b : Nat) : Nat :=
  match f.decode false b with
  | .nan true => 2 ^ 8
  | .nan false => 2 ^ 9
  | .inf n => if n then 2 ^ 0 else 2 ^ 7
  | .num n m _ =>
    if m = 0 then (if n then 2 ^ 3 else 2 ^ 4)
    else if m < 2 ^ f.m then (if n then 2 ^ 2 else 2 ^ 5)
    else (if n then 2 ^ 1 else 2 ^ 6)

/-! ### Integers -/

/-- The bounds of an integer of `n` bits (R74). -/
def intMin (n : Nat) (signed : Bool) : Int := if signed then -(2 ^ (n - 1) : Nat) else 0
def intMax (n : Nat) (signed : Bool) : Int := if signed then (2 ^ (n - 1) : Nat) - 1 else (2 ^ n : Nat) - 1

/-- A value converted to an integer of `n` bits (R89): its bits and the flags. DESIGN CHOICE (log 30): under
stochastic rounding the value is drawn between its two neighbouring integers whatever the range, and the range
is tested after the draw, since R89 rounds first. -/
def FVal.toInt (v : FVal) (r : Rounding) (n : Nat) (signed sat : Bool) : Nat × Flags :=
  match v with
  | .nan _ => (0, flNV)
  | .inf neg =>
    (if sat then wrapInt n (if neg then intMin n signed else intMax n signed) else 0, flNV)
  | .num neg m e =>
    let (q, inexact) := roundQuanta r neg m e 0
    let i : Int := if neg then -(q : Int) else q
    if intMin n signed ≤ i ∧ i ≤ intMax n signed then (wrapInt n i, flIf inexact flNX)
    else (wrapInt n (if sat then (if i < intMin n signed then intMin n signed else intMax n signed) else i),
      flNV)

/-- An integer clamped to a range, with SAT (R74). -/
def clampInt (n : Nat) (signed : Bool) (i : Int) : Nat × Flags :=
  if i < intMin n signed then (wrapInt n (intMin n signed), flSAT)
  else if intMax n signed < i then (wrapInt n (intMax n signed), flSAT)
  else (wrapInt n i, 0)

/-! ### Random values and microscaling -/

/-- The 24 random bits of element `i` under a key (R86). -/
def stochastic (key : Word) (i : Nat) : Nat :=
  let z := key + BitVec.ofNat 64 (i + 1) * 0x9E3779B97F4A7C15
  let z := (z ^^^ (z >>> 30)) * 0xBF58476D1CE4E5B9
  let z := (z ^^^ (z >>> 27)) * 0x94D049BB133111EB
  let z := z ^^^ (z >>> 31)
  (z >>> 40).toNat

/-- The value of an e8m0 scale as a power of two; `none` is NaN (R80). -/
def scaleExp (x : Nat) : Option Int := if x = 0xFF then none else some ((x : Int) - 127)

/-- emax of an MX format code (R92). -/
def emaxOf (c : Nat) : Int :=
  match c with
  | 0x08 => 8
  | 0x09 => 15
  | 0x0A => 2
  | 0x0B => 4
  | 0x0C => 2
  | _ => 0

/-- The bits of a packed element of a format code (R72, R75). -/
def mxBits (c : Nat) : Nat :=
  match c with
  | 0x0A | 0x0B => 6
  | 0x0C | 0x10 => 4
  | 0x0E => 2
  | _ => 8

/-- The value of an MX element before its scale (R75, R77). -/
def mxValue (c b : Nat) : FVal :=
  if c = 0x0D then (FVal.ofInt (signedNat 8 b)).scale (-6) else (fmtOfCode c).decode false b

/-- The value of an MX element under a scale (R81). -/
def mxScaled (c x b : Nat) : FVal :=
  match scaleExp x with
  | none => .nan false
  | some k => (mxValue c b).scale k

/-- The exponent of the leading bit of a value; `none` for zero and specials. -/
def FVal.top : FVal → Option Int
  | .num _ m e => if m = 0 then none else some (e + Nat.log2 m)
  | _ => none

/-- The scale of a block of values under an MX format (R92, steps 1 to 3), and whether the block holds a
NaN or an infinity. -/
def mxScaleOf (c : Nat) (vs : List FVal) : Nat × Bool :=
  if vs.any (fun v => match v with | .num _ _ _ => false | _ => true) then (0xFF, true)
  else match (vs.filterMap FVal.top).foldl (fun a t => match a with
      | none => some t
      | some u => some (max u t)) (none : Option Int) with
    | none => (0x7F, false)
    | some t => (((max (-127) (min 127 (t - emaxOf c))) + 127).toNat, false)

/-- An integer converted to an integer of `n` bits (R89, R253): exact where it fits; clamped under SAT, with
SAT and, since the result differs (R87), NX; else its low bits, with no flag (log 30). -/
def intToInt (n : Nat) (signed sat : Bool) (i : Int) : Nat × Flags :=
  if sat then let (x, fl) := clampInt n signed i; (x, fl ||| flIf (fl != 0) flNX) else (wrapInt n i, 0)

/-- An element of a block under its scale (R92, step 4). An `mxi8` element drawn by R86 is clamped after the
draw (log 30). -/
def mxQuantise (c x : Nat) (r : Rounding) (v : FVal) : Nat × Flags :=
  match scaleExp x with
  | none => (0, 0)
  | some e =>
    if c = 0x0D then
      match v with
      | .num neg m ex =>
        let (q, inexact) := roundQuanta r neg m (ex - (e - 6)) 0
        let i : Int := if neg then -(q : Int) else q
        let (b, fl) := clampInt 8 true i
        (b, fl ||| flIf inexact flNX ||| flIf (fl != 0) flNX)
      | _ => (0, 0)
    else (fmtOfCode c).round r true false (v.scale (-e))

end Sys2Proof.Machine
end

