-- ==== Sys2Proof/Machine/Engine.lean ====
section
/-!
DEFINITION. What stream engines do between the instructions that name their streams: element transfers,
extents (R124 to R126, R131), strips (R172 to R177), faults (R185), copies and folds (R179 to R181), and
releases (R135, R184).
-/

namespace Sys2Proof.Machine

/-! ### Element transfers -/

/-- What a transfer of one element meets. -/
inductive Moved (α : Type) where
  | done (s : State) (a : α)
  | fault (c : Cause) (va : Nat)
  | blocked (s : State)

/-- A transfer that goes on where the step before it was done. -/
def Moved.andThen {α β : Type} (m : Moved α) (f : State → α → Moved β) : Moved β :=
  match m with
  | .done s a => f s a
  | .fault c va => .fault c va
  | .blocked s => .blocked s

/-- What stops an element stops its transfer; a host translation that it needs is asked for (R431). -/
def ElemStop.moved {α : Type} (s : State) (h : HartId) (e : ElemStop) : Moved α :=
  match e with
  | .fault c va => .fault c va
  | .ask p => .blocked (s.askFor (s.hart h).space p)

/-- Some lines are had for a transfer under a key, once the host does not stand in the way (R120): then `f` goes on. -/
def State.pastHost (s : State) (lines : List Nat) (key : Nat) (write : Bool) (f : State → State) : Moved Unit :=
  match s.hostLines lines key write with
  | [] => .done (f s) ()
  | held => .blocked (s.snoopAll held)

/-- The reservation check of the lines of `n` bytes that stream `k` of a hart reads or writes in line mode (R125, R129,
R134, R350). -/
def State.engineMeets (s : State) (h : HartId) (k : Nat) (l : Leaf) (n va : Nat) (write : Bool) : Moved Unit :=
  let lines := linesOf l.pa n
  if lines.any (fun x => s.peerWaits (x * 128)) then .blocked s
  else match s.meetInTurn (.engine h k) (.hart h) lines l.key write with
    | (s', .served) => s'.pastHost lines l.key write (fun s =>
        lines.foldl (fun s x => s.touchLine (tileOf h) (Nat.max l.pa (x * 128)) l.key write) s)
    | (_, .trap) => .fault .reservation va
    | (s', _) => .blocked s'

/-- Where an access of a stream's engine goes; a host translation that it needs is asked for (R431). -/
def State.engineReach (s : State) (h : HartId) (t : Stream) (kind : Kind) (va : Nat) : Moved Leaf :=
  match s.reach h t.sup kind va with
  | .to l _ => .done s l
  | .fault c => .fault c va
  | .askHost p => .blocked (s.askFor (s.hart h).space p)

/-- The line of the index of element `j` is checked, since its read is a plain one (R129, R170). -/
def State.indexMeets (s : State) (h : HartId) (t : Stream) (j : Nat) : Moved Unit :=
  if t.desc.idx = 0 then .done s ()
  else
    let va := t.desc.indexVa j
    (s.engineReach h t .read va).andThen (fun s l =>
      s.engineMeets h t.num l (if t.desc.idx = 1 then 4 else 8) va false)

/-- Element `j` is found, with its virtual address. -/
def State.findElem (s : State) (h : HartId) (t : Stream) (kind : Kind) (j : Nat) : Moved (Leaf × Nat) :=
  (s.indexMeets h t j).andThen (fun s _ =>
    match s.elemVa h t j with
    | .error e => e.moved s h
    | .ok va => (s.engineReach h t kind va).andThen (fun s l => .done s (l, va)))

/-- Element `j` is found. Where it moves in line mode its lines are checked (R125, R129); where its extent is registered, the
home has the value of its lines (R120, R343). Where the peer that homed it has gone down, it faults (R137). -/
def State.elemMeets (s : State) (h : HartId) (t : Stream) (kind : Kind) (j : Nat) : Moved Unit :=
  (s.findElem h t kind j).andThen (fun s e =>
    let lines := linesOf e.1.pa t.desc.esize
    let write := kind == .write
    if s.lostElem h t j then .fault .peerLost e.2
    else if s.inHeld h t j then s.pastHost lines e.1.key write (fun s => s.homeLines e.1.key write lines)
    else s.engineMeets h t.num e.1 t.desc.esize e.2 write)

/-- The engine reads element `j` (R173). -/
def State.fetchElem (s : State) (h : HartId) (t : Stream) (j : Nat) : Moved Nat :=
  (s.elemMeets h t .read j).andThen (fun s _ =>
    match s.readElem h t j with
    | .ok v => .done s v
    | .error e => e.moved s h)

/-- The engine writes element `j` home (R128). -/
def State.homeElem (s : State) (h : HartId) (t : Stream) (j v : Nat) : Moved Stream :=
  (s.elemMeets h t .write j).andThen (fun s _ =>
    match s.writeElem h t j v with
    | .ok (s', t') => .done s' t'
    | .error e => e.moved s h)

/-- Elements from `j` on read, at most `n`: the values, and the fault met. -/
def State.fetchRun (s : State) (h : HartId) (t : Stream) (j : Nat) :
    Nat → State × List Nat × Option (Cause × Nat)
  | 0 => (s, [], none)
  | n + 1 =>
    match s.fetchElem h t j with
    | .fault c va => (s, [], some (c, va))
    | .blocked s' => (s', [], none)
    | .done s' v =>
      let (s'', vs, e) := s'.fetchRun h t (j + 1) n
      (s'', v :: vs, e)

/-- Elements from `j` on written home: how many, and the fault met. -/
def State.homeRun (s : State) (h : HartId) (t : Stream) (j : Nat) :
    List Nat → State × Stream × Nat × Option (Cause × Nat)
  | [] => (s, t, 0, none)
  | v :: vs =>
    match s.homeElem h t j v with
    | .fault c va => (s, t, 0, some (c, va))
    | .blocked s' => (s', t, 0, none)
    | .done s' t' =>
      let (s'', t'', n, e) := s'.homeRun h t' (j + 1) vs
      (s'', t'', n + 1, e)

/-! ### Extents -/

/-- The virtual page of element `j` at a page size. -/
def State.elemPage (s : State) (h : HartId) (t : Stream) (size j : Nat) : Option Nat :=
  match s.elemVa h t j with
  | .ok va => some (va / size)
  | .error _ => none

/-- The elements of an extent that begins at element `lo` (R124): where the last of them ends, and how many they are. Of a
strided stream they follow from the stride; of an indexed one they are those whose indices touch the page. -/
def State.extentSpan (s : State) (h : HartId) (t : Stream) (lo va size : Nat) : Nat × Nat :=
  let d := t.desc
  if d.idx = 0 then
    let st := d.stride.toInt
    let off := va % size
    let hi := if st = 0 then d.count
      else if 0 < st then Nat.min d.count (lo + (size - off + st.toNat - 1) / st.toNat)
      else Nat.min d.count (lo + off / (-st).toNat + 1)
    (hi, hi - lo)
  else
    let js := (List.range' lo (d.count - lo)).filter (fun j => s.elemPage h t size j == some (va / size))
    (js.getLast?.getD lo + 1, js.length)

/-- The next element that lies in none of a stream's extents, from `j` on (R124). -/
def State.nextReached (s : State) (h : HartId) (t : Stream) (j : Nat) : Nat :=
  if t.desc.idx = 0 then j
  else ((List.range' j (t.desc.count - j)).find? (fun k => !t.extents.any (fun e => s.inExtent h t e k))).getD t.desc.count

/-- The code of an extent's size (R127). -/
def extCode (size : Nat) : Nat :=
  if size = 0x1000 then 0 else if size = 0x10000 then 1 else if size = 0x200000 then 2 else 3

/-- The code of an element size (R127). -/
def esizeCode (e : Nat) : Nat := Nat.log2 e

/-- The entry of an extent of `count` elements in a state (R127, R128). -/
def extentEntry (h : HartId) (t : Stream) (l : Leaf) (count st : Nat) : Rsv :=
  let d := t.desc
  let stride := d.stride.toInt
  let small := decide (-(2 ^ 31 : Int) ≤ stride ∧ stride < 2 ^ 31)
  { dir := d.dir
    mode := d.mode
    state := st
    esize := esizeCode d.esize
    extsize := extCode l.size
    key := l.key
    scope := d.scope
    remote := false
    origin := 0
    tile := (tileOf h).val
    hart := ctxOf h
    stream := t.num
    base := l.pa / l.size * l.size / 4096
    stride := if d.idx = 0 && small then stride else 0
    first := l.pa % l.size
    count := if d.idx ≠ 0 ∨ small = true then count else 1
    pos := 0
    whole := d.idx != 0
    coming := 0 }

/-- The landing dies that home a byte of a page (R124). -/
def homesOf (level pa size : Nat) : List (Fin 8) :=
  if size = 4096 then [homeOf level pa]
  else if level = 1 then [0, 1] else dieList

/-- Two entries of a landing die cover a common line that it homes, and one of them is a write stream's (R131). -/
def rsvClash (level : Nat) (d : Fin 8) (a b : Rsv) : Bool :=
  (a.dir || b.dir) &&
    (List.range (extBytes a.extsize / 128)).any (fun i =>
      homeOf level ((a.base * 32 + i) * 128) == d && a.covers (a.base * 32 + i) && b.covers (a.base * 32 + i))

/-- The least index without an entry, of 2,048 (R119). -/
def Landing.freeIndex (l : Landing) : Option Nat :=
  (List.range 2048).find? (fun i => !(l.entries.any (fun e => e.1 == i)))

/-- The lines of an extent that the host owns, or holds under another key: they are snooped before it is registered (R117,
R120, R343). -/
def State.hostExtent (s : State) (r : Rsv) : List Nat :=
  s.hostLines ((s.dir.filter (fun e => r.spans e.line)).map (fun e => e.line)) r.key false

/-- The entries of an extent at the dies it needs, all or nothing (R125, R131). Stores accepted before are performed
before the extent is reserved, and any owned copy of its lines is recalled (R343, R344). -/
def State.registerAt (s : State) (r : Rsv) (ds : List (Fin 8)) : Option (State × List (Nat × Nat)) :=
  let level := s.mgmt.level
  (ds.foldl (fun acc d => match acc with
    | none => none
    | some (s, got) =>
      let r := r.withPos level d 0
      if (s.landing d).entries.any (fun e => rsvClash level d r e.2) then none
      else match (s.landing d).freeIndex with
        | none => none
        | some i =>
          some (s.updLanding d (fun l => { l with entries := l.entries ++ [(i, r)] }), got ++ [(d.val, i)]))
    (some (s, []))).map (fun e =>
      ((e.1.drain (fun d => d.meets (r.base * 4096) (extBytes r.extsize))).homeLines r.key false
        ((e.1.dir.filter (fun x => r.spans x.line)).map (fun x => x.line)), e.2))

/-! ### Faults of an engine -/

/-- Stream `n` of a hart, held in `t`, stops at element `f` with a cause (R185); a page request that failed ends with
it (R431). -/
def State.stopStream (s : State) (h : HartId) (n : Nat) (t : Stream) (f va : Nat) (c : Cause) :
    State × Stream := (s.endFailed h va).stopAtFault h n t f va c

/-- The stream of a register replaced. -/
def State.putStream (s : State) (h : HartId) (n : Nat) (t : Stream) : State :=
  s.updHart h (fun H => H.setStream n t)

/-- A stream may reach its next extent: a strided one holds at most five; an indexed one with entries for five pages
goes on, in line mode, once no element before it is left. DESIGN CHOICE (log 19): an indexed stream's extents are freed
only as their last elements pass, so that five may stand in the way of the next (R124). -/
def Stream.mayReach (t : Stream) : Bool :=
  decide (t.reached < t.desc.count) &&
    (if t.desc.idx = 0 then decide (t.extents.length < 5)
     else decide ((t.extents.filter (fun e => !e.line)).length < 5) || t.home == t.reached)

/-- A window is placed for a stream that has none, and a circuit is asked for it (R143, R146). -/
def State.giveWindow (s : State) (h : HartId) (t : Stream) : State × Stream :=
  if t.granules.isEmpty then
    match s.placeWindow (tileOf h) t.desc.wingran with
    | some (s', gs) => (s', { t with granules := gs, asking := true })
    | none => (s, t)
  else (s, t)

/-- RSVREQ for an extent at a Lefahel peer (R136): the message and the request that is awaited. -/
def State.askPeer (s : State) (w : PeerWin) (r : Rsv) : State :=
  let seq := s.rsvSeq
  let r := { r with
    remote := true
    origin := (fld s.mgmt.modid 0 11).toNat
    base := (w.offset + (r.base * 4096 - w.base)) / 4096 }
  { s with
    rsvSeq := seq + 1
    rsvOut := s.rsvOut ++ [⟨seq, w.target, false⟩]
    outbox := s.outbox ++ [⟨w.target, seq, .req r⟩] }

/-- The next extent registered in a state, or run in line mode (R124 to R126, R136, R143). -/
def State.registerExtent (s : State) (h : HartId) (n : Nat) (t : Stream) (st : Nat := 0) : State × Stream :=
  let lo := t.reached
  match s.findElem h t (if t.desc.dir then .write else .read) lo with
  | .blocked s => (s, t)
  | .fault c va => s.stopStream h n t lo va c
  | .done s (l, va) =>
    let (hi, count) := s.extentSpan h t lo va l.size
    let ext : Extent :=
      ⟨lo, hi, l.pa / l.size * l.size, va / l.size * l.size, l.size, l.key, true, [], none, false⟩
    let reach (s : State) (t : Stream) (e : Extent) : State × Stream :=
      let t := { t with extents := t.extents ++ [e] }
      (s, { t with reached := s.nextReached h t (if t.desc.idx = 0 then hi else lo + 1) })
    let inLine (s : State) (t : Stream) : State × Stream := reach s (t.mark 2 true) ext
    let (s, t) := s.giveWindow h t
    if t.granules.isEmpty || t.noMore || decide (5 ≤ (t.extents.filter (fun e => !e.line)).length) then inLine s t
    else match regionOf l.pa with
      | .hbm | .tier =>
        let r := extentEntry h t l count st
        match s.hostExtent r with
        | [] => match s.registerAt r (homesOf s.mgmt.level l.pa l.size) with
          | some (s', got) => reach s' t { ext with line := false, dies := got }
          | none => inLine s t
        | held => (s.snoopAll held, t)
      | .peer =>
        match s.peerOf l.pa with
        | some w =>
          if w.lefahel then reach (s.askPeer w (extentEntry h t l count st)) t
            { ext with line := false, peer := some s.rsvSeq }
          else inLine s t
        | none => inLine s t
      | _ => inLine s t

/-- The request to a peer for an extent is not answered (R136). -/
def State.awaits (s : State) (e : Extent) : Bool :=
  match e.peer with
  | some q => s.rsvOut.any (fun r => r.seq == q && !r.releasing)
  | none => false

/-- The elements from `j` on that the engine may move, at most `n`: those of extents that it has reached and whose
requests to peers are answered (R124, R136). -/
def State.readyRun (s : State) (h : HartId) (t : Stream) (j : Nat) : Nat → Nat
  | 0 => 0
  | n + 1 =>
    if decide (t.reached ≤ j) || t.extents.any (fun e => s.awaits e && s.inExtent h t e j) then 0
    else 1 + s.readyRun h t (j + 1) n

/-! ### Strips -/

/-- The end of the strip of element `j`, or where the stream stops or ends (R172, R185). -/
def Stream.strEnd (t : Stream) (j : Nat) : Nat :=
  let e := Nat.min t.desc.count ((j / t.strip + 1) * t.strip)
  match t.stopAt with
  | some (f, _, _) => Nat.min e f
  | none => e

/-- The room rule of a read stream's strip buffer for the strip of element `j` (R172, R173). -/
def Stream.hasRoom (t : Stream) (j : Nat) : Bool := decide (j / t.strip - t.pos / t.strip < 65536 / t.stripBytes)

/-- The home delivers to the window what it holds of the next strip, as far as the window has room (R142, R173). -/
def State.fetchStrip (s : State) (h : HartId) (n : Nat) (t : Stream) : State × Stream :=
  let k := s.readyRun h t t.home (Nat.min (t.strEnd t.home - t.home) (t.windowRoom - t.win.length))
  if k = 0 then (s, t)
  else
    let (s, vs, e) := s.fetchRun h t t.home k
    let (s, t) := s.passed { t with home := t.home + vs.length, win := t.win ++ vs } (t.home + vs.length)
    match e with
    | none => (s, t)
    | some (c, va) => s.stopStream h n t t.home va c

/-- The next strip leaves the window for the strip buffer, which has room for all of it (R142, R173). -/
def Stream.arrive (t : Stream) : Stream :=
  let a := t.pos + t.buf.length
  let k := t.strEnd a - a
  if k ≤ t.win.length && t.hasRoom a then { t with buf := t.buf ++ t.win.take k, win := t.win.drop k } else t

/-- Elements produced in a write stream (R174, R177). -/
def Stream.produce (t : Stream) (vs : List Nat) : Stream :=
  (Stream.setPos { t with buf := t.buf ++ vs } (t.pos + vs.length)).leave

/-- The produced elements of a write stream written home, at most `k` of them (R128): the fault met. -/
def State.homeMade (s : State) (h : HartId) (t : Stream) (k : Nat) : State × Stream × Option (Cause × Nat) :=
  let (s, t, m, e) := s.homeRun h t t.home (t.made.take (s.readyRun h t t.home k))
  let (s, t) := s.cleanStrips h t t.home m
  let (s, t) := s.passed (t.homed m) (t.home + m)
  (s, t, e)

/-- The home accepts elements of a write stream that have left (R128, R142): at most the next strip, and at most `k` of
them, since a strip lands piece by piece (R347). -/
def State.acceptStrip (s : State) (h : HartId) (n : Nat) (t : Stream) (k : Nat) : State × Stream :=
  let (s, t, e) := s.homeMade h t (Nat.min k (Nat.min t.sent (t.strEnd t.home - t.home)))
  match e with
  | none => (s, t.leave)
  | some (c, va) => s.stopStream h n t.leave t.home va c

/-! ### Folds (R93, R94, R96, R180) -/

/-- The bits of an element of a format (R72). -/
def codeBits (fmt esize : Nat) : Nat := if fmt ≤ 1 then 8 * esize else (fmtOfCode fmt).bits

/-- A two-operand step of a reduction on encodings: what it gives and its flags. -/
abbrev Combine := Nat → Nat → Nat × Flags

/-- The ordered reduction from a start (R93). -/
def foldOrdered (f : Combine) (s : Nat) (vs : List Nat) : Nat × Flags :=
  vs.foldl (fun a v => let r := f a.1 v; (r.1, a.2 ||| r.2)) (s, 0)

/-- One level of the tree of R94; `none` is an absent node. -/
def treeLevel (f : Combine) : List (Option Nat) → List (Option Nat) × Flags
  | [] => ([], 0)
  | [a] => ([a], 0)
  | a :: b :: t =>
    let (rest, fl) := treeLevel f t
    match a, b with
    | some x, some y => let r := f x y; (some r.1 :: rest, r.2 ||| fl)
    | some x, none => (some x :: rest, fl)
    | none, y => (y :: rest, fl)

/-- The root of the tree of R94, over at most `n` levels. -/
def treeRoot (f : Combine) : Nat → List (Option Nat) → Option Nat × Flags
  | 0, l => ((l.head?).join, 0)
  | n + 1, l =>
    match l with
    | [] => (none, 0)
    | [a] => (a, 0)
    | l =>
      let (l', fl) := treeLevel f l
      let (r, fl') := treeRoot f n l'
      (r, fl ||| fl')

/-- The unordered reduction (R94). -/
def foldTree (f : Combine) (s : Nat) (vs : List (Option Nat)) : Nat × Flags :=
  match treeRoot f (Nat.log2 vs.length + 1) vs with
  | (none, fl) => (s, fl)
  | (some r, fl) => let x := f s r; (x.1, fl ||| x.2)

/-- The sum, minimum and maximum of two elements of a format code at a size, as a fold uses them (R74,
R84, R90, R91). -/
def sumStep (fmt bits : Nat) (r : RMode) (ftz : Bool) : Combine := fun a b =>
  if fmt ≤ 1 then ((a + b) % 2 ^ bits, 0)
  else
    let F := fmtOfCode fmt
    let (v, fl) := (F.decode ftz a).add (r == .rdn) (F.decode ftz b)
    let (x, fl') := F.round (.mode r) false ftz v
    (x, fl ||| fl')

def extremeStep (fmt bits : Nat) (isMax ftz : Bool) : Combine := fun a b =>
  if fmt = 0 then
    (if (decide (signedNat bits a < signedNat bits b)) != isMax then a else b, 0)
  else if fmt = 1 then (if isMax then Nat.max a b else Nat.min a b, 0)
  else (fmtOfCode fmt).minmax ftz isMax a b

/-- A source element converted to a destination format (R88, R89, R180). -/
def convertElem (fs ns fd nd : Nat) (r : Rounding) (sat ftz : Bool) (v : Nat) : Nat × Flags :=
  if fs ≤ 1 then
    let i : Int := if fs = 0 then signedNat ns v else v
    if fd ≤ 1 then
      intToInt nd (fd == 0) sat i
    else (fmtOfCode fd).round r sat ftz (FVal.ofInt i)
  else
    let x := (fmtOfCode fs).decode ftz v
    if fd ≤ 1 then x.toInt r nd (fd == 0) sat
    else let (y, fl) := (fmtOfCode fd).round r sat ftz x; (y, fl ||| x.sig)

/-- The stored element that `F` source elements form (R180); FTZ, which R90 gives scalar and vector
operations, does not act. A segment of one element is the extremum of that
element and itself, so that a NaN comes out canonical (R79, R91). -/
def foldSegment (src dst : Desc) (rm : RMode) (vs : List Nat) : Nat × Flags :=
  let nb := 8 * dst.esize
  match dst.fold with
  | 0 =>
    match vs with
    | v :: _ => if src.fmt = dst.fmt ∧ src.esize = dst.esize then (v, 0)
      else convertElem src.fmt (8 * src.esize) dst.fmt nb (.mode rm) dst.convSat false v
    | [] => (0, 0)
  | 1 =>
    let f := sumStep dst.fmt nb rm false
    if dst.ford then foldTree f 0 (vs.map some) else foldOrdered f 0 vs
  | k =>
    let f := extremeStep dst.fmt nb (k == 3) false
    match vs with
    | [v] => f v v
    | v :: t => foldOrdered f v t
    | [] => (0, 0)

/-- CONV.RM as a mode: 0b111 is FSTAT.RM (R84, R168). -/
def Hart.convMode (H : Hart) (d : Desc) : RMode := H.rmode (BitVec.ofNat 3 d.convRm)

/-- The copy engine takes source elements and produces stored elements while there is room (R179 to R181),
over at most `n` stored elements. DESIGN CHOICE (log 30): CONV.RM 0b111 takes FSTAT.RM as it stands when the
element is formed. -/
def copyMove (H : Hart) : Nat → Stream → Stream → Stream × Stream
  | 0, src, dst => (src, dst)
  | n + 1, src, dst =>
    let F := Nat.max 1 dst.desc.foldlen
    match dst.copy with
    | none => (src, dst)
    | some c =>
      let take := Nat.min (F - c.held.length) src.buf.length
      let held := c.held ++ src.buf.take take
      let src := Stream.setPos { src with buf := src.buf.drop take } (src.pos + take)
      if held.length < F || decide (dst.avail = 0) then
        (src, { dst with copy := some { c with held := held } })
      else
        let (v, fl) := foldSegment src.desc dst.desc (H.convMode dst.desc) held
        let dst := Stream.produce { dst with
          copy := some { c with held := [] }
          status := dst.status ||| (fl.setWidth 64 <<< 16) } [v]
        copyMove H n src dst

/-- The copy of two registers runs: both are configured, bound to each other, and not stopped (R179, R185,
R194). -/
def Hart.copyRuns (H : Hart) (sn dn : Nat) : Bool :=
  let a := H.stream sn
  let b := H.stream dn
  a.cfg && b.cfg && (match a.copy, b.copy with
    | some x, some y => x.id == y.id && x.other == dn && y.other == sn && !x.stopped && !y.stopped
    | _, _ => false)

/-- One turn of the copy engine of a hart on the copy that stream `n` takes part in. -/
def Hart.runCopy (H : Hart) (n : Nat) : Hart :=
  let t := H.stream n
  match t.copy with
  | none => H
  | some c =>
    let (sn, dn) := if t.desc.dir then (c.other, n) else (n, c.other)
    if H.copyRuns sn dn && H.run != .halted then
      let src := H.stream sn
      let (a, b) := copyMove H (src.buf.length + 1) src (H.stream dn)
      (H.setStream sn a).setStream dn b
    else H

/-! ### Releases -/

/-- The register of a stream after its release has begun (R184, R186, R190). -/
def Stream.vacated (t : Stream) : Stream :=
  { Stream.reset with
    num := t.num
    serial := t.serial
    status := setBit (setBit (setBit t.status 0 false) 6 false) 8 true
    lastPos := t.pos
    lastAvail := t.avail }

/-- The release of a stream begins (R184): the register is unconfigured, and the context goes on alone. A
read stream's entries are freed at once, a write stream's go RELEASING; a faulted stream's are freed, and its
elements from the fault on are dropped (R184, R185). -/
def State.beginRelease (s : State) (h : HartId) (n : Nat) : State :=
  let t := (s.hart h).stream n
  if !t.cfg then s
  else
    let t' := { t with
      copy := none
      status := setBit (setBit (setBit t.status 0 false) 6 false) 8 true }
    let s := s.unpark (.engine h n)
    let (s, t') :=
      if !t.desc.dir then
        let (s, t') := s.giveUp t' t.extents
        (s, { t' with buf := [], win := [], extents := [], release := .read })
      else match t.stopAt with
      | some (f, _, _) =>
        let (s, t') := s.giveUp t' t.extents
        (s, Stream.leave { t'.keepMade (f - t.home) with
          extents := []
          stopAt := none
          release := .write })
      | none => (s.setEntries t 3, Stream.leave { t' with release := .write })
    s.updHart h (fun H => { H.setStream n t.vacated with releasing := H.releasing ++ [t'] })

/-- A completion counter stepped by releases of some harts at scopes (R182, R342). -/
def Hart.countUp (H : Hart) (c : Nat) (rs : List (HartId × Nat)) : Hart :=
  { H with ctr := H.ctr.setIfInBounds c (H.ctr[c]?.getD 0 + 1), ctrRel := rs.foldl (fun l r => noteRel l c r) H.ctrRel }

/-- A release whose entries are freed completes (R184): resources are given back, and the counter stepped. -/
def State.finishRelease (s : State) (h : HartId) (k : Nat) (t : Stream) : State :=
  let n := t.num
  let (s, t) := s.fillParts t
  let s := ((s.unpark (.engine h n)).freeWindow t.granules).freeFifo (tileOf h) t.bank
  s.updHart h (fun H =>
    let H := { H with releasing := listDel H.releasing k }
    let u := H.stream n
    let H := if u.cfg || u.serial != t.serial then H
      else H.setStream n { u with status := setBit t.status 8 false }
    if t.desc.cen then H.countUp t.desc.counter [(h, t.desc.scope)] else H)

/-- The releasing contexts of a hart that are not kept for a save, with their places. -/
def Hart.releasers (H : Hart) : List (Nat × Stream) :=
  (H.releasing.mapIdx (fun i t => (i, t))).filter (fun p => !p.2.saved)

/-- The produced elements of a write stream are written home in order, the extents not yet registered being registered
first, in a state, or run in line mode (R124, R125, R184, R194); a fault stops the stream. Over at most `n` extents. -/
def State.homeAll (s : State) (h : HartId) (t : Stream) (st : Nat) : Nat → State × Stream
  | 0 => (s, t)
  | n + 1 =>
    let k := match t.stopAt with
      | some (f, _, _) => Nat.min t.made.length (f - t.home)
      | none => t.made.length
    let (s, t, e) := s.homeMade h t k
    match e with
    | some (c, va) => s.stopStream h t.num t t.home va c
    | none =>
      if t.made.isEmpty || t.stopAt.isSome || decide (t.home < t.reached) then (s, t)
      else
        let (s', t') := s.registerExtent h t.num t st
        if t'.stopAt.isSome || t'.reached == t.reached then (s', t') else s'.homeAll h t' st n

/-- Elements of a write stream below its fault are still produced and not home (R185). -/
def Stream.unhomed (t : Stream) : Bool :=
  t.desc.dir && match t.stopAt with
  | some (f, _, _) => decide (t.home < f) && !t.made.isEmpty
  | none => !t.made.isEmpty

/-- The elements from the fault on of a released stream are dropped. -/
def Stream.dropFaulted (t : Stream) : Stream :=
  match t.stopAt with
  | some (f, _, _) => { t.keepMade (f - t.home) with stopAt := none }
  | none => t

/-- Released elements of a write stream are written home (R184): what is left. -/
def State.drainRelease (s : State) (h : HartId) (k : Nat) (t : Stream) : State × Stream :=
  let (s, t') := s.homeAll h t 3 (t.made.length + 1)
  (s.updHart h (fun H => { H with releasing := listUpd H.releasing k (fun _ => t'.dropFaulted) }), t'.dropFaulted)

/-- RSVDONE has arrived for every peer extent of a stream (R136, R184). -/
def State.peersDone (s : State) (t : Stream) : Bool :=
  t.owed.all (fun q => !s.rsvOut.any (fun r => r.seq == q && r.releasing))

/-- A released context is carried towards its completion, and completed if nothing is left of it (R184). -/
def State.advanceRelease (s : State) (h : HartId) (k : Nat) : State :=
  match (s.hart h).releasing[k]? with
  | none => s
  | some t =>
    if t.saved then s
    else
      let (s, t) := s.drainRelease h k t
      if !t.made.isEmpty then s
      else
        let (s, t) := s.giveUp t t.extents
        let t := { t with extents := [] }
        let s := s.updHart h (fun H => { H with releasing := listUpd H.releasing k (fun _ => t) })
        if s.peersDone t then s.finishRelease h k t else s

end Sys2Proof.Machine
end

