-- ==== Sys2Proof/Machine/Streams.lean ====
section
/-!
DEFINITION. The stream instructions of major 0x10 (R187 to R195) and the events of stream engines (R124,
R128, R173, R181, R184, R185).
-/

namespace Sys2Proof.Machine

/-! ### Configuration -/

/-- The `n` bytes at a virtual address, read by the scalar side. -/
def loadBytes (va : Word) (n : Nat) : Op (List Byte) := do
  let (l, c) ← reachOp .read va n
  return bytesOf n (← readScalar va l c n)

/-- The descriptor in 64 bytes (R168). -/
def descOf (bs : List Byte) : Desc where
  base := BitVec.ofNat 64 (leAt bs 0 8)
  stride := BitVec.ofNat 64 (leAt bs 8 8)
  count := leAt bs 16 8
  ctrl := BitVec.ofNat 32 (leAt bs 24 4)
  foldlen := leAt bs 28 4
  conv := BitVec.ofNat 8 (leAt bs 32 1)

/-- The checks of a descriptor after it is read (R171). -/
def descOk (bs : List Byte) : Bool :=
  let d := descOf bs
  (bs.drop 33).all (fun b => b == 0)
    && fld d.conv 4 4 == 0 && fld d.ctrl 30 2 == 0
    && decide (1 ≤ d.count ∧ d.count < 2 ^ 40)
    && decide (d.idx ≠ 3) && decide (d.scope ≤ 5) && decide (d.mode ≠ 3)
    && decide (d.fmt ≤ 7) && fmtWidthOk d.fmt (Nat.log2 d.esize)
    && decide (d.convRm ≠ 5 ∧ d.convRm ≠ 6)
    && (d.dir || d.fold == 0) && (if d.fold = 0 then d.foldlen == 0 else d.foldlen != 0)
    && (d.idx != 0 || d.ishift == 0) && (d.cen || d.counter == 0) && (d.fold != 0 || !d.ford)
    && (d.dir || d.conv == 0)
    && d.base.toNat % d.esize == 0
    && (match d.idx with
        | 0 => d.stride.toNat % d.esize == 0
        | 1 => d.stride.toNat % 4 == 0
        | _ => d.stride.toNat % 8 == 0)

/-- The number that tells the next stream of a register from those that it has held (R186, R189). -/
def Hart.nextSerial (H : Hart) (n : Nat) : Nat :=
  ((H.releasing.filter (fun t => t.num == n)).foldl (fun m t => Nat.max m t.serial) (H.stream n).serial) + 1

/-- STRM_CFG (R171, R178, R188). -/
def execStrmCfg (d a : Reg) (n : BitVec 4) (s : State) : Host.Outcome State Fault Refusal :=
  runOp (do
    let va := s.getX a
    check (decide (va.toNat % 64 = 0)) .strmConfig va
    let bs ← loadBytes va 64
    check (descOk bs) .strmConfig va
    modify (fun s => s.release s.cur false (descOf bs).scope)
    let s ← get
    let t := tileOf s.cur
    if (s.me.stream n.toNat).cfg then retireX d 1
    else if 32 ≤ s.contexts t then retireX d 3
    else match s.claimFifo t with
      | none => retireX d 2
      | some (s', b) =>
        let ds := descOf bs
        let st : Stream := { Stream.reset with
          num := n.toNat
          serial := s.me.nextSerial n.toNat
          cfg := true
          desc := ds
          sup := s.me.sup
          stripBytes := if s.me.vlbytes = 0 then 512 else s.me.vlbytes
          status := if ds.dir then 3 else 1
          bank := b }
        set (s'.putStream s.cur n.toNat st)
        retireX d 0) s

/-! ### Release, status, pop and push -/

/-- The trap of R179 for a release of a busy stream, unless its copy has stopped. -/
def Stream.busy (t : Stream) : Bool := t.copy.isSome

/-- `strm.rel` (R179, R184, R189): a stopped copy is abandoned, the source first. -/
def releaseOp (n : BitVec 4) : Op Unit := do
  let s ← get
  let t := s.me.stream n.toNat
  if t.cfg then
    match t.copy with
    | none => set (s.beginRelease s.cur n.toNat)
    | some c =>
      check c.stopped .strmBusy (n.setWidth 64)
      let (sn, dn) := if t.desc.dir then (c.other, n.toNat) else (n.toNat, c.other)
      set ((s.beginRelease s.cur sn).beginRelease s.cur dn)

/-- STRM_REL (R189). -/
def execStrmRel (n : BitVec 4) (s : State) : Host.Outcome State Fault Refusal :=
  runOp (do releaseOp n; retire) s

/-- The release of the stream that a register held last is under way. -/
def Hart.releasingOf (H : Hart) (n : Nat) : Option Stream :=
  H.releasing.find? (fun t => t.num == n && t.serial == (H.stream n).serial && !t.saved)

/-- STRM_REL_WAIT (R189): the release is begun, and the hart waits until it has completed. When the
instruction runs again it finds the register unconfigured and retires once that release is no longer under way; what the
hart read early from before the stream's writes is given up (R346). -/
def execStrmRelWait (n : BitVec 4) (s : State) : Host.Outcome State Fault Refusal :=
  runOp (do
    let s ← get
    if (s.me.stream n.toNat).cfg then do
      releaseOp n
      waitOp (.stream n.toNat)
    else if s.me.wait == .stream n.toNat && (s.me.releasingOf n.toNat).isSome then waitOp (.stream n.toNat)
    else do
      if (s.me.releasingOf n.toNat).isNone then
        set (s.forgetPast s.cur n.toNat (s.me.stream n.toNat).serial)
      retire) s

/-- The status word of a register (R186): that of its context while its release goes on. -/
def Hart.streamStatus (H : Hart) (n : Nat) : Word :=
  let t := H.stream n
  if t.cfg then t.status
  else ((H.releasingOf n).getD t).status

/-- STRM_STAT (R190). -/
def execStrmStat (d : Reg) (n : BitVec 4) (s : State) : Host.Outcome State Fault Refusal :=
  .next ((s.setX d (s.me.streamStatus n.toNat)).advance)
/-- STRM_STAT_POS (R190). -/
def execStrmStatPos (d : Reg) (n : BitVec 4) (s : State) : Host.Outcome State Fault Refusal :=
  let t := s.me.stream n.toNat
  .next ((s.setX d (BitVec.ofNat 64 (if t.cfg then t.pos else t.lastPos))).advance)
/-- STRM_STAT_AVAIL (R190). -/
def execStrmStatAvail (d : Reg) (n : BitVec 4) (s : State) : Host.Outcome State Fault Refusal :=
  let t := s.me.stream n.toNat
  .next ((s.setX d (BitVec.ofNat 64 (if t.cfg then t.avail else t.lastAvail))).advance)

/-- The checks that a pop and a push share (R191): the direction wanted is `dir`. -/
def strmChecks (t : Stream) (dir : Bool) (n : Word) : Op Unit := do
  check t.cfg .strmState n
  check (t.desc.dir == dir) .strmDirection n
  check (!t.busy) .strmBusy n
  check (decide (t.pos ≠ t.desc.count)) .strmEnd n

/-- A read stream with its first available element consumed (R174). -/
def Stream.consume (t : Stream) (k : Nat) : Stream :=
  Stream.setPos { t with buf := t.buf.drop k } (t.pos + k)

/-- STRM_POP (R191). -/
def execStrmPop (d : Reg) (n : BitVec 4) (s : State) : Host.Outcome State Fault Refusal :=
  runOp (do
    let t := s.me.stream n.toNat
    strmChecks t false (n.setWidth 64)
    match t.buf with
    | [] => waitOp (.stream n.toNat)
    | e :: _ =>
      let bits := 8 * t.desc.esize
      modify (fun s => s.putStream s.cur n.toNat (t.consume 1))
      retireX d (if t.desc.fmt = 0 then sextNat bits e else zextNat bits e)) s

/-- STRM_PUSH (R191). -/
def execStrmPush (a : Reg) (n : BitVec 4) (s : State) : Host.Outcome State Fault Refusal :=
  runOp (do
    let t := s.me.stream n.toNat
    strmChecks t true (n.setWidth 64)
    check (decide (t.desc.fold = 0)) .strmBusy (n.setWidth 64)
    if t.capacity ≤ t.buf.length then waitOp (.stream n.toNat)
    modify (fun s => s.putStream s.cur n.toNat
      (t.produce [(s.getX a).toNat % 2 ^ (8 * t.desc.esize)]))
    retire) s

/-- STRM_COPY (R192). DESIGN CHOICE (log 19): for a busy stream R179 names the trap "stream busy" and R192 "stream
state"; the model takes that of R192, the list of the instruction's own checks. -/
def execStrmCopy (d sn : BitVec 4) (s : State) : Host.Outcome State Fault Refusal :=
  runOp (do
    let a := s.me.stream sn.toNat
    let b := s.me.stream d.toNat
    let tv := BitVec.ofNat 64 (d.toNat * 16 + sn.toNat)
    let ready (t : Stream) : Bool := t.cfg && !t.busy && t.stopAt.isNone && t.pos == 0
    check (d != sn && ready a && ready b && !a.desc.dir && b.desc.dir) .strmState tv
    check (a.desc.count == b.desc.count * Nat.max 1 b.desc.foldlen
      && (b.desc.fold == 0 || (a.desc.fmt == b.desc.fmt && a.desc.esize == b.desc.esize))) .strmConfig tv
    let s ← get
    let bind (t : Stream) (o : Nat) : Stream := ({ t with copy := some ⟨o, false, [], s.fresh⟩ } : Stream).mark 6 true
    set ({ s with fresh := s.fresh + 1 }.updMe (fun H =>
      ((H.setStream sn.toNat (bind a d.toNat)).setStream d.toNat (bind b sn.toNat)).runCopy d.toNat))
    retire) s

/-! ### Resume, save and restore -/

/-- The hart that a target operand names (R193, R194): 0 is the issuing hart, otherwise the tile and
context of a placed hart with bit 10 set. -/
def State.targetHart (s : State) (w : Word) : Option HartId :=
  if w = 0 then some s.cur
  else if w.getLsbD 10 && fld w 11 53 == 0 then
    match hartAt? (fld w 0 8).toNat (fld w 8 2).toNat with
    | some h => if (s.hart h).run = .idle then none else some h
    | none => none
  else none

/-- The stream that is bound to a stream by its copy, where it is configured (R179). -/
def Hart.partner (H : Hart) (t : Stream) : Option Stream :=
  t.copy.bind (fun c => H.streams.toList.find? (fun u =>
    u.cfg && u.desc.dir != t.desc.dir && (u.copy.map (fun k => k.id)) == some c.id))

/-- A faulted stream of a hart goes on at its faulting element (R193); its copy stays stopped while the other stream is
faulted (R185). -/
def State.resumeStream (s : State) (h : HartId) (n : Nat) : State :=
  let t := (s.hart h).stream n
  if t.cfg && t.stopAt.isSome then
    let held := ((s.hart h).partner t).any (fun u => u.stopAt.isSome)
    (s.setEntries t 0).updHart h (fun H =>
      let t' := Stream.mark { t with
        stopAt := none
        copy := t.copy.map (fun k => { k with stopped := held }) } 5 false
      (H.setStream n t').stopCopy t' held)
  else s

/-- STRM_RESUME (R187, R193). -/
def execStrmResume (a : Reg) (n : BitVec 4) (s : State) : Host.Outcome State Fault Refusal :=
  if !s.me.sup && a != 0 then .next (s.illegal (.strmResume a n))
  else match s.targetHart (s.getX a) with
    | none => .next (s.trap .strmState (s.getX a))
    | some h => .next (s.resumeStream h n.toNat).advance

/-- The bytes of a descriptor (R168). -/
def Desc.bytes (d : Desc) : List Byte :=
  bytesOf 8 d.base.toNat ++ bytesOf 8 d.stride.toNat ++ bytesOf 8 d.count ++ bytesOf 4 d.ctrl.toNat
    ++ bytesOf 4 d.foldlen ++ bytesOf 1 d.conv.toNat ++ bytesOf 31 0

/-- The save area of a stream (R194); a register that holds no stream keeps its status as it is. -/
def Stream.saveArea (t : Stream) : List Byte :=
  t.desc.bytes ++ bytesOf 8 t.pos ++ bytesOf 8 (if t.cfg then setBit t.status 10 true else t.status).toNat ++ bytesOf 48 0

/-- The first step of a save (R194): the produced elements of a write stream are written home, as far as they go now. -/
def State.saveHome (s : State) (h : HartId) (n : Nat) : State :=
  let t := (s.hart h).stream n
  if t.desc.dir then
    let (s, t) := s.homeAll h t 0 (t.made.length + 1)
    s.putStream h n t
  else s

/-- A stream saved once its elements are home (R194, steps 2 to 4 and 6): its image, and the state with its context kept
aside. The words of scratchpad of which elements are still to come are filled with those that there are (R157). -/
def State.saveStream (s : State) (h : HartId) (n : Nat) : State × List Byte :=
  let (s, t) := s.fillParts ((s.hart h).stream n)
  let t := if t.desc.dir then t else { t with buf := [], win := [], home := t.pos }
  let s := ((s.setEntries t 1).unpark (.engine h n)).freeFifo (tileOf h) t.bank
  let keepWindow := t.desc.dir && !t.made.isEmpty
  let s := if keepWindow then s else s.freeWindow t.granules
  let kept : Stream := { t with
    saved := true
    cfg := false
    circuit := false
    asking := false
    granules := if keepWindow then t.granules else [] }
  let reg : Stream := { Stream.reset with
    num := n
    serial := t.serial
    status := setBit (setBit t.status 0 false) 10 true
    lastPos := t.pos
    lastAvail := 0 }
  (s.updHart h (fun H => { H.setStream n reg with releasing := H.releasing ++ [kept] }), t.saveArea)

/-- The context that a save area describes, for register `n` of a hart: of several, that of the same hart and register,
and else that of the same register. DESIGN CHOICE (log 19): the save area names neither. -/
def State.keptStream (s : State) (h : HartId) (n : Nat) (d : Desc) (pos : Nat) : Option (StreamAt × Stream) :=
  let l := (allHarts.flatMap s.streamsOf ++ s.savedStreams).filter (fun e =>
    e.2.saved && e.2.desc == d && e.2.pos == pos)
  let own (e : StreamAt × Stream) : Bool := match e.1 with
    | .released g _ => g == h && e.2.num == n
    | _ => false
  (l.find? own).or ((l.find? (fun e => e.2.num == n)).or l.head?)

/-- A kept context is no longer kept. -/
def State.dropKept (s : State) (p : StreamAt) : State :=
  match p with
  | .reg _ _ => s
  | .released h k => s.updHart h (fun H => { H with releasing := listDel H.releasing k })
  | .gang g r k => { s with gangs := s.gangs.map (fun G => if G.id = g then
      { G with members := G.members.map (fun m => if m.rank = r then
          { m with saved := m.saved.map (fun v => { v with streams := listDel v.streams k }) } else m) } else G) }

/-- The two streams of a copy name each other where both are back (R194). -/
def Hart.relink (H : Hart) (n : Nat) : Hart :=
  let t := H.stream n
  match H.partner t with
  | none => H
  | some u =>
    if u.num = n then H
    else
      let name (t : Stream) (o : Nat) : Stream := { t with copy := t.copy.map (fun c => { c with other := o }) }
      (H.setStream n (name t u.num)).setStream u.num (name u n)

/-- The entries of a stream name the hart that has it now (R127, R194, R438). -/
def State.relabel (s : State) (t : Stream) (h : HartId) : State :=
  { s with landings := s.landings.mapIdx (fun i (l : Landing) =>
      { l with entries := l.entries.map (fun e =>
          if t.entryRefs.contains (i, e.1) then
            (e.1, { e.2 with tile := (tileOf h).val, hart := ctxOf h, stream := t.num })
          else e) }) }

/-- A restored stream has its window again, or is placed in line mode (R143, R167, R194; DEDUCED, log 19): without a window
the extents that it has reached are given up. -/
def State.rewindow (s : State) (h : HartId) (t : Stream) : State × Stream :=
  let (s, t) := s.giveWindow h t
  if t.granules.isEmpty then
    let (s, t) := s.giveUp t t.extents
    (s, Stream.mark { t with extents := t.extents.map (fun e => { e with line := true, dies := [], peer := none }) } 2 true)
  else (s, t)

/-- A saved stream restored to register `n` of a hart (R194): its context where one is kept, with LINE and
SPLIT of a split met while it was suspended (R132, R133), otherwise a stream at POS. It reclaims the resources of R167, and
its entries go ACTIVE. `none` when a resource is missing. -/
def State.restoreStream (s : State) (h : HartId) (n : Nat) (d : Desc) (pos : Nat) (status : Word)
    (kept : Option Stream) : Option State :=
  if 32 ≤ s.contexts (tileOf h) then none
  else match s.claimFifo (tileOf h) with
    | none => none
    | some (s, b) =>
      let base : Stream := match kept with
        | some t => t
        | none => { Stream.reset with
            desc := d, pos := pos, home := pos, reached := pos,
            sup := (s.hart h).sup,
            stopAt := if status.getLsbD 5 then some (pos, 0, 0) else none
            stripBytes := if (s.hart h).vlbytes = 0 then 512 else (s.hart h).vlbytes }
      let t := { base with
        num := n
        serial := (s.hart h).nextSerial n
        cfg := true
        saved := false
        bank := b
        asking := !base.granules.isEmpty
        status := setBit (setBit (setBit ((status &&& 0x7F07FF) ||| (base.status &&& 0xC)) 10 false) 0 true) 1 base.desc.dir }
      let (s, t) := ((s.setEntries t 0).relabel t h).rewindow h t
      some ((s.putStream h n t).updHart h (fun H => H.relink n))

/-- The checks that `strm.save` and `strm.rest` share (R194). -/
def saveTarget (t a : Reg) : Op (HartId × Word) := do
  let s ← get
  match s.targetHart (s.getX t) with
  | none => trapOp .strmState (s.getX t)
  | some h =>
    check (decide ((s.getX a).toNat % 64 = 0)) .misaligned (s.getX a)
    return (h, s.getX a)

/-- STRM_SAVE (R194). The save area is found reachable before the stream is touched; the hart waits while produced elements
cannot be written home. -/
def execStrmSave (t a : Reg) (n : BitVec 4) (s : State) : Host.Outcome State Fault Refusal :=
  runOp (do
    legal s.me.sup (.strmSave t a n)
    let (h, va) ← saveTarget t a
    let s ← get
    check ((s.hart h).stream n.toNat).cfg .strmState (n.setWidth 64)
    check (h == s.cur || (s.hart h).run == .halted) .strmState (n.setWidth 64)
    let (l, c) ← reachOp .write va 64
    let (l', c') ← reachOp .write (va + 64) 64
    checkLine l.pa l.key va true
    checkLine l'.pa l'.key (va + 64) true
    modify (fun s => s.saveHome h n.toNat)
    let s ← get
    if ((s.hart h).stream n.toNat).unhomed then waitOp (.stream n.toNat)
    let (s, image) := s.saveStream h n.toNat
    let s := s.store s.cur true c l.key ((image.take 64).map some)
    set (s.store s.cur true c' l'.key ((image.drop 64).map some))
    retire) s

/-- STRM_REST (R194). -/
def execStrmRest (t a : Reg) (n : BitVec 4) (s : State) : Host.Outcome State Fault Refusal :=
  runOp (do
    legal s.me.sup (.strmRest t a n)
    let (h, va) ← saveTarget t a
    let s ← get
    check (!((s.hart h).stream n.toNat).cfg) .strmState (n.setWidth 64)
    let bs ← loadBytes va 64
    let bs' ← loadBytes (va + 64) 64
    let s ← get
    let d := descOf bs
    let pos := leAt bs' 0 8
    let kept := s.keptStream h n.toNat d pos
    match s.restoreStream h n.toNat d pos (BitVec.ofNat 64 (leAt bs' 8 8)) (kept.map (fun k => k.2)) with
    | none => trapOp .strmConfig va
    | some s' =>
      set (match kept with
        | some (k, _) => s'.dropKept k
        | none => s')
      retire) s

/-! ### Events of the engines -/

/-- The stream of a register moves on its own: it is configured and its hart is not halted (R440). -/
def Hart.moves (H : Hart) (n : Nat) : Bool := (H.stream n).cfg && H.run != .halted

/-- EXTENT_REGISTER (R124, R125): the next extent of a stream that may reach it. -/
def execExtentRegister (h : HartId) (sn : BitVec 4) (s : State) : Host.Outcome State Fault Refusal :=
  let t := (s.hart h).stream sn.toNat
  .next (if (s.hart h).moves sn.toNat && t.stopAt.isNone && t.mayReach then
    let (s', t') := s.registerExtent h sn.toNat t
    s'.putStream h sn.toNat t'
  else s)

/-- STRIP_FETCH (R173). -/
def execStripFetch (h : HartId) (sn : BitVec 4) (s : State) : Host.Outcome State Fault Refusal :=
  let t := (s.hart h).stream sn.toNat
  .next (if (s.hart h).moves sn.toNat && !t.desc.dir then
    let (s', t') := s.fetchStrip h sn.toNat t
    s'.putStream h sn.toNat t'
  else s)

/-- STRIP_ARRIVAL (R173): the next strip leaves the window for the strip buffer; a running copy takes what it can. -/
def execStripArrival (h : HartId) (sn : BitVec 4) (s : State) : Host.Outcome State Fault Refusal :=
  let t := (s.hart h).stream sn.toNat
  .next (if (s.hart h).moves sn.toNat && !t.desc.dir then
    s.updHart h (fun H => (H.setStream sn.toNat t.arrive).runCopy sn.toNat)
  else s)

/-- The home accepts at most `k` elements of the next strip of a write stream, or of a released one (R128, R142, R185). -/
def State.acceptNext (s : State) (h : HartId) (n k : Nat) : State :=
  let t := (s.hart h).stream n
  if (s.hart h).run = .halted then s
  else if t.cfg then
    if t.desc.dir then
      let (s', t') := s.acceptStrip h n t k
      (s'.putStream h n t').updHart h (fun H => H.runCopy n)
    else s
  else match (s.hart h).releasers.find? (fun p => p.2.num == n && p.2.release == .write) with
    | some (i, u) =>
      let (s', u') := s.acceptStrip h n u k
      s'.updHart h (fun H => { H with releasing := listUpd H.releasing i (fun _ => u'.dropFaulted) })
    | none => s

/-- WRITE_STRIP_ACCEPT (R128, R142): the home accepts the next strip of a write stream, or of a released one. -/
def execWriteStripAccept (h : HartId) (sn : BitVec 4) (s : State) : Host.Outcome State Fault Refusal :=
  .next (s.acceptNext h sn.toNat 65536)

/-- STREAM_FAULT (R185): the next transfer of a stream is tried, and if it faults the stream stops there. -/
def execStreamFault (h : HartId) (sn : BitVec 4) (s : State) : Host.Outcome State Fault Refusal :=
  let n := sn.toNat
  let t := (s.hart h).stream n
  let stop (c : Cause) (va : Nat) : State :=
    let (s', t') := s.stopStream h n t t.home va c
    s'.putStream h n t'
  .next (if !(s.hart h).moves n || t.stopAt.isSome || decide (t.desc.count ≤ t.home) then s
  else if t.desc.dir then
    if t.sent = 0 then s
    else match t.made with
    | [] => s
    | v :: _ => match s.homeElem h t t.home v with
      | .fault c va => stop c va
      | _ => s
  else match s.fetchElem h t t.home with
    | .fault c va => stop c va
    | _ => s)

/-- RELEASE_COMPLETE (R184): the `k`-th release under way of a hart goes on, and completes if nothing is
left of it. -/
def execReleaseComplete (h : HartId) (k : Nat) (s : State) : Host.Outcome State Fault Refusal :=
  .next (if (s.hart h).run = .halted then s
  else match (s.hart h).releasers[k]? with
    | some (i, _) => s.advanceRelease h i
    | none => s)

/-- COPY_COMPLETE (R181): when the last element of a copy has been produced, both streams are released, the
source first. -/
def execCopyComplete (h : HartId) (sn : BitVec 4) (s : State) : Host.Outcome State Fault Refusal :=
  let s' := s.updHart h (fun H => H.runCopy sn.toNat)
  let t := (s'.hart h).stream sn.toNat
  .next (match t.copy with
    | some c =>
      let (a, b) := if t.desc.dir then (c.other, sn.toNat) else (sn.toNat, c.other)
      if (s'.hart h).copyRuns a b && ((s'.hart h).stream b).pos == ((s'.hart h).stream b).desc.count
        && (s'.hart h).run != .halted then
        (s'.beginRelease h a).beginRelease h b
      else s'
    | none => s')

/-- A circuit can be had between a tile and the slice of a stream's window (R147), which may lie on another die (R194). -/
def State.trackFree (s : State) (tile : Fin 224) (t : Stream) : Bool :=
  decide (s.circuits tile < 32) && (match t.slice with
    | some k =>
      let far : Fin 4 := ⟨k / 8 % 4, by omega⟩
      decide (s.sliceCircuits k t.desc.dir < rowTracks)
        && (if t.desc.dir then s.circuitFree (dieOf tile) far else s.circuitFree far (dieOf tile))
    | none => false)

/-- CIRCUIT_OPEN (R146, R147): the route allocator answers the request of a stream that has received its window.
`granted` tells whether the rest of its path has a free track. A stream that is not granted its circuit uses the
packet tracks and does not ask again for this window. -/
def execCircuitOpen (h : HartId) (sn : BitVec 4) (granted : Bool) (s : State) :
    Host.Outcome State Fault Refusal :=
  let t := (s.hart h).stream sn.toNat
  .next (if t.cfg && t.asking then
    let ok := granted && s.trackFree (tileOf h) t
    s.putStream h sn.toNat (Stream.mark { t with circuit := ok, asking := false } 4 (!ok))
  else s)

/-- FAULT_RECORD_WRITE (R433, R434): the oldest waiting record is written where the queue has room, and
TAIL advances. A write that faults leaves the record waiting, and the Watershed logs it. -/
def execFaultRecordWrite (h : HartId) (s : State) : Host.Outcome State Fault Refusal :=
  let q := (s.hart h).fq
  let addr := (fld q.base 6 46).toNat * 64
  let key := (fld q.base 52 9).toNat
  .next (match q.waiting with
    | [] => s
    | r :: rest =>
      if addr = 0 ∨ q.size ≤ (q.tail + 65536 - q.head) % 65536 then s
      else
        let pa := addr + 32 * (q.tail % q.size)
        match s.place 0 pa with
        | .cell c =>
          if s.keyInvalid key then s.noteStep
          else
            (s.write .home c key r).updHart h (fun H => { H with fq := { H.fq with
              ctl := setFld q.ctl 16 (BitVec.ofNat 16 (q.tail + 1))
              waiting := rest } })
        | _ => s.noteStep)

end Sys2Proof.Machine
end

