-- ==== Sys2Proof/Machine/Gangs.lean ====
section
/-!
DEFINITION. Gangs and their harts as the rest of the machine sees them: finding a gang and a rank (R359,
R361), the flight counter (R378), the images of saved harts (R435, R436), and counters as references bind
them (R363, R364).
-/

namespace Sys2Proof.Machine

/-- The gang of a number. -/
def State.gang? (s : State) (g : Nat) : Option Gang := s.gangs.find? (fun G => G.id == g)

/-- A gang replaced by its image. -/
def State.updGang (s : State) (g : Nat) (f : Gang → Gang) : State :=
  { s with gangs := s.gangs.map (fun G => if G.id = g then f G else G) }

/-- The gang and the rank of a hart. -/
def State.gangOf (s : State) (h : HartId) : Option (Gang × Nat) :=
  match (s.hart h).gang with
  | some (g, r) => (s.gang? g).map (fun G => (G, r))
  | none => none

/-- The member of a rank. -/
def Gang.member? (G : Gang) (r : Nat) : Option Member := G.members.find? (fun m => m.rank == r)

/-- A gang with the member of a rank replaced by its image. -/
def Gang.updMember (G : Gang) (r : Nat) (f : Member → Member) : Gang :=
  { G with members := G.members.map (fun m => if m.rank = r then f m else m) }

/-- The flight counter of a gang changed (R378). -/
def State.fcAdd (s : State) (g up down : Nat) : State :=
  s.updGang g (fun G => { G with fc := G.fc + up - down })

/-! ### Images of saved harts -/

/-- Bytes written to the image of a saved hart at an offset. -/
def State.imageWrite (s : State) (k : Saved) (off : Nat) (bs : List Byte) : State :=
  s.putBytes (s.imageBase k + off) (s.imageKey k.die) bs

/-- The offsets of the counters and of the token counts in an image (R436). -/
def imgCtr (c : Nat) : Nat := 0x420 + 8 * c
def imgTok (ch : Nat) : Nat := 0x4A0 + 4 * ch

/-! ### Counter references -/

/-- The fields of a counter reference in a record (R363). -/
def refV (w : Nat) : Bool := w.testBit 31
def refTile (w : Nat) : Nat := w / 64 % 256
def refCtx (w : Nat) : Nat := w / 16 % 4
def refCtr (w : Nat) : Nat := w % 16

/-- A counter reference is well formed (R363). -/
def refOk (w : Nat) : Bool :=
  if refV w then decide (refTile w ≤ 223) && decide (w / 2 ^ 14 % 2 ^ 17 = 0) else decide (w = 0)

/-- A counter reference bound (R364): to the hart placed on the context it names, or to the context. -/
def State.bindRef (s : State) (w : Nat) : CtrRef :=
  if refV w then
    match hartAt? (refTile w) (refCtx w) with
    | some h =>
      match (s.hart h).run, (s.hart h).gang with
      | .idle, _ => .ctx h (BitVec.ofNat 4 (refCtr w))
      | _, some (g, r) => .member g r (BitVec.ofNat 4 (refCtr w))
      | _, none => .ctx h (BitVec.ofNat 4 (refCtr w))
    | none => .none
  else .none

/-- A counter of a context. -/
def Hart.counter (H : Hart) (c : Nat) : Word := H.ctr[c]?.getD 0

/-- The value that a reference names (R363, R364). -/
def State.refValue (s : State) : CtrRef → Word
  | .none => 0
  | .ctx h c => (s.hart h).counter c.toNat
  | .member g r c =>
    match (s.gang? g).bind (fun G => G.member? r) with
    | some m =>
      match m.saved with
      | some k => BitVec.ofNat 64 (natOf (s.imageRead k (imgCtr c.toNat) 8))
      | none => (s.hart m.ctx).counter c.toNat
    | none => 0

/-- A saved hart of a gang replaced by its image. -/
def State.updSaved (s : State) (g r : Nat) (f : Saved → Saved) : State :=
  s.updGang g (fun G => G.updMember r (fun m => { m with saved := m.saved.map f }))

/-- The counter that a reference names incremented by 1 (R364, R375), by releases of some harts at scopes (R342). -/
def State.refStep (s : State) (rs : List (HartId × Nat)) : CtrRef → State
  | .none => s
  | .ctx h c => s.updHart h (fun H => H.countUp c.toNat rs)
  | .member g r c =>
    match (s.gang? g).bind (fun G => G.member? r) with
    | some m =>
      match m.saved with
      | some k =>
        (s.imageWrite k (imgCtr c.toNat) (bytesOf 8 (natOf (s.imageRead k (imgCtr c.toNat) 8) + 1))).updSaved g r
          (fun v => { v with ctrRel := rs.foldl (fun l x => noteRel l c.toNat x) v.ctrRel })
      | none => s.updHart m.ctx (fun H => H.countUp c.toNat rs)
    | none => s

end Sys2Proof.Machine
end

