-- ==== Sys2Proof/Machine/Lanes.lean ====
section
/-!
DEFINITION. Lane partitions and the vector length (R229 to R234), and the arrival of what a crossing
carries (R150, R152).
-/

namespace Sys2Proof.Machine

/-- VSETVL (R234). -/
def execVsetvl (d a b : Reg) (e : BitVec 1) (w : BitVec 2) (p : BitVec 3) (s : State) :
    Host.Outcome State Fault Refusal :=
  let H := s.me
  .next (if H.mode ≠ 0 ∨ scopeOk p = false then s.illegal (.vsetvl d a b e w p)
  else
    let vlmax := H.vlmax w.toNat
    let lim := if s.getX b = 0 then vlmax else Nat.min (s.getX b).toNat vlmax
    let vl := Nat.min (s.getX a).toNat lim
    let vcfg := setFld (setFld (setFld (setFld H.csr.vcfg 0 (BitVec.ofNat 16 vl)) 16 w) 18 p) 21 e
    ((s.updMe (fun H => { H with csr := { H.csr with vcfg := vcfg } })).setX d (BitVec.ofNat 64 vl)).advance)

/-- The clusters that a context of a tile owns (R229). -/
def Hart.own (H : Hart) : BitVec 16 := fld H.csr.lpart 0 16

/-- The clusters granted to a context (R229). -/
def Hart.grant (H : Hart) : BitVec 16 := fld H.csr.lpart 16 16

/-- The clusters that stand for some of LPART's clusters after page moves (R326). -/
def Hart.standing (H : Hart) (m : BitVec 16) : BitVec 16 :=
  if H.relocs.isEmpty then m
  else (bitsOf m).foldl (fun r c => setBit r ((assoc H.relocs c).getD c) true) 0

/-- The clusters that the other contexts of a hart's tile own. -/
def State.othersOwn (s : State) (h : HartId) : BitVec 16 :=
  (hartsOf (tileOf h)).foldl (fun m k => if k = h then m else m ||| (s.hart k).standing (s.hart k).own) 0

/-- The clusters of a tile that page moves have freed for a chosen candidate (R376). -/
def State.freedFor (s : State) (t : Fin 224) : BitVec 16 :=
  ((s.die (dieOf t)).freed.filter (fun e => e.1 == t.val)).foldl (fun m e => setBit m e.2 true) 0

/-- How many other contexts of a hart's tile own lanes. -/
def State.othersWithLanes (s : State) (h : HartId) : Nat :=
  ((hartsOf (tileOf h)).filter (fun k => k != h && (s.hart k).own != 0)).length

/-- The clusters that a request of `n` gets (R231): the lowest-numbered free ones of the grant,
but for those that R376 keeps for a candidate. -/
def State.clustersFor (s : State) (h : HartId) (n : Nat) : BitVec 16 :=
  let n := if s.othersWithLanes h = 2 then 0 else n
  ((bitsOf ((s.hart h).grant &&& ~~~(s.othersOwn h) &&& ~~~(s.freedFor (tileOf h)))).take n).foldl (fun m c => setBit m c true) 0

/-- A hart that takes `n` clusters (R231): its vector state starts at 0, and its windows are undeclared when
OWN changes (R277). -/
def State.takeClusters (s : State) (h : HartId) (n : Nat) : State :=
  let own := s.clustersFor h n
  s.updHart h (fun H =>
    { H.setVl 0 with
      csr := { H.csr with lpart := setFld H.csr.lpart 0 own, vcfg := (H.setVl 0).csr.vcfg }
      v := Vector.replicate 32 0
      m := Vector.replicate 7 0
      vdirty := Vector.replicate 32 0
      relocs := []
      wins := if own = H.own then H.wins else Vector.replicate 4 Window.reset })

/-- LPART (R231). -/
def execLpart (d a : Reg) (s : State) : Host.Outcome State Fault Refusal :=
  let H := s.me
  .next (if H.mode ≠ 0 then s.illegal (.lpart d a)
  else if H.ports.any (fun p => p.isOpen) then s.trap .laneState (s.getX a)
  else
    let n := Nat.min (s.getX a).toNat 16
    let s := if n = popcount H.own then s else s.takeClusters s.cur n
    (s.setX d (BitVec.ofNat 64 (popcount s.me.own))).advance)

/-- CROSSING_GROUP_ARRIVAL (R150): the oldest item on its way to a port enters the port's buffer. -/
def execCrossingGroupArrival (h : HartId) (port : BitVec 2) (s : State) :
    Host.Outcome State Fault Refusal :=
  .next (s.updHart h (fun H =>
    let p := H.ports[port.toNat]'port.isLt
    match p.flight with
    | [] => H
    | it :: rest =>
      { H with ports := H.ports.set port.toNat { p with items := p.items ++ [it], flight := rest } port.isLt }))

end Sys2Proof.Machine
end

