-- ==== Sys2Proof/Machine/Halt.lean ====
section
/-!
DEFINITION. Debug halts and the debug events (R440 to R442).
-/

namespace Sys2Proof.Machine

/-- Strips in the window of a read stream land in its strip buffer, at most `n`. -/
def Stream.landStrips (t : Stream) : Nat → Stream
  | 0 => t
  | n + 1 => t.arrive.landStrips n

/-- The strips on the way land in the strip buffer, which holds at most 128 (R172, R440, drain mode). -/
def Stream.landAll (t : Stream) : Stream := if t.desc.dir then t else t.landStrips 128

/-- What of a hart's streams is in transit lands, and each copy takes what has landed, which ends at a strip boundary or where
the destination's buffer is full (R440, drain mode). -/
def Hart.landStreams (H : Hart) : Hart :=
  (List.range 16).foldl Hart.runCopy { H with streams := H.streams.map Stream.landAll }

/-- A hart halts at a boundary (R440, R441, R442): its context is Halted, its stream entries go SUSPENDED,
and in drain mode what is in transit lands first. CAUSE is 0 for a request, 1 for `ebreak`, 2 for a
step. -/
def State.haltHart (s : State) (h : HartId) (cause : Nat) : State :=
  (s.setStreamEntries h (fun _ => 1)).updHart h (fun H =>
    let H := if H.dbg.ctl.getLsbD 2 then H else H.landStreams
    { H with
      run := .halted
      wait := .none
      dbg := { H.dbg with
        stat := setFld 1#64 2 (BitVec.ofNat 2 cause)
        pc := H.pc
        haltReq := false
        stepping := false } })

/-- HALTREQ (R440, R442): a halt of a placed hart is requested. -/
def execHaltreq (h : HartId) (s : State) : Host.Outcome State Fault Refusal :=
  .next (if (s.hart h).run = .idle ∨ (s.hart h).run = .halted then s
    else s.updHart h (fun H => { H with dbg := { H.dbg with haltReq := true } }))

/-- HALT_ACK (R440): a requested halt is acknowledged at the boundary that the hart stands at. -/
def execHaltAck (h : HartId) (s : State) : Host.Outcome State Fault Refusal :=
  .next (if (s.hart h).dbg.haltReq && (s.hart h).run != .idle && (s.hart h).run != .halted
    then s.haltHart h 0 else s)

/-- RESUMEREQ (R442). -/
def execResumereq (h : HartId) (s : State) : Host.Outcome State Fault Refusal := .next (s.resumeHalted h)

/-- DBGCMD_READ (R442): command 1 on REGNO. -/
def execDbgcmdRead (h : HartId) (regno : BitVec 16) (s : State) : Host.Outcome State Fault Refusal :=
  .next (if (s.hart h).run = .idle then s else s.dbgReg h false regno.toNat)

/-- DBGCMD_WRITE (R442): command 2 on REGNO. -/
def execDbgcmdWrite (h : HartId) (regno : BitVec 16) (s : State) : Host.Outcome State Fault Refusal :=
  .next (if (s.hart h).run = .idle then s else s.dbgReg h true regno.toNat)

end Sys2Proof.Machine
end

