-- ==== Sys2Proof/Machine/System.lean ====
section
/-!
DEFINITION. Environment calls, breakpoints, the return from a trap, waiting for an interrupt, taking an
interrupt, hints, and words that are no instruction (R32, R33, R224, R228, R423, R424).
-/

namespace Sys2Proof.Machine

/-- ECALL (R424). -/
def execEcall (s : State) : Host.Outcome State Fault Refusal := .next (s.trap .envCall 0)

/-- EBREAK (R424, R441). -/
def execEbreak (s : State) : Host.Outcome State Fault Refusal :=
  .next (if s.me.dbg.ctl.getLsbD 3 then s.haltHart s.cur 1 else s.trap .breakpoint 0)

/-- SRET (R424). -/
def execSret (s : State) : Host.Outcome State Fault Refusal :=
  .next (if s.me.sup then s.updMe Hart.leaveTrap else s.illegal .sret)

/-- The interrupts that are pending for a hart, by code (R418, R423). -/
def State.pendingIrqs (s : State) (h : HartId) : BitVec 5 := fld (s.sstat h) 24 5

/-- WFI (R224, R423). -/
def execWfi (s : State) : Host.Outcome State Fault Refusal :=
  .next (if s.pendingIrqs s.cur = 0 then s.waitIn .wfi else s.advance)

/-- The interrupt is eligible at the hart's level (R423). -/
def State.eligible (s : State) (h : HartId) (c : Nat) : Bool :=
  let H := s.hart h
  (s.pendingIrqs h).getLsbD c && (!H.sup || (H.csr.sstat.getLsbD 1 && H.csr.sstat.getLsbD (16 + c)))

/-- The eligible interrupt of the highest code (R423). -/
def State.nextIrq (s : State) (h : HartId) : Option Nat := [4, 3, 2, 1, 0].find? (s.eligible h)

/-- The interrupt that the hart whose turn it is takes now: a WFI that waits retires first, so that the
interrupt is taken at the boundary after it (R423). -/
def State.dueIrq (s : State) : Option Nat :=
  if s.me.run = .waiting ∧ s.me.wait = .wfi then none else s.nextIrq s.cur

/-- INTERRUPT_ENTRY (R420, R423, R439): the hart whose turn it is takes its eligible interrupt of the highest
code; TVAL of a context-moved interrupt holds where the hart was and is. -/
def execInterruptEntry (s : State) : Host.Outcome State Fault Refusal :=
  .next (if s.me.run = .running ∨ s.me.run = .waiting then
      match s.dueIrq with
      | some c => s.updMe (fun H => H.enterTrap true c (if c = 4 then H.moved else 0) H.pc)
      | none => s
    else s)

/-- NOP (R33). -/
def execNop (_x : BitVec 21) (s : State) : Host.Outcome State Fault Refusal := .next s.advance
/-- PREFETCH_READ (R228): a line that it brings to a cache comes there by an act of the agenda (log 8). -/
def execPrefetchRead (_a : Reg) (_i : BitVec 16) (s : State) : Host.Outcome State Fault Refusal :=
  .next s.advance
/-- PREFETCH_OWN (R228), as PREFETCH_READ. -/
def execPrefetchOwn (_a : Reg) (_i : BitVec 16) (s : State) : Host.Outcome State Fault Refusal :=
  .next s.advance
/-- ISSUE_PAUSE_HINT (R228). -/
def execIssuePauseHint (_x : BitVec 21) (s : State) : Host.Outcome State Fault Refusal := .next s.advance
/-- HINT (R33, R228). -/
def execHint (_kind : BitVec 5) (_x : BitVec 21) (s : State) : Host.Outcome State Fault Refusal :=
  .next s.advance

/-- ILLEGAL_INSTRUCTION (R32, R52): TVAL is the word. -/
def execIllegalInstruction (w : BitVec 32) (s : State) : Host.Outcome State Fault Refusal :=
  .next (s.trap .illegalInstruction (w.setWidth 64))

end Sys2Proof.Machine
end

