-- ==== Sys2Proof/Machine/Fetch.lean ====
section
/-!
DEFINITION. Fetching the instruction at the PC (R26 to R29, R42, R43, R427) and the checks of a convoy
header (R42).
-/

namespace Sys2Proof.Machine

/-- TVAL of an illegal convoy (R43). -/
def convoyTval (reason : Nat) (slot : Option Nat) (header : BitVec 32) : Word :=
  let w : Word := setFld (header.setWidth 64) 36 (BitVec.ofNat 4 reason)
  match slot with
  | some k => setFld (setBit w 34 true) 32 (BitVec.ofNat 2 k)
  | none => w

/-- Fields of a convoy header (R34). -/
def slotsOf (header : BitVec 32) : Nat := (fld header 24 2).toNat + 1
def unitOf (header : BitVec 32) (k : Nat) : Nat := (fld header (12 + 3 * k) 3).toNat
def chainOf (header : BitVec 32) (k : Nat) : Bool := header.getLsbD (8 + k)

/-- The first failure of the checks that come before the vector words are fetched (R42, orders 1 to 4):
its reason and slot. -/
def headerFault (pc : Word) (header : BitVec 32) : Option (Nat × Option Nat) :=
  let n := slotsOf header
  let used := List.range n
  let rest := (List.range 4).filter (fun k => decide (n ≤ k))
  if pc.getLsbD 2 = false then some (1, none)
  else if fld header 0 8 != 0 || chainOf header 0
      || rest.any (fun k => unitOf header k != 0 || chainOf header k) then some (2, none)
  else match used.find? (fun k => decide (6 ≤ unitOf header k)) with
    | some k => some (3, some k)
    | none =>
      if 1 < n && used.any (fun k => decide (4 ≤ unitOf header k)) then some (4, none) else none

/-- What a fetch finds: a value, a trap, or a page that the host must translate first. -/
inductive Fetched (α : Type) where
  | got (a : α)
  | trap (c : Cause) (tval : Word)
  | askHost (page : Nat)
  deriving DecidableEq, Repr

/-- The `n` bytes of a cell as the tile's instruction cache holds them, if it does (R16, R223). -/
def Tile.code (T : Tile) (cell key n : Nat) : Option (List Byte) :=
  (T.icache.find? (fun l => l.cell == cell / 128 * 128 && l.key == key)).map (fun l => (l.bytes.drop (cell % 128)).take n)

/-- The line of a cell taken into the instruction cache of a hart's tile as a fetch reads it now; the cache of 64 KiB holds
512 of them (R16). -/
def State.codeFill (s : State) (h : HartId) (va : Nat) : State :=
  match s.reach h (s.hart h).sup .fetch va with
  | .to l c =>
    let a := c / 128 * 128
    if s.poisoned (l.pa / 128 * 128) 128 then s
    else s.updTile (tileOf h) (fun T => { T with
      icache := (⟨a, l.key, s.read (.engine h) a l.key 128⟩ :: T.icache.filter (fun x => x.cell != a)).take 512 })
  | _ => s

/-- A fetch of `n` bytes at a virtual address: a fault is an instruction fetch fault, but for a poisoned
sector or table entry (R29, R427, R429). -/
def State.fetchAt (s : State) (va : Word) (n : Nat) : Fetched Nat :=
  match s.reach s.cur s.me.sup .fetch va.toNat with
  | .to l c =>
    match (s.tile (tileOf s.cur)).code c l.key n with
    | some bs => .got (natOf bs)
    | none =>
      if s.poisoned l.pa n then .trap .memoryError va else .got (natOf (s.read (.engine s.cur) c l.key n))
  | .fault .memoryError => .trap .memoryError va
  | .fault _ => .trap .fetchFault va
  | .askHost p => .askHost p

/-- The `n` vector words from an address up (R26, R29). -/
def State.fetchWords (s : State) (va : Word) : Nat → Fetched (List (BitVec 64))
  | 0 => .got []
  | n + 1 =>
    match s.fetchAt va 8 with
    | .trap c v => .trap c v
    | .askHost p => .askHost p
    | .got w =>
      match s.fetchWords (va + 8) n with
      | .got ws => .got (BitVec.ofNat 64 w :: ws)
      | .trap c v => .trap c v
      | .askHost p => .askHost p

/-- The instruction at the PC of the hart whose turn it is (R27 to R29, R42). -/
def State.fetch (s : State) : Fetched Instr :=
  match s.fetchAt s.pc 4 with
  | .trap c v => .trap c v
  | .askHost p => .askHost p
  | .got w =>
    let word := BitVec.ofNat 32 w
    if fld word 26 6 = 0x3E then
      match headerFault s.pc word with
      | some (r, k) => .trap .illegalConvoy (convoyTval r k word)
      | none =>
        match s.fetchWords (s.pc + 4) (slotsOf word) with
        | .got ws => .got (.convoy word ws)
        | .trap c v => .trap c v
        | .askHost p => .askHost p
    else .got (decodeScalar word)

end Sys2Proof.Machine
end

