-- ==== Sys2Proof/Machine/Convoy.lean ====
section
/-!
DEFINITION. Convoys: the checks before any slot issues (R36, R37, R41 to R43, R47, R268, R270), the working
state of an element group (R46), and the accesses that the slots of a group make (R263, R264, R265).
-/

namespace Sys2Proof.Machine

/-! ### Slots and their checks -/

/-- A slot of a convoy: its number, form and fields. -/
structure Slot where
  n : Nat
  op : VOp
  w : VFields
  deriving DecidableEq, Repr

/-- The major is legal in a lane mode (R41). -/
def majorLegal (mode major : Nat) : Bool :=
  match mode with
  | 0 => decide (1 ≤ major ∧ major ≤ 0x0F) || major == 0x13 || major == 0x14
  | 1 => decide (0x10 ≤ major ∧ major ≤ 0x12) || major == 0x14
  | _ => major == 0x13 || major == 0x14

/-- The functions of major 0x13 that a lane mode admits (R327): in vector mode `fload` and `fstat`, in
fabric mode every one. -/
def fabricLegal (mode : Nat) (o : VOp) : Bool :=
  match o with
  | .fload | .fstat => true
  | .fgo | .fgoResume | .fdrain | .frel => mode == 2
  | _ => true

/-- The group width code of a convoy (R237). -/
def groupWidth (H : Hart) (sl : List Slot) : Nat :=
  match sl.flatMap (fun t => t.op.widths t.w) with
  | [] => (fld H.csr.vcfg 16 2).toNat
  | ws => maxNat ws

/-- The rounding rule of R278 that depends on the operation of the window. DEDUCED (log 17). -/
def windowRmOk (H : Hart) (t : Slot) : Bool :=
  match t.op with
  | .vacc | .accmerge =>
    match H.wins[t.w.selNat 9 2]? with
    | some W => !(W.on && W.op != .sum) || t.w.rm == 0
    | none => true
  | _ => true

/-- The reason of order 6 of R42 that a slot fails for, on its own. -/
def slotFault (H : Hart) (unit : Nat) (word : BitVec 64) : Except Nat (VOp × VFields) :=
  let major := (fld word 58 6).toNat
  match unitOfMajor major with
  | none => .error 5
  | some u =>
    if u ≠ unit then .error 6
    else if !majorLegal H.mode major || H.lanes = 0 then .error 7
    else match decodeVector word with
      | none => .error 8
      | some (o, w) =>
        if !fabricLegal H.mode o then .error 7
        else if o.fieldsOk w && windowRmOk H ⟨0, o, w⟩ then .ok (o, w) else .error 8

/-- The group width that the slots of a convoy name, those slots apart that no form decodes from (R237). -/
def wordsWidth (H : Hart) (words : List (BitVec 64)) : Nat :=
  groupWidth H (words.filterMap (fun x => (decodeVector x).map (fun p => ⟨0, p.1, p.2⟩)))

/-- Order 6 of R42 over the slots, with the two-slot rules of R268 and R270 and the width rule of R260 against
the group width `gw`. -/
def slotFaults (H : Hart) (header : BitVec 32) (many : Bool) (gw : Nat) :
    Nat → List (BitVec 64) → List Slot → Except (Nat × Option Nat) (List Slot)
  | _, [], acc => .ok acc
  | k, word :: rest, acc =>
    match slotFault H (unitOf header k) word with
    | .error r => .error (r, some k)
    | .ok (o, w) =>
      if (many && o.alone) || (o.setsVl && acc.any (fun t => t.op.setsVl))
          || (o.uses w).strm.any (fun n => acc.any (fun t => (t.op.uses t.w).strm.contains n))
          || ((o == .vxsend || o == .vxrecv) && w.width.toNat != gw)
      then .error (8, some k)
      else slotFaults H header many gw (k + 1) rest (acc ++ [⟨k, o, w⟩])

/-- Vector and mask registers, and reply registers, that a slot reads or writes (R36, R37). -/
structure Regs where
  v : List Nat := []
  m : List Nat := []
  x : List Nat := []
  f : List Nat := []
  deriving DecidableEq, Repr

/-- Every register that a slot reads, its scalar operands among them (R47). -/
def Slot.operands (t : Slot) : Regs :=
  { v := (t.op.uses t.w).vr, m := (t.op.uses t.w).mr, x := (t.op.uses t.w).xr, f := (t.op.uses t.w).fr }
def Slot.reads (t : Slot) : Regs := { v := (t.op.uses t.w).vr, m := (t.op.uses t.w).mr }
def Slot.writes (t : Slot) : Regs :=
  { v := (t.op.uses t.w).vw, m := (t.op.uses t.w).mw,
    x := (t.op.uses t.w).xw.filter (fun r => r != 0), f := (t.op.uses t.w).fw }

def Regs.meets (a b : Regs) : Bool :=
  a.v.any (fun r => b.v.contains r) || a.m.any (fun r => b.m.contains r)
    || a.x.any (fun r => b.x.contains r) || a.f.any (fun r => b.f.contains r)

/-- The rule of a form that two of its register fields differ (R254, R273). -/
def Slot.distinct (t : Slot) : Bool :=
  match t.op with
  | .vcvtMx => t.w.vd != t.w.va && t.w.vb != t.w.va && t.w.vd != t.w.vb
  | .vcompress | .vexpand => t.w.vd != t.w.va
  | _ => true

/-- The register rules of a slot against the slots before it (R37, R47). -/
def regRule (t : Slot) (before : List Slot) : Bool :=
  t.distinct
    && !(before.any (fun u => t.writes.meets u.reads || t.writes.meets u.writes
        || ((u.op.whole || t.op.whole) && t.operands.meets u.writes)))

/-- The chain bit that a slot must have (R36). -/
def chainRule (t : Slot) (before : List Slot) : Bool := before.any (fun u => t.reads.meets u.writes)

/-- A slot after the slots before it. -/
def withBefore : List Slot → List Slot → List (Slot × List Slot)
  | _, [] => []
  | before, t :: rest => (t, before) :: withBefore (before ++ [t]) rest

/-- The convoy is one of matrix mode or of the fabric: one group, in which VL plays no part (R287, R327). -/
def oneGroup (sl : List Slot) : Bool :=
  match sl with
  | t :: _ => decide (0x10 ≤ t.op.major.toNat ∧ t.op.major.toNat ≤ 0x13)
  | [] => false

/-- The convoy holds a form of matrix mode, which issues with VSTART.ELEM 0 only (R287). -/
def matrixForm (sl : List Slot) : Bool := oneGroup sl && !(sl.any (fun t => t.op.major.toNat == 0x13))

/-- Elements in a group of the convoy (R237). -/
def groupSize (H : Hart) (sl : List Slot) : Nat := groupElems H.lanes (groupWidth H sl)

/-- The checks of R42 on a fetched convoy: its slots, or the reason and slot of the first failure. -/
def convoyCheck (H : Hart) (header : BitVec 32) (words : List (BitVec 64)) :
    Except (Nat × Option Nat) (List Slot) :=
  match headerFault H.pc header with
  | some r => .error r
  | none =>
    match slotFaults H header (decide (1 < words.length)) (wordsWidth H words) 0 words [] with
    | .error r => .error r
    | .ok sl =>
      let pairs := withBefore [] sl
      match pairs.find? (fun p => !regRule p.1 p.2) with
      | some p => .error (9, some p.1.n)
      | none =>
        match pairs.find? (fun p => chainOf header p.1.n != chainRule p.1 p.2) with
        | some p => .error (10, some p.1.n)
        | none =>
          let elem := (fld H.csr.vstart 0 16).toNat
          if matrixForm sl then (if elem = 0 then .ok sl else .error (11, none))
          else if elem % groupSize H sl = 0 then .ok sl else .error (11, none)

/-! ### The working state of a group -/

/-- How a store that a group holds is performed: with its slot's others in a granule (R338), on its own in its turn
(R265), as an atomic update (R281), or into a private copy, whose bit it sets (R279). -/
inductive How where
  | plain | ordered | atomic | copy
  deriving DecidableEq, Repr

/-- A store that its group holds until it commits (R46): the slot, the bytes, and how they are performed. -/
structure Held where
  slot : Nat
  d : Delayed
  how : How
  deriving DecidableEq, Repr

/-- The working state of an element group: the hart as the group leaves it, the stores it holds, the items
it sends, the replies, the bits for the branch queue, the VL from the next convoy on, and the granules that it read
early (R353). -/
structure Grp where
  h : Hart
  held : List Held
  sends : List (Nat × Item)
  replies : List (Bool × Nat × Word)
  pushes : List Bool
  newVl : Option Nat
  used : List Nat

/-- What a convoy runs under: its slot's number, its lanes, group size, group width, and VL. -/
structure Ctx where
  slot : Nat
  lanes : Nat
  size : Nat
  width : Nat
  vl : Nat
  deriving DecidableEq, Repr

/-- An operation of a slot in a group. What it does to the machine beside the group's own effects, such as
parking and splits, stays when the group is discarded. -/
abbrev GOp := StateT Grp (EStateM Stop State)

/-- The hart as the group has it so far. -/
def gHart : GOp Hart := do return (← get).h

/-- The hart of the group replaced by its image. -/
def gMod (f : Hart → Hart) : GOp Unit := modify (fun G => { G with h := f G.h })

/-- The machine outside the group. -/
def gState : GOp State := fun G s => .ok (s, G) s

/-- End the group with a trap. -/
def gTrap {α : Type} (c : Cause) (tval : Word) : GOp α := fun _ s => .error (.trap c tval) s

/-- End the group with a wait. -/
def gWait {α : Type} (w : Wait) : GOp α := fun _ s => .error (.wait w) s

/-- Trap unless the condition holds. -/
def gCheck (b : Bool) (c : Cause) (tval : Word) : GOp Unit := if b then pure () else gTrap c tval

/-- An operation on the machine outside the group. -/
def gLift {α : Type} (op : Op α) : GOp α := fun G s =>
  match op s with
  | .ok a s' => .ok (a, G) s'
  | .error e s' => .error e s'

/-- HWM of a register after a slot covers its elements up to `last` at a width code (R241). -/
def Hart.cover (H : Hart) (r w last : Nat) : Hart :=
  let old := (H.vdirty[r]?.getD 0).toNat
  { H with vdirty := H.vdirty.setIfInBounds r (BitVec.ofNat 3 (Nat.max old (1 + last / groupElems H.lanes w))) }

/-- The elements from `lo` up to but not with `hi`. -/
def elems (lo hi : Nat) : List Nat := List.range' lo (hi - lo)

/-- The elements that are active (R243). -/
def Hart.active (H : Hart) (mask : BitVec 3) (l : List Nat) : List Nat := l.filter (fun i => H.bit mask.toNat i)

/-- A form that gives each element of `vd` on its own (R243): `f` sees the hart before the slot. -/
def mapElems (w : VFields) (width : Nat) (f : Hart → Nat → Nat × Flags) (lo hi : Nat) : GOp Unit :=
  gMod (fun H0 =>
    let H := (H0.active w.mask (elems lo hi)).foldl (fun (H : Hart) i =>
      let r := f H0 i
      (H.putElem w.vd.toNat width i r.1).raise r.2) H0
    H.cover w.vd.toNat width (hi - 1))

/-- A form that gives each bit of mask register `vd` on its own (R248, R249). -/
def mapBits (w : VFields) (f : Hart → Nat → Bool × Flags) (lo hi : Nat) : GOp Unit :=
  gMod (fun H0 =>
    (H0.active w.mask (elems lo hi)).foldl (fun (H : Hart) i =>
      let r := f H0 i
      (H.putBit w.vd.toNat i r.1).raise r.2) H0)

/-- A value for the reply queue, written when the convoy retires (R239). -/
def reply (float : Bool) (r : Nat) (v : Word) : GOp Unit :=
  modify (fun G => { G with replies := G.replies ++ [(float, r, v)] })

/-! ### Accesses of a group -/

/-- Where an accessed element is (R263): its address, leaf and cell, after misalignment, translation,
permission, key, region and reservations. -/
structure At where
  i : Nat
  va : Word
  leaf : Leaf
  cell : Nat
  deriving DecidableEq, Repr

/-- The accessed elements found in ascending index (R263, R422); an atomic also where it may run (R207). An entry that traps
one of them traps the access before any split is made for another (R132). -/
def reachEach (kind : Kind) (size : Nat) (addr : Nat → Word) (atomic : Bool := false) :
    List Nat → GOp (List At)
  | [] => return []
  | i :: rest => do
    let (l, c) ← gLift (reachOp kind (addr i) size)
    let s ← gState
    gCheck (!atomic || s.atomicOk l.pa) .atomic (addr i)
    gCheck (!s.meetsTrap (.hart s.cur) [l.pa / 128] (kind == .write)) .reservation (addr i)
    let t ← reachEach kind size addr atomic rest
    return ⟨i, addr i, l, c⟩ :: t

/-- The lines of accessed elements checked one by one (R129, R132). -/
def checkLines (write : Bool) (ps : List At) : GOp Unit :=
  ps.forM (fun p => gLift (checkLine p.leaf.pa p.leaf.key p.va write))

/-- The accessed elements found, and then accepted line by line (R132, R263). -/
def reachAll (kind : Kind) (size : Nat) (addr : Nat → Word) (atomic : Bool := false) (is : List Nat) : GOp (List At) := do
  let ps ← reachEach kind size addr atomic is
  checkLines (kind == .write) ps
  return ps

/-- The scope that orders a hart's vector accesses (R264). -/
def Hart.vscope (H : Hart) : Nat := (fld H.csr.vcfg 18 3).toNat

/-- The access is element-ordered (R265), or one of a granule (R338). -/
def Hart.ordered (H : Hart) (p : At) : How :=
  if H.csr.vcfg.getLsbD 21 || pteH p.leaf.pte then .ordered else .plain

/-- The bytes of an element as a slot of the group reads them: what the hart's vector side sees, under the stores that
the group holds (R46, R339). -/
def Grp.view (G : Grp) (s : State) (p : At) (size : Nat) : Nat :=
  natOf (overlayAll (G.held.map (fun e => e.d)) p.cell (s.read (.side s.cur false) p.cell p.leaf.key size))

/-- The granule of an element, if the hart's vector side has read it early (R338, R353): an element-ordered access has
not. -/
def State.earlyGranule (s : State) (p : At) : Option Early :=
  if s.me.ordered p = .ordered then none
  else s.early.find? (fun e => e.hart == s.cur && !e.scalar && e.cell == p.cell / 16 * 16 && e.key == p.leaf.key)

/-- An element read (R111, R263). What was read early of its granule is used up, or is older than what is read now (R337);
a store of the hart's vector side that it returns has been observed (R340). -/
def readAt (p : At) (size : Nat) : GOp Nat := do
  let s ← gState
  let G ← get
  set { G with used := p.cell / 16 * 16 :: G.used }
  gLift (modify (fun s => s.observe s.cur p.cell size))
  match s.earlyGranule p with
  | some e =>
    return natOf (overlayAll (G.held.map (fun e => e.d)) p.cell ((e.bytes.drop (p.cell % 16)).take size))
  | none =>
    gCheck (!s.poisoned p.leaf.pa size) .memoryError p.va
    return G.view s p size

/-- The early loads of the hart's vector side at some elements are given up, for a form that reads the present
value (R281, R384). -/
def readNow (ps : List At) (size : Nat) : GOp Unit :=
  gLift (modify (fun s => ps.foldl (fun s p => s.forgetAt s.cur false p.cell size) s))

/-- An element's store held by the group; `rel` where its form is a release (R264). -/
def hold (c : Ctx) (p : At) (size v : Nat) (how : How) (rel : Bool) : GOp Unit := do
  let s ← gState
  modify (fun G => { G with held := G.held ++
    [⟨c.slot, ⟨s.cur, false, 0, p.cell, (bytesOf size v).map some, p.leaf.key,
      if rel then some G.h.vscope else none, false⟩, how⟩] })

/-! ### The commit of a group -/

/-- A store of the vector side performed at once, after the stores to those bytes that it sees (R337). -/
def State.storeNow (s : State) (d : Delayed) : State :=
  let s := s.forgetAt s.cur false d.pa d.bytes.length
  (s.drain (fun e => e.seenBy (.side s.cur false) && e.meets d.pa d.bytes.length)).performStore d

/-- A gathered store without the bytes that a later store writes. -/
def Delayed.under (d e : Delayed) : Delayed :=
  { d with bytes := d.bytes.mapIdx (fun i b => if (e.at (d.pa + i)).isSome then none else b) }

/-- A held store performed on its own (R265, R279, R281). -/
def State.performHeld (s : State) (e : Held) : State :=
  match e.how with
  | .atomic =>
    (s.update s.cur false e.d.pa e.d.key e.d.bytes.length
      (fun _ => natOf (e.d.bytes.map (fun b => b.getD 0))) e.d.rel).2
  | .copy => (s.storeNow e.d).setFull e.d.pa true
  | _ => s.storeNow e.d

/-- The stores of a slot write every byte of a sector (R111). -/
def wholeSector (ds : List Delayed) (sector : Nat) : Bool :=
  (List.range 32).all (fun b => ds.any (fun d => (d.at (sector * 32 + b)).isSome))

/-- The gathered stores of a slot leave the group. A group that writes all of a poisoned sector does so in
one request, which clears the poison (R111). -/
def State.flushStores (s : State) (ds : List Delayed) : State :=
  let clean := s.poison.filter (fun q => wholeSector ds q)
  let s := { s with poison := s.poison.filter (fun q => !clean.contains q) }
  ds.foldl (fun s d =>
    if clean.contains (d.pa / 32) then s.storeNow d else s.store s.cur false d.pa d.key d.bytes d.rel) s

/-- The held stores of a group performed or delayed, slot by slot (R46, R264): the plain ones of a slot together, one
write for each granule (R338), and the others in their turn. -/
def State.commitHeld (s : State) (acc : List Delayed) (slot : Nat) : List Held → State
  | [] => s.flushStores acc
  | e :: t =>
    let fresh := e.slot != slot
    let s := if fresh then s.flushStores acc else s
    let s := match e.d.rel with
      | some scope => if fresh then s.release s.cur false scope else s
      | none => s
    let acc := if fresh then [] else acc
    if e.how = .plain then s.commitHeld (gatherStore 16 acc e.d) e.slot t
    else (s.performHeld e).commitHeld (acc.map (fun d => d.under e.d)) e.slot t

/-- A group sent on a crossing is on its way to the receiving tile (R150, R260). -/
def State.sendItem (s : State) (port : Nat) (it : Item) : State :=
  match s.me.ports[port]? with
  | some p =>
    s.updHart p.peer (fun H => match H.ports[p.peerPort]? with
      | some q => { H with ports := H.ports.setIfInBounds p.peerPort { q with flight := q.flight ++ [it] } }
      | none => H)
  | none => s

/-- Every effect of a group becomes architectural (R46). -/
def State.commitGroup (s : State) (G : Grp) : State :=
  let s := s.updMe (fun H => { G.h with delays := H.delays })
  let s := (s.forgetWhere (fun e => e.hart == s.cur && !e.scalar && G.used.contains e.cell)).commitHeld [] 4 G.held
  G.sends.foldl (fun s e => s.sendItem e.1 e.2) s

/-- The replies of a retiring convoy written (R239). -/
def Hart.writeReplies (H : Hart) (rs : List (Bool × Nat × Word)) : Hart :=
  rs.foldl (fun (H : Hart) r =>
    if r.1 then H.setF (BitVec.ofNat 5 r.2.1) r.2.2 else H.setX (BitVec.ofNat 5 r.2.1) r.2.2) H

end Sys2Proof.Machine
end

