-- ==== Sys2Proof/Machine/Fp.lean ====
section
/-!
DEFINITION. Scalar floating point: majors 0x0B and 0x0C (R219 to R221).
-/

namespace Sys2Proof.Machine

/-- The format of a scalar format field: 0 f64, 1 f32, 2 f16, 3 bf16 (R220). -/
def scalarFmt (f : Nat) : FFmt :=
  match f with
  | 0 => fmtF64
  | 1 => fmtF32
  | 2 => fmtF16
  | _ => fmtBf16

/-- The encoding that an operand register holds: a narrower value that is not boxed reads as the canonical
NaN (R219). -/
def unbox (f : FFmt) (w : Word) : Nat :=
  if f.bits = 64 then w.toNat
  else if w.toNat / 2 ^ f.bits + 1 = 2 ^ (64 - f.bits) then w.toNat % 2 ^ f.bits
  else f.nan

/-- A value boxed in a register (R219). -/
def box (f : FFmt) (v : Nat) : Word := boxed (f.bits / 8) v

/-- The encoding of an `f` register under a format. -/
def State.fbits (s : State) (f : FFmt) (r : Reg) : Nat := unbox f (s.getF r)

/-- The value of an `f` register under a format, with FTZ (R90). -/
def State.fval (s : State) (f : FFmt) (r : Reg) : FVal := f.decode s.me.ftz (s.fbits f r)

/-- A floating result with its flags. -/
def State.putF (s : State) (f : FFmt) (d : Reg) (r : Nat × Flags) : State :=
  ((s.setF d (box f r.1)).updMe (fun H => H.raise r.2)).advance

/-- An integer result with its flags. -/
def State.putX (s : State) (d : Reg) (w : Word) (fl : Flags) : State :=
  ((s.setX d w).updMe (fun H => H.raise fl)).advance

/-- An exact result rounded once to a format under a selector (R84). -/
def State.roundF (s : State) (f : FFmt) (r : BitVec 3) (v : FVal × Flags) : Nat × Flags :=
  let (b, fl) := f.round (.mode (s.me.rmode r)) false s.me.ftz v.1
  (b, fl ||| v.2)

/-- A two-operand form that rounds (R220). -/
def fpBin (op : Bool → FVal → FVal → FVal × Flags) (d a b : Reg) (r f : BitVec 3) (s : State) :
    Host.Outcome State Fault Refusal :=
  let F := scalarFmt f.toNat
  .next (s.putF F d (s.roundF F r (op (s.me.rmode r == .rdn) (s.fval F a) (s.fval F b))))

/-- FADD (R220). -/
def execFadd (d a b : Reg) (r f : BitVec 3) (s : State) : Host.Outcome State Fault Refusal :=
  fpBin FVal.add d a b r f s
/-- FSUB (R220). -/
def execFsub (d a b : Reg) (r f : BitVec 3) (s : State) : Host.Outcome State Fault Refusal :=
  fpBin (fun rdn x y => x.add rdn y.neg) d a b r f s
/-- FMUL (R220). -/
def execFmul (d a b : Reg) (r f : BitVec 3) (s : State) : Host.Outcome State Fault Refusal :=
  fpBin (fun _ x y => x.mul y) d a b r f s
/-- FDIV (R220). -/
def execFdiv (d a b : Reg) (r f : BitVec 3) (s : State) : Host.Outcome State Fault Refusal :=
  fpBin (fun _ x y => x.div y) d a b r f s
/-- FSQRT (R220). -/
def execFsqrt (d a : Reg) (r f : BitVec 3) (s : State) : Host.Outcome State Fault Refusal :=
  let F := scalarFmt f.toNat
  .next (s.putF F d (s.roundF F r (s.fval F a).sqrt))

/-- Minimum and maximum (R91, R220). -/
def fpMinMax (isMax : Bool) (d a b : Reg) (f : BitVec 3) (s : State) : Host.Outcome State Fault Refusal :=
  let F := scalarFmt f.toNat
  .next (s.putF F d (F.minmax s.me.ftz isMax (s.fbits F a) (s.fbits F b)))

/-- FMIN (R220). -/
def execFmin (d a b : Reg) (f : BitVec 3) (s : State) : Host.Outcome State Fault Refusal :=
  fpMinMax false d a b f s
/-- FMAX (R220). -/
def execFmax (d a b : Reg) (f : BitVec 3) (s : State) : Host.Outcome State Fault Refusal :=
  fpMinMax true d a b f s

/-- The sign bit of an encoding. -/
def FFmt.signBit (f : FFmt) (b : Nat) : Bool := b.testBit (f.e + f.m)

/-- Sign injection over encodings: the sign from the signs of both operands (R220, R250). -/
def FFmt.inject (f : FFmt) (g : Bool → Bool → Bool) (a b : Nat) : Nat :=
  f.signed (g (f.signBit a) (f.signBit b)) (a % 2 ^ (f.e + f.m))

/-- Sign injection (R220). -/
def fpSign (g : Bool → Bool → Bool) (d a b : Reg) (f : BitVec 3) (s : State) :
    Host.Outcome State Fault Refusal :=
  let F := scalarFmt f.toNat
  .next (s.putF F d (F.inject g (s.fbits F a) (s.fbits F b), 0))

/-- FSGNJ (R220). -/
def execFsgnj (d a b : Reg) (f : BitVec 3) (s : State) : Host.Outcome State Fault Refusal :=
  fpSign (fun _ y => y) d a b f s
/-- FSGNJN (R220). -/
def execFsgnjn (d a b : Reg) (f : BitVec 3) (s : State) : Host.Outcome State Fault Refusal :=
  fpSign (fun _ y => !y) d a b f s
/-- FSGNJX (R220). -/
def execFsgnjx (d a b : Reg) (f : BitVec 3) (s : State) : Host.Outcome State Fault Refusal :=
  fpSign (fun x y => x != y) d a b f s

/-- A comparison: its result and NV, which a quiet NaN sets only in the ordering forms (R220, R248). -/
def FVal.test (quiet : Bool) (p : Ordering → Bool) (a b : FVal) : Bool × Flags :=
  match a.cmp b with
  | some o => (p o, 0)
  | none => (false, if quiet then a.sig ||| b.sig else flNV)

/-- A comparison form (R220). -/
def fpCmp (quiet : Bool) (p : Ordering → Bool) (d a b : Reg) (f : BitVec 3) (s : State) :
    Host.Outcome State Fault Refusal :=
  let F := scalarFmt f.toNat
  let (t, fl) := FVal.test quiet p (s.fval F a) (s.fval F b)
  .next (s.putX d (boolWord t) fl)

/-- FEQ (R220). -/
def execFeq (d a b : Reg) (f : BitVec 3) (s : State) : Host.Outcome State Fault Refusal :=
  fpCmp true (fun o => o == .eq) d a b f s
/-- FLT (R220). -/
def execFlt (d a b : Reg) (f : BitVec 3) (s : State) : Host.Outcome State Fault Refusal :=
  fpCmp false (fun o => o == .lt) d a b f s
/-- FLE (R220). -/
def execFle (d a b : Reg) (f : BitVec 3) (s : State) : Host.Outcome State Fault Refusal :=
  fpCmp false (fun o => o != .gt) d a b f s
/-- FCLASS (R220). -/
def execFclass (d a : Reg) (f : BitVec 3) (s : State) : Host.Outcome State Fault Refusal :=
  let F := scalarFmt f.toNat
  .next (s.putX d (BitVec.ofNat 64 (F.classify (s.fbits F a))) 0)

/-- The bits and signedness of an integer type field: i32, i64, n32, n64 (R220). -/
def cvtBits (t : BitVec 2) : Nat := if t.getLsbD 0 then 64 else 32
def cvtSigned (t : BitVec 2) : Bool := !t.getLsbD 1

/-- FCVT_TO_INT (R89, R220): i32 and n32 results are sign-extended from 32 bits. -/
def execFcvtToInt (d a : Reg) (t : BitVec 2) (r f : BitVec 3) (s : State) :
    Host.Outcome State Fault Refusal :=
  let F := scalarFmt f.toNat
  let (v, fl) := (s.fval F a).toInt (.mode (s.me.rmode r)) (cvtBits t) (cvtSigned t) false
  .next (s.putX d (sextNat (cvtBits t) v) fl)

/-- The integer in a register under an integer type (R220). -/
def cvtSource (t : BitVec 2) (w : Word) : Int :=
  let v := w.toNat % 2 ^ cvtBits t
  if cvtSigned t then signedNat (cvtBits t) v else v

/-- FCVT_FROM_INT (R89, R220). -/
def execFcvtFromInt (d a : Reg) (t : BitVec 2) (r f : BitVec 3) (s : State) :
    Host.Outcome State Fault Refusal :=
  let F := scalarFmt f.toNat
  .next (s.putF F d (s.roundF F r (FVal.ofInt (cvtSource t (s.getX a)), 0)))
/-- FCVT_FMT (R88, R220). -/
def execFcvtFmt (d a : Reg) (src : BitVec 2) (r f : BitVec 3) (s : State) :
    Host.Outcome State Fault Refusal :=
  let F := scalarFmt f.toNat
  let v := s.fval (scalarFmt src.toNat) a
  .next (s.putF F d (s.roundF F r (v, v.sig)))
/-- FMV_X (R220): the raw bits of the low part of the register, sign-extended. -/
def execFmvX (d a : Reg) (f : BitVec 3) (s : State) : Host.Outcome State Fault Refusal :=
  let F := scalarFmt f.toNat
  .next (s.putX d (sextNat F.bits (s.fbits F a)) 0)
/-- FMV_F (R219, R220). -/
def execFmvF (d a : Reg) (f : BitVec 3) (s : State) : Host.Outcome State Fault Refusal :=
  let F := scalarFmt f.toNat
  .next (s.putF F d ((s.getX a).toNat % 2 ^ F.bits, 0))

/-- A fused form: ±(a × b) ± c with one rounding (R221). -/
def fpFma (negProd negC : Bool) (d a b c : Reg) (f : BitVec 1) (r : BitVec 3) (s : State) :
    Host.Outcome State Fault Refusal :=
  let F := scalarFmt f.toNat
  let x := s.fval F a
  let z := s.fval F c
  .next (s.putF F d (s.roundF F r
    ((if negProd then x.neg else x).fma (s.me.rmode r == .rdn) (s.fval F b) (if negC then z.neg else z))))

/-- FMADD (R221). -/
def execFmadd (d a b c : Reg) (f : BitVec 1) (r : BitVec 3) (s : State) :
    Host.Outcome State Fault Refusal := fpFma false false d a b c f r s
/-- FMSUB (R221). -/
def execFmsub (d a b c : Reg) (f : BitVec 1) (r : BitVec 3) (s : State) :
    Host.Outcome State Fault Refusal := fpFma false true d a b c f r s
/-- FNMADD (R221). -/
def execFnmadd (d a b c : Reg) (f : BitVec 1) (r : BitVec 3) (s : State) :
    Host.Outcome State Fault Refusal := fpFma true true d a b c f r s
/-- FNMSUB (R221). -/
def execFnmsub (d a b c : Reg) (f : BitVec 1) (r : BitVec 3) (s : State) :
    Host.Outcome State Fault Refusal := fpFma true false d a b c f r s

end Sys2Proof.Machine
end

