-- ==== Sys2Proof/Machine/VInt.lean ====
section
/-!
DEFINITION. The element-wise vector forms: integer and logic (R246, R247), compare and mask (R248, R249),
floating point (R250, R251), and the per-group permutes (R256).
-/

namespace Sys2Proof.Machine

/-! ### The second operand -/

/-- The second operand of an integer form at element `i` (R244). -/
def Hart.srcInt (H : Hart) (w : VFields) (i : Nat) : Nat :=
  let n := widthBits w.width.toNat
  match w.selNat 16 2 with
  | 0 => H.elem w.vb.toNat w.width.toNat i
  | 1 => (H.getX w.vc).toNat % 2 ^ n
  | _ => wrapInt n (signedNat 16 (w.selNat 0 16))

/-- The second operand of a floating form at element `i` (R244, R219). -/
def Hart.srcFp (H : Hart) (w : VFields) (i : Nat) : Nat :=
  if w.selNat 16 2 = 0 then H.elem w.vb.toNat w.width.toNat i
  else
    let F := fmtOfCode w.fmt.toNat
    unbox F (H.getF w.vc)

/-- The format is signed (R246). -/
def isSigned (w : VFields) : Bool := w.fmt == 0

/-! ### Integer and logic -/

/-- A form on the elements of `va` and the second operand (R246, R247): `f` sees the width in bits, whether
the format is signed, and the two operands. -/
def intForm (f : Nat → Bool → Nat → Nat → Nat × Flags) (w : VFields) (lo hi : Nat) : GOp Unit :=
  mapElems w w.width.toNat (fun H i =>
    f (widthBits w.width.toNat) (isSigned w) (H.elem w.va.toNat w.width.toNat i) (H.srcInt w i)) lo hi

/-- An element read as its format says (R74). -/
def asInt (n : Nat) (signed : Bool) (v : Nat) : Int := if signed then signedNat n v else v

/-- Quotient and remainder as R203 states, at any width (R246). -/
def vecDiv (n : Nat) (signed : Bool) (a b : Nat) : Nat :=
  if b = 0 then 2 ^ n - 1 else wrapInt n (Int.tdiv (asInt n signed a) (asInt n signed b))
def vecRem (n : Nat) (signed : Bool) (a b : Nat) : Nat :=
  if b = 0 then a else wrapInt n (Int.tmod (asInt n signed a) (asInt n signed b))

def vAdd (n : Nat) (_ : Bool) (a b : Nat) : Nat × Flags := ((a + b) % 2 ^ n, 0)
def vSub (n : Nat) (_ : Bool) (a b : Nat) : Nat × Flags := (wrapInt n ((a : Int) - b), 0)
def vRsub (n : Nat) (_ : Bool) (a b : Nat) : Nat × Flags := (wrapInt n ((b : Int) - a), 0)
def vMin (n : Nat) (sg : Bool) (a b : Nat) : Nat × Flags := (if asInt n sg b < asInt n sg a then b else a, 0)
def vMax (n : Nat) (sg : Bool) (a b : Nat) : Nat × Flags := (if asInt n sg a < asInt n sg b then b else a, 0)
def vMul (n : Nat) (_ : Bool) (a b : Nat) : Nat × Flags := (a * b % 2 ^ n, 0)
def vMulh (n : Nat) (sg : Bool) (a b : Nat) : Nat × Flags :=
  (wrapInt n (Int.fdiv (asInt n sg a * asInt n sg b) (2 ^ n : Nat)), 0)
def vSadd (n : Nat) (sg : Bool) (a b : Nat) : Nat × Flags := clampInt n sg (asInt n sg a + asInt n sg b)
def vSsub (n : Nat) (sg : Bool) (a b : Nat) : Nat × Flags := clampInt n sg (asInt n sg a - asInt n sg b)
def vAbsd (n : Nat) (sg : Bool) (a b : Nat) : Nat × Flags := ((asInt n sg a - asInt n sg b).natAbs, 0)
def vDiv (n : Nat) (sg : Bool) (a b : Nat) : Nat × Flags := (vecDiv n sg a b, 0)
def vRem (n : Nat) (sg : Bool) (a b : Nat) : Nat × Flags := (vecRem n sg a b, 0)
def vAnd (_ : Nat) (_ : Bool) (a b : Nat) : Nat × Flags := (a &&& b, 0)
def vOr (_ : Nat) (_ : Bool) (a b : Nat) : Nat × Flags := (a ||| b, 0)
def vXor (_ : Nat) (_ : Bool) (a b : Nat) : Nat × Flags := (a ^^^ b, 0)
def vAndn (n : Nat) (_ : Bool) (a b : Nat) : Nat × Flags := (a &&& (2 ^ n - 1 - b), 0)
def vSll (n : Nat) (_ : Bool) (a b : Nat) : Nat × Flags := (a * 2 ^ (b % n) % 2 ^ n, 0)
def vSrl (n : Nat) (_ : Bool) (a b : Nat) : Nat × Flags := (a / 2 ^ (b % n), 0)
def vSra (n : Nat) (_ : Bool) (a b : Nat) : Nat × Flags :=
  (wrapInt n (Int.fdiv (signedNat n a) (2 ^ (b % n) : Nat)), 0)
def vMv (_ : Nat) (_ : Bool) (_ b : Nat) : Nat × Flags := (b, 0)
def vNot (n : Nat) (_ : Bool) (a _ : Nat) : Nat × Flags := (2 ^ n - 1 - a, 0)

/-- `vmacc` (R246): reads `vd` beside its operands. -/
def maccForm (w : VFields) (lo hi : Nat) : GOp Unit :=
  mapElems w w.width.toNat (fun H i =>
    let n := widthBits w.width.toNat
    ((H.elem w.vd.toNat w.width.toNat i + H.elem w.va.toNat w.width.toNat i * H.srcInt w i) % 2 ^ n, 0)) lo hi

/-! ### Compare and mask -/

/-- A comparison of two elements under a format (R248): `p` is the relation, `ne` tells `vmsne`, and `quiet`
that a quiet NaN sets no flag. -/
def vecTest (w : VFields) (quiet ne : Bool) (p : Ordering → Bool) (H : Hart) (i : Nat) : Bool × Flags :=
  let a := H.elem w.va.toNat w.width.toNat i
  if w.fmt.toNat ≤ 1 then
    let n := widthBits w.width.toNat
    (p (compare (asInt n (isSigned w) a) (asInt n (isSigned w) (H.srcInt w i))), 0)
  else
    let F := fmtOfCode w.fmt.toNat
    let x := F.decode H.ftz a
    let y := F.decode H.ftz (H.srcFp w i)
    if x.isNan || y.isNan then (ne, if quiet then x.sig ||| y.sig else flNV)
    else ((x.cmp y).any p, 0)

/-- A compare form (R248). -/
def cmpForm (quiet ne : Bool) (p : Ordering → Bool) (w : VFields) (lo hi : Nat) : GOp Unit :=
  mapBits w (vecTest w quiet ne p) lo hi

/-- A bit form of two masks, of one, or of none (R249). -/
def maskForm (f : Bool → Bool → Bool) (w : VFields) (lo hi : Nat) : GOp Unit :=
  mapBits w (fun H i => (f (H.bit w.va.toNat i) (H.bit w.vb.toNat i), 0)) lo hi

/-- `vmtov` (R249). -/
def mtovForm (w : VFields) (lo hi : Nat) : GOp Unit :=
  mapElems w w.width.toNat (fun H i => (if H.bit w.va.toNat i then 1 else 0, 0)) lo hi

/-- `vvtom` (R249). -/
def vtomForm (w : VFields) (lo hi : Nat) : GOp Unit :=
  mapBits w (fun H i => (H.elem w.va.toNat w.width.toNat i != 0, 0)) lo hi

/-- The bits of a mask below VL, in order. -/
def Hart.bitsBelow (H : Hart) (m vl : Nat) : List Nat := (List.range vl).filter (fun i => H.bit m i)

/-- `vpop` (R249). -/
def popForm (c : Ctx) (w : VFields) : GOp Unit := do
  let H ← gHart
  reply false w.vd.toNat (BitVec.ofNat 64 (H.bitsBelow w.va.toNat c.vl).length)

/-- `vfirst` (R249). -/
def firstForm (c : Ctx) (w : VFields) : GOp Unit := do
  let H ← gHart
  reply false w.vd.toNat (match (H.bitsBelow w.va.toNat c.vl).head? with
    | some i => BitVec.ofNat 64 i
    | none => BitVec.allOnes 64)

/-- `vbq.any` and `vbq.none` (R240, R249). -/
def bqForm (any : Bool) (c : Ctx) (w : VFields) : GOp Unit := do
  let H ← gHart
  let set := !(H.bitsBelow w.va.toNat c.vl).isEmpty
  modify (fun G => { G with pushes := G.pushes ++ [set == any] })

/-! ### Floating point -/

/-- A floating form that rounds once (R84, R250): `f` sees the mode's sign rule for exact zero sums. -/
def fpForm (f : Bool → FVal → FVal → FVal × Flags) (w : VFields) (lo hi : Nat) : GOp Unit :=
  mapElems w w.width.toNat (fun H i =>
    let F := fmtOfCode w.fmt.toNat
    let r := H.rmode w.rm
    let (v, fl) := f (r == .rdn) (F.decode H.ftz (H.elem w.va.toNat w.width.toNat i))
      (F.decode H.ftz (H.srcFp w i))
    let (b, fl') := F.round (.mode r) false H.ftz v
    (b, fl ||| fl')) lo hi

/-- `vfmin` and `vfmax` (R91, R250). -/
def fpExtreme (isMax : Bool) (w : VFields) (lo hi : Nat) : GOp Unit :=
  mapElems w w.width.toNat (fun H i =>
    (fmtOfCode w.fmt.toNat).minmax H.ftz isMax (H.elem w.va.toNat w.width.toNat i) (H.srcFp w i)) lo hi

/-- The sign forms (R220, R250). -/
def fpInject (g : Bool → Bool → Bool) (w : VFields) (lo hi : Nat) : GOp Unit :=
  mapElems w w.width.toNat (fun H i =>
    ((fmtOfCode w.fmt.toNat).inject g (H.elem w.va.toNat w.width.toNat i) (H.srcFp w i), 0)) lo hi

/-- `vfclass` (R220, R250). -/
def fpClassForm (w : VFields) (lo hi : Nat) : GOp Unit :=
  mapElems w w.width.toNat (fun H i =>
    ((fmtOfCode w.fmt.toNat).classify (H.elem w.va.toNat w.width.toNat i), 0)) lo hi

/-- The fused forms (R251): one rounding, at the destination format. -/
def fmaForm (negProd negC : Bool) (w : VFields) (lo hi : Nat) : GOp Unit :=
  mapElems w w.width.toNat (fun H i =>
    let F := fmtOfCode w.fmt.toNat
    let r := H.rmode w.rm
    let x := F.decode H.ftz (H.elem w.va.toNat w.width.toNat i)
    let y := F.decode H.ftz (H.elem w.vb.toNat w.width.toNat i)
    let z := F.decode H.ftz (H.elem w.vc.toNat w.width.toNat i)
    let (v, fl) := (if negProd then x.neg else x).fma (r == .rdn) y (if negC then z.neg else z)
    let (b, fl') := F.round (.mode r) false H.ftz v
    (b, fl ||| fl')) lo hi

/-! ### Per-group permutes -/

/-- `vsel` (R256): every element of the group below VL is written. -/
def selForm (w : VFields) (lo hi : Nat) : GOp Unit :=
  mapElems { w with mask := 0 } w.width.toNat (fun H i =>
    (H.elem (if H.bit w.mask.toNat i then w.va.toNat else w.vb.toNat) w.width.toNat i, 0)) lo hi

/-- `vid` (R256). -/
def vidForm (w : VFields) (lo hi : Nat) : GOp Unit :=
  mapElems w w.width.toNat (fun _ i => (i % 2 ^ widthBits w.width.toNat, 0)) lo hi

end Sys2Proof.Machine
end

