-- ==== Sys2Proof/Machine/VMem.lean ====
section
/-!
DEFINITION. Vector memory: loads and stores, gathers and scatters, register and mask images (R261 to R268,
R271, R272), stream transfers (R176, R177, R269), accumulation windows (R277 to R280), vector atomics (R281).
-/

namespace Sys2Proof.Machine

/-! ### Addresses -/

/-- The signed byte offset of a memory form (R261). -/
def memImm (w : VFields) : Word := simm (fld w.sel 0 16)

/-- The bytes of an element of a form. -/
def elemBytes (w : VFields) : Nat := 2 ^ w.width.toNat

/-- The address of element `i` of a unit-stride form (R266). -/
def Hart.unitAddr (H : Hart) (w : VFields) (i : Nat) : Word :=
  H.getX w.vc + memImm w + BitVec.ofNat 64 (i * elemBytes w)

/-- The address of element `i` of a strided form (R266). -/
def Hart.strideAddr (H : Hart) (w : VFields) (i : Nat) : Word :=
  H.getX w.vc + memImm w + BitVec.ofNat 64 i * H.getX w.vb

/-- The address of element `i` of a gather, scatter or vector atomic (R271). -/
def Hart.indexAddr (H : Hart) (w : VFields) (i : Nat) : Word :=
  H.getX w.vc + BitVec.ofNat 64 (H.elem w.vb.toNat (w.selNat 11 2) i * 2 ^ w.selNat 13 3)

/-! ### Loads and stores -/

/-- The acquire of a form whose ACQ bit is set, at the elements that it read (R264, R342). -/
def acquireAt (w : VFields) (size : Nat) (ps : List At) : GOp Unit := do
  let H ← gHart
  if w.selNat 17 1 = 1 then
    gLift (modify (fun s => ps.foldl (fun s p => s.acquire s.cur false H.vscope p.cell size) s))

/-- The release of a form whose REL bit is set, before it reads what it updates (R264, R342). -/
def releaseFirst (w : VFields) : GOp Unit := do
  let H ← gHart
  if w.selNat 16 1 = 1 then gLift (modify (fun s => s.release s.cur false H.vscope))

/-- The page of an element as a frame list names it (R121). -/
def At.frame (p : At) : FramePage :=
  ⟨p.va.toNat / p.leaf.size * p.leaf.size, p.leaf.pa / p.leaf.size * p.leaf.size, p.leaf.size, p.leaf.key, pteG p.leaf.pte⟩

/-- The frame lists of the distinct pages of some elements in an address space (R121). -/
def frameLists (asid : BitVec 16) (ps : List At) : List FrameList :=
  (frameChunks ((ps.map At.frame).eraseDups)).map (fun fs => ⟨asid, fs⟩)

/-- A list is sent to a landing die: one that it holds by that tag is used in its place, and is the most recently used from
then on (R123). -/
def Landing.receive (L : Landing) (l : FrameList) : Landing :=
  L.keep ((L.frames.find? (fun k => k.asid == l.asid && k.tag == l.tag)).getD l)

/-- Lists broadcast to each landing die that homes at least one of their frames (R121). -/
def State.broadcast (s : State) (ls : List FrameList) : State :=
  ls.foldl (fun s l => ((l.pages.flatMap (fun f => homesOf s.mgmt.level f.frame f.size)).eraseDups).foldl (fun s d =>
    s.updLanding d (fun L => L.receive l)) s) s

/-- The leaf of an element of a gather or scatter as the landing die that homes it holds it in the list sent (R121, R123); a
list may be older than the tile's own translation. -/
def State.listed (s : State) (ls : List FrameList) (p : At) : Option Leaf :=
  (ls.find? (fun l => l.pages.contains p.frame)).bind (fun l =>
    ((s.landing (homeOf s.mgmt.level p.leaf.pa)).frames.find? (fun k => k.asid == l.asid && k.tag == l.tag)).bind (fun k =>
      (k.pages[l.pages.idxOf p.frame]?).map (fun f =>
        { p.leaf with pa := f.frame + p.va.toNat % f.size, key := f.key, size := f.size })))

/-- The elements of a gather or scatter where the landing dies find them (R121 to R123): those of encrypted memory that are
not element-ordered (R265, R272), under the keys of the lists (R118). -/
def viaFrames (write : Bool) (ps : List At) : GOp (List At) := do
  let H ← gHart
  let sent (p : At) : Bool := encrypted p.leaf.pa && H.ordered p == .plain
  let ls := frameLists H.space (ps.filter sent)
  gLift (modify (fun s => s.broadcast ls))
  let s ← gState
  let qs := ps.map (fun p => match (if sent p then s.listed ls p else none) with
    | some l => if l.pa = p.leaf.pa ∧ l.key = p.leaf.key then p else { p with leaf := l, cell := l.pa }
    | none => p)
  qs.forM (fun p => gCheck (!s.keyInvalid p.leaf.key) .access p.va)
  checkLines write (qs.filter (fun p => !ps.contains p))
  return qs

/-- A load form (R263, R264, R266, R271): every accessed element is checked before any is read. `lists` marks a gather. -/
def loadForm (addr : Hart → VFields → Nat → Word) (w : VFields) (lo hi : Nat) (lists : Bool := false) : GOp Unit := do
  let H ← gHart
  let ps ← reachAll .read (elemBytes w) (addr H w) false (H.active w.mask (elems lo hi))
  let ps ← if lists then viaFrames false ps else pure ps
  let vs ← ps.mapM (fun p => do return (p.i, ← readAt p (elemBytes w)))
  acquireAt w (elemBytes w) ps
  gMod (fun H => (vs.foldl (fun (H : Hart) e => H.putElem w.vd.toNat w.width.toNat e.1 e.2) H).cover
    w.vd.toNat w.width.toNat (hi - 1))

/-- A store form (R263 to R266, R271, R272). `lists` marks a scatter. -/
def storeForm (addr : Hart → VFields → Nat → Word) (c : Ctx) (w : VFields) (lo hi : Nat) (lists : Bool := false) :
    GOp Unit := do
  let H ← gHart
  let ps ← reachAll .write (elemBytes w) (addr H w) false (H.active w.mask (elems lo hi))
  let ps ← if lists then viaFrames true ps else pure ps
  ps.forM (fun p =>
    hold c p (elemBytes w) (H.elem w.va.toNat w.width.toNat p.i) (H.ordered p) (w.selNat 16 1 == 1))

/-- What an element of a `vldff` means for its VL: nothing, or the trim is there, or it is not known until the
host has translated a page (R431), or a peer has answered (R138), or an earlier slot of the convoy goes on (R267). -/
inductive Trim where
  | no
  | yes (i : Nat)
  | ask (page : Nat)
  | wait (w : Wait)
  deriving DecidableEq, Repr

/-- Whether an address takes a fault that trims a `vldff` (R267): translation, permission, key, region, or a
conflict in trap mode, here or at the peer that homes it. -/
def State.trims (s : State) (va : Word) (size i : Nat) : Trim :=
  if va.toNat % size ≠ 0 then .no
  else match s.reach s.cur s.me.sup .read va.toNat with
    | .fault .memoryError => .no
    | .fault _ => .yes i
    | .askHost p => .ask p
    | .to l _ =>
      if s.peerWaits l.pa then .wait (.peer va none (some i))
      else if s.meetsTrap (.hart s.cur) [l.pa / 128] false then .yes i
      else .no

/-- The least accessed element of some that trims, or that the host must answer for (R267). -/
def trimAt (s : State) (H : Hart) (w : VFields) (lo hi : Nat) : Trim :=
  (H.active w.mask (elems lo hi)).foldl (fun r i =>
    if r = .no then s.trims (H.unitAddr w i) (elemBytes w) i else r) .no

/-! ### Images -/

/-- `vldr` and `vstr` on group `g` (R268). -/
def imageForm (load : Bool) (c : Ctx) (w : VFields) (g : Nat) : GOp Unit := do
  let H ← gHart
  let base := H.getX w.vc
  gCheck (decide (base.toNat % 64 = 0)) .misaligned base
  if (Nat.min (H.getX w.vb).toNat 4) ≤ g then pure ()
  else
    let addr (k : Nat) : Word := base + BitVec.ofNat 64 (8 * k)
    let ks := elems (g * c.lanes) ((g + 1) * c.lanes)
    let ps ← reachAll (if load then .read else .write) 8 addr false ks
    if load then
      let vs ← ps.mapM (fun p => do return (p.i, ← readAt p 8))
      acquireAt w 8 ps
      gMod (fun H =>
        let v := vs.foldl (fun v e => setLaneWord v e.1 (BitVec.ofNat 64 e.2)) (H.getV w.vd.toNat)
        (H.setV w.vd.toNat v).cover w.vd.toNat 3 ((g + 1) * c.lanes - 1))
    else
      ps.forM (fun p => hold c p 8 (laneWord (H.getV w.va.toNat) p.i).toNat (H.ordered p) (w.selNat 16 1 == 1))

/-- `vldm` and `vstm` (R268): 1 KiB, in 64-byte pieces. -/
def maskImage (load : Bool) (c : Ctx) (w : VFields) : GOp Unit := do
  let H ← gHart
  let base := H.getX w.vc
  gCheck (decide (base.toNat % 64 = 0)) .misaligned base
  let addr (k : Nat) : Word := base + BitVec.ofNat 64 (8 * k)
  let ps ← reachAll (if load then .read else .write) 8 addr false (List.range 128)
  if load then
    let vs ← ps.mapM (fun p => do return (p.i, ← readAt p 8))
    gMod (fun H => H.setM w.vd.toNat
      (vs.foldl (fun m e => setFld m (64 * e.1) (BitVec.ofNat 64 e.2)) (H.getM w.vd.toNat)))
  else
    ps.forM (fun p => hold c p 8 (fld (H.getM w.va.toNat) (64 * p.i) 64).toNat (H.ordered p) false)

/-! ### Streams -/

/-- The checks of R269 on a stream slot as its convoy issues. -/
def streamCheck (dir : Bool) (w : VFields) : GOp Unit := do
  let t := (← gHart).stream w.vc.toNat
  let n : Word := w.vc.setWidth 64
  gCheck t.cfg .strmState n
  gCheck (!t.busy) .strmBusy n
  gCheck (t.desc.dir == dir) .strmDirection n
  gCheck (t.desc.esize == elemBytes w) .strmConfig n

/-- The last convoy slot that named a stream (R432). -/
def touchStream (pc : Word) (slot n : Nat) : GOp Unit :=
  gMod (fun H => H.setStream n { H.stream n with lastPc := pc, lastSlot := some slot })

/-- The effective VL of a `vld.strm` (R176); the hart waits while nothing is available. -/
def streamTrim (w : VFields) (vl : Nat) : GOp Nat := do
  let t := (← gHart).stream w.vc.toNat
  if t.pos = t.desc.count then return 0
  else if t.avail = 0 then gWait (.stream w.vc.toNat)
  else return Nat.min vl t.avail

/-- `vld.strm` (R174, R176, R269). -/
def streamLoad (w : VFields) (lo hi : Nat) : GOp Unit := do
  let H ← gHart
  let t := H.stream w.vc.toNat
  if t.buf.length < hi - lo then gWait (.stream w.vc.toNat)
  gMod (fun H =>
    let H := (H.active w.mask (elems lo hi)).foldl (fun (H : Hart) i =>
      H.putElem w.vd.toNat w.width.toNat i (t.buf.getD (i - lo) 0)) H
    (H.cover w.vd.toNat w.width.toNat (hi - 1)).setStream w.vc.toNat (t.consume (hi - lo)))

/-- `vst.strm` (R177, R269). -/
def streamStore (w : VFields) (lo hi : Nat) : GOp Unit := do
  let H ← gHart
  let t := H.stream w.vc.toNat
  gCheck (decide (t.pos + (hi - lo) ≤ t.desc.count)) .strmEnd (w.vc.setWidth 64)
  if t.capacity < t.buf.length + (hi - lo) then gWait (.stream w.vc.toNat)
  gMod (fun H => H.setStream w.vc.toNat
    (t.produce ((elems lo hi).map (H.elem w.va.toNat w.width.toNat))))

/-! ### Accumulation windows -/

/-- The window that a form names. -/
def Hart.window (H : Hart) (w : VFields) : Window := H.wins[w.selNat 9 2]?.getD Window.reset

/-- A hart with the window that a form names replaced. -/
def Hart.setWindow (H : Hart) (w : VFields) (x : Window) : Hart :=
  { H with wins := H.wins.setIfInBounds (w.selNat 9 2) x }

/-- The step of a window's operation (R277, R279): the sum rounds under the form's selector. -/
def Hart.winStep (H : Hart) (w : VFields) (x : Window) : Combine :=
  let n := widthBits w.width.toNat
  match x.op with
  | .sum => sumStep w.fmt.toNat n (H.rmode w.rm) H.ftz
  | .min => extremeStep w.fmt.toNat n false H.ftz
  | .max => extremeStep w.fmt.toNat n true H.ftz

/-- The window is declared with the format of the form (R279, R280). -/
def windowCheck (w : VFields) : GOp Unit := do
  let x := (← gHart).window w
  gCheck (x.on && x.fmt == w.fmt) .windowState (BitVec.ofNat 64 (w.selNat 9 2))

/-- The copy word of a lane and slot (R277): translated at the level of the `accwin` (R429). -/
def copyAt (x : Window) (va : Word) : GOp At := do
  let s ← gState
  match s.reach s.cur x.sup .write va.toNat with
  | .to l c => return ⟨0, va, l, c⟩
  | .fault c => do
    gLift (modify (fun s => s.endFailed s.cur va.toNat))
    gTrap c va
  | .askHost p => do
    let _ ← gLift (askHost p)
    gTrap .access va

/-- The address of the copy of a lane and slot (R277). -/
def Window.copyVa (x : Window) (lane j : Nat) : Word := x.priv + BitVec.ofNat 64 (8 * (lane * x.count + j))

/-- The copy is touched, counting what the group holds. -/
def touched (s : State) (G : Grp) (p : At) : Bool :=
  s.isFull p.leaf.pa || G.held.any (fun e => e.how == .copy && e.d.pa == p.cell)

/-- `vacc` (R279). -/
def accForm (c : Ctx) (w : VFields) (lo hi : Nat) : GOp Unit := do
  let H ← gHart
  let x := H.window w
  let size := elemBytes w
  (H.active w.mask (elems lo hi)).forM (fun i => do
    let j := H.elem w.vb.toNat (w.selNat 11 2) i
    gCheck (decide (j < x.count)) .windowIndex (BitVec.ofNat 64 j)
    let p ← copyAt x (x.copyVa (i % c.lanes) j)
    let s ← gState
    let G ← get
    let v := H.elem w.va.toNat w.width.toNat i
    let (r, fl) := if touched s G p then H.winStep w x (G.view s p size) v else (v, 0)
    hold c p size r .copy false
    gMod (fun H => H.raise fl))

/-- The private area lies in scratchpad banks of the hart's tile (R279), over at most `n` pages: the
physical pieces of 4 KiB, or none. -/
def State.privPages (s : State) (va stop : Nat) : Nat → Option (List (Nat × Nat))
  | 0 => some []
  | n + 1 =>
    if stop ≤ va then some []
    else
      let next := Nat.min stop ((va / 4096 + 1) * 4096)
      match s.reach s.cur s.me.sup .write (va % 2 ^ 64) with
      | .to l _ =>
        if s.inSpadOf (tileOf s.cur) l.pa then
          (s.privPages next stop n).map (fun t => (l.pa, next - va) :: t)
        else none
      | _ => none

/-- The hart waits while the host must translate a page of a range that it is about to check (R431). -/
def askPages (kind : Kind) (va stop : Nat) : Nat → GOp Unit
  | 0 => pure ()
  | n + 1 =>
    if stop ≤ va then pure ()
    else do
      let s ← gState
      match s.reach s.cur s.me.sup kind (va % 2 ^ 64) with
      | .askHost p => do
        let _ ← gLift (askHost p)
        pure ()
      | _ => askPages kind ((va / 4096 + 1) * 4096) stop n

/-- `accwin` (R278, R279). -/
def winForm (op : WinOp) (c : Ctx) (w : VFields) : GOp Unit := do
  let H ← gHart
  let s ← gState
  let base := H.getX w.vc
  let count := (H.getX w.vb).toNat
  let priv := H.getX w.va
  let ok := decide (base.toNat % elemBytes w = 0) && decide (1 ≤ count ∧ count ≤ 65536)
    && decide (priv.toNat % 64 = 0)
  gCheck ok .windowState priv
  let bytes := c.lanes * count * 8
  askPages .write priv.toNat (priv.toNat + bytes) (bytes / 4096 + 2)
  match s.privPages priv.toNat (priv.toNat + bytes) (bytes / 4096 + 2) with
  | none => gTrap .windowState priv
  | some ps =>
    gLift (modify (fun s => { s with
      full := s.full.filter (fun f => !(ps.any (fun p => decide (p.1 / 8 ≤ f ∧ f < (p.1 + p.2) / 8)))) }))
    gMod (fun H => H.setWindow w ⟨true, op, w.fmt, base, count, priv, H.sup⟩)

/-- The pages of BASE translated and permitted before `accmerge` updates anything (R280), at the level of the
window's `accwin` (R429). -/
def mergePages (sup : Bool) (va stop : Nat) : Nat → GOp Unit
  | 0 => pure ()
  | n + 1 =>
    if stop ≤ va then pure ()
    else do
      let s ← gState
      match s.reach s.cur sup .write (va % 2 ^ 64) with
      | .to _ _ => mergePages sup ((va / 4096 + 1) * 4096) stop n
      | .fault c => do
        gLift (modify (fun s => s.endFailed s.cur (va % 2 ^ 64)))
        gTrap c (BitVec.ofNat 64 va)
      | .askHost p => do
        let _ ← gLift (askHost p)
        mergePages sup ((va / 4096 + 1) * 4096) stop n

/-- The touched copies of slot `j`, lane by lane (R280). -/
def touchedCopies (x : Window) (size j : Nat) : List Nat → GOp (List (At × Nat))
  | [] => return []
  | l :: rest => do
    let p ← copyAt x (x.copyVa l j)
    let s ← gState
    let t ← touchedCopies x size j rest
    if s.isFull p.leaf.pa then return (p, (← get).view s p size) :: t else return t

/-- One slot of `accmerge` (R98, R280): an atomic update at its home, after which the copies are not
touched. A slot with no touched copy is left as it is. -/
def mergeSlot (c : Ctx) (w : VFields) (x : Window) (j : Nat) : GOp Unit := do
  let size := elemBytes w
  let cs ← touchedCopies x size j (List.range c.lanes)
  if cs.isEmpty then pure ()
  else
    let va := x.base + BitVec.ofNat 64 (j * size)
    let (l, cell) ← gLift (reachAs x.sup .write va size)
    let s ← gState
    gCheck (s.atomicOk l.pa) .atomic va
    gLift (checkLine l.pa l.key va true)
    let s ← gState
    gCheck (!s.poisoned l.pa size) .memoryError va
    let H ← gHart
    let vals := cs.map (fun e => e.2)
    let (m, s) := s.update s.cur false cell l.key size (fun m => (foldOrdered (H.winStep w x) m vals).1)
      (if w.selNat 16 1 = 1 then some H.vscope else none)
    let fl := (foldOrdered (H.winStep w x) m vals).2
    let s := cs.foldl (fun s e => s.setFull e.1.leaf.pa false) s
    gLift (set (s.updMe (fun H => H.raise fl)))
    gMod (fun H => H.raise fl)

/-! ### Vector atomics -/

/-- The new value of a vector atomic (R206, R281): from its width in bits, the old value and the operand. -/
def vamoNew (H : Hart) (o : VOp) (w : VFields) (old v : Nat) : Nat × Flags :=
  let n := widthBits w.width.toNat
  match o with
  | .vamoswap => (v, 0)
  | .vamoadd => sumStep w.fmt.toNat n (H.rmode w.rm) H.ftz old v
  | .vamoand => (old &&& v, 0)
  | .vamoor => (old ||| v, 0)
  | .vamoxor => (old ^^^ v, 0)
  | .vamomin => extremeStep w.fmt.toNat n false H.ftz old v
  | _ => extremeStep w.fmt.toNat n true H.ftz old v

/-- A vector atomic (R207, R264, R281): every element passes its checks before any is updated. -/
def vamoForm (o : VOp) (c : Ctx) (w : VFields) (lo hi : Nat) : GOp Unit := do
  let H ← gHart
  let size := elemBytes w
  let ps ← reachAll .write size (H.indexAddr w) true (H.active w.mask (elems lo hi))
  let s ← gState
  ps.forM (fun p => gCheck (!s.poisoned p.leaf.pa size) .memoryError p.va)
  releaseFirst w
  acquireAt w size ps
  readNow ps size
  let s ← gState
  ps.forM (fun p => do
    let old := (← get).view s p size
    let (r, fl) := vamoNew H o w old (H.elem w.va.toNat w.width.toNat p.i)
    hold c p size r .atomic (w.selNat 16 1 == 1)
    gMod (fun H =>
      let H := H.raise fl
      if w.selNat 8 1 = 1 then H.putElem w.vd.toNat w.width.toNat p.i old else H))
  if w.selNat 8 1 = 1 then gMod (fun H => H.cover w.vd.toNat w.width.toNat (hi - 1))

/-! ### Waiting on many flags -/

/-- A flag meets the condition of `vwait` (R384). -/
def flagMet (w : VFields) (v e : Nat) : Bool :=
  match w.selNat 16 2 with
  | 0 => v == e
  | 1 => v != e
  | _ => decide (asInt (widthBits w.width.toNat) (isSigned w) e ≤ asInt (widthBits w.width.toNat) (isSigned w) v)

/-- `vwait` (R384): an acquire where every flag is met. It is done when every active flag is met or the time-out has passed, and waits
otherwise. The wait counts from when the convoy was first issued. -/
def waitForm (c : Ctx) (w : VFields) : GOp Unit := do
  let H ← gHart
  let n := elemBytes w
  let limit := H.getX w.vc
  let ps ← reachAll .read n (fun i => BitVec.ofNat 64 (H.elem w.va.toNat 3 i)) false
    (H.active w.mask (List.range c.vl))
  readNow ps n
  let unmet ← ps.filterMapM (fun p => do
    let v ← readAt p n
    return if flagMet w v (H.elem w.vb.toNat w.width.toNat p.i) then none else some p.i)
  if !unmet.isEmpty && !(limit != 0 && decide (limit.toNat ≤ H.waited)) then gWait (.vwait limit)
  if unmet.isEmpty then
    gLift (modify (fun s => ps.foldl (fun s p => s.acquire s.cur false H.vscope p.cell n) s))
  gMod (fun H => (List.range c.vl).foldl (fun (H : Hart) i => H.putBit w.vd.toNat i (unmet.contains i)) H)

end Sys2Proof.Machine
end

