-- ==== Sys2Proof/Machine/Matrix.lean ====
section
/-!
DEFINITION. Matrix mode: entering and leaving it, shapes and pairing (R284 to R289, R296), operand tiles
from rings (R290, R291), the multiply-accumulate forms (R99, R100, R293 to R297), zeroing, storing and
exchanging accumulators (R298 to R300), and sounding (R302 to R306).
-/

namespace Sys2Proof.Machine

/-! ### Fields -/

/-- TSHAPE.M, N, K, PAIR, ROLE and PORT (R288). -/
def Hart.shapeM (H : Hart) : Nat := (fld H.csr.tshape 0 16).toNat
def Hart.shapeN (H : Hart) : Nat := (fld H.csr.tshape 16 16).toNat
def Hart.shapeK (H : Hart) : Nat := (fld H.csr.tshape 32 16).toNat
def Hart.paired (H : Hart) : Bool := H.csr.tshape.getLsbD 48
def Hart.primary (H : Hart) : Bool := H.csr.tshape.getLsbD 49
def Hart.pairPort (H : Hart) : Nat := (fld H.csr.tshape 50 2).toNat

/-- A hart with TSHAPE replaced. -/
def Hart.setTshape (H : Hart) (w : Word) : Hart := { H with csr := { H.csr with tshape := w } }

/-- Accumulator `acc[m, n]` (R286). -/
def Hart.acc (H : Hart) (m n : Nat) : Nat := H.elem (m / 4) 2 (m % 4 * (2 * H.lanes) + n)

/-- A hart with an accumulator replaced, and HWM raised (R286, R287). -/
def Hart.setAcc (H : Hart) (m n v : Nat) : Hart :=
  (H.putElem (m / 4) 2 (m % 4 * (2 * H.lanes) + n) v).cover (m / 4) 2 (m % 4 * (2 * H.lanes) + n)

/-- The rows and columns of the region. -/
def region (M N : Nat) : List (Nat × Nat) :=
  (List.range M).flatMap (fun m => (List.range N).map (fun n => (m, n)))

/-! ### Modes and shapes -/

/-- MMODE_ON (R284, R285). -/
def execMmodeOn (s : State) : Host.Outcome State Fault Refusal :=
  let H := s.me
  .next (if H.mode = 2 then s.illegal .mmodeOn
  else if H.mode = 1 then s.advance
  else if H.lanes = 0 then s.trap .laneState 0
  else (s.updMe (fun H =>
    { ((H.setMode 1).setVl 0).setTshape (setShape H.csr.tshape 0 0 0) with m := Vector.replicate 7 0 })).advance)

/-- MMODE_OFF (R284, R285). -/
def execMmodeOff (s : State) : Host.Outcome State Fault Refusal :=
  let H := s.me
  .next (if H.mode = 2 then s.illegal .mmodeOff
  else if H.mode = 0 then s.advance
  else if H.paired then s.trap .matrixState 0
  else (s.updMe (fun H =>
    ((H.setMode 0).setVl 0).setTshape (setShape H.csr.tshape 0 0 0))).advance)

/-- TSHAPE (R289). -/
def execTshape (d a : Reg) (s : State) : Host.Outcome State Fault Refusal :=
  let H := s.me
  let w := s.getX a
  .next (if H.mode ≠ 1 then s.illegal (.tshape d a)
  else if fld w 48 16 ≠ 0 then s.trap .matrixShape w
  else
    let g := tshapeGrant H.lanes (fld w 0 16).toNat (fld w 16 16).toNat (fld w 32 16).toNat
    let s := s.updMe (fun H => H.setTshape (setShape H.csr.tshape g.1 g.2.1 g.2.2))
    (s.setX d (setShape 0 g.1 g.2.1 g.2.2)).advance)

/-! ### Pairing -/

/-- The peer of an `mpair` operand, if it names one (R296). -/
def mpairPeer (h : HartId) (w : Word) : Option HartId :=
  if fld w 13 51 ≠ 0 then none
  else match hartAt? (fld w 0 8).toNat (fld w 8 2).toNat with
    | some p => if p = h then none else some p
    | none => none

/-- The local port and the role of an `mpair` operand (R296). -/
def mpairPort (w : Word) : Nat := (fld w 10 2).toNat
def mpairRole (w : Word) : Bool := w.getLsbD 12

/-- A port of a hart replaced. -/
def State.setPort (s : State) (h : HartId) (k : Nat) (p : Port) : State :=
  s.updHart h (fun H => { H with ports := H.ports.setIfInBounds k p })

/-- A port of a hart. -/
def Hart.port (H : Hart) (k : Nat) : Port := H.ports[k]?.getD Port.reset

/-- A crossing port of a tile carries no crossing (R149): the four ports are the tile's, so a hart's port is in
use when any hart of its tile has it open. -/
def State.portFree (s : State) (h : HartId) (k : Nat) : Bool :=
  (hartsOf (tileOf h)).all (fun i => !((s.hart i).port k).isOpen)

/-- A crossing opened between two ports, with a FIFO bank claimed by `claim` at each end and a circuit asked for
each direction (R146, R149, R150, R155); `none` when
it cannot be. -/
def State.openCrossingBy (claim : State → Fin 224 → Option (State × Nat)) (s : State) (h : HartId) (k : Nat) (e : BitVec 32) (p : HartId) (j : Nat)
    (f : BitVec 32) (paired : Bool) : Option State :=
  if (s.hart h).lanes ≠ (s.hart p).lanes ∨ s.portFree h k = false ∨ s.portFree p j = false
      ∨ (tileOf h = tileOf p ∧ k = j) then none
  else match claim s (tileOf h) with
    | none => none
    | some (s, b) =>
      match claim s (tileOf p) with
      | none => none
      | some (s, b') =>
        let out := s.circuitFree (dieOf (tileOf h)) (dieOf (tileOf p))
        let back := s.circuitFree (dieOf (tileOf p)) (dieOf (tileOf h))
        some ((s.setPort h k ⟨true, e, p, j, [], [], b, paired, out⟩).setPort p j
          ⟨true, f, h, k, [], [], b', paired, back⟩)

/-- A crossing opened with banks that R155 gives. -/
def State.openCrossing (s : State) (h : HartId) (k : Nat) (e : BitVec 32) (p : HartId) (j : Nat)
    (f : BitVec 32) (paired : Bool) : Option State := s.openCrossingBy State.claimFifo h k e p j f paired

/-- A crossing closed at both ends, its circuits closed, its items discarded and its banks freed by `free` (R146,
R155, R296). -/
def State.closeCrossingBy (free : State → Fin 224 → Nat → State) (s : State) (h : HartId) (k : Nat) : State :=
  let p := (s.hart h).port k
  if p.isOpen then
    let q := (s.hart p.peer).port p.peerPort
    let s := (free s (tileOf h) p.bank).setPort h k Port.reset
    if q.isOpen && q.peer == h && q.peerPort == k then
      (free s (tileOf p.peer) q.bank).setPort p.peer p.peerPort Port.reset
    else s
  else s

/-- A crossing closed, and its banks freed as R155 states. -/
def State.closeCrossing (s : State) (h : HartId) (k : Nat) : State := s.closeCrossingBy State.freeFifo h k

/-- The two harts are in one gang. -/
def State.sameGang (s : State) (h p : HartId) : Bool :=
  match (s.hart h).gang, (s.hart p).gang with
  | some (g, _), some (k, _) => g == k
  | _, _ => false

/-- An `mpair` of a hart completes with a code (R296). -/
def State.mpairDone (s : State) (h : HartId) (d : Reg) (w : Word) (code : Word) : State :=
  s.updHart h (fun H =>
    let H := H.setX d code
    let H := if code = 0 then H.setTshape (setFld (setBit (setBit H.csr.tshape 48 true) 49 (mpairRole w)) 50
        (BitVec.ofNat 2 (mpairPort w))) else H
    { H with pc := H.pc + 4, run := .running, wait := .none, waited := 0, watchdog := 0, ladder := 0 })

/-- The limit of the wait of `mpair`, in cycles (R296). -/
def mpairLimit : Nat := 1048576

/-- MPAIR (R296). -/
def execMpair (d a : Reg) (s : State) : Host.Outcome State Fault Refusal :=
  let H := s.me
  let w := s.getX a
  .next (if H.mode ≠ 1 then s.illegal (.mpair d a)
  else match mpairPeer s.cur w with
    | none => s.trap .matrixState w
    | some p =>
      if H.paired then (s.setX d 1).advance
      else
        let P := s.hart p
        match P.wait with
        | .mpair pd pw =>
          if H.wait = .mpair d w ∧ mpairLimit ≤ H.waited then s.mpairDone s.cur d w 3
          else if P.run = .waiting ∧ P.waited < mpairLimit ∧ mpairPeer p pw = some s.cur
              ∧ mpairRole pw ≠ mpairRole w then
            let opened := if s.sameGang s.cur p then
                s.openCrossing s.cur (mpairPort w) 0xFE0 p (mpairPort pw) 0xFE0 true
              else none
            match opened with
            | some s' => (s'.mpairDone s.cur d w 0).mpairDone p pd pw 0
            | none => (s.mpairDone s.cur d w 2).mpairDone p pd pw 2
          else s.waitIn (.mpair d w)
        | _ =>
          if H.wait = .mpair d w ∧ mpairLimit ≤ H.waited then s.mpairDone s.cur d w 3
          else s.waitIn (.mpair d w))

/-- MPAIR_TIMEOUT (R296): no matching request within the limit. -/
def execMpairTimeout (h : HartId) (s : State) : Host.Outcome State Fault Refusal :=
  let H := s.hart h
  .next (match H.wait with
    | .mpair d w => if H.run = .waiting ∧ mpairLimit ≤ H.waited then s.mpairDone h d w 3 else s
    | _ => s)

/-- PAIR cleared in a hart. -/
def Hart.unpair (H : Hart) : Hart := H.setTshape (setBit H.csr.tshape 48 false)

/-- MPAIR_OFF (R296). -/
def execMpairOff (s : State) : Host.Outcome State Fault Refusal :=
  let H := s.me
  .next (if H.paired then
    let p := H.port H.pairPort
    let s' := s.closeCrossing s.cur H.pairPort
    let s' := if p.isOpen then s'.updHart p.peer Hart.unpair else s'
    (s'.updMe Hart.unpair).advance
  else s.advance)

/-! ### Operands -/

/-- The bits of an operand element (R72, R293). -/
def operandBits (fmt : Nat) : Nat := if fmt ≤ 1 then 8 else if fmt = 4 ∨ fmt = 5 then 16 else mxBits fmt

/-- The format carries block scales (R290). -/
def isScaled (fmt : Nat) : Bool := decide (8 ≤ fmt ∧ fmt ≤ 13)

/-- The bytes that an operand of `rows` rows of depth `K` needs (R290). -/
def operandBytes (fmt rows K : Nat) : Nat :=
  rows * (K * operandBits fmt / 8) + (if isScaled fmt then rows * (K / 32) else 0)

/-- The bytes from a virtual address up, read as plain vector loads (R263), in pieces of `size` bytes. -/
def readVa (va : Word) (size n : Nat) : GOp (List Byte) := do
  let ps ← reachAll .read size (fun k => va + BitVec.ofNat 64 (size * k)) false (List.range ((n + size - 1) / size))
  let vs ← ps.mapM (fun p => do return bytesOf size (← readAt p size))
  return (vs.flatten).take n

/-- The steps of R291 for a ring that a form reads: `pair` tells that the form runs as one of a pair, whose
wait the closing of the pairing ends (R297). -/
def ringCheck (q : Nat) (need : Nat) (pair : Bool) : GOp Unit := do
  let H ← gHart
  let r := H.ring (BitVec.ofNat 3 q)
  gCheck r.on .ringConfig 0
  gCheck (decide (H.shapeM ≠ 0 ∧ H.shapeN ≠ 0 ∧ H.shapeK ≠ 0)) .matrixShape 0
  gCheck (decide (need ≤ r.size)) .matrixShape (BitVec.ofNat 64 need)
  if r.occ = 0 then gWait (.ring q (pair && H.paired))

/-- The entry at HEAD of a ring that has passed the steps of R291. -/
def ringEntry (q : Nat) (need : Nat) : GOp (List Byte) := do
  let H ← gHart
  let r := H.ring (BitVec.ofNat 3 q)
  readVa (r.base + BitVec.ofNat 64 (r.head.toNat % r.entries * r.size)) 4 need

/-- HEAD of a ring advanced by one (R291). -/
def popRing (q : Nat) : GOp Unit :=
  gMod (fun H => let r := H.ring (BitVec.ofNat 3 q); H.setRing (BitVec.ofNat 3 q) { r with head := r.head + 1 })

/-- Element `k` of row `row` of an operand (R83, R290). -/
def operandElem (bs : List Byte) (fmt K row k : Nat) : Nat :=
  let b := operandBits fmt
  let bit := row * (K * b) + b * k
  leAt bs (bit / 8) 3 / 2 ^ (bit % 8) % 2 ^ b

/-- The scale of a block of a row (R290): e8m0 code 0x7F, which is 1, where the format has none. -/
def operandScale (bs : List Byte) (fmt rows K row blk : Nat) : Nat :=
  if isScaled fmt then leAt bs (rows * (K * operandBits fmt / 8) + row * (K / 32) + blk) 1 else 0x7F

/-! ### Multiply-accumulate -/

/-- The exact sum of products of one block (R99): both scales are numbers. -/
def blockSum (a b : Nat → FVal) (lo : Nat) : FVal × Flags :=
  (List.range 32).foldl (fun acc j =>
    let (p, f) := (a (lo + j)).mul (b (lo + j))
    let (t, f') := acc.1.add false p
    (t, acc.2 ||| f ||| f')) (.num false 0 0, 0)

/-- One accumulator over the K-blocks in increasing order (R99). A NaN that it produces sets NV (R295), which
takes in that of a signalling NaN operand (R79). -/
def mmaCell (a b : Nat → FVal) (sa sb : Nat → Nat) (acc : Nat) : List Nat → Nat × Flags
  | [] => (acc, 0)
  | blk :: rest =>
    let (v, fv) := match scaleExp (sa blk), scaleExp (sb blk) with
      | some x, some y => let (p, f) := blockSum a b (32 * blk); (p.scale (x + y), f)
      | _, _ => (.nan false, 0)
    let (t, ft) := (fmtF32.decode false acc).add false v
    let (r, fr) := fmtF32.round (.mode .rne) false false t
    let (z, fz) := mmaCell a b sa sb r rest
    (z, fv ||| ft ||| flIf t.isNan flNV ||| fr ||| fz)

/-- The integer of an operand element of the integer forms, and the flag of a reserved code (R76, R100). -/
def operandInt (fmt v : Nat) : Int × Flags :=
  match fmt with
  | 0x0E => (match v with
    | 1 => 1
    | 3 => -1
    | _ => 0, flIf (v == 2) flTRES)
  | 0x10 => (signedNat 4 v, 0)
  | _ => (signedNat 8 v, 0)

/-- The exact integer sum of products of one accumulator (R100). -/
def dotInt (A B : List Byte) (fa fb K m n : Nat) : Int × Flags :=
  (List.range K).foldl (fun acc k =>
    let (x, f) := operandInt fa (operandElem A fa K m k)
    let (y, f') := operandInt fb (operandElem B fb K n k)
    (acc.1 + x * y, acc.2 ||| f ||| f')) (0, 0)

/-- The bytes of an item in a receiving buffer (R150, R297). -/
def Item.size : Item → Nat
  | .group ws => 8 * ws.length
  | .entryA _ _ _ bs => bs.length

/-- The bytes waiting at and on the way to the other end of a port. -/
def State.crossLoad (s : State) (p : Port) : Nat :=
  let q := (s.hart p.peer).port p.peerPort
  ((q.items ++ q.flight).map Item.size).sum

/-- Another form of the pair is at the head of the crossing (R297): the peer waits in an exchange and
nothing is before it. -/
def State.exchangeAhead (s : State) (p : Port) : Bool :=
  p.items.isEmpty && p.flight.isEmpty && (s.hart p.peer).run == .waiting
    && (match (s.hart p.peer).wait with
      | .mxchg _ _ _ => true
      | _ => false)

/-- A wait of a form that runs as one of a pair. -/
def Wait.ofPair : Wait → Bool
  | .crossRecv _ | .crossSend _ | .mxchg _ _ _ => true
  | .ring _ paired => paired
  | _ => false

/-- The trap of a form that is to run paired on a hart that is not: TVAL is PORT when the pairing was closed
while the form waited (R297), which leaves TSHAPE.PORT as it was. -/
def unpairedTrap {α : Type} : GOp α := do
  let s ← gState
  gTrap .crossingState (if s.me.wait.ofPair then BitVec.ofNat 64 s.me.pairPort else 0)

/-- The pairing of a form was closed while the form waited (R297). -/
def pairLost (pair : Bool) : GOp Unit := do
  let s ← gState
  if pair && !s.me.paired && s.me.wait.ofPair then unpairedTrap

/-- Operand A of a paired secondary: the next item of the crossing (R297). -/
def itemA (fmt : BitVec 5) : GOp (List Byte) := do
  let H ← gHart
  let k := H.pairPort
  let p := H.port k
  let s ← gState
  match p.items with
  | .entryA m kk f bs :: rest =>
    gCheck (decide (m = H.shapeM ∧ kk = H.shapeK) && f == fmt) .matrixShape 0
    gMod (fun H => { H with ports := H.ports.setIfInBounds k { p with items := rest } })
    return bs
  | .group _ :: _ => gTrap .crossingState 0
  | [] => if s.exchangeAhead p then gTrap .crossingState 0 else gWait (.crossRecv k)

/-- The form takes operand A from the crossing (R297). -/
def Hart.takesItem (H : Hart) (pair : Bool) : Bool := pair && H.paired && !H.primary

/-- The checks that come before any operand is read (R291, R295, R297): those of the rings that the form
reads, then that of the pairing. -/
def mmaChecks (w : VFields) (pair : Bool) : GOp Unit := do
  pairLost pair
  let H ← gHart
  if !H.takesItem pair then ringCheck w.va.toNat (operandBytes w.fmt.toNat H.shapeM H.shapeK) pair
  ringCheck w.vb.toNat (operandBytes w.fmtB H.shapeN H.shapeK) pair
  if pair && !H.paired then unpairedTrap

/-- Operand A of a form that has passed its checks (R291, R295, R297): the next item of a paired secondary's
crossing, else the entry of ring `va`. -/
def operandA (w : VFields) (pair : Bool) : GOp (List Byte) := do
  let H ← gHart
  if H.takesItem pair then itemA w.fmt
  else
    let A ← ringEntry w.va.toNat (operandBytes w.fmt.toNat H.shapeM H.shapeK)
    if w.selNat 9 1 = 0 then popRing w.va.toNat
    return A

/-- A primary sends its whole A entry on as it retires, which waits while the receiving buffer lacks room (R150, R297). -/
def sendA (w : VFields) (pair : Bool) (A : List Byte) : GOp Unit := do
  let H ← gHart
  if pair && !H.takesItem pair then
    let k := H.pairPort
    let s ← gState
    if 65536 < s.crossLoad (H.port k) + A.length then gWait (.crossSend k)
    modify (fun G => { G with sends := G.sends ++ [(k, .entryA H.shapeM H.shapeK w.fmt A)] })

/-- `mma` and `mtern` (R99, R100, R293 to R295, R297). -/
def mmaForm (integer : Bool) (w : VFields) : GOp Unit := do
  let pair := w.selNat 7 1 == 1
  let H ← gHart
  let M := H.shapeM
  let N := H.shapeN
  let K := H.shapeK
  mmaChecks w pair
  let A ← operandA w pair
  let B ← ringEntry w.vb.toNat (operandBytes w.fmtB N K)
  if w.selNat 8 1 = 0 then popRing w.vb.toNat
  sendA w pair A
  let fa := w.fmt.toNat
  let fb := w.fmtB
  gMod (fun H0 => (region M N).foldl (fun (H : Hart) p =>
    let old := H0.acc p.1 p.2
    let (v, fl) :=
      if integer then
        let (d, f) := dotInt A B fa fb K p.1 p.2
        (wrapInt 32 ((old : Int) + d), f)
      else
        mmaCell (fun k => mxValueOf fa (operandElem A fa K p.1 k)) (fun k => mxValueOf fb (operandElem B fb K p.2 k))
          (fun b => operandScale A fa M K p.1 b) (fun b => operandScale B fb N K p.2 b) old (List.range (K / 32))
    (H.setAcc p.1 p.2 v).raiseM fl) H0)
where
  /-- The value of an operand element before its block scale (R75, R77). -/
  mxValueOf (fmt v : Nat) : FVal :=
    if 8 ≤ fmt then mxValue fmt v else (fmtOfCode fmt).decode false v

/-! ### Zeroing, storing and exchanging -/

/-- The region of accumulators set to 0. -/
def Hart.zeroAcc (H : Hart) : Hart := (region H.shapeM H.shapeN).foldl (fun (H : Hart) p => H.setAcc p.1 p.2 0) H

/-- `mzero` (R298). -/
def mzeroForm : GOp Unit := do
  let H ← gHart
  gCheck (decide (H.shapeM ≠ 0 ∧ H.shapeN ≠ 0 ∧ H.shapeK ≠ 0)) .matrixShape 0
  gMod Hart.zeroAcc

/-- The value that `mst` stores for an accumulator (R101, R299). -/
def mstValue (H : Hart) (w : VFields) (T : FVal) (a : Nat) : Nat × Flags :=
  let x := if w.selNat 8 1 = 1 then FVal.ofInt (signedNat 32 a) else fmtF32.decode false a
  let (p, f) := x.mul T
  let sat := w.selNat 9 1 == 1
  let r := Rounding.mode (H.rmode w.rm)
  let (b, f') := if w.fmt.toNat ≤ 1 then p.toInt r (widthBits w.width.toNat) (w.fmt == 0) sat
    else (fmtOfCode w.fmt.toNat).round r sat false p
  (b, f ||| f')

/-- `mst` (R299). -/
def mstForm (c : Ctx) (w : VFields) : GOp Unit := do
  let H ← gHart
  let N := H.shapeN
  let size := elemBytes w
  let T := fmtF32.decode false (unbox fmtF32 (H.getF w.va))
  let addr (i : Nat) : Word :=
    H.getX w.vc + BitVec.ofNat 64 (i / N) * H.getX w.vb + BitVec.ofNat 64 (i % N * size)
  let ps ← reachAll .write size addr false (List.range (H.shapeM * N))
  ps.forM (fun p => do
    let (v, fl) := mstValue H w T (H.acc (p.i / N) (p.i % N))
    hold c p size v (H.ordered p) (w.selNat 6 1 == 1)
    gMod (fun H => H.raiseM fl))
  if w.selNat 7 1 = 1 then gMod Hart.zeroAcc

/-- The region of a hart after an exchange with a peer (R300). -/
def Hart.exchange (H P : Hart) (add : Bool) (fmt : BitVec 5) (rm : BitVec 3) : Hart :=
  (region H.shapeM H.shapeN).foldl (fun (R : Hart) p =>
    let a := H.acc p.1 p.2
    let b := P.acc p.1 p.2
    let (v, fl) :=
      if !add then (b, 0)
      else if fmt = 0 then ((a + b) % 2 ^ 32, 0)
      else
        let r := H.rmode rm
        let (t, f) := (fmtF32.decode false a).add (r == .rdn) (fmtF32.decode false b)
        let (x, f') := fmtF32.round (.mode r) false false t
        (x, f ||| f')
    (R.setAcc p.1 p.2 v).raiseM fl) H

/-- A hart whose one-slot convoy retires. -/
def Hart.retireOne (H : Hart) : Hart :=
  { H with
    csr := { H.csr with vstart := 0 }
    pc := H.pc + 12
    run := .running
    wait := .none
    waited := 0
    watchdog := 0
    ladder := 0 }

/-- A hart whose one-slot convoy traps (R48, R287). -/
def Hart.trapOne (H : Hart) (c : Cause) (v : Word) : Hart :=
  { H with csr := { H.csr with vstart := 0x40000 } }.enterTrap false c.code v H.pc

/-- `mxchg` (R297, R300): the harts meet when both wait in it and nothing is before them on the crossing.
The peer's part happens at the meeting. -/
def mxchgForm (w : VFields) : GOp Unit := do
  let H ← gHart
  if !H.paired then unpairedTrap
  let k := H.pairPort
  let p := H.port k
  let add := w.selNat 8 1 == 1
  let s ← gState
  let P := s.hart p.peer
  let q := P.port p.peerPort
  match p.items with
  | _ :: _ => gTrap .crossingState 0
  | [] =>
    match P.wait with
    | .mxchg add' fmt' rm' =>
      if P.run = .waiting ∧ p.flight.isEmpty ∧ q.items.isEmpty ∧ q.flight.isEmpty then
        if H.shapeM = P.shapeM ∧ H.shapeN = P.shapeN ∧ add = add' ∧ w.fmt = fmt' then
          gLift (modify (fun s => s.updHart p.peer (fun P => (P.exchange H add' fmt' rm').retireOne)))
          gMod (fun H => H.exchange P add w.fmt w.rm)
        else
          gLift (modify (fun s => s.updHart p.peer (fun P => P.trapOne .matrixShape 0)))
          gTrap .matrixShape 0
      else gWait (.mxchg add w.fmt w.rm)
    | _ => gWait (.mxchg add w.fmt w.rm)

/-! ### Sounding -/

/-- The record lies wholly in scratchpad banks of the hart's tile (R304). DESIGN CHOICE (log 28): TVAL of the trap "bank role"
is the record's base address, whichever of its pages lies elsewhere. -/
def recordCheck (va : Word) : GOp Unit := do
  gCheck (decide (va.toNat % 64 = 0)) .misaligned va
  let s ← gState
  [0, 1, 2].forM (fun k => do
    let a := if k = 0 then va else BitVec.ofNat 64 ((va.toNat / 4096 + k) * 4096)
    if k = 0 ∨ a.toNat < va.toNat + 4672 then
      match s.translate s.cur s.me.sup .write a.toNat with
      | .error (.fault c) => do
        gLift (modify (fun s => s.endFailed s.cur a.toNat))
        gTrap c a
      | .error (.askHost p) => do
        let _ ← gLift (askHost p)
        pure ()
      | .ok l =>
        gCheck (!s.keyInvalid l.key) .access a
        gCheck (s.inSpadOf (tileOf s.cur) l.pa) .bankRole va)

/-- 4-byte words held as stores from an address up. -/
def holdWords (c : Ctx) (va : Word) (vs : List Nat) : GOp Unit := do
  let H ← gHart
  let ps ← reachAll .write 4 (fun k => va + BitVec.ofNat 64 (4 * k)) false (List.range vs.length)
  ps.forM (fun p => hold c p 4 (vs.getD p.i 0) (H.ordered p) false)

/-- `msound` (R303, R304). -/
def msoundForm (c : Ctx) (w : VFields) : GOp Unit := do
  let H ← gHart
  let M := H.shapeM
  let N := H.shapeN
  let K := H.shapeK
  ringCheck w.va.toNat (operandBytes 0 M K) false
  ringCheck w.vb.toNat (operandBytes 14 N K) false
  let rec_ := H.getX w.vc
  recordCheck rec_
  let A ← ringEntry w.va.toNat (operandBytes 0 M K)
  let B ← ringEntry w.vb.toNat (operandBytes 14 N K)
  if w.selNat 9 1 = 0 then popRing w.va.toNat
  if w.selNat 8 1 = 0 then popRing w.vb.toNat
  gMod (fun H => (region M N).foldl (fun (H : Hart) p =>
    let (d, f) := dotInt A B 0 14 K p.1 p.2
    (H.setAcc p.1 p.2 (wrapInt 32 d)).raiseM f) H)
  let H' ← gHart
  let thresh := signedNat 32 (fld H.csr.soundt 0 32).toNat
  let active := (List.range N).filter (fun n =>
    (List.range M).any (fun m => decide (thresh < signedNat 32 (H'.acc m n))))
  let lambda := (List.range M).map (fun m => ((List.range K).map (fun k =>
    (operandInt 0 (operandElem A 0 K m k)).1.natAbs)).sum)
  holdWords c rec_ ([active.length, 0, M + 65536 * N] ++ List.replicate 13 0)
  holdWords c (rec_ + 64) lambda
  holdWords c (rec_ + 576) active

/-- The bound that a neuron has for a row (R306). -/
def soundBound (delta g eps cn : FVal) (acc lambda : Nat) : FVal :=
  let x := (g.mul (FVal.ofInt (signedNat 32 acc))).1.add false ((eps.mul (FVal.ofInt lambda)).1)
  let y := (delta.mul x.1).1
  let z := if y.cmp (.num false 0 0) = some .lt then .num false 0 0 else y
  (z.mul cn).1

/-- A coefficient is finite, and not below zero (R306). -/
def FVal.finite : FVal → Bool
  | .num _ _ _ => true
  | _ => false
def FVal.below0 (v : FVal) : Bool := v.cmp (.num false 0 0) == some .lt

/-- `mcheck` (R305, R306). DESIGN CHOICE (log 28): all 64 bytes of the coefficient table are read, those that R305 ignores too,
so that a poisoned sector there is a memory error. -/
def mcheckForm (c : Ctx) (w : VFields) : GOp Unit := do
  let H ← gHart
  let M := H.shapeM
  let N := H.shapeN
  let rec_ := H.getX w.vc
  let tab := H.getX w.va
  recordCheck rec_
  gCheck (decide (tab.toNat % 64 = 0)) .misaligned tab
  let head ← readVa rec_ 4 64
  gCheck (leAt head 8 2 == M && leAt head 10 2 == N) .matrixShape 0
  let t ← readVa tab 4 (64 + 16 * N)
  let lam ← readVa (rec_ + 64) 4 (4 * M)
  let P := Nat.min (leAt head 0 4) N
  let act ← readVa (rec_ + 576) 4 (4 * P)
  let active := (List.range P).map (fun k => leAt act (4 * k) 4)
  let f (off : Nat) : FVal := fmtF32.decode false (leAt t off 4)
  let delta := f 0
  let bound := fmtF32.decode false (fld H.csr.sounde 0 32).toNat
  let badOf (n : Nat) : Bool :=
    let o := 64 + 16 * n
    !(delta.finite && (f (o + 4)).finite && (f (o + 8)).finite && (f o).finite)
      || delta.below0 || (f (o + 4)).below0 || (f (o + 8)).below0 || bound.isNan || bound.below0
  let rest := (List.range N).filter (fun n => !active.contains n)
  let replay := rest.filter (fun n => badOf n || (List.range M).any (fun m =>
    let o := 64 + 16 * n
    bound.cmp (soundBound delta (f o) (f (o + 4)) (f (o + 8)) (H.acc m n) (leAt lam (4 * m) 4)) == some .lt))
  holdWords c (rec_ + 4) [replay.length]
  holdWords c (rec_ + 2624) replay
  if rest.any badOf then
    gMod (fun H => { H with csr := { H.csr with mstat := setBit H.csr.mstat 8 true } })

end Sys2Proof.Machine
end

