-- ==== Sys2Proof/Machine/VWhole.lean ====
section
/-!
DEFINITION. The whole-vector forms: permutes (R256, R273), reductions and scans (R257, R258), the sparse
forms (R274 to R276), and the transfers between the register files and over crossings (R259, R260, R152).
-/

namespace Sys2Proof.Machine

/-! ### Permutes -/

/-- A whole-vector permute (R256): each active element below VL takes the value that `f` gives from the
hart as it was, or keeps its own. -/
def permForm (f : Hart → Nat → Option Nat) (c : Ctx) (w : VFields) : GOp Unit :=
  gMod (fun H0 =>
    let H := (H0.active w.mask (List.range c.vl)).foldl (fun (H : Hart) i =>
      match f H0 i with
      | some v => H.putElem w.vd.toNat w.width.toNat i v
      | none => H) H0
    H.cover w.vd.toNat w.width.toNat (c.vl - 1))

/-- The count or index of a permute (R256). -/
def Hart.permN (H : Hart) (w : VFields) : Nat := (H.getX w.vc).toNat

/-- An element of `va`. -/
def Hart.elemA (H : Hart) (w : VFields) (i : Nat) : Nat := H.elem w.va.toNat w.width.toNat i

def slideUp (w : VFields) (H : Hart) (i : Nat) : Option Nat :=
  if H.permN w ≤ i then some (H.elemA w (i - H.permN w)) else none
def slideDown (c : Ctx) (w : VFields) (H : Hart) (i : Nat) : Option Nat :=
  some (if i + H.permN w < c.vl then H.elemA w (i + H.permN w) else 0)
def permute (c : Ctx) (w : VFields) (H : Hart) (i : Nat) : Option Nat :=
  let j := H.elem w.vb.toNat w.width.toNat i
  some (if j < c.vl then H.elemA w j else 0)
def broadcast (c : Ctx) (w : VFields) (H : Hart) (_ : Nat) : Option Nat :=
  some (if H.permN w < c.vl then H.elemA w (H.permN w) else 0)

/-- `vcompress` (R273). -/
def compressForm (c : Ctx) (w : VFields) : GOp Unit :=
  gMod (fun H0 =>
    let src := H0.bitsBelow w.mask.toNat c.vl
    let H := (src.mapIdx (fun k i => (k, i))).foldl (fun (H : Hart) p =>
      H.putElem w.vd.toNat w.width.toNat p.1 (H0.elemA w p.2)) H0
    if src.isEmpty then H else H.cover w.vd.toNat w.width.toNat (src.length - 1))

/-- `vexpand` (R273). -/
def expandForm (c : Ctx) (w : VFields) : GOp Unit :=
  gMod (fun H0 =>
    let dst := H0.bitsBelow w.mask.toNat c.vl
    let H := (dst.mapIdx (fun r i => (r, i))).foldl (fun (H : Hart) p =>
      H.putElem w.vd.toNat w.width.toNat p.2 (H0.elemA w p.1)) H0
    H.cover w.vd.toNat w.width.toNat (c.vl - 1))

/-! ### Reductions and scans -/

/-- Splits a list of elements before every one that begins a segment (R96). -/
def segmentsOf (starts : Nat → Bool) : List Nat → List (List Nat)
  | [] => []
  | i :: rest =>
    match segmentsOf starts rest with
    | [] => [[i]]
    | s :: ss =>
      match s with
      | j :: _ => if starts j then [i] :: s :: ss else (i :: s) :: ss
      | [] => [i] :: ss

/-- The segments of the first VL elements under a VRED word (R96, R258). -/
def Hart.segments (H : Hart) (c : Ctx) (w : VFields) : List (List Nat) :=
  let seg := w.selNat 16 1 == 1
  segmentsOf (fun i => seg && H.bit (w.selNat 13 3) i) (List.range c.vl)

/-- The reduction of the elements of a segment from a start (R93, R94): the tree only where the order of a
floating sum matters (R97). -/
def reduceSeg (f : Combine) (tree : Bool) (H : Hart) (w : VFields) (start : Nat) (seg : List Nat) : Nat × Flags :=
  if tree then
    foldTree f start (seg.map (fun i => if H.bit w.mask.toNat i then some (H.elemA w i) else none))
  else foldOrdered f start ((H.active w.mask seg).map (H.elemA w))

/-- A reduction form (R258). -/
def redForm (f : Hart → Combine) (tree : Bool) (c : Ctx) (w : VFields) : GOp Unit :=
  gMod (fun H0 =>
    let segs := H0.segments c w
    let H := (segs.mapIdx (fun k s => (k, s))).foldl (fun (H : Hart) p =>
      let r := reduceSeg (f H0) tree H0 w (H0.elem w.vb.toNat w.width.toNat p.1) p.2
      (H.putElem w.vd.toNat w.width.toNat p.1 r.1).raise r.2) H0
    H.cover w.vd.toNat w.width.toNat (segs.length - 1))

/-- A scan form (R93, R94, R258): the value at `i` is the reduction of its segment up to `i`. -/
def scanForm (f : Hart → Combine) (tree : Bool) (c : Ctx) (w : VFields) : GOp Unit :=
  gMod (fun H0 =>
    let segs := H0.segments c w
    let H := (segs.mapIdx (fun k s => (k, s))).foldl (fun (H : Hart) p =>
      (p.2.mapIdx (fun j i => (j, i))).foldl (fun (H : Hart) q =>
        if H0.bit w.mask.toNat q.2 then
          let r := reduceSeg (f H0) tree H0 w (H0.elem w.vb.toNat w.width.toNat p.1) (p.2.take (q.1 + 1))
          (H.putElem w.vd.toNat w.width.toNat q.2 r.1).raise r.2
        else H) H) H0
    H.cover w.vd.toNat w.width.toNat (c.vl - 1))

/-- The steps of VRED (R257). -/
def redSum (w : VFields) (H : Hart) : Combine :=
  sumStep w.fmt.toNat (widthBits w.width.toNat) (H.rmode w.rm) H.ftz
def redExtreme (isMax : Bool) (w : VFields) (H : Hart) : Combine :=
  extremeStep w.fmt.toNat (widthBits w.width.toNat) isMax H.ftz
def redLogic (f : Nat → Nat → Nat) (_ : Hart) : Combine := fun a b => (f a b, 0)

/-- The sum takes the tree: a floating format without ORD (R94, R97, R257). -/
def redTree (w : VFields) : Bool := decide (2 ≤ w.fmt.toNat) && w.selNat 17 1 == 0

/-! ### Sparse forms -/

/-- A hart with bits of a mask register from 0 up replaced. -/
def Hart.putBits (H : Hart) (m : Nat) (bs : List Bool) : Hart :=
  (bs.mapIdx (fun i b => (i, b))).foldl (fun (H : Hart) p => H.putBit m p.1 p.2) H

/-- A hart with elements of a register from 0 up replaced, and covered (R241). -/
def Hart.putElems (H : Hart) (r w : Nat) (vs : List Nat) : Hart :=
  let H := (vs.mapIdx (fun i v => (i, v))).foldl (fun (H : Hart) p => H.putElem r w p.1 p.2) H
  if vs.isEmpty then H else H.cover r w (vs.length - 1)

/-- The VL from the next convoy on (R270). -/
def setNextVl (n : Nat) : GOp Unit := modify (fun G => { G with newVl := some n })

/-- `vsetlf` (R275). -/
def setlfForm (c : Ctx) (w : VFields) : GOp Unit := do
  let H ← gHart
  let ends := (List.range c.vl).map (H.elemA w)
  let cap := (H.getX w.vb).toNat
  let lim := H.vlmax w.width.toNat
  let lim := if cap = 0 then lim else Nat.min lim cap
  let p := (H.getX w.vc).toNat
  let q := Nat.max p (Nat.min (p + lim) (ends.getLast?.getD 0))
  gMod (fun H => H.putBits (w.selNat 15 3)
    ((List.range (q - p)).map (fun k => k == 0 || ends.contains (p + k))))
  setNextVl (q - p)
  reply false (w.selNat 10 5) (BitVec.ofNat 64 q)

/-- Fibre B is passed up to the first coordinate not below `a`, over at most `n` elements (R276). -/
def passBelow (B : List Nat) (a nb j : Nat) : Nat → Nat
  | 0 => j
  | n + 1 => if j < nb ∧ B.getD j 0 < a then passBelow B a nb (j + 1) n else j

/-- `vxint` over fibre A (R276): for each element the position of its match in B, if it has one. -/
def intersect (B : List Nat) (nb : Nat) : List Nat → Nat → List (Option Nat)
  | [], _ => []
  | a :: rest, j =>
    let j := passBelow B a nb j nb
    if j < nb ∧ B.getD j 0 = a then some j :: intersect B nb rest (j + 1)
    else none :: intersect B nb rest j

/-- `vxuni` and `vxmrg` (R276): the output elements with their origin bits, and the elements taken of A and
B, over at most `n` outputs. -/
def unite (merge : Bool) : Nat → List Nat → List Nat → List (Nat × Bool)
  | 0, _, _ => []
  | _ + 1, [], [] => []
  | n + 1, a :: A, [] => (a, true) :: unite merge n A []
  | n + 1, [], b :: B => (b, false) :: unite merge n [] B
  | n + 1, a :: A, b :: B =>
    if a < b ∨ (merge ∧ a = b) then (a, true) :: unite merge n A (b :: B)
    else if b < a then (b, false) :: unite merge n (a :: A) B
    else (a, true) :: unite merge n A B

/-- The elements that `unite` takes of A and of B. -/
def uniteTaken (merge : Bool) : Nat → List Nat → List Nat → Nat × Nat
  | 0, _, _ => (0, 0)
  | _ + 1, [], [] => (0, 0)
  | n + 1, _ :: A, [] => let r := uniteTaken merge n A []; (r.1 + 1, r.2)
  | n + 1, [], _ :: B => let r := uniteTaken merge n [] B; (r.1, r.2 + 1)
  | n + 1, a :: A, b :: B =>
    if a < b ∨ (merge ∧ a = b) then let r := uniteTaken merge n A (b :: B); (r.1 + 1, r.2)
    else if b < a then let r := uniteTaken merge n (a :: A) B; (r.1, r.2 + 1)
    else let r := uniteTaken merge n A B; (r.1 + 1, r.2 + 1)

/-- The fibres of a sparse form (R276). -/
def Hart.fibreA (H : Hart) (c : Ctx) (w : VFields) : List Nat := (List.range c.vl).map (H.elemA w)
def Hart.fibreB (H : Hart) (w : VFields) : List Nat :=
  (List.range (Nat.min (H.getX w.vc).toNat (H.vlmax w.width.toNat))).map
    (H.elem w.vb.toNat w.width.toNat)

/-- `vxint` (R276). -/
def intersectForm (c : Ctx) (w : VFields) : GOp Unit :=
  gMod (fun H =>
    let B := H.fibreB w
    let out := intersect B B.length (H.fibreA c w) 0
    let n := widthBits w.width.toNat
    (H.putElems w.vd.toNat w.width.toNat (out.map (fun o => match o with
      | some j => j % 2 ^ n
      | none => 2 ^ n - 1))).putBits (w.selNat 15 3) (out.map Option.isSome))

/-- `vxuni` and `vxmrg` (R276). -/
def uniteForm (merge : Bool) (c : Ctx) (w : VFields) : GOp Unit := do
  let H ← gHart
  let A := H.fibreA c w
  let B := H.fibreB w
  let lim := H.vlmax w.width.toNat
  let out := unite merge lim A B
  let (i, j) := uniteTaken merge lim A B
  gMod (fun H => (H.putElems w.vd.toNat w.width.toNat (out.map (fun o => o.1))).putBits (w.selNat 15 3)
    (out.map (fun o => o.2)))
  setNextVl out.length
  reply false (w.selNat 10 5) (BitVec.ofNat 64 (j * 2 ^ 32 + i))

/-! ### Transfers -/

/-- `vext` (R259). -/
def extForm (c : Ctx) (w : VFields) : GOp Unit := do
  let H ← gHart
  let j := (H.getX w.vc).toNat
  let v := if j < c.vl then H.elemA w j else 0
  let n := widthBits w.width.toNat
  if w.fmt.toNat ≤ 1 then reply false w.vd.toNat (if (isSigned w) then sextNat n v else zextNat n v)
  else reply true w.vd.toNat (box (fmtOfCode w.fmt.toNat) v)

/-- `vins` (R259): in the group that holds the element. -/
def insForm (w : VFields) (lo hi : Nat) : GOp Unit :=
  gMod (fun H =>
    let j := (H.getX w.vc).toNat
    if lo ≤ j ∧ j < hi then
      let x := if w.fmt.toNat ≤ 1 then H.getX w.va else H.getF w.va
      (H.putElem w.vd.toNat w.width.toNat j (x.toNat % 2 ^ widthBits w.width.toNat)).cover
        w.vd.toNat w.width.toNat j
    else H)

/-- The groups that a crossing's receiving buffer of 64 KiB holds (R150). -/
def crossRoom (lanes : Nat) : Nat := 65536 / (8 * lanes)

/-- The lane words of group `g` of a register (R150). -/
def Hart.groupWords (H : Hart) (r g : Nat) : List Word :=
  (List.range H.lanes).map (fun l => laneWord (H.getV r) (g * H.lanes + l))

/-- An open port of the hart, or the trap of R260. -/
def openPort (k : Nat) : GOp Port := do
  let H ← gHart
  match H.ports[k]? with
  | some p => if p.isOpen then return p else gTrap .crossingState (BitVec.ofNat 64 k)
  | none => gTrap .crossingState (BitVec.ofNat 64 k)

/-- `vxsend` (R259, R260): the group leaves at the commit; the hart waits while the peer's buffer is
full. -/
def sendForm (c : Ctx) (w : VFields) (g : Nat) : GOp Unit := do
  let k := w.selNat 16 2
  let p ← openPort k
  let s ← gState
  let G ← get
  let waiting := match (s.hart p.peer).ports[p.peerPort]? with
    | some q => q.items.length + q.flight.length
    | none => 0
  if crossRoom c.lanes ≤ waiting + (G.sends.filter (fun e => e.1 == k)).length then gWait (.crossSend k)
  set { G with sends := G.sends ++ [(k, Item.group (G.h.groupWords w.va.toNat g))] }

/-- The fields of a routing entry (R151). -/
def entryFmt (e : BitVec 32) : Nat := (fld e 0 5).toNat
def entryScale (e : BitVec 32) : Nat := (fld e 5 8).toNat
def entryRm (e : BitVec 32) : BitVec 3 := fld e 13 3
def entrySat (e : BitVec 32) : Bool := e.getLsbD 16

/-- The bits of an element of a link format: an integer format is as wide as `w` says (R72, R152). -/
def linkBits (fmt w : Nat) : Nat := if fmt ≤ 1 then widthBits w else (fmtOfCode fmt).bits

/-- One element converted on a typed link (R152). -/
def linkElem (mine theirs : BitVec 32) (r : Rounding) (n v : Nat) : Nat × Flags :=
  let x := if entryFmt theirs ≤ 1 then FVal.ofInt (asInt n (entryFmt theirs == 0) v)
    else (fmtOfCode (entryFmt theirs)).decode false v
  let y := x.scale ((entryScale theirs : Int) - entryScale mine)
  let fl := x.sig
  if entryFmt mine ≤ 1 then
    match y with
    | .num neg m e =>
      if entryFmt theirs ≤ 1 then
        let (q, inexact) := roundQuanta r neg m e 0
        let i : Int := if neg then -(q : Int) else q
        let (b, f) := intToInt n (entryFmt mine == 0) (entrySat mine) i
        (b, f ||| flIf inexact flNX)
      else y.toInt r n (entryFmt mine == 0) (entrySat mine)
    | y => y.toInt r n (entryFmt mine == 0) (entrySat mine)
  else
    let (b, f) := (fmtOfCode (entryFmt mine)).round r (entrySat mine) false y
    (b, fl ||| f)

/-- A lane word as the receiving router passes it on (R152), at elements of width code `w`. -/
def linkWord (mine theirs : BitVec 32) (r : Rounding) (w : Nat) (x : Word) : Word × Flags :=
  let fmt := if 2 ≤ entryFmt mine then entryFmt mine else entryFmt theirs
  let n := linkBits fmt w
  (List.range (64 / n)).foldl (fun (acc : Word × Flags) k =>
    let (b, f) := linkElem mine theirs r n (x.toNat / 2 ^ (n * k) % 2 ^ n)
    (setFld acc.1 (n * k) (BitVec.ofNat n b), acc.2 ||| f)) (0, 0)

/-- `vxrecv` (R152, R259, R260): one group is taken, converted on a typed link, and the elements of the
convoy written. -/
def recvForm (w : VFields) (g lo hi : Nat) : GOp Unit := do
  let k := w.selNat 16 2
  let p ← openPort k
  let s ← gState
  let theirs := match (s.hart p.peer).ports[p.peerPort]? with
    | some q => q.entry
    | none => p.entry
  match p.items with
  | .group ws :: rest =>
    gMod (fun H =>
      let conv (x : Word) : Word × Flags := if theirs = p.entry then (x, 0)
        else linkWord p.entry theirs (.mode (H.rmode (entryRm p.entry))) w.width.toNat x
      let cs := ws.map conv
      let old := H.getV w.vd.toNat
      let full := (cs.mapIdx (fun l x => (l, x.1))).foldl (fun v e => setLaneWord v (g * H.lanes + e.1) e.2) old
      let H := (elems lo hi).foldl (fun (H : Hart) i =>
        H.putElem w.vd.toNat w.width.toNat i (elemOf H.lanes w.width.toNat full i)) H
      let H := H.raise (cs.foldl (fun f x => f ||| x.2) 0)
      let H := H.cover w.vd.toNat w.width.toNat (hi - 1)
      { H with ports := H.ports.setIfInBounds k { p with items := rest } })
  | _ => gWait (.crossRecv k)

end Sys2Proof.Machine
end

