-- ==== Sys2Proof/Machine/Pages.lean ====
section
/-!
DEFINITION. Fabric page sets: reading images and checking them (R314 to R320, R322 to R324).
-/

namespace Sys2Proof.Machine

/-! ### Endpoints (R319) -/

def epKind (e : BitVec 16) : Nat := (fld e 12 4).toNat
def epPage (e : BitVec 16) : Nat := (fld e 8 4).toNat
def epSlot (e : BitVec 16) : Nat := (fld e 4 4).toNat
def epPort (e : BitVec 16) : Nat := (fld e 0 4).toNat
def epQueue (e : BitVec 16) : Nat := (fld e 0 5).toNat

/-- The endpoint of a port of a node (R319): kind 0 a unit, 1 an operator, 3 a memory operation, 4 control. -/
def endpoint (kind page slot port : Nat) : BitVec 16 :=
  BitVec.ofNat 16 (kind * 4096 + page * 256 + slot * 16 + port)

/-! ### Reading an image (R318, R320, R322, R323) -/

/-- A link entry (R318): DST0 always, the other destinations where they name one. -/
def linkAt (bs : List Byte) (off : Nat) : Link :=
  let d (k : Nat) : BitVec 16 := BitVec.ofNat 16 (leAt bs (off + 2 + 2 * k) 2)
  { src := BitVec.ofNat 16 (leAt bs off 2)
    dsts := d 0 :: ([d 1, d 2, d 3].filter (fun e => e != 0xFFFF))
    depth := leAt bs (off + 10) 1
    delay := decide (leAt bs (off + 11) 1 % 2 = 1)
    stype := BitVec.ofNat 32 (leAt bs (off + 12) 4)
    dtype := BitVec.ofNat 32 (leAt bs (off + 16) 4) }

/-- A memory-operation entry (R320). -/
def memOpAt (bs : List Byte) (off : Nat) : MemOp where
  kind := leAt bs off 1
  sz := BitVec.ofNat 8 (leAt bs (off + 1) 1)
  seq := leAt bs (off + 2) 2
  pred := leAt bs (off + 4) 2
  succ := leAt bs (off + 6) 2
  hasPred := decide (leAt bs (off + 8) 1 % 2 = 1)

/-- A page of a set from its image (R322). -/
def pageOf (bs : List Byte) : Page where
  units := (List.range 16).map (fun s =>
    { prog := (List.range (leAt bs (1216 + 8 * s) 1)).map (fun k => BitVec.ofNat 32 (leAt bs (64 + 64 * s + 4 * k) 4))
      const := BitVec.ofNat 64 (leAt bs (1088 + 8 * s) 8) })
  ops := (List.range 16).map (fun i => leAt bs (1344 + 8 * i) 1)
  mems := (List.range (leAt bs 6 1)).map (fun i => memOpAt bs (1472 + 16 * i))
  links := (List.range (leAt bs 5 1)).map (fun i => linkAt bs (1728 + 24 * i))

/-- The page set of its images (R322, R323). -/
def pageSetOf (images : List (List Byte)) : PageSet :=
  let b := images.headD []
  { pages := images.map pageOf
    qin := BitVec.ofNat 32 (leAt b 8 4)
    qout := BitVec.ofNat 32 (leAt b 12 4)
    tag := BitVec.ofNat 16 (leAt b 16 2) }

/-! ### Nodes of a page set -/

/-- A unit of a page. -/
def PageSet.unit (P : PageSet) (page slot : Nat) : UnitProg :=
  match P.pages[page]? with
  | some g => g.units[slot]?.getD ⟨[], 0⟩
  | none => ⟨[], 0⟩

/-- The kind of a router slot (R317). -/
def PageSet.operator (P : PageSet) (page slot : Nat) : Nat :=
  match P.pages[page]? with
  | some g => g.ops[slot]?.getD 0
  | none => 0

/-- A memory operation of a page, if the entry is used. -/
def PageSet.mem? (P : PageSet) (page slot : Nat) : Option MemOp :=
  match P.pages[page]? with
  | some g => match g.mems[slot]? with
    | some m => if m.kind = 0 then none else some m
    | none => none
  | none => none

/-- The links of a set, with their pages. -/
def PageSet.linksOf (P : PageSet) : List (Nat × Link) :=
  (P.pages.mapIdx (fun p g => g.links.map (fun l => (p, l)))).flatten

/-- The link from a source endpoint. -/
def PageSet.linkFrom (P : PageSet) (e : BitVec 16) : Option Link :=
  (P.linksOf.find? (fun l => l.2.src == e)).map (fun l => l.2)

/-- The link to a destination endpoint. -/
def PageSet.linkTo (P : PageSet) (e : BitVec 16) : Option Link :=
  (P.linksOf.find? (fun l => l.2.dsts.contains e)).map (fun l => l.2)

/-- The used memory operations of a set with their pages and slots. -/
def PageSet.memOps (P : PageSet) : List (Nat × Nat × MemOp) :=
  (P.pages.mapIdx (fun p g =>
    (g.mems.mapIdx (fun i m => (p, i, m))).filter (fun e => e.2.2.kind != 0))).flatten

/-- The operations in chain order from one on, over at most `n` operations (R320). -/
def chainFrom (ops : List (Nat × Nat × MemOp)) (e : Nat × Nat × MemOp) : Nat → List (Nat × Nat × MemOp)
  | 0 => []
  | n + 1 =>
    match ops.find? (fun f => f.2.2.seq == e.2.2.succ && e.2.2.succ != 0) with
    | some f => e :: chainFrom ops f n
    | none => [e]

/-- The memory chain of a set, from its head (R320). -/
def PageSet.chain (P : PageSet) : List (Nat × Nat × MemOp) :=
  let ops := P.memOps
  match ops.find? (fun e => e.2.2.pred == 0) with
  | some e => chainFrom ops e ops.length
  | none => []

/-- The input ports that a unit instruction reads (R313, R315): `mov` and `bamax` have one operand. -/
def unitInputs (o : UOp) (u : UFields) : List Nat :=
  let l := match o with
    | .mov | .bamax => [u.a.toNat]
    | _ => [u.a.toNat, u.b.toNat]
  l.filter (fun p => decide (p ≤ 7))

/-- The ports that an operator reads (R317). -/
def operatorInputs (kind : Nat) : List Nat :=
  match kind with
  | 1 | 3 => [0, 1]
  | 2 | 4 => [0, 1, 2]
  | _ => []

/-! ### The checks of R324 -/

/-- Bytes of an image are zero. -/
def zeroAt (bs : List Byte) (off n : Nat) : Bool := ((bs.drop off).take n).all (fun b => b == 0)

/-- Reason 0x01: header fields, agreement of the pages, and reserved bytes (R322, R323). DESIGN CHOICE (log 18): bits [31:24] of
QOUT that are not zero have this reason as those of QIN do, of which alone R323 says that they are zero. -/
def headerBad (images : List (List Byte)) (p : Nat) : Bool :=
  let bs := images[p]?.getD []
  let b0 := images.headD []
  let u8 (off : Nat) : Nat := leAt bs off 1
  let nl := u8 5
  let nm := u8 6
  !(u8 0 == 0x46 && u8 1 == 0x42 && u8 2 == 1 && decide (1 ≤ u8 3 ∧ u8 3 ≤ 16) && u8 3 == leAt b0 3 1
    && u8 4 == p && decide (nl ≤ 64) && decide (nm ≤ 16)
    && zeroAt bs 7 1 && leAt bs 8 4 == leAt b0 8 4 && leAt bs 12 4 == leAt b0 12 4
    && leAt bs 16 2 == leAt b0 16 2 && u8 11 == 0 && u8 15 == 0 && zeroAt bs 18 46
    && (List.range 16).all (fun s =>
        let n := u8 (1216 + 8 * s)
        decide (n ≤ 16) && zeroAt bs (64 + 64 * s + 4 * n) (64 - 4 * n) && zeroAt bs (1217 + 8 * s) 7
          && zeroAt bs (1345 + 8 * s) 7)
    && (List.range 16).all (fun i =>
        let o := 1472 + 16 * i
        if i < nm then decide (u8 o ≤ 2) && decide (u8 (o + 1) < 8) && decide (u8 (o + 8) < 2) && zeroAt bs (o + 9) 7
        else zeroAt bs o 16)
    && (List.range 64).all (fun i =>
        let o := 1728 + 24 * i
        if i < nl then decide (u8 (o + 11) < 2) && zeroAt bs (o + 20) 4 else zeroAt bs o 24)
    && zeroAt bs 3264 832)

/-- Reason 0x02: a unit instruction breaks R314 or R315. -/
def unitsBad (P : PageSet) (p : Nat) : Bool :=
  (P.pages[p]?.map (fun g => g.units.any (fun u => u.prog.any (fun w =>
    match decodeUnit w with
    | some (o, f) => !o.fieldsOk f
    | none => true)))).getD false

/-- Reason 0x03: a reserved operator kind. -/
def operatorsBad (P : PageSet) (p : Nat) : Bool :=
  (P.pages[p]?.map (fun g => g.ops.any (fun k => decide (4 < k)))).getD false

/-- An endpoint is a source, or a destination, that exists (R319). -/
def endpointOk (P : PageSet) (source : Bool) (e : BitVec 16) : Bool :=
  let n := P.pages.length
  match epKind e with
  | 0 => decide (epPage e < n) && !(P.unit (epPage e) (epSlot e)).prog.isEmpty && decide (epPort e ≤ 7)
  | 1 => decide (epPage e < n) && P.operator (epPage e) (epSlot e) != 0
      && (if source then epPort e == 4 || epPort e == 5 else decide (epPort e ≤ 2))
  | 2 => fld e 5 7 == 0 && decide (epQueue e ≤ 23) && (if source then P.qin else P.qout).getLsbD (epQueue e)
  | 3 => decide (epPage e < n) && (P.mem? (epPage e) (epSlot e)).isSome
      && (if source then epPort e == 4 else decide (epPort e ≤ 2))
  | 4 => epPage e == 0 && epSlot e == 0 && epPort e == (if source then 0 else 1)
  | _ => false

/-- Reason 0x04: an endpoint that does not exist. -/
def endpointsBad (P : PageSet) (p : Nat) : Bool :=
  (P.pages[p]?.map (fun g => g.links.any (fun l =>
    !endpointOk P true l.src || l.dsts.any (fun d => !endpointOk P false d)))).getD false

/-- A list names some element of another twice or holds one of them itself. -/
def repeats (before now : List (BitVec 16)) : Bool :=
  match now with
  | [] => false
  | d :: t => before.contains d || repeats (d :: before) t

/-- The endpoints that the links before page `p` use as destinations or as sources. -/
def linkEnds (P : PageSet) (p : Nat) (f : Link → List (BitVec 16)) : List (BitVec 16) × List (BitVec 16) :=
  ((P.linksOf.filter (fun l => decide (l.1 < p))).flatMap (fun l => f l.2),
   (P.linksOf.filter (fun l => l.1 == p)).flatMap (fun l => f l.2))

/-- Reason 0x05: a destination port with two incoming links, or a source on two links. -/
def sharedBad (P : PageSet) (p : Nat) : Bool :=
  let (a, b) := linkEnds P p (fun l => l.dsts)
  let (c, d) := linkEnds P p (fun l => [l.src])
  repeats a b || repeats c d

/-- Reason 0x06: an input that is read and not linked, or HASPRED that does not match. -/
def inputsBad (P : PageSet) (p : Nat) : Bool :=
  let linked (kind slot port : Nat) : Bool := (P.linkTo (endpoint kind p slot port)).isSome
  match P.pages[p]? with
  | none => false
  | some g =>
    (g.units.mapIdx (fun s u => u.prog.any (fun w =>
      match decodeUnit w with
      | some (o, f) => (unitInputs o f).any (fun k => !linked 0 s k)
      | none => false))).any (fun b => b)
    || (g.ops.mapIdx (fun i k => (operatorInputs k).any (fun q => !linked 1 i q))).any (fun b => b)
    || (g.mems.mapIdx (fun i m => m.kind != 0
        && (!linked 3 i 1 || (m.kind == 2 && !linked 3 i 2) || m.hasPred != linked 3 i 0))).any (fun b => b)

/-- An operation breaks the one list of R320. -/
def chainOpBad (P : PageSet) (e : Nat × Nat × MemOp) : Bool :=
  let ops := P.memOps
  let m := e.2.2
  m.seq == 0 || decide (1 < (ops.filter (fun f => f.2.2.seq == m.seq)).length)
    || (m.pred == 0 && decide (1 < (ops.filter (fun f => f.2.2.pred == 0)).length))
    || (m.pred != 0 && !ops.any (fun f => f.2.2.seq == m.pred && f.2.2.succ == m.seq))
    || (m.succ != 0 && !ops.any (fun f => f.2.2.seq == m.succ && f.2.2.pred == m.seq))
    || !P.chain.any (fun f => f.2.2.seq == m.seq)

/-- Reason 0x07: the memory chain is not one list. -/
def chainBad (P : PageSet) (p : Nat) : Bool := P.memOps.any (fun e => e.1 == p && chainOpBad P e)

/-- The `bamax` instructions of a unit that write an output port. -/
def bamaxOf (P : PageSet) (e : BitVec 16) : List UFields :=
  (P.unit (epPage e) (epSlot e)).prog.filterMap (fun w =>
    match decodeUnit w with
    | some (.bamax, u) => if epKind e = 0 ∧ u.d.toNat = epPort e then some u else none
    | _ => none)

/-- The quantising pattern around a `qcvt` (R324, reason 0x08). -/
def qcvtOk (P : PageSet) (p s : Nat) (u : UFields) : Bool :=
  if 7 < u.a.toNat ∨ 7 < u.b.toNat then false
  else match P.linkTo (endpoint 0 p s u.a.toNat), P.linkTo (endpoint 0 p s u.b.toNat) with
    | some la, some lb =>
      la.delay && la.depth == 32 && (bamaxOf P lb.src).any (fun v =>
        decide (v.a.toNat ≤ 7)
          && la.dsts.contains (endpoint 0 (epPage lb.src) (epSlot lb.src) v.a.toNat))
    | _, _ => false

/-- Reason 0x08: a `qcvt` outside the quantising pattern. -/
def quantBad (P : PageSet) (p : Nat) : Bool :=
  match P.pages[p]? with
  | none => false
  | some g => (g.units.mapIdx (fun s u => u.prog.any (fun w =>
      match decodeUnit w with
      | some (.qcvt, f) => !qcvtOk P p s f
      | _ => false))).any (fun b => b)

/-- Reason 0x09: a depth that R318 does not allow. -/
def depthBad (P : PageSet) (p : Nat) : Bool :=
  (P.pages[p]?.map (fun g => g.links.any (fun l =>
    if l.delay then l.depth != 32 else decide (l.depth = 0 ∨ 8 < l.depth)))).getD false

/-- A routing entry that R151 and R152 allow. -/
def entryOk (e : BitVec 32) : Bool :=
  fld e 17 15 == 0 && roundOk (entryRm e) && entryScale e != 0xFF && decide (entryFmt e ≤ 7)

/-- Two routing entries may join (R152). -/
def entriesJoin (a b : BitVec 32) : Bool :=
  entryOk a && entryOk b
    && (decide (entryFmt a ≤ 1) || decide (entryFmt b ≤ 1)
        || (fmtOfCode (entryFmt a)).bits == (fmtOfCode (entryFmt b)).bits)

/-- Reason 0x0A: routing entries that may not join. -/
def typesBad (P : PageSet) (p : Nat) : Bool :=
  (P.pages[p]?.map (fun g => g.links.any (fun l => !entriesJoin l.stype l.dtype))).getD false

/-- The first of reasons 0x01 to 0x0A, and the page that fails it (R324). -/
def pageFault (images : List (List Byte)) : Option (Nat × Nat) :=
  let P := pageSetOf images
  let pages := List.range images.length
  let rows : List (Nat × (Nat → Bool)) :=
    [(1, headerBad images), (2, unitsBad P), (3, operatorsBad P), (4, endpointsBad P), (5, sharedBad P),
     (6, inputsBad P), (7, chainBad P), (8, quantBad P), (9, depthBad P), (10, typesBad P)]
  (rows.flatMap (fun r => pages.map (fun p => (r.1, p, r.2)))).findSome? (fun e =>
    if e.2.2 e.2.1 then some (e.1, e.2.1) else none)

/-- TVAL of a fabric configuration trap (R324). -/
def fabricTval (page reason : Nat) : Word := BitVec.ofNat 64 (page * 256 + reason)

end Sys2Proof.Machine
end

