-- ==== Sys2Proof/Machine/Fabric.lean ====
section
/-!
DEFINITION. Fabric mode: the mode switches (R310 to R312), the region of an active set and how its nodes
fire (R313 to R318), its memory chain (R320, R321), tokens and quiescence (R325), page moves (R326), and
the instructions of vector major 0x13 (R328 to R332).
-/

namespace Sys2Proof.Machine

/-! ### The region -/

/-- A hart and its active set while the set works: the finish tokens it sends, and how many sent control
tokens it takes in (R325, R378). -/
structure FabRun where
  h : Hart
  a : ActiveSet
  finish : Nat
  entered : Nat

/-- The tokens of a destination endpoint. -/
def ActiveSet.tokens (a : ActiveSet) (e : BitVec 16) : List Word := (assoc a.fifos e).getD []

/-- An active set with the tokens of a destination replaced. -/
def ActiveSet.setTokens (a : ActiveSet) (e : BitVec 16) (ts : List Word) : ActiveSet :=
  { a with fifos := if ts.isEmpty then assocErase a.fifos e else assocSet a.fifos e ts }

/-- Every destination FIFO of a link has room (R313). -/
def ActiveSet.room (a : ActiveSet) (l : Link) : Bool :=
  l.dsts.all (fun e => decide ((a.tokens e).length < l.depth))

/-- A source has room: its link has, or it has none and discards (R313, R317). -/
def ActiveSet.roomFrom (a : ActiveSet) (src : BitVec 16) : Bool :=
  match a.set.linkFrom src with
  | some l => a.room l
  | none => true

/-- The rounding mode of a selector under FSTAT at the `fgo` (R314). -/
def ActiveSet.rmode (a : ActiveSet) (rm : BitVec 3) : RMode :=
  if rm = 7 then RMode.ofCode a.rm.toNat else RMode.ofCode rm.toNat

/-- A token as a typed link passes it on (R152, R318): one element in the low bits. -/
def ActiveSet.convert (a : ActiveSet) (l : Link) (x : Word) : Word × Flags :=
  if l.stype = l.dtype then (x, 0)
  else
    let n := if 2 ≤ entryFmt l.dtype then (fmtOfCode (entryFmt l.dtype)).bits
      else if 2 ≤ entryFmt l.stype then (fmtOfCode (entryFmt l.stype)).bits else 64
    let (b, fl) := linkElem l.dtype l.stype (.mode (a.rmode (entryRm l.dtype))) n (x.toNat % 2 ^ n)
    (if entryFmt l.dtype = 0 then sextNat n b else zextNat n b, fl)

/-- FabRun flags raised (R331). -/
def FabRun.raise (r : FabRun) (f : Flags) : FabRun :=
  { r with h := { r.h with fabric := { r.h.fabric with flags := r.h.fabric.flags ||| f } } }

/-- A token sent from a source endpoint on its link (R313, R318). -/
def FabRun.send (r : FabRun) (src : BitVec 16) (x : Word) : FabRun :=
  match r.a.set.linkFrom src with
  | none => r
  | some l =>
    let (y, fl) := r.a.convert l x
    ({ r with a := l.dsts.foldl (fun (a : ActiveSet) e => a.setTokens e (a.tokens e ++ [y])) r.a }).raise fl

/-- The first token of a destination endpoint. -/
def FabRun.head (r : FabRun) (e : BitVec 16) : Option Word := (r.a.tokens e).head?

/-- The first token of a destination endpoint consumed. -/
def FabRun.pop (r : FabRun) (e : BitVec 16) : FabRun :=
  { r with a := r.a.setTokens e (r.a.tokens e).tail }

/-- The elements of a queue register. -/
def Fabric.queue (F : Fabric) (n : Nat) : List Nat := (assoc F.queues n).getD []

/-- A queue register's elements replaced. -/
def Hart.setQueue (H : Hart) (n : Nat) (q : List Nat) : Hart :=
  { H with fabric := { H.fabric with queues := assocSet H.fabric.queues n q } }

/-- A destination outside the nodes takes what its FIFO holds: an output queue while it has room (R312), and
the finish port (R325). -/
def FabRun.sink (r : FabRun) (e : BitVec 16) : FabRun :=
  let ts := r.a.tokens e
  if epKind e = 2 then
    let q := r.h.fabric.queue (epQueue e)
    let k := Nat.min ts.length (r.h.vlmax r.h.fabric.qw - q.length)
    { r with
      h := r.h.setQueue (epQueue e) (q ++ (ts.take k).map (fun t => t.toNat % 2 ^ widthBits r.h.fabric.qw))
      a := r.a.setTokens e (ts.drop k) }
  else if epKind e = 4 then { r with finish := r.finish + ts.length, a := r.a.setTokens e [] }
  else r

/-- Every destination outside the nodes takes its tokens. -/
def FabRun.sinks (r : FabRun) : FabRun :=
  (r.a.set.linksOf.flatMap (fun l => l.2.dsts)).foldl FabRun.sink r

/-- An input queue or the control port sends one token on its link if the link has room (R312, R325). Control
tokens without a link are consumed. -/
def FabRun.source (r : FabRun) (l : Link) : FabRun :=
  if !r.a.room l then r
  else if epKind l.src = 2 then
    match r.h.fabric.queue (epQueue l.src) with
    | x :: rest => { r with h := r.h.setQueue (epQueue l.src) rest }.send l.src (BitVec.ofNat 64 x)
    | [] => r
  else if epKind l.src = 4 then
    match r.a.control with
    | sent :: rest =>
      { r with
        a := { r.a with control := rest }
        entered := r.entered + (if sent then 1 else 0) }.send l.src 1
    | [] => r
  else r

/-- Control tokens are consumed where the set links no control port. -/
def FabRun.unlinked (r : FabRun) : FabRun :=
  if (r.a.set.linkFrom (endpoint 4 0 0 0)).isSome then r
  else { r with
    entered := r.entered + (r.a.control.filter (fun b => b)).length
    a := { r.a with control := [] } }

/-- What waits at the sources outside the nodes. -/
def FabRun.waiting (r : FabRun) : Nat :=
  r.a.control.length + (r.h.fabric.queues.map (fun q => q.2.length)).sum

/-- Sources and destinations outside the nodes move tokens until none can (R312, R313), over at most `n`
rounds. -/
def FabRun.flow (r : FabRun) : Nat → FabRun
  | 0 => r
  | n + 1 =>
    let r' := ((r.a.set.linksOf.map (fun l => l.2)).foldl FabRun.source r).sinks
    if r'.waiting = r.waiting && r'.a.control == r.a.control && r'.a.fifos == r.a.fifos then r'
    else r'.flow n

/-- Tokens flow until none can move. -/
def FabRun.settle (r : FabRun) : FabRun :=
  let r := r.unlinked.sinks
  r.flow (r.waiting + (r.a.fifos.map (fun f => f.2.length)).sum + 1)

/-- A memory operation is issued and has not ended: it is not performed, or its value is not sent. -/
def ActiveSet.busy (a : ActiveSet) : Bool :=
  match a.stage with
  | .issued _ _ | .loaded _ => true
  | _ => false

/-- The in-flight count of an active set (R325). A firing is whole in one step. -/
def ActiveSet.ifc (a : ActiveSet) : Nat :=
  (a.fifos.map (fun f => f.2.length)).sum + a.control.length + (if a.busy then 1 else 0)

/-- The region is quiescent (R325). -/
def Hart.quiet (H : Hart) : Bool :=
  match H.fabric.active with
  | none => true
  | some a => a.ifc == 0 && !(a.set.linksOf.any (fun l =>
      epKind l.2.src == 2 && !(H.fabric.queue (epQueue l.2.src)).isEmpty && a.room l.2))

/-- The region of a hart that has an active set and has not stopped (R321). -/
def Hart.region (H : Hart) : Option FabRun :=
  match H.fabric.active with
  | some a => if H.fabric.fault then none else some ⟨H, a, 0, 0⟩
  | none => none

/-- A region's effects on the machine: the hart, its finish tokens, and the flight counter (R377, R378). -/
def State.putRegion (s : State) (h : HartId) (r : FabRun) : State :=
  let s := s.updHart h (fun _ => { r.h with fabric := { r.h.fabric with active := some r.a } })
  match s.gangOf h with
  | some (G, k) =>
    let s := s.fcAdd G.id r.finish r.entered
    { s with tokens := s.tokens ++ List.replicate r.finish ⟨G.id, (h, 0), k, k, 14, r.a.set.tag⟩ }
  | none => s

/-! ### Units (R309, R313 to R316) -/

/-- The lane word that register `k`j of a unit is (R309). -/
def kLane (page slot : Nat) : Nat := 16 * page + slot

/-- Register `k`j of a unit. -/
def Hart.kReg (H : Hart) (page slot j : Nat) : Word := laneWord (H.getV (24 + j)) (kLane page slot)

/-- Register `k`j of a unit replaced: group 0 of its register is written, and VDIRTY says so (R248, R326). -/
def Hart.setKReg (H : Hart) (page slot j : Nat) (x : Word) : Hart :=
  (H.setV (24 + j) (setLaneWord (H.getV (24 + j)) (kLane page slot) x)).cover (24 + j) 3 0

/-- A source selector's value, if it is there (R314). C is the constant of the set's own image: no instruction
writes C, so what carries over at `fgo` is what `fload` brought (log 18). -/
def FabRun.operand (r : FabRun) (page slot : Nat) (sel : Nat) : Option Word :=
  if sel ≤ 7 then r.head (endpoint 0 page slot sel)
  else if sel ≤ 0xF then some (r.h.kReg page slot (sel - 8))
  else if sel = 0x11 then some (r.a.set.unit page slot).const
  else some 0

/-- An integer operation of a unit on the low bits of its sources (R315). -/
def unitInt (o : UOp) (signed : Bool) (n a b : Nat) : Nat :=
  let truth (p : Bool) : Nat := if p then 1 else 0
  match o with
  | .mov => a
  | .add => (a + b) % 2 ^ n
  | .sub => wrapInt n ((a : Int) - b)
  | .mul => a * b % 2 ^ n
  | .min => if asInt n signed b < asInt n signed a then b else a
  | .max => if asInt n signed a < asInt n signed b then b else a
  | .and => a &&& b
  | .or => a ||| b
  | .xor => a ^^^ b
  | .shl => a * 2 ^ (b % n) % 2 ^ n
  | .shr => if signed then wrapInt n (Int.fdiv (signedNat n a) (2 ^ (b % n) : Nat)) else a / 2 ^ (b % n)
  | .seq => truth (decide (a = b))
  | .slt => truth (decide (asInt n signed a < asInt n signed b))
  | .sle => truth (decide (asInt n signed a ≤ asInt n signed b))
  | _ => 0

/-- A floating operation of a unit (R315); `d` is the old value of D. -/
def unitFloat (o : UOp) (F : FFmt) (r : RMode) (ftz : Bool) (a b d : Nat) : Nat × Flags :=
  let x := F.decode ftz a
  let y := F.decode ftz b
  let rdn := r == .rdn
  let fin (v : FVal × Flags) : Nat × Flags :=
    let (z, fl) := F.round (.mode r) false ftz v.1
    (z, v.2 ||| fl)
  match o with
  | .fadd => fin (x.add rdn y)
  | .fsub => fin (x.add rdn y.neg)
  | .fmul => fin (x.mul y)
  | .fmac => fin (x.fma rdn y (F.decode ftz d))
  | .fmin => F.minmax ftz false a b
  | _ => F.minmax ftz true a b

/-- What a firing of a unit gives: its value if it writes one, its flags, and the block state after it. -/
structure Fired where
  value : Option Word
  flags : Flags
  block : Option Block

/-- The operation of a unit on its source values (R315, R316). -/
def ActiveSet.fire (t : ActiveSet) (o : UOp) (u : UFields) (blk : Block) (a b d : Word) : Fired :=
  let n := widthBits u.w.toNat
  let x := a.toNat % 2 ^ n
  let y := b.toNat % 2 ^ n
  match o.kind with
  | .int =>
    let v := unitInt o (u.fmt == 0) n x y
    ⟨some (if u.fmt = 0 then sextNat n v else zextNat n v), 0, none⟩
  | .float =>
    let (v, fl) := unitFloat o (fmtOfCode u.fmt.toNat) (t.rmode u.rm) t.ftz x y (d.toNat % 2 ^ n)
    ⟨some (zextNat n v), fl, none⟩
  | .quant =>
    let vals := blk.vals ++ [x]
    if o = .bamax then
      if vals.length < 32 then ⟨none, 0, some ⟨vals, 0⟩⟩
      else
        let (c, bad) := mxScaleOf u.fmt.toNat (vals.map (fun v => fmtF32.decode t.ftz v))
        ⟨some (BitVec.ofNat 64 c), flIf bad flNV, some ⟨[], 0⟩⟩
    else
      let scale := if blk.vals.isEmpty then b.toNat % 256 else blk.scale
      let (v, fl) := if scale = 0xFF then (0, flNV)
        else mxQuantise u.fmt.toNat scale (.mode (t.rmode u.rm)) (fmtF32.decode t.ftz x)
      ⟨some (BitVec.ofNat 64 v), fl, some (if vals.length < 32 then ⟨vals, scale⟩ else ⟨[], 0⟩)⟩

/-- The position of a unit. -/
def ActiveSet.pos (a : ActiveSet) (page slot : Nat) : Nat := (assoc a.unitPos (page, slot)).getD 0

/-- The unit of a page fires the instruction at its position, if that is `o` with `u` and it can fire
(R313). -/
def FabRun.fireUnit (r : FabRun) (page slot : Nat) (o : UOp) (u : UFields) : Option FabRun :=
  let prog := (r.a.set.unit page slot).prog
  let pos := r.a.pos page slot
  if prog[pos]? ≠ some (encodeUnit o u) then none
  else
    let blk := (assoc r.a.blocks (page, slot, pos)).getD ⟨[], 0⟩
    let needsB := !(o == .qcvt && !blk.vals.isEmpty)
    let ins := if needsB then unitInputs o u else (unitInputs o u).take (if u.a.toNat ≤ 7 then 1 else 0)
    if ins.any (fun p => (r.head (endpoint 0 page slot p)).isNone) then none
    else
      let val (sel : BitVec 5) : Word := (r.operand page slot sel.toNat).getD 0
      let d := if 8 ≤ u.d.toNat ∧ u.d.toNat ≤ 15 then r.h.kReg page slot (u.d.toNat - 8) else 0
      let f := r.a.fire o u blk (val u.a) (val u.b) d
      let out := endpoint 0 page slot u.d.toNat
      if f.value.isSome && decide (u.d.toNat ≤ 7) && !r.a.roomFrom out then none
      else
        let r := ins.dedup.foldl (fun (r : FabRun) p => r.pop (endpoint 0 page slot p)) r
        let r := match f.value with
          | some x =>
            if u.d.toNat ≤ 7 then r.send out x
            else if u.d.toNat ≤ 15 then { r with h := r.h.setKReg page slot (u.d.toNat - 8) x } else r
          | none => r
        let a := { r.a with
          unitPos := assocSet r.a.unitPos (page, slot) ((pos + 1) % prog.length)
          blocks := match f.block with
            | some b => assocSet r.a.blocks (page, slot, pos) b
            | none => r.a.blocks }
        some (({ r with a := a }).raise f.flags).settle

/-- A unit instruction is executed by the unit in `focus`, of the hart whose turn it is (R313). Where it
cannot fire nothing happens. -/
def unitStep (o : UOp) (u : UFields) (s : State) : Host.Outcome State Fault Refusal :=
  .next (match s.me.region with
    | some r => match r.fireUnit s.focus.1 s.focus.2 o u with
      | some r' => s.putRegion s.cur r'
      | none => s
    | none => s)

def execUnitMov (u : UFields) (s : State) : Host.Outcome State Fault Refusal := unitStep .mov u s
def execUnitAdd (u : UFields) (s : State) : Host.Outcome State Fault Refusal := unitStep .add u s
def execUnitSub (u : UFields) (s : State) : Host.Outcome State Fault Refusal := unitStep .sub u s
def execUnitMul (u : UFields) (s : State) : Host.Outcome State Fault Refusal := unitStep .mul u s
def execUnitMin (u : UFields) (s : State) : Host.Outcome State Fault Refusal := unitStep .min u s
def execUnitMax (u : UFields) (s : State) : Host.Outcome State Fault Refusal := unitStep .max u s
def execUnitAnd (u : UFields) (s : State) : Host.Outcome State Fault Refusal := unitStep .and u s
def execUnitOr (u : UFields) (s : State) : Host.Outcome State Fault Refusal := unitStep .or u s
def execUnitXor (u : UFields) (s : State) : Host.Outcome State Fault Refusal := unitStep .xor u s
def execUnitShl (u : UFields) (s : State) : Host.Outcome State Fault Refusal := unitStep .shl u s
def execUnitShr (u : UFields) (s : State) : Host.Outcome State Fault Refusal := unitStep .shr u s
def execUnitSeq (u : UFields) (s : State) : Host.Outcome State Fault Refusal := unitStep .seq u s
def execUnitSlt (u : UFields) (s : State) : Host.Outcome State Fault Refusal := unitStep .slt u s
def execUnitSle (u : UFields) (s : State) : Host.Outcome State Fault Refusal := unitStep .sle u s
def execUnitFadd (u : UFields) (s : State) : Host.Outcome State Fault Refusal := unitStep .fadd u s
def execUnitFsub (u : UFields) (s : State) : Host.Outcome State Fault Refusal := unitStep .fsub u s
def execUnitFmul (u : UFields) (s : State) : Host.Outcome State Fault Refusal := unitStep .fmul u s
def execUnitFmac (u : UFields) (s : State) : Host.Outcome State Fault Refusal := unitStep .fmac u s
def execUnitFmin (u : UFields) (s : State) : Host.Outcome State Fault Refusal := unitStep .fmin u s
def execUnitFmax (u : UFields) (s : State) : Host.Outcome State Fault Refusal := unitStep .fmax u s
def execUnitBamax (u : UFields) (s : State) : Host.Outcome State Fault Refusal := unitStep .bamax u s
def execUnitQcvt (u : UFields) (s : State) : Host.Outcome State Fault Refusal := unitStep .qcvt u s

/-! ### Router operators (R317) -/

/-- What an operator's firing needs and does: the ports it consumes, the output it sends on with its token,
and its state after. -/
structure OpFiring where
  takes : List Nat
  out : Option (Nat × Word)
  loop : Option (Option Word)

/-- The firing that an operator is to make, from the tokens at its ports (R317); `none` while it waits. -/
def operatorFiring (kind : Nat) (state : Option (Option Word)) (d a b : Option Word) : Option OpFiring :=
  match kind with
  | 1 =>
    match d, a with
    | some x, some y => some ⟨[0, 1], some (if x ≠ 0 then 4 else 5, y), none⟩
    | _, _ => none
  | 2 =>
    match state with
    | none => a.map (fun y => ⟨[1], some (4, y), some none⟩)
    | some _ =>
      match d with
      | some x =>
        if x ≠ 0 then b.map (fun y => ⟨[0, 2], some (4, y), some none⟩) else some ⟨[0], none, none⟩
      | none => none
  | 3 =>
    match state with
    | none => a.map (fun y => ⟨[1], some (4, y), some (some y)⟩)
    | some held =>
      match d with
      | some x =>
        if x ≠ 0 then some ⟨[0], some (4, held.getD 0), some held⟩ else some ⟨[0], none, none⟩
      | none => none
  | 4 =>
    match d with
    | some x =>
      if x ≠ 0 then a.map (fun y => ⟨[0, 1], some (4, y), none⟩) else b.map (fun y => ⟨[0, 2], some (4, y), none⟩)
    | none => none
  | _ => none

/-- The operator of a slot fires, if it is of a kind and can (R313, R317). -/
def FabRun.fireOperator (r : FabRun) (kind page slot : Nat) : Option FabRun :=
  if r.a.set.operator page slot ≠ kind then none
  else
    let at_ (p : Nat) : BitVec 16 := endpoint 1 page slot p
    match operatorFiring kind (assoc r.a.loops (page, slot)) (r.head (at_ 0)) (r.head (at_ 1)) (r.head (at_ 2)) with
    | none => none
    | some f =>
      if (match f.out with
        | some (p, _) => !r.a.roomFrom (at_ p)
        | none => false) then none
      else
        let r := f.takes.foldl (fun (r : FabRun) p => r.pop (at_ p)) r
        let r := match f.out with
          | some (p, x) => r.send (at_ p) x
          | none => r
        let a := { r.a with loops := match f.loop with
          | some v => assocSet r.a.loops (page, slot) v
          | none => assocErase r.a.loops (page, slot) }
        some ({ r with a := a }).settle

/-- An operator of the region of the hart whose turn it is fires; nothing happens where it cannot. -/
def operatorStep (kind page slot : Nat) (s : State) : Host.Outcome State Fault Refusal :=
  .next (match s.me.region with
    | some r => match r.fireOperator kind page slot with
      | some r' => s.putRegion s.cur r'
      | none => s
    | none => s)

/-- STEER_FIRE (R317). -/
def execSteerFire (page slot : Nat) (s : State) : Host.Outcome State Fault Refusal :=
  operatorStep 1 page slot s
/-- CARRY_FIRE (R317). -/
def execCarryFire (page slot : Nat) (s : State) : Host.Outcome State Fault Refusal :=
  operatorStep 2 page slot s
/-- INVARIANT_FIRE (R317). -/
def execInvariantFire (page slot : Nat) (s : State) : Host.Outcome State Fault Refusal :=
  operatorStep 3 page slot s
/-- MERGE_FIRE (R317). -/
def execMergeFire (page slot : Nat) (s : State) : Host.Outcome State Fault Refusal :=
  operatorStep 4 page slot s

/-! ### The memory chain (R320, R321) -/

/-- The operation that the chain is at. -/
def ActiveSet.nextOp (a : ActiveSet) : Option (Nat × Nat × MemOp) :=
  let ops := a.set.chain
  ops[a.chain % Nat.max 1 ops.length]?

/-- The chain goes on to its next operation. -/
def FabRun.nextOp (r : FabRun) : FabRun :=
  { r with a := { r.a with
    chain := (r.a.chain + 1) % Nat.max 1 r.a.set.chain.length
    stage := .start } }

/-- A memory operation that cannot be performed stops the region (R321): FAULT is set and a record waits. -/
def State.stopRegion (s : State) (h : HartId) (a : ActiveSet) (page slot va : Nat) (c : Cause) : State :=
  (s.endFailed h va).updHart h (fun H =>
    ({ H with fabric := { H.fabric with fault := true } }).addRecord
      (recordBytes h va (page * 256 + slot) a.startPc.toNat c 2 0 (some 0) false))

/-- The access of a memory operation: the state and leaf to go on with, the state to wait in, or the
fault. -/
inductive RegionAccess where
  | go (s : State) (l : Leaf) (cell : Nat)
  | wait (s : State)
  | fault (c : Cause)

/-- The checks of a memory operation of the region of a hart (R321, R422). -/
def State.regionAccess (s : State) (h : HartId) (a : ActiveSet) (write : Bool) (va size : Nat) : RegionAccess :=
  if va % size ≠ 0 then .fault .misaligned
  else match s.reach h a.sup (if write then .write else .read) va with
    | .fault c => .fault c
    | .askHost p => .wait (s.askHost p)
    | .to l c =>
      if s.peerWaits l.pa then .wait s
      else match s.meetInTurn (.region h) (.hart h) [l.pa / 128] l.key write with
      | (_, .trap) => .fault .reservation
      | (s', .park _ _ _) => .wait s'
      | (s', .behind) => .wait s'
      | (s', .served) =>
        if s'.hostHolds (l.pa / 128) l.key write then .wait (s'.snoopHost (l.pa / 128))
        else if !write && s'.poisoned l.pa size then .fault .memoryError
        else .go (s'.touchLine (tileOf h) l.pa l.key write) l c

/-- The chain's operation takes its tokens (R320): the predicate first, then the address and, for a store, the
data. A predicate of 0 skips the operation. -/
def FabRun.takeOperands (r : FabRun) (page slot : Nat) (m : MemOp) : FabRun :=
  let at_ (p : Nat) : BitVec 16 := endpoint 3 page slot p
  let stage (r : FabRun) (t : MemStage) : FabRun := { r with a := { r.a with stage := t } }
  let operands (r : FabRun) : FabRun :=
    match r.head (at_ 1), (if m.kind = 2 then r.head (at_ 2) else some 0) with
    | some va, some x =>
      let r := r.pop (at_ 1)
      stage (if m.kind = 2 then r.pop (at_ 2) else r) (.issued va x)
    | _, _ => r
  match r.a.stage with
  | .start =>
    if m.hasPred then
      match r.head (at_ 0) with
      | none => r
      | some p =>
        let r := r.pop (at_ 0)
        if p = 0 then r.nextOp else operands (stage r .admitted)
    else operands r
  | .admitted => operands r
  | _ => r

/-- The issued operation of the chain is performed, if it can be, as an access of the hart's vector side (R320, R321). -/
def State.performOp (s : State) (page slot : Nat) (m : MemOp) : State :=
  match s.me.region with
  | none => s
  | some r =>
    match r.a.stage with
    | .issued va x =>
      let size := 2 ^ (fld m.sz 0 2).toNat
      match s.regionAccess s.cur r.a (m.kind = 2) va.toNat size with
      | .fault c => s.stopRegion s.cur r.a page slot va.toNat c
      | .wait s' => s'
      | .go s' l cell =>
        if m.kind = 2 then
          let s' := s'.store s.cur false cell l.key ((bytesOf size x.toNat).map some)
          s'.putRegion s.cur { r with h := s'.me }.nextOp.settle
        else
          let v := natOf (s'.read (.side s.cur false) cell l.key size)
          let w := if m.sz.getLsbD 2 then sextNat (8 * size) v else zextNat (8 * size) v
          s'.putRegion s.cur { r with h := s'.me, a := { r.a with stage := .loaded w } }
    | _ => s

/-- A loaded value is sent on the value port when its link has room, and the chain goes on (R320). -/
def FabRun.sendValue (r : FabRun) (page slot : Nat) : FabRun :=
  match r.a.stage with
  | .loaded w =>
    let out := endpoint 3 page slot 4
    if r.a.roomFrom out then (r.send out w).nextOp.settle else r
  | _ => r

/-- The operation of the chain of the hart whose turn it is, if it is a load or a store as asked, goes as far
as it can (R320). -/
def memStep (store : Bool) (s : State) : State :=
  match s.me.region with
  | none => s
  | some r =>
    match r.a.nextOp with
    | none => s
    | some (page, slot, m) =>
      if m.kind ≠ (if store then 2 else 1) then s
      else
        let r' := r.takeOperands page slot m
        let s := s.putRegion s.cur r'.settle
        if r'.a.chain ≠ r.a.chain then s
        else
          let s := s.performOp page slot m
          match s.me.region with
          | some r => s.putRegion s.cur (r.sendValue page slot)
          | none => s

/-- The same for a hart that is not halted: a halted one changes no scratchpad (R440). -/
def memEvent (store : Bool) (s : State) : State := if s.me.run = .halted then s else memStep store s

/-- FABRIC_LOAD (R320, R321). -/
def execFabricLoad (s : State) : Host.Outcome State Fault Refusal := .next (memEvent false s)
/-- FABRIC_STORE (R320, R321). -/
def execFabricStore (s : State) : Host.Outcome State Fault Refusal := .next (memEvent true s)

/-! ### Control tokens (R325) -/

/-- A control token that reaches a fabric side, by its TAG: what it leaves, and whether the token is taken
in, held, or discarded; `none` where it must wait in the network. -/
inductive Arrival where
  | entered
  | held
  | discarded
  | full
  deriving DecidableEq, Repr

/-- Where a control token goes (R325). -/
def Fabric.arrival (F : Fabric) (tag : BitVec 16) : Arrival :=
  if (match F.active with
    | some a => a.set.tag == tag
    | none => false) then .entered
  else if (match F.staged with
    | some p => p.tag == tag
    | none => false) then (if F.heldTokens.length < 64 then .held else .full)
  else .discarded

/-- A fabric side after a control token has reached it. -/
def Fabric.take (F : Fabric) (tag : BitVec 16) : Fabric :=
  match F.arrival tag with
  | .entered => { F with active := F.active.map (fun a => { a with control := a.control ++ [true] }) }
  | .held => { F with heldTokens := F.heldTokens ++ [tag] }
  | .discarded => { F with stale := true }
  | .full => F

/-- A token removed from the network. -/
def State.dropToken (s : State) (k : Nat) : State := { s with tokens := listDel s.tokens k }

/-- No earlier token of one sender to the same channel is on its way (R377). -/
def State.tokenFirst (s : State) (k : Nat) (t : Token) : Bool :=
  !((s.tokens.take k).any (fun u => u.gang == t.gang && u.src == t.src && u.dst == t.dst && u.ch == t.ch))

/-- The lane mode of a saved hart, in its image (R436). -/
def State.savedMode (s : State) (k : Saved) : Nat :=
  natOf (s.imageRead k 0x10 8) / 2 ^ 22 % 4

/-- A token for channel 15 reaches the region of a hart in fabric mode, running or saved (R325, R377). -/
def State.tokenToRegion (s : State) (k : Nat) (t : Token) : State :=
  match (s.gang? t.gang).bind (fun G => G.member? t.dst) with
  | none => s
  | some m =>
    match m.saved with
    | some v =>
      if s.savedMode v ≠ 2 then s
      else match v.fabric.arrival t.tag with
        | .full => s
        | r =>
          let s := (s.dropToken k).updGang t.gang (fun G =>
            G.updMember t.dst (fun m => { m with saved := some { v with fabric := v.fabric.take t.tag } }))
          if r = .discarded then s.fcAdd t.gang 0 1 else s
    | none =>
      let H := s.hart m.ctx
      if H.mode ≠ 2 || m.done then s
      else match H.fabric.arrival t.tag with
        | .full => s
        | r =>
          let s := (s.dropToken k).updHart m.ctx (fun H => { H with fabric := H.fabric.take t.tag })
          if r = .discarded then s.fcAdd t.gang 0 1
          else match (s.hart m.ctx).fabric.active with
            | some a => if r = .entered then s.putRegion m.ctx (FabRun.settle ⟨s.hart m.ctx, a, 0, 0⟩) else s
            | none => s

/-- CONTROL_TOKEN_ARRIVAL (R325): the token `k` of the network, which is for channel 15 of a hart in fabric
mode. -/
def execControlTokenArrival (k : Nat) (s : State) : Host.Outcome State Fault Refusal :=
  .next (match s.tokens[k]? with
    | some t => if t.ch = 15 && s.tokenFirst k t then s.tokenToRegion k t else s
    | none => s)

/-! ### Page moves (R326) -/

/-- The clusters that the contexts of a tile own or are granted (R370). -/
def State.heldClusters (s : State) (t : Fin 224) : BitVec 16 :=
  (hartsOf t).foldl (fun m h => m ||| (s.hart h).standing ((s.hart h).own ||| (s.hart h).grant)) 0

/-- PAGE_MOVE (R326, R376): a page of the active set of the hart whose turn it is moves to a free cluster of the
tile, which from then on stands for the cluster of LPART that the page was on; LPART itself is unchanged (R229). Between
firings every page is quiescent. The cluster left is kept for the blocked candidate of the die, if there is one
(log 18). -/
def execPageMove (page cluster : Nat) (s : State) : Host.Outcome State Fault Refusal :=
  let H := s.me
  .next (match H.fabric.active with
    | none => s
    | some a =>
      match a.clusters[page]? with
      | none => s
      | some old =>
        let t := tileOf s.cur
        let name := ((H.relocs.find? (fun e => e.2 == old)).map (fun e => e.1)).getD old
        if (a.busy && !H.fabric.fault && a.nextOp.any (fun o => o.1 == page)) then s
        else if 16 ≤ cluster || (s.heldClusters t).getLsbD cluster || (s.freedFor t).getLsbD cluster then s
        else
          let s := if !(s.die (dieOf t)).blocked.isEmpty then
              s.updDie (dieOf t) (fun D => { D with freed := D.freed ++ [(t.val, old)] })
            else s
          s.updMe (fun H => { H with
            relocs := assocSet H.relocs name cluster
            fabric := { H.fabric with active := some { a with clusters := listUpd a.clusters page (fun _ => cluster) } } }))

/-! ### Entering and leaving fabric mode (R310, R311) -/

/-- The registers named in a mask. -/
def maskRegs (w : Word) : List Nat := bitsOf (fld w 0 24)

/-- FMODE_ON (R310, R311). -/
def execFmodeOn (d a b : Reg) (s : State) : Host.Outcome State Fault Refusal :=
  let H := s.me
  let ins := s.getX a
  let outs := s.getX b
  .next (if H.mode = 1 then s.illegal (.fmodeOn d a b)
  else if H.mode = 2 then (s.setX d 0).advance
  else if H.lanes = 0 then s.trap .laneState 0
  else if (ins ||| outs) >>> 24 ≠ 0 ∨ ins &&& outs ≠ 0 then s.trap .laneState (ins ||| outs)
  else
    let n := H.vl
    let qw := (fld H.csr.vcfg 16 2).toNat
    let s := s.updMe (fun H =>
      { (H.setMode 2).setVl 0 with fabric := { H.fabric with
        qw := qw
        inMask := fld ins 0 32
        outMask := fld outs 0 32
        queues := (maskRegs ins).map (fun r => (r, (List.range n).map (fun i => H.elem r qw i)))
          ++ (maskRegs outs).map (fun r => (r, []))
        stale := false } })
    (s.setX d (BitVec.ofNat 64 n)).advance)

/-- The hart has a page set, staged or active. -/
def Hart.hasSet (H : Hart) : Bool := H.fabric.staged.isSome || H.fabric.active.isSome

/-- The staged and active sets, held tokens and STALE of a hart discarded (R332): the hart, and the sent
tokens that were not consumed (R378). Without a set nothing happens. -/
def Hart.dropSets (H : Hart) : Hart × Nat :=
  if !H.hasSet then (H, 0)
  else
  let sent := match H.fabric.active with
    | some a => (a.control.filter (fun b => b)).length
    | none => 0
  ({ H with fabric := { H.fabric with
      staged := none, active := none, heldTokens := [], stale := false, fault := false } },
    H.fabric.heldTokens.length + sent)

/-- The sets of the hart whose turn it is discarded (R332). -/
def State.dropSets (s : State) : State :=
  let (H, n) := s.me.dropSets
  let s := s.updMe (fun _ => H)
  match s.gangOf s.cur with
  | some (G, _) => s.fcAdd G.id 0 n
  | none => s

/-- A queue register written back (R310): its elements where the mask names it, and zeros. -/
def Hart.layBack (H : Hart) (mask : Word) (q : Nat × List Nat) : Hart :=
  let v := if mask.getLsbD q.1 then
      (q.2.mapIdx (fun i x => (i, x))).foldl (fun v e => setElem H.lanes H.fabric.qw v e.1 e.2) (0 : VReg)
    else 0
  { H.setV q.1 v with vdirty := H.vdirty.setIfInBounds q.1 4 }

/-- The highest-numbered register set in a mask (R310). -/
def highest (w : Word) : Option Nat := (bitsOf w).getLast?

/-- FMODE_OFF (R310, R311). -/
def execFmodeOff (d a : Reg) (s : State) : Host.Outcome State Fault Refusal :=
  let H := s.me
  let mask := s.getX a
  .next (if H.mode = 1 then s.illegal (.fmodeOff d a)
  else if H.mode = 0 then (s.setX d 0).advance
  else if (bitsOf mask).any (fun r => (assoc H.fabric.queues r).isNone) then s.trap .laneState mask
  else if !H.quiet then s.waitIn .other
  else
    let s := s.dropSets
    let n := match highest mask with
      | some r => (H.fabric.queue r).length
      | none => 0
    let s := s.updMe (fun H =>
      let H := H.raise H.fabric.flags
      let H := H.fabric.queues.foldl (fun (H : Hart) q => H.layBack mask q) H
      let H := (List.range 8).foldl (fun (H : Hart) j => { H with
        vdirty := H.vdirty.setIfInBounds (24 + j)
          (if (H.vdirty[24 + j]?.getD 0) = 0 then 1 else H.vdirty[24 + j]?.getD 0) }) H
      let H := { H with
        csr := { H.csr with vcfg := setFld H.csr.vcfg 16 (BitVec.ofNat 2 H.fabric.qw) }
        fabric := { H.fabric with queues := [], inMask := 0, outMask := 0 } }
      (H.setMode 0).setVl n)
    (s.setX d (BitVec.ofNat 64 n)).advance)

/-! ### The forms of vector major 0x13 -/

/-- `fload` (R328). -/
def floadForm (w : VFields) : GOp Unit := do
  let H ← gHart
  let va := H.getX w.vc
  gCheck (decide (va.toNat % 4096 = 0)) .misaligned va
  let first ← readVa va 8 4096
  let n := leAt first 3 1
  let images ← if 1 ≤ n ∧ n ≤ 16 then
      (List.range n).mapM (fun p => readVa (va + BitVec.ofNat 64 (4096 * p)) 8 4096)
    else pure [first]
  match pageFault images with
  | some (r, p) => gTrap .fabricConfig (fabricTval p r)
  | none => gMod (fun H => { H with fabric := { H.fabric with staged := some (pageSetOf images) } })

/-- `fgo` (R329): a release at VCFG.SCOPE of the hart's earlier accesses before the region runs (R321, R342). -/
def fgoForm : GOp Unit := do
  let H ← gHart
  match H.fabric.staged with
  | none => gTrap .fabricState 0
  | some P =>
    gCheck (decide (P.pages.length ≤ H.lanes / 16) && (P.qin &&& ~~~H.fabric.inMask) == 0
      && (P.qout &&& ~~~H.fabric.outMask) == 0) .fabricConfig (fabricTval 0xFF 0x0B)
    if !H.quiet then gWait .other
    gLift (modify (fun s => s.release s.cur false H.vscope))
    let mine := H.fabric.heldTokens.filter (fun t => t == P.tag)
    let a : ActiveSet := {
      set := P
      unitPos := []
      blocks := []
      loops := []
      fifos := []
      control := false :: mine.map (fun _ => true)
      chain := 0
      stage := .start
      rm := fld H.csr.fstat 7 3
      ftz := H.ftz
      sup := H.sup
      startPc := H.pc
      clusters := ((bitsOf H.own).take P.pages.length).map (fun c => (assoc H.relocs c).getD c) }
    let H := { H with fabric := { H.fabric with
      staged := none
      heldTokens := H.fabric.heldTokens.filter (fun t => t != P.tag) } }
    let r := FabRun.settle ⟨H, a, 0, 0⟩
    gMod (fun _ => { r.h with fabric := { r.h.fabric with active := some r.a } })
    gLift (modify (fun s => match s.gangOf s.cur with
      | some (G, k) =>
        let s := s.fcAdd G.id r.finish r.entered
        { s with tokens := s.tokens ++ List.replicate r.finish ⟨G.id, (s.cur, 0), k, k, 14, P.tag⟩ }
      | none => s))

/-- `fgo.resume` (R329): the chain still stands at the faulting operation. -/
def fgoResumeForm : GOp Unit := gMod (fun H => { H with fabric := { H.fabric with fault := false } })

/-- `fdrain` (R330). -/
def fdrainForm : GOp Unit := do
  let H ← gHart
  if !H.quiet || H.fabric.fault then gWait .other
  gMod (fun H => { H.raise H.fabric.flags with fabric := { H.fabric with flags := 0 } })

/-- The region status (R331). QUIET speaks of a region: without an active set it is 0, as after reset (log 18). -/
def Hart.fabricStatus (H : Hart) : Word :=
  let n (lo len v : Nat) (w : Word) : Word := setFld w lo (BitVec.ofNat len v)
  let F := H.fabric
  let ifc := match F.active with
    | some a => Nat.min a.ifc 0xFFFF
    | none => 0
  let pages (p : Option PageSet) : Nat := match p with
    | some p => p.pages.length - 1
    | none => 0
  setBit (setBit (setBit (setBit (setBit (setBit
    (n 24 16 ifc (n 20 4 (pages (F.active.map (fun a => a.set))) (n 16 4 (pages F.staged)
      (n 9 7 F.flags.toNat 0))))
    8 F.stale) 7 (!F.heldTokens.isEmpty)) 6 F.fault) 5 F.staged.isSome) 4 F.active.isSome) 3 (F.active.isSome && H.quiet)

/-- `fstat` (R331). -/
def fstatForm (w : VFields) : GOp Unit := do
  let H ← gHart
  reply false w.vd.toNat H.fabricStatus

/-- `frel` (R332). An operation stopped by a fault is not in progress. -/
def frelForm : GOp Unit := do
  let H ← gHart
  if H.hasSet then
    if !H.fabric.fault && (match H.fabric.active with
        | some a => a.busy
        | none => false) then gWait .other
    let (H', n) := H.dropSets
    gMod (fun _ => H')
    gLift (modify (fun s => match s.gangOf s.cur with
      | some (G, _) => s.fcAdd G.id 0 n
      | none => s))

end Sys2Proof.Machine
end

