-- ==== Sys2Proof/Machine/Sync.lean ====
section
/-!
DEFINITION. Counters, tokens, barriers and identity: major 0x12 (R377 to R383), `kid` and `kyield` (R388,
R389), and the events that resume a waiting hart (R196, R378, R383, R384).
-/

namespace Sys2Proof.Machine

/-! ### Counters -/

/-- CWAIT (R380): once satisfied, an acquire at its scope, of the releases that have stepped the counter, that orders every
later access of the hart (R341, R342). -/
def execCwait (a : Reg) (n : BitVec 4) (p : BitVec 3) (s : State) : Host.Outcome State Fault Refusal :=
  .next (if (s.getX a).toNat ≤ (s.me.counter n.toNat).toNat then
      (s.acquireFrom s.cur false p.toNat (relsOf s.me.ctrRel n.toNat)).advance
    else s.waitIn .counter)

/-- CREAD (R380). -/
def execCread (d : Reg) (n : BitVec 4) (s : State) : Host.Outcome State Fault Refusal :=
  .next ((s.setX d (s.me.counter n.toNat)).advance)

/-- CADD (R380): a release of all accesses of the hart. -/
def execCadd (a : Reg) (n : BitVec 4) (p : BitVec 3) (s : State) : Host.Outcome State Fault Refusal :=
  let w := s.getX a
  .next (((s.release s.cur false p.toNat).updMe (fun H =>
    { H with ctr := H.ctr.setIfInBounds n.toNat (H.counter n.toNat + w)
             ctrRel := noteRel H.ctrRel n.toNat (s.cur, p.toNat) })).advance)

/-! ### Tokens -/

/-- Tokens delivered to a channel of a hart and not consumed (R377). -/
def Hart.tokens (H : Hart) (ch : Nat) : Nat := H.tok[ch]?.getD 0

/-- A hart with the count of a channel replaced. -/
def Hart.setTokens (H : Hart) (ch n : Nat) : Hart := { H with tok := H.tok.setIfInBounds ch n }

/-- The count of a channel of a member of a gang, running or saved. -/
def State.memberTokens (s : State) (m : Member) (ch : Nat) : Nat :=
  match m.saved with
  | some k => natOf (s.imageRead k (imgTok ch) 4)
  | none => (s.hart m.ctx).tokens ch

/-- The greatest count of a channel (R377). -/
def tokenMax : Nat := 0xFFFFFFFF

/-- TOK_SEND (R377, R381): a release of the hart's scalar accesses. -/
def execTokSend (a b : Reg) (p : BitVec 3) (s : State) : Host.Outcome State Fault Refusal :=
  let rank := s.getX a
  let arg := s.getX b
  .next (match s.gangOf s.cur with
    | none => s.trap .tokenDest rank
    | some (G, r) =>
      if G.members.length ≤ rank.toNat ∨ fld rank 8 56 ≠ 0 ∨ fld arg 4 12 ≠ 0 ∨ fld arg 32 32 ≠ 0 then
        s.trap .tokenDest rank
      else
        let ch := (fld arg 0 4).toNat
        match G.member? rank.toNat with
        | none => s.trap .tokenDest rank
        | some m =>
          if s.memberTokens m ch = tokenMax then s.waitIn .other
          else
            let s := (s.release s.cur true p.toNat).fcAdd G.id 1 0
            ({ s with tokens := s.tokens ++ [⟨G.id, (s.cur, p.toNat), r, rank.toNat, ch, fld arg 16 16⟩] } : State).advance)

/-- The list without its first entry of a channel. -/
def dropRel (l : List (Nat × HartId × Nat)) (k : Nat) : List (Nat × HartId × Nat) :=
  l.takeWhile (fun e => e.1 != k) ++ (l.dropWhile (fun e => e.1 != k)).tail

/-- TOK_WAIT (R381): where it consumes a token, the earliest delivered, an acquire of the hart's scalar accesses at its scope
of the token's send (R341). -/
def execTokWait (d a : Reg) (p : BitVec 3) (s : State) : Host.Outcome State Fault Refusal :=
  let w := s.getX a
  .next (if fld w 4 60 ≠ 0 then s.trap .tokenDest w
  else
    let ch := w.toNat
    let n := s.me.tokens ch
    if n = 0 then s.waitIn (.tok d)
    else
      let s := (s.acquireFrom s.cur true p.toNat ((relsOf s.me.tokRel ch).take 1)).updMe (fun H =>
        { H.setTokens ch (n - 1) with tokRel := dropRel H.tokRel ch })
      let s := match s.me.gang with
        | some (g, _) => s.fcAdd g 0 1
        | none => s
      (s.setX d 1).advance)

/-- TOK_STAT (R381). -/
def execTokStat (d a : Reg) (s : State) : Host.Outcome State Fault Refusal :=
  let fc := match s.gangOf s.cur with
    | some (G, _) => Nat.min G.fc 0xFFFFFFFF
    | none => 0
  let n := s.me.tokens (fld (s.getX a) 0 4).toNat
  .next ((s.setX d (BitVec.ofNat 64 (fc * 2 ^ 32 + n))).advance)

/-- The member of a gang is in fabric mode, running or saved. -/
def State.memberFabric (s : State) (m : Member) : Bool :=
  match m.saved with
  | some k => s.savedMode k == 2
  | none => (s.hart m.ctx).mode == 2 && !m.done

/-- TOKEN_DELIVERY (R377): the token `k` of the network enters the count of its channel. A token for the
region of a hart in fabric mode is not delivered so. -/
def execTokenDelivery (k : Nat) (s : State) : Host.Outcome State Fault Refusal :=
  .next (match s.tokens[k]? with
    | none => s
    | some t =>
      match (s.gang? t.gang).bind (fun G => G.member? t.dst) with
      | none => s
      | some m =>
        if (t.ch = 15 && s.memberFabric m) || !s.tokenFirst k t || decide (s.memberTokens m t.ch = tokenMax) then s
        else
          let s := s.dropToken k
          match m.saved with
          | some v => (s.imageWrite v (imgTok t.ch) (bytesOf 4 (s.memberTokens m t.ch + 1))).updSaved t.gang t.dst
              (fun v => { v with tokRel := v.tokRel ++ [(t.ch, t.sent)] })
          | none => s.updHart m.ctx (fun H =>
              { H.setTokens t.ch (H.tokens t.ch + 1) with tokRel := H.tokRel ++ [(t.ch, t.sent)] }))

/-! ### Termination (R378, R401) -/

/-- A hart retires the scalar instruction that it waits in, with a result. -/
def Hart.finishWait (H : Hart) (d : Reg) (w : Word) : Hart :=
  { H.setX d w with pc := H.pc + 4, run := .running, wait := .none, waited := 0, watchdog := 0, ladder := 0 }

/-- The register that a hart's wait for a token or a capsule writes. -/
def Hart.endReg (H : Hart) : Option Reg :=
  if H.run = .waiting then
    match H.wait with
    | .tok d => some d
    | .cap d => if H.cap.ring.isEmpty && H.cap.parked.isEmpty then some d else none
    | _ => none
  else none

/-- The gang terminates now (R378, R401). -/
def State.terminates (s : State) (G : Gang) : Bool :=
  G.fc == 0 && G.running && G.members.all (fun m => m.done || ((s.hart m.ctx).endReg).isSome)

/-- GANG_TERMINATION (R378, R401): every waiting `tok.wait` and `cap.recv` of the gang retires with 0. -/
def execGangTermination (g : Nat) (s : State) : Host.Outcome State Fault Refusal :=
  .next (match s.gang? g with
    | some G =>
      if s.terminates G then
        G.members.foldl (fun s m => s.updHart m.ctx (fun H =>
          match H.endReg with
          | some d => if m.done then H else H.finishWait d 0
          | none => H)) s
      else s
    | none => s)

/-! ### Barriers -/

/-- The barrier word after an arrival (R382). -/
def barrierStep (o : Nat) : Nat :=
  let gen := o / 2 ^ 32
  let total := o / 2 ^ 16 % 2 ^ 16
  let left := o % 2 ^ 16
  if total = 0 ∨ left = 0 ∨ total < left then o
  else if left = 1 then (gen + 1) % 2 ^ 32 * 2 ^ 32 + total * 2 ^ 16 + total
  else o - 1

/-- BAR_ARRIVE (R382): an acquire and a release of the hart's scalar accesses. -/
def execBarArrive (d a : Reg) (p : BitVec 3) (s : State) : Host.Outcome State Fault Refusal :=
  runOp (do
    let o ← atomicScalar (s.getX a) 8 barrierStep (some p.toNat) (some p.toNat)
    retireX d (BitVec.ofNat 64 o)) s

/-- BAR_WAIT (R383): an acquire when it retires; its traps are those of `bar.arrive` (R205, R207). -/
def execBarWait (a b : Reg) (p : BitVec 3) (s : State) : Host.Outcome State Fault Refusal :=
  runOp (do
    let v ← loadScalar (s.getX a) 8 (atomic := true) (acq := some p.toNat)
    if v / 2 ^ 32 = (s.getX b).toNat % 2 ^ 32 then waitOp (.bar (s.getX a).toNat)
    retire) s

/-! ### A waiting hart goes on (R196) -/

/-- A waiting hart runs its instruction again, as the next hart to move. What it waits in stays with it. -/
def State.rerun (s : State) (h : HartId) : State :=
  { s.updHart h (fun H => { H with run := .running }) with cur := h }

/-- WAIT_RESUME (R196): the instruction of a waiting hart is executed again, and ends if its condition now
holds. -/
def execWaitResume (h : HartId) (s : State) : Host.Outcome State Fault Refusal :=
  .next (if (s.hart h).run = .waiting then s.rerun h else s)

/-- BAR_WAIT_RECHECK (R383): a sleeping `bar.wait` reads its word again. -/
def execBarWaitRecheck (h : HartId) (s : State) : Host.Outcome State Fault Refusal :=
  .next (match (s.hart h).run, (s.hart h).wait with
    | .waiting, .bar _ => s.rerun h
    | _, _ => s)

/-- VWAIT_RECHECK (R384): a sleeping `vwait` reads its flags again. -/
def execVwaitRecheck (h : HartId) (s : State) : Host.Outcome State Fault Refusal :=
  .next (match (s.hart h).run, (s.hart h).wait with
    | .waiting, .vwait _ => s.rerun h
    | _, _ => s)

/-- VWAIT_TIMEOUT (R384): the time-out of a sleeping `vwait` has passed, and its convoy goes on to retire
with what is unmet. -/
def execVwaitTimeout (h : HartId) (s : State) : Host.Outcome State Fault Refusal :=
  .next (match (s.hart h).run, (s.hart h).wait with
    | .waiting, .vwait limit => if limit ≠ 0 ∧ limit.toNat ≤ (s.hart h).waited then s.rerun h else s
    | _, _ => s)

/-! ### Identity -/

/-- The product of the trips of the levels that a test takes. -/
def tripsOf (p : Nat → Bool) (ls : List Level) : Nat :=
  (ls.filter (fun l => p l.kind)).foldl (fun n l => n * l.trips) 1

/-- A level is spatial (R360): kind 1 over tiles, kind 2 over dies. -/
def spatial (k : Nat) : Bool := k == 1 || k == 2

/-- The index of a rank at a level (R361): the first spatial level is the most significant; a temporal level
has index 0. -/
def levelIndex (ls : List Level) (rank k : Nat) : Nat :=
  match ls[k]? with
  | some l => if spatial l.kind then rank / tripsOf spatial (ls.drop (k + 1)) % l.trips else 0
  | none => 0

/-- KID (R388). -/
def execKid (d a : Reg) (sel : BitVec 3) (s : State) : Host.Outcome State Fault Refusal :=
  let k := (s.getX a).toNat
  let v : Nat := match s.gangOf s.cur, sel.toNat with
    | _, 4 => (tileOf s.cur).val
    | some (_, r), 0 => r
    | some (G, _), 1 => G.members.length
    | some (G, _), 2 => G.inst
    | some (G, _), 3 => G.launch.inst
    | some (G, _), 5 => G.launch.prio
    | some (G, r), 6 => levelIndex G.launch.levels r k
    | some (G, _), 7 => match G.launch.levels[k]? with
      | some l => l.trips
      | none => 0
    | _, _ => 0
  .next ((s.setX d (BitVec.ofNat 64 v)).advance)

/-- KYIELD (R389). -/
def execKyield (s : State) : Host.Outcome State Fault Refusal :=
  .next (match s.me.gang with
    | some (g, _) => (s.updGang g (fun G => { G with yielded := true })).advance
    | none => s.advance)

end Sys2Proof.Machine
end

