-- ==== Sys2Proof/Machine/Capsules.lean ====
section
/-!
DEFINITION. Capsules: major 0x14 (R391 to R408), arrival and parking (R397 to R399), and the events of the
capsule network.
-/

namespace Sys2Proof.Machine

/-! ### Images (R395, R396) -/

/-- A byte from a number. -/
def byteOf (n : Nat) : Byte := BitVec.ofNat 8 n

/-- A capsule as bytes, from the context of its origin (R395). -/
def Capsule.bytes (c : Capsule) (origin : HartId) : List Byte :=
  bytesOf 4 c.id.toNat ++ bytesOf 2 ((tileOf origin).val + 256 * ctxOf origin)
    ++ [byteOf c.hops, byteOf c.cur, byteOf c.nsteps, c.fmt] ++ bytesOf 2 c.payload.length
    ++ [byteOf c.status, byteOf c.fault, byteOf c.slot] ++ bytesOf 9 0 ++ bytesOf 8 c.user.toNat
    ++ c.steps.flatMap (fun w => bytesOf 4 w.toNat) ++ c.payload

/-- The fields of a step (R396). -/
def stepKind (w : BitVec 32) : Nat := (fld w 12 4).toNat
def stepTile (w : BitVec 32) : Nat := (fld w 0 12).toNat
def stepOp (w : BitVec 32) : Nat := (fld w 16 8).toNat
def stepAlt (w : BitVec 32) : Bool := w.getLsbD 24

/-- A step is valid (R396). -/
def stepOk (w : BitVec 32) : Bool :=
  decide (stepKind w ≤ 1) && (stepKind w == 0 || stepTile w == 0) && fld w 25 7 == 0

/-- A length and a format tag obey R395. -/
def lenOk (n : Nat) : Bool := n % 8 == 0 && decide (n ≤ 16384)
def tagOk (f : Byte) : Bool := decide (f.toNat ≤ 0x10)

/-- A step of a capsule. -/
def Capsule.step (c : Capsule) (k : Nat) : BitVec 32 := c.steps[k]?.getD 0

/-- What a capsule takes in an arrival ring (R399). -/
def Capsule.room (c : Capsule) : Nat := 64 + roundup c.payload.length 64

/-! ### The capsule sides of a gang's harts -/

/-- The capsule side of a member, running or saved. -/
def State.memberCap (s : State) (m : Member) : CapSide :=
  match m.saved with
  | some k => k.cap
  | none => (s.hart m.ctx).cap

/-- The capsule side of a rank of a gang. -/
def State.capOf (s : State) (g r : Nat) : CapSide :=
  match (s.gang? g).bind (fun G => G.member? r) with
  | some m => s.memberCap m
  | none => CapSide.reset

/-- The capsule side of a rank of a gang replaced by its image. -/
def State.updCap (s : State) (g r : Nat) (f : CapSide → CapSide) : State :=
  match (s.gang? g).bind (fun G => G.member? r) with
  | some m =>
    match m.saved with
    | some k => s.updGang g (fun G => G.updMember r (fun m => { m with saved := some { k with cap := f k.cap } }))
    | none => s.updHart m.ctx (fun H => { H with cap := f H.cap })
  | none => s

/-- The context of a rank of a gang. -/
def State.ctxOfRank (s : State) (g r : Nat) : HartId :=
  match (s.gang? g).bind (fun G => G.member? r) with
  | some m => m.ctx
  | none => 0

/-- A fault record for a rank of a gang, running or saved (R432, R434). -/
def State.recordTo (s : State) (g r : Nat) (mk : Nat → Record) : State :=
  match (s.gang? g).bind (fun G => G.member? r) with
  | some m =>
    match m.saved with
    | some k =>
      let q := { k.fq with waiting := k.fq.waiting ++ [mk (k.fq.seq % 256)], seq := k.fq.seq + 1 }
      s.updGang g (fun G => G.updMember r (fun m => { m with saved := some { k with fq := q } }))
    | none => s.updHart m.ctx (fun H => H.addRecord mk)
  | none => s

/-- The record of a capsule (R432). -/
def Capsule.record (c : Capsule) (h : HartId) (cause : Cause) : Nat → Record :=
  recordBytes h 0 (c.id.toNat + c.slot * 2 ^ 32 + c.cur * 2 ^ 40) 0 cause 3 0 none false

/-- The bytes that a slot of a pool takes (R392). -/
def slotBytes : Nat := 16448

/-- The cell and the key of a byte of a pool, by its recorded frame (R392): with no further translation, but where a
scratchpad bank or a peer stands there no longer. -/
def State.poolCell (s : State) (p : CapSide) (va : Nat) : Option (Nat × Nat) :=
  match p.frames[va / 4096 - p.poolBase.toNat / 4096]? with
  | none => none
  | some (a, key) =>
    let c := a + va % 4096
    if regionOf c = .spad && s.roleAt c != .spad then none else some (c, key)

/-- A byte of a pool written through its frames (R392). -/
def State.poolByte (s : State) (p : CapSide) (va : Nat) (b : Byte) : State :=
  match s.poolCell p va with
  | some (c, key) => s.putByte c key b
  | none => s

/-- Bytes written to a pool from an address up. -/
def State.poolWrite (s : State) (p : CapSide) (va : Nat) : List Byte → State
  | [] => s
  | b :: t => (s.poolByte p va b).poolWrite p (va + 1) t

/-- A byte of a pool read through its frames (R392). -/
def State.poolAt (s : State) (p : CapSide) (va : Nat) : Byte :=
  match s.poolCell p va with
  | some (c, key) => s.byteUnder c key
  | none => 0

/-- The address of a capsule's slot. -/
def CapSide.slotAt (p : CapSide) (c : Capsule) : Nat := p.poolBase.toNat + slotBytes * c.slot

/-- A capsule written to its own slot (R392). -/
def State.writeSlot (s : State) (c : Capsule) : State :=
  let p := s.capOf c.gang c.origin
  s.poolWrite p (p.slotAt c) (c.bytes (s.ctxOfRank c.gang c.origin))

/-! ### Routing (R397) -/

/-- The landing that a step names now (R397): the rank, or the reason that there is none. -/
def State.landingOf (s : State) (c : Capsule) (w : BitVec 32) : Except Nat Nat :=
  let G := (s.gang? c.gang).map (fun G => G.members.length) |>.getD 0
  match stepKind w with
  | 0 =>
    if G ≤ stepTile w then .error 2
    else if (s.capOf c.gang (stepTile w)).land then .ok (stepTile w) else .error 1
  | 1 =>
    if stepTile w ≠ 0 then .error 2
    else if (s.capOf c.gang c.origin).land then .ok c.origin else .error 1
  | _ => .error 2

/-- The step that a capsule reaches from step `k` on, with its landing; or the last step tried and the
reason of the bounce (R397). -/
def State.resolve (s : State) (c : Capsule) (k : Nat) : Nat → Except (Nat × Nat) (Nat × Nat)
  | 0 => .error (k, 1)
  | n + 1 =>
    match s.landingOf c (c.step k) with
    | .ok r => .ok (k, r)
    | .error e => if stepAlt (c.step k) && decide (k + 1 < c.nsteps) then s.resolve c (k + 1) n else .error (k, e)

/-- An undeliverable capsule goes on the faulted list of its origin (R397). -/
def State.faultCapsule (s : State) (c : Capsule) : State :=
  let c := { c with status := 2 }
  let s := (s.writeSlot c).updCap c.gang c.origin (fun p => { p with faulted := p.faulted ++ [c] })
  s.recordTo c.gang c.origin (c.record (s.ctxOfRank c.gang c.origin) .capUndeliverable)

/-- A capsule bounced to its origin's landing (R397). -/
def State.bounce (s : State) (src : Nat) (c : Capsule) (k fault : Nat) : State :=
  let c := { c with status := 1, fault := fault, cur := k }
  if (s.capOf c.gang c.origin).land then { s with capsules := s.capsules ++ [⟨src, c.origin, c⟩] }
  else s.faultCapsule c

/-- A capsule sent towards step `k` from a rank (R397, R398). -/
def State.route (s : State) (src : Nat) (c : Capsule) (k : Nat) : State :=
  match s.resolve c k 9 with
  | .ok (j, r) => { s with capsules := s.capsules ++ [⟨src, r, { c with cur := j }⟩] }
  | .error (j, e) => s.bounce src c j e

/-- The bytes in use in an arrival ring. -/
def CapSide.ringUse (p : CapSide) : Nat := (p.ring.map Capsule.room).sum

/-- A capsule may enter the ring ahead of nothing (R399). -/
def CapSide.fits (p : CapSide) (c : Capsule) : Bool := !p.hold && decide (p.ringUse + c.room ≤ 65536)

/-- The gang runs: its harts are placed. -/
def State.gangRuns (s : State) (g : Nat) : Bool := (s.gang? g).any (fun G => G.running)

/-- A capsule placed in the arrival order of a landing (R399, R400). -/
def State.landCapsule (s : State) (r : Nat) (c : Capsule) : State :=
  let p := s.capOf c.gang r
  if p.parked.isEmpty && p.fits c && s.gangRuns c.gang then
    s.updCap c.gang r (fun p => { p with ring := p.ring ++ [c] })
  else (s.writeSlot c).updCap c.gang r (fun p => { p with parked := p.parked ++ [c] })

/-- CAPSULE_ARRIVAL (R397 to R399): the capsule `k` in transit arrives. Capsules of one sender to one landing
arrive in order. -/
def execCapsuleArrival (k : Nat) (s : State) : Host.Outcome State Fault Refusal :=
  .next (match s.capsules[k]? with
    | none => s
    | some t =>
      if (s.capsules.take k).any (fun u => u.cap.gang == t.cap.gang && u.src == t.src && u.dst == t.dst) then s
      else
        let s := { s with capsules := listDel s.capsules k }
        if (s.capOf t.cap.gang t.dst).land then s.landCapsule t.dst t.cap
        else if t.cap.status = 1 then s.faultCapsule t.cap
        else s.route t.src t.cap t.cap.cur)

/-- PARKED_CAPSULE_ENTER (R399): the head of the parked list enters the ring when it has room. -/
def execParkedCapsuleEnter (h : HartId) (s : State) : Host.Outcome State Fault Refusal :=
  let p := (s.hart h).cap
  .next (match p.parked with
    | c :: rest =>
      if p.land && p.fits c then
        s.updHart h (fun H => { H with cap := { H.cap with ring := H.cap.ring ++ [c], parked := rest } })
      else s
    | [] => s)

/-! ### Declaring and withdrawing (R391 to R393, R404) -/

/-- The landing of the hart whose turn it is withdrawn (R404). DESIGN CHOICE (log 21): capsules that `cap.park.flt` has put
on the faulted list stay there, though R408 gives a hart that is no landing only undeliverable ones. -/
def State.withdraw (s : State) : State :=
  let p := s.me.cap
  if !p.land then s
  else
    let s := s.changeRole (tileOf s.cur) p.bank .cache
    let s := s.updBank (tileOf s.cur) p.bank (fun _ => ⟨.cache, false, false⟩)
    let s := s.updMe (fun H => { H with cap :=
      { H.cap with land := false, ring := [], parked := [], bank := 0, buf := 0, table := 0, code := 0 } })
    match s.me.gang with
    | none => s
    | some (_, r) => (p.ring ++ p.parked).foldl (fun s c =>
        if c.status = 1 then s.faultCapsule c else s.route r c c.cur) s

/-- The pool released if no capsule holds a slot (R404): the result code. -/
def State.releasePool (s : State) : State × Nat :=
  if s.me.cap.inUse.isEmpty then
    (s.updMe (fun H => { H with cap := { H.cap with send := false, poolBase := 0, slots := 0, frames := [] } }), 0)
  else (s, 3)

/-- CAP_LAND_OFF (R404). -/
def execCapLandOff (d : Reg) (s : State) : Host.Outcome State Fault Refusal :=
  .next (if s.me.cap.held.isSome then s.trap .capState 1
  else
    let (s, r) := s.withdraw.releasePool
    (s.setX d (BitVec.ofNat 64 r)).advance)

/-- The frames of the 4 KiB pages from a virtual address up to its end, translated once as for loads, those of the host
window by the host as well (R392, R404, R431). -/
def poolFrames (va stop : Nat) : Nat → Op (List (Nat × Nat))
  | 0 => return []
  | n + 1 => do
    if stop ≤ va then return []
    else
      let s ← get
      let a := BitVec.ofNat 64 va
      match s.reach s.cur s.me.sup .read a.toNat with
      | .fault c => do
        modify (fun s => s.endFailed s.cur a.toNat)
        trapOp c a
      | .askHost p => do
        let _ ← askHost p
        return []
      | .to l c => do
        let rest ← poolFrames ((va / 4096 + 1) * 4096) stop n
        return (c / 4096 * 4096, l.key) :: rest

/-- The checks of the descriptor's fields (R393). -/
def landingFieldsOk (land : Bool) (bs : List Byte) : Bool :=
  let buf := leAt bs 0 8
  let table := leAt bs 8 8
  leAt bs 24 8 % 64 == 0 && decide (1 ≤ leAt bs 32 2 ∧ leAt bs 32 2 ≤ 256) && (bs.drop 34).all (fun b => b == 0)
    && (if land then buf % 64 == 0 && table % 8 == 0 else buf == 0 && table == 0 && leAt bs 16 8 == 0)

/-- `cap.land.send` and `cap.land.land` (R404). -/
def capLand (land : Bool) (d a : Reg) (s : State) : Host.Outcome State Fault Refusal :=
  runOp (do
    check s.me.cap.held.isNone .capState 1
    let va := s.getX a
    check (decide (va.toNat % 64 = 0)) .misaligned va
    let bs ← loadBytes va 64
    check (landingFieldsOk land bs) .capFormat va
    let pool := leAt bs 24 8
    let slots := leAt bs 32 2
    let frames ← poolFrames pool (pool + slotBytes * slots) (slotBytes * slots / 4096 + 2)
    let buf := leAt bs 0 8
    if land then
      let ls ← ringPages buf (buf + slotBytes) (slotBytes / 4096 + 2)
      let s ← get
      check (ls.all (fun l => s.inSpadOf (tileOf s.cur) l.pa)) .capFormat va
    let s ← get
    let p := s.me.cap
    let t := tileOf s.cur
    if p.send && (decide (p.poolBase.toNat ≠ pool) || decide (p.slots ≠ slots)) && !p.inUse.isEmpty then retireX d 3
    else if land && !p.land && (hartsOf t).any (fun h => h != s.cur && (s.hart h).cap.land) then retireX d 1
    else
      let claimed := if land && !p.land then s.claimFifo t else some (s, p.bank)
      match claimed with
      | none => retireX d 2
      | some (s, bank) =>
        let s := if land then s else s.withdraw
        let s := s.updMe (fun H => { H with cap := { H.cap with
          send := true
          poolBase := BitVec.ofNat 64 pool
          slots := slots
          frames := frames } })
        let s := if !land then s
          else
            let s := s.updMe (fun H => { H with cap := { H.cap with
              land := true
              sup := H.sup
              bank := bank
              buf := BitVec.ofNat 64 buf
              table := BitVec.ofNat 64 (leAt bs 8 8)
              code := BitVec.ofNat 64 (leAt bs 16 8) } })
            let back := (s.me.cap.faulted.filter (fun c => decide (c.fault < 0x80))).map
              (fun c => { c with status := 1 })
            let s := back.foldl State.writeSlot s
            s.updMe (fun H => { H with cap := { H.cap with
              faulted := H.cap.faulted.filter (fun c => decide (0x80 ≤ c.fault))
              parked := H.cap.parked ++ back } })
        set s
        retireX d 0) s

/-- CAP_LAND_SEND (R404). -/
def execCapLandSend (d a : Reg) (s : State) : Host.Outcome State Fault Refusal := capLand false d a s
/-- CAP_LAND_LAND (R404). -/
def execCapLandLand (d a : Reg) (s : State) : Host.Outcome State Fault Refusal := capLand true d a s

/-! ### Sending and receiving (R405) -/

/-- `8 * n` bytes from an address up, by plain loads. -/
def loadRun (va : Word) : Nat → Op (List Byte)
  | 0 => return []
  | n + 1 => do
    let v ← loadScalar va 8
    let rest ← loadRun (va + 8) n
    return bytesOf 8 v ++ rest

/-- An image is one that `cap.send` takes (R395, R396, R405). -/
def imageOk (bs : List Byte) : Bool :=
  let n := leAt bs 8 1
  let steps := (List.range n).map (fun k => BitVec.ofNat 32 (leAt bs (32 + 4 * k) 4))
  decide (1 ≤ n ∧ n ≤ 8) && tagOk (bs.getD 9 0) && lenOk (leAt bs 10 2) && ((bs.drop 15).take 9).all (fun b => b == 0)
    && steps.all stepOk && !((steps.getLast?).map stepAlt |>.getD false)

/-- The lowest free slot of a pool. -/
def CapSide.freeSlot (p : CapSide) : Option Nat := (List.range p.slots).find? (fun n => !p.inUse.contains n)

/-- CAP_SEND (R405). -/
def execCapSend (d a : Reg) (p : BitVec 3) (s : State) : Host.Outcome State Fault Refusal :=
  runOp (do
    check s.me.cap.send .capState 0
    let va := s.getX a
    check (decide (va.toNat % 64 = 0)) .misaligned va
    let head ← loadRun va 8
    let payload ← loadRun (va + 64) ((leAt head 10 2 + 7) / 8)
    check (imageOk head) .capFormat va
    let s ← get
    match s.gangOf s.cur with
    | none => trapOp .capState 0
    | some (G, r) =>
      match s.me.cap.freeSlot with
      | none => retireX d 1
      | some n =>
        let c : Capsule := {
          gang := G.id
          origin := r
          id := BitVec.ofNat 32 (leAt head 0 4)
          hops := 0
          cur := 0
          nsteps := leAt head 8 1
          fmt := head.getD 9 0
          status := 0
          fault := 0
          slot := n
          user := BitVec.ofNat 64 (leAt head 24 8)
          steps := (List.range 8).map (fun k => BitVec.ofNat 32 (leAt head (32 + 4 * k) 4))
          payload := payload
          sent := (s.cur, p.toNat) }
        let s := (s.release s.cur true p.toNat).fcAdd G.id 1 0
        let s := s.updMe (fun H => { H with cap := { H.cap with inUse := H.cap.inUse ++ [n] } })
        set (s.route r c 0)
        retireX d 0) s

/-- Where the device finds `n` pieces of 64 bytes of a service buffer from an address up, at the level of
`cap.land` (R429). -/
def bufPieces (kind : Kind) (va : Word) : Nat → Op (List (Leaf × Nat))
  | 0 => return []
  | n + 1 => do
    let s ← get
    let p ← reachAs s.me.cap.sup kind va 64
    let rest ← bufPieces kind (va + 64) n
    return p :: rest

/-- Bytes laid over the service buffer from an offset in one of its 64-byte pieces. The device writes them at
once, after the hart's own earlier stores to them, and the hart's later loads read them (R405, R416). -/
def State.layBuf (s : State) (p : Leaf × Nat) (off : Nat) (bs : List Byte) : State :=
  let s := s.drain (fun d => d.hart == s.cur && d.meets (p.2 + off) bs.length)
  ((s.forgetAt s.cur true (p.2 + off) bs.length).forgetAt s.cur false (p.2 + off) bs.length).write
    (.side s.cur true) (p.2 + off) p.1.key bs

/-- Bytes copied into the service buffer by the device, from its start up; every address is checked before any
byte changes. -/
def copyToBuf (bs : List Byte) : Op Unit := do
  let s ← get
  let ps ← bufPieces .write s.me.cap.buf ((bs.length + 63) / 64)
  modify (fun s => (ps.zip (List.range ps.length)).foldl (fun s e =>
    s.layBuf e.1 0 ((bs.drop (64 * e.2)).take 64)) s)

/-- CAP_RECV (R405, R406): an acquire at its scope, of the hart's scalar accesses, of the capsule's last send (R341). A capsule whose table entry is empty is bounced or faulted, and the hart waits again. -/
def execCapRecv (d : Reg) (sc : BitVec 3) (s : State) : Host.Outcome State Fault Refusal :=
  runOp (do
    let p := s.me.cap
    check p.land .capState 0
    check p.held.isNone .capState 1
    match p.ring, s.me.gang with
    | c :: rest, some (_, r) =>
      let op := if c.status = 1 then 0 else stepOp (c.step c.cur)
      let e ← loadScalar (p.table + BitVec.ofNat 64 (8 * op)) 8
      if e % 2 ^ 32 = 0xFFFFFFFF then do
        modify (fun s =>
          let s := s.updMe (fun H => { H with cap := { H.cap with ring := rest } })
          if c.status = 1 then s.faultCapsule { c with fault := 3 } else s.bounce r c c.cur 3)
        waitOp (.cap d)
      else do
        let s ← get
        copyToBuf (c.bytes (s.ctxOfRank c.gang c.origin))
        modify (fun s => s.acquireFrom s.cur true sc.toNat [(.hart c.sent.1, c.sent.2)])
        updMe (fun H => { H with cap := { H.cap with
          ring := rest, held := some (c, decide (e / 2 ^ 32 % 2 = 1)) } })
        retireX d (p.code + BitVec.ofNat 64 (e % 2 ^ 32))
    | _, _ => waitOp (.cap d)) s

/-! ### Forwarding, editing and parking (R406 to R408) -/

/-- `8 * n` bytes of the service buffer from an offset, as the device reads them. -/
def readBuf (off n : Nat) : Op (List Byte) := do
  let s ← get
  let ps ← bufPieces .read (s.me.cap.buf + BitVec.ofNat 64 off) ((8 * n + 63) / 64)
  let s ← get
  return (ps.flatMap (fun p => s.read (.side s.cur true) p.2 p.1.key 64)).take (8 * n)

/-- The held capsule as it is sent (R405, R406): ID, FMT, LEN, USER and the payload from BUF, the rest from the
device's copy. -/
def heldCapsule : Op Capsule := do
  let s ← get
  match s.me.cap.held with
  | none => trapOp .capState 0
  | some (c, _) =>
    let head ← readBuf 0 8
    let len := leAt head 10 2
    check (lenOk len && tagOk (head.getD 9 0)) .capFormat (BitVec.ofNat 64 len)
    let payload ← readBuf 64 (len / 8)
    return { c with
      id := BitVec.ofNat 32 (leAt head 0 4)
      fmt := head.getD 9 0
      user := BitVec.ofNat 64 (leAt head 24 8)
      payload := payload }

/-- The service buffer is free again. -/
def unhold : Op Unit := updMe (fun H => { H with cap := { H.cap with held := none } })

/-- The end of a capsule (R401, R406). -/
def State.endCapsule (s : State) (c : Capsule) : State :=
  (s.updCap c.gang c.origin (fun p => { p with inUse := p.inUse.filter (fun n => n != c.slot) })).fcAdd c.gang 0 1

/-- `cap.fwd` towards the step that `next` gives (R406): a release of the hart's scalar accesses. -/
def capForward (next : Capsule → Nat) (p : BitVec 3) (s : State) : Host.Outcome State Fault Refusal :=
  runOp (do
    let c ← heldCapsule
    modify (fun s => s.release s.cur true p.toNat)
    unhold
    modify (fun s =>
      let k := next c
      let r := match s.me.gang with
        | some (_, r) => r
        | none => 0
      if c.nsteps ≤ k then s.endCapsule c
      else if c.hops = 255 then s.bounce r { c with sent := (s.cur, p.toNat) } k 4
      else s.route r { c with hops := c.hops + 1, status := 0, fault := 0, sent := (s.cur, p.toNat) } k)
    retire) s

/-- CAP_FWD (R406). -/
def execCapFwd (p : BitVec 3) (s : State) : Host.Outcome State Fault Refusal :=
  capForward (fun c => if stepAlt (c.step c.cur) then c.cur + 2 else c.cur + 1) p s
/-- CAP_FWD_STAY (R406). -/
def execCapFwdStay (p : BitVec 3) (s : State) : Host.Outcome State Fault Refusal :=
  capForward (fun c => c.cur) p s
/-- CAP_FWD_END (R406). -/
def execCapFwdEnd (p : BitVec 3) (s : State) : Host.Outcome State Fault Refusal :=
  capForward (fun c => c.nsteps) p s

/-- The last step of an itinerary has no alternate. -/
def lastOk (steps : List (BitVec 32)) (n : Nat) : Bool := !(stepAlt (steps.getD (n - 1) 0))

/-- The held capsule with its itinerary edited (R407): the device's copy, and NSTEPS and the steps in BUF. -/
def editSteps (c : Capsule) (steps : List (BitVec 32)) (n : Nat) : Op Unit := do
  let s ← get
  let p ← reachAs s.me.cap.sup .write s.me.cap.buf 64
  modify (fun s => (s.layBuf p 8 [byteOf n]).layBuf p 32 (steps.flatMap (fun w => bytesOf 4 w.toNat)))
  updMe (fun H => { H with cap := { H.cap with
    held := H.cap.held.map (fun e => ({ c with steps := steps, nsteps := n }, e.2)) } })

/-- The held capsule, if it may be edited (R407). -/
def editable : Op Capsule := do
  let s ← get
  match s.me.cap.held with
  | some (c, true) => return c
  | _ => trapOp .capState 2

/-- A step operand (R407). -/
def stepOperandOk (w : Word) : Bool := fld w 32 32 == 0 && stepOk (fld w 0 32)

/-- The eight step words after the first `m` of them become others: those beyond keep their values (R407). -/
def eightFrom (new old : List (BitVec 32)) : List (BitVec 32) :=
  (new ++ old.drop new.length ++ List.replicate 8 0).take 8

/-- CAP_INS (R407). -/
def execCapIns (d a b : Reg) (s : State) : Host.Outcome State Fault Refusal :=
  runOp (do
    let c ← editable
    let p := s.getX a
    let w := s.getX b
    check (decide (c.cur < p.toNat ∧ p.toNat ≤ c.nsteps) && stepOperandOk w) .capFormat p
    if c.nsteps = 8 then retireX d 1
    else
      let steps := eightFrom (c.steps.take p.toNat ++ [fld w 0 32] ++ (c.steps.take c.nsteps).drop p.toNat) c.steps
      check (lastOk steps (c.nsteps + 1)) .capFormat p
      editSteps c steps (c.nsteps + 1)
      retireX d 0) s

/-- CAP_DEL (R407). -/
def execCapDel (d a : Reg) (s : State) : Host.Outcome State Fault Refusal :=
  runOp (do
    let c ← editable
    let p := s.getX a
    check (decide (c.cur < p.toNat ∧ p.toNat < c.nsteps)) .capFormat p
    let steps := eightFrom (c.steps.take p.toNat ++ (c.steps.take c.nsteps).drop (p.toNat + 1)) c.steps
    check (lastOk steps (c.nsteps - 1)) .capFormat p
    editSteps c steps (c.nsteps - 1)
    retireX d ((c.step p.toNat).setWidth 64)) s

/-- CAP_SWAP (R407). -/
def execCapSwap (d a b : Reg) (s : State) : Host.Outcome State Fault Refusal :=
  runOp (do
    let c ← editable
    let p := s.getX a
    let w := s.getX b
    check (decide (c.cur < p.toNat ∧ p.toNat < c.nsteps) && stepOperandOk w) .capFormat p
    let steps := listUpd c.steps p.toNat (fun _ => fld w 0 32)
    check (lastOk steps c.nsteps) .capFormat p
    editSteps c steps c.nsteps
    retireX d ((c.step p.toNat).setWidth 64)) s

/-- CAP_PARK (R408). -/
def execCapPark (s : State) : Host.Outcome State Fault Refusal :=
  runOp (do
    let c ← heldCapsule
    unhold
    modify (fun s => (s.writeSlot c).updMe (fun H => { H with cap := { H.cap with parked := H.cap.parked ++ [c] } }))
    retire) s

/-- CAP_PARK_FLT (R408). -/
def execCapParkFlt (a : Reg) (s : State) : Host.Outcome State Fault Refusal :=
  runOp (do
    legal s.me.sup (.capParkFlt a)
    check s.me.cap.held.isSome .capState 0
    let w := s.getX a
    check (fld w 8 56 == 0 && decide (0x80 ≤ w.toNat)) .capFormat w
    let c ← heldCapsule
    let c := { c with status := 2, fault := w.toNat }
    unhold
    modify (fun s => ((s.writeSlot c).updMe (fun H =>
      ({ H with cap := { H.cap with faulted := H.cap.faulted ++ [c] } }).addRecord (c.record s.cur .capFault))))
    retire) s

/-- CAP_PARK_REL (R408). -/
def execCapParkRel (d a : Reg) (s : State) : Host.Outcome State Fault Refusal :=
  runOp (do
    legal s.me.sup (.capParkRel d a)
    check s.me.cap.land .capState 0
    let l := s.me.cap.faulted
    let n := Nat.min (s.getX a).toNat l.length
    let back := (l.take n).map (fun c => { c with status := 0, fault := 0 })
    modify (fun s => (back.foldl State.writeSlot s).updMe (fun H => { H with cap := { H.cap with
      faulted := l.drop n, parked := H.cap.parked ++ back } }))
    retireX d (BitVec.ofNat 64 n)) s

end Sys2Proof.Machine
end

