-- ==== Sys2Proof/Machine/Images.lean ====
section
/-!
DEFINITION. The image of a hart (R436): its bytes, how it is written and read back, and the debug module's
commands on it (R442).
-/

namespace Sys2Proof.Machine

/-! ### The bytes of an image -/

/-- The size of an image for `b` granted banks (R435). -/
def imageSize (b : Nat) : Nat := 540672 + 66560 * b

/-- Words as bytes. -/
def words8 (ws : List Word) : List Byte := ws.flatMap (fun w => bytesOf 8 w.toNat)

/-- A ring in an image (R436). -/
def Ring.image (r : Ring) : List Byte :=
  bytesOf 8 r.base.toNat ++ bytesOf 4 r.size ++ bytesOf 4 r.entries ++ bytesOf 4 r.head.toNat
    ++ bytesOf 4 r.tail.toNat ++ bytesOf 4 (if r.on then 1 else 0) ++ bytesOf 4 0

/-- The codes of a window's operation (R277). -/
def WinOp.code : WinOp → Nat
  | .sum => 0
  | .min => 1
  | .max => 2

/-- The operation of a code (R277). -/
def winOpOf (n : Nat) : WinOp :=
  match n with
  | 1 => .min
  | 2 => .max
  | _ => .sum

/-- A window in an image (R436). -/
def Window.image (w : Window) : List Byte :=
  bytesOf 8 w.base.toNat ++ bytesOf 8 w.priv.toNat ++ bytesOf 4 w.count
    ++ [byteOf w.op.code, byteOf w.fmt.toNat, if w.on then 1 else 0] ++ bytesOf 9 0

/-- An item of a crossing's buffer as bytes. -/
def Item.image : Item → List Byte
  | .group ws => words8 ws
  | .entryA _ _ _ bs => bs

/-- The branch queue in an image (R436). -/
def branchImage (q : List Bool) : Nat :=
  q.length + (q.mapIdx (fun i b => if b then 2 ^ (16 + i) else 0)).sum

/-- A port in an image: the routing entry, the buffered groups, and the rank and port of its peer (R436). -/
def Port.image (p : Port) (rank : Nat) : List Byte :=
  if p.isOpen then bytesOf 4 p.entry.toNat ++ bytesOf 4 (p.items.length + p.flight.length) ++ bytesOf 4 rank
    ++ bytesOf 4 p.peerPort
  else bytesOf 16 0

/-- The banks of a grant mask, in ascending order. -/
def bankList (m : BitVec 64) : List Nat := bitsOf m

/-- A vector register as it stands in memory when saved (R311, R436): an element queue lies in its register
from element 0 up. -/
def Hart.imageV (H : Hart) (n : Nat) : VReg :=
  match assoc H.fabric.queues n with
  | some q => (H.layBack (BitVec.ofNat 64 (2 ^ n)) (n, q)).v[n]?.getD 0
  | none => H.v[n]?.getD 0

/-- The fields of the image of a hart (R436), by offset, but for the contents of its banks. `sstat` is SSTAT as it
reads (R418), `areas` are the save areas of its streams and `rank` numbers its peers. -/
def Hart.image (H : Hart) (sstat : Word) (areas : List (List Byte)) (roles : List Nat) (rank : HartId → Nat) :
    List (Nat × List Byte) :=
  let c := H.csr
  let vr (n : Nat) : Nat × List Byte :=
    (0x4000 + 8192 * n, bytesOf ((H.vdirty[n]?.getD 0).toNat * H.lanes * 8) (H.imageV n).toNat)
  [(0x0, words8 [H.pc, boolWord H.sup, c.vcfg, c.vstart, c.lpart, c.tshape, c.mstat, c.fstat]),
   (0x40, words8 (0 :: H.x.toList.tail)),
   (0x140, words8 H.f.toList),
   (0x240, words8 [sstat, c.tvec, c.tcause, c.tval, c.tepc, c.ptbase, c.asid, c.rasp, c.timer, c.soundt, c.sounde]),
   (0x2A0, bytesOf 16 ((H.vdirty.toList.mapIdx (fun i b => b.toNat * 2 ^ (4 * i))).sum)),
   (0x2B0, bytesOf 8 H.ras.length ++ words8 H.ras),
   (0x3C0, H.loops.toList.flatMap (fun l => words8 [l.start, l.init, l.count])),
   (0x420, words8 H.ctr.toList),
   (0x4A0, H.tok.toList.flatMap (fun n => bytesOf 4 n)),
   (0x4E0, bytesOf 8 (branchImage H.branchQ)),
   (0x500, H.rings.toList.flatMap Ring.image),
   (0x600, H.wins.toList.flatMap Window.image),
   (0x680, areas.flatMap id),
   (0xE80, (List.range 24).flatMap (fun n => bytesOf 2 ((H.fabric.queue n).length))),
   (0xEB0, H.ports.toList.flatMap (fun p => p.image (rank p.peer))),
   (0xEF0, roles.map byteOf),
   (0x2000, H.m.toList.flatMap (fun m => bytesOf 1024 m.toNat))]
  ++ (List.range 32).map vr
  ++ H.ports.toList.mapIdx (fun k p => (0x44000 + 65536 * k, (p.items ++ p.flight).flatMap Item.image))

/-! ### Writing and reading an image -/

/-- The cells from an address up read as zero, under a key (R436: bytes that the layout does not list). -/
def State.wipe (s : State) (a n key : Nat) : State :=
  let sectors := (List.range (n / 32)).map (fun i => (a / 32 + i, s.key key))
  { s with
    mem := s.mem.filter (fun c => decide (c.1 < a ∨ a + n ≤ c.1))
    sectorKey := if encrypted a then
        s.sectorKey.filter (fun e => decide (e.1 < a / 32 ∨ (a + n) / 32 ≤ e.1)) ++ sectors
      else s.sectorKey }

/-- The bytes of the full/empty bits of a bank (R436): bit `w % 8` of byte `w / 8` for word `w`. -/
def State.fullBytes (s : State) (a : Nat) : List Byte :=
  (List.range 1024).map (fun i =>
    byteOf (((List.range 8).map (fun b => if s.isFull (a + 8 * (8 * i + b)) then 2 ^ b else 0)).sum))

/-- The contents of a bank written to an image (R436, R437): data and bits of a scratchpad bank. -/
def State.bankOut (s : State) (t : Fin 224) (b base key : Nat) : State :=
  match (s.tile t).banks[b]? with
  | some k =>
    if k.role = .spad then
      let a := spadAddr t.val b 0
      let s' := (s.mem.filter (fun c => decide (a ≤ c.1 ∧ c.1 < a + 0x10000))).foldl
        (fun u c => u.putByte (base + (c.1 - a)) key c.2) s
      s'.putBytes (base + 0x10000) key (s.fullBytes a)
    else s
  | none => s

/-- The contents of a scratchpad bank read back from an image (R438). -/
def State.bankIn (s : State) (t : Fin 224) (b base key : Nat) : State :=
  let a := spadAddr t.val b 0
  let bits := s.bytesUnder (base + 0x10000) key 1024
  let s' := (s.clearRange a 0x10000).putBytes a 0 (s.bytesUnder base key 0x10000)
  (List.range 8192).foldl (fun u w =>
    if (bits.getD (w / 8) 0).getLsbD (w % 8) then u.setFull (a + 8 * w) true else u) s'

/-- The image of a hart written at a physical address under a key (R436, R437, R442). -/
def State.writeImage (s : State) (h : HartId) (areas : List (List Byte)) (rank : HartId → Nat)
    (base key : Nat) : State :=
  let H := s.hart h
  let t := tileOf h
  let banks := bankList H.banks
  let roles := banks.map (fun b => match (s.tile t).banks[b]? with
    | some k => k.role.code
    | none => 0)
  let s := s.wipe base (imageSize banks.length) key
  let s := (H.image (s.sstat h) areas roles rank).foldl (fun s e => s.putBytes (base + e.1) key e.2) s
  (banks.mapIdx (fun k b => (k, b))).foldl (fun s e =>
    s.bankOut t e.2 (base + 0x84000 + 66560 * e.1) key) s

/-- A number of an image. -/
def State.img (s : State) (base key off n : Nat) : Nat := natOf (s.bytesUnder (base + off) key n)

/-- A word of an image. -/
def State.imgW (s : State) (base key off : Nat) : Word := BitVec.ofNat 64 (s.img base key off 8)

/-- A ring of an image. -/
def State.imgRing (s : State) (base key q : Nat) : Ring :=
  let o := 0x500 + 32 * q
  { on := decide (s.img base key (o + 24) 4 ≠ 0)
    base := s.imgW base key o
    size := s.img base key (o + 8) 4
    entries := s.img base key (o + 12) 4
    head := BitVec.ofNat 32 (s.img base key (o + 16) 4)
    tail := BitVec.ofNat 32 (s.img base key (o + 20) 4) }

/-- A window of an image, at a level. -/
def State.imgWindow (s : State) (base key w : Nat) (sup : Bool) : Window :=
  let o := 0x600 + 32 * w
  { on := decide (s.img base key (o + 22) 1 ≠ 0)
    op := winOpOf (s.img base key (o + 20) 1)
    fmt := BitVec.ofNat 5 (s.img base key (o + 21) 1)
    base := s.imgW base key o
    count := s.img base key (o + 16) 4
    priv := s.imgW base key (o + 8)
    sup := sup }

/-- A hart with the CSRs of an image (R438), whose words `w` gives by offset. Reserved fields and values are not taken
from it (R8, R9, R85, R232); IPEXT and IPFQ are computed (R418). -/
def Hart.imageCsrs (H : Hart) (w : Nat → Word) : Csrs :=
  let c := H.csr
  let mode := if fld (w 0x10) 22 2 = 3 then fld c.vcfg 22 2 else fld (w 0x10) 22 2
  { c with
    vcfg := setFld (H.vcfgWrite (w 0x10)) 22 mode
    vstart := w 0x18 &&& 0x7FFFF#64
    tshape := w 0x28 &&& 0xFFFFFFFFFFFFF#64
    mstat := w 0x30 &&& 0x1FF#64
    fstat := fstatWrite c.fstat (w 0x38)
    sstat := w 0x240 &&& 0x191F0122#64
    tvec := w 0x248 &&& ~~~3#64
    tcause := w 0x250 &&& 0x80000000000000FF#64
    tval := w 0x258
    tepc := w 0x260 &&& ~~~3#64
    ptbase := w 0x268 &&& 0x1FFFFFFFFFFFF000#64
    asid := w 0x270 &&& 0xFFFF#64
    rasp := w 0x278 &&& ~~~7#64
    timer := w 0x280
    soundt := w 0x288 &&& 0xFFFFFFFF#64
    sounde := w 0x290 &&& 0xFFFFFFFF#64 }

/-- A hart with the registers of an image (R438), on the lanes that it has: groups at or above a register's
HWM read 0. LPART and CYCLE are not taken from it. -/
def State.fromImage (s : State) (H : Hart) (base key : Nat) : Hart :=
  let w := s.imgW base key
  let n := s.img base key
  let dirty (r : Nat) : BitVec 3 :=
    let d : BitVec 3 := BitVec.ofNat 3 (n 0x2A0 16 / 2 ^ (4 * r))
    if d.toNat ≤ 4 then d else H.vdirty[r]?.getD 0
  { H with
    pc := w 0x0 &&& ~~~3#64
    sup := (w 0x8).getLsbD 0
    x := Vector.ofFn (fun r : Fin 32 => if r.val = 0 then 0 else w (0x40 + 8 * r.val))
    f := Vector.ofFn (fun r : Fin 32 => w (0x140 + 8 * r.val))
    v := Vector.ofFn (fun r : Fin 32 =>
      BitVec.ofNat _ (n (0x4000 + 8192 * r.val) ((dirty r.val).toNat * H.lanes * 8)))
    m := Vector.ofFn (fun r : Fin 7 => BitVec.ofNat _ (n (0x2000 + 1024 * r.val) 1024))
    csr := H.imageCsrs w
    vdirty := Vector.ofFn (fun r : Fin 32 => dirty r.val)
    ras := (List.range (Nat.min 32 (n 0x2B0 8))).map (fun i => w (0x2B8 + 8 * i))
    loops := Vector.ofFn (fun l : Fin 4 =>
      ⟨w (0x3C0 + 24 * l.val), w (0x3C8 + 24 * l.val), w (0x3D0 + 24 * l.val)⟩)
    ctr := Vector.ofFn (fun c : Fin 16 => w (imgCtr c.val))
    tok := Vector.ofFn (fun c : Fin 16 => n (imgTok c.val) 4)
    branchQ := (List.range (Nat.min 16 (n 0x4E0 1 % 32))).map (fun i => (w 0x4E0).getLsbD (16 + i))
    rings := Vector.ofFn (fun q : Fin 8 => s.imgRing base key q.val)
    wins := Vector.ofFn (fun k : Fin 4 => s.imgWindow base key k.val ((H.wins[k.val]?.getD Window.reset).sup)) }

/-! ### The debug module's commands (R442) -/

/-- A physical range of an image can be reached under a key. -/
def State.imageOk (s : State) (base size key : Nat) : Bool :=
  let cell (a : Nat) : Bool := match s.place 0 a with
    | .cell _ => true
    | _ => false
  base % 4096 == 0 && !s.keyInvalid key && (regionOf base == .hbm || regionOf base == .tier)
    && regionOf base == regionOf (base + size - 1) && cell base && cell (base + size - 1)

/-- The debug module has this command under way for a halted hart. -/
def Hart.dbgBusy (H : Hart) (cmd : Nat) : Bool :=
  H.halted && (fld H.dbg.cmd 0 4).toNat == cmd && (fld H.dbg.cmd 20 2).toNat == 1

/-- The key of the save pool of a hart's die (R435). -/
def State.poolKeyOf (s : State) (h : HartId) : Nat := ((s.die (dieOf (tileOf h))).poolKey).toNat

/-- The rank of a hart in a gang. -/
def State.rankIn (s : State) (h p : HartId) : Nat :=
  match s.gangOf h with
  | some (G, _) => ((G.members.find? (fun m => m.ctx == p)).map (fun m => m.rank)).getD 0
  | none => 0

/-- DBGCMD_SAVE_IMAGE (R442): command 3; the streams stay configured. -/
def execDbgcmdSaveImage (h : HartId) (s : State) : Host.Outcome State Fault Refusal :=
  let H := s.hart h
  let base := H.dbg.data.toNat
  .next (if !H.dbgBusy 3 then s
  else if s.imageOk base (imageSize (popcount H.banks)) (s.poolKeyOf h) then
    (s.writeImage h (H.streams.toList.map Stream.saveArea) (s.rankIn h) base (s.poolKeyOf h)).updHart h
      (fun H => H.dbgResult 0)
  else s.updHart h (fun H => H.dbgResult 3))

/-- DBGCMD_RESTORE_IMAGE (R442): command 4. The hart keeps its lanes and its banks, and its streams,
crossings and element queues are left as they are. -/
def execDbgcmdRestoreImage (h : HartId) (s : State) : Host.Outcome State Fault Refusal :=
  let H := s.hart h
  let base := H.dbg.data.toNat
  let key := s.poolKeyOf h
  let banks := bankList H.banks
  .next (if !H.dbgBusy 4 then s
  else if s.imageOk base (imageSize banks.length) key && !s.poisoned base (imageSize banks.length) then
    let t := tileOf h
    let G := s.fromImage H base key
    let s' := s.updHart h (fun _ => ({ G with dbg := { G.dbg with pc := G.pc } } : Hart).dbgResult 0)
    (banks.mapIdx (fun k b => (k, b))).foldl (fun s e =>
      match (s.tile t).banks[e.2]? with
      | some k => if k.role = .spad then s.bankIn t e.2 (base + 0x84000 + 66560 * e.1) key else s
      | none => s) s'
  else s.updHart h (fun H => H.dbgResult 3))

end Sys2Proof.Machine
end

