-- ==== Sys2Proof/Machine/Kernel.lean ====
section
/-!
DEFINITION. Launch records and launch queues: what a record names, its checks and its result codes (R360 to
R365, R372), the queues and their heads (R366 to R369), `klaunch` (R385, R386), and AGING_STEP (R368).
-/

namespace Sys2Proof.Machine

/-! ### The parts of a launch -/

/-- The bytes that a launch reads (R365): the record, its kernel-table entry, the levels of its loop table,
its crossing table and the images of its page set; empty where the record names none. -/
structure Parts where
  record : List Byte
  entry : List Byte
  levels : List Byte
  xtab : List Byte
  pages : List (List Byte)
  deriving DecidableEq, Repr

/-- The fields of a launch record (R362). -/
def Parts.ktab (p : Parts) : Nat := leAt p.record 0 8
def Parts.args (p : Parts) : Nat := leAt p.record 8 8
def Parts.pagesAt (p : Parts) : Nat := leAt p.record 16 8
def Parts.xtabAt (p : Parts) : Nat := leAt p.record 24 8
def Parts.inst (p : Parts) : Nat := leAt p.record 32 4
def Parts.prio (p : Parts) : Nat := leAt p.record 36 1 % 8
def Parts.ceil (p : Parts) : Nat := leAt p.record 37 1 % 8
def Parts.clus (p : Parts) : Nat := leAt p.record 38 1
def Parts.banks (p : Parts) : Nat := leAt p.record 39 1
def Parts.flags (p : Parts) : Nat := leAt p.record 40 1
def Parts.asid (p : Parts) : Nat := leAt p.record 42 2
def Parts.done (p : Parts) : Nat := leAt p.record 44 4
def Parts.lanes (p : Parts) : Bool := decide (p.flags % 2 = 1)
def Parts.astep (p : Parts) : Nat := p.flags / 2 % 4

/-- The predecessors of a record (R362): a reference and a threshold each. -/
def Parts.preds (p : Parts) : List (Nat × Word) :=
  (List.range 4).map (fun i => (leAt p.record (48 + 16 * i) 4, BitVec.ofNat 64 (leAt p.record (56 + 16 * i) 8)))

/-- The fields of a kernel-table entry (R67). -/
def Parts.codeSec (p : Parts) : Nat := leAt p.entry 4 4
def Parts.entryOff (p : Parts) : Nat := leAt p.entry 8 8
def Parts.loopIdx (p : Parts) : Nat := leAt p.entry 26 2
def Parts.nlevels (p : Parts) : Nat := leAt p.entry 28 1
def Parts.vlmin (p : Parts) : Nat := leAt p.entry 32 4
def Parts.vlmax (p : Parts) : Nat := leAt p.entry 36 4

/-- The levels of a loop table (R65, kind 7). -/
def levelsOf (bs : List Byte) (n : Nat) : List Level :=
  (List.range n).map (fun i => ⟨leAt bs (8 * i) 1, leAt bs (8 * i + 4) 4⟩)

/-- The trips of the `tiles` levels, of the `dies` levels, and the harts of a gang (R360, R361). -/
def gangTiles (ls : List Level) : Nat := tripsOf (fun k => k == 1) ls
def gangDies (ls : List Level) : Nat := tripsOf (fun k => k == 2) ls
def gangSize (ls : List Level) : Nat := gangTiles ls * gangDies ls

/-- The bytes of a loop table obey R65 and its limits R360. DESIGN CHOICE (log 26): at a load a level of a kind above 2 is
refused with reason 7. -/
def levelsOk (bs : List Byte) (n : Nat) : Bool :=
  let ls := levelsOf bs n
  decide (n ≤ 8) && (List.range n).all (fun i => zeroAt bs (8 * i + 1) 3)
    && ls.all (fun l => decide (l.kind ≤ 2) && decide (1 ≤ l.trips))
    && decide ((ls.filter (fun l => l.kind == 0)).length ≤ 4)
    && decide (gangTiles ls ≤ 56) && decide (gangDies ls ≤ 4)

/-- The entries of a crossing table (R372). -/
def xingsOf (bs : List Byte) : List Xing :=
  (List.range ((bs.length - 8) / 16)).map (fun i =>
    let o := 8 + 16 * i
    { rankA := leAt bs o 2
      portA := leAt bs (o + 2) 1
      rankB := leAt bs (o + 4) 2
      portB := leAt bs (o + 6) 1
      entryA := BitVec.ofNat 32 (leAt bs (o + 8) 4)
      entryB := BitVec.ofNat 32 (leAt bs (o + 12) 4) })

/-- The ends of crossings at the harts of a gang: rank and port. -/
def xingEnds (xs : List Xing) : List (Nat × Nat) := xs.flatMap (fun x => [(x.rankA, x.portA), (x.rankB, x.portB)])

/-- The ports that a crossing table names at one rank. -/
def portsAt (xs : List Xing) (r : Nat) : List Nat := ((xingEnds xs).filter (fun e => e.1 == r)).map (fun e => e.2)

/-- The crossing ends at one rank. -/
def endsAt (xs : List Xing) (r : Nat) : Nat := ((xingEnds xs).filter (fun e => e.1 == r)).length

/-- No value stands twice in a list. -/
def noRepeat {α : Type} [DecidableEq α] : List α → Bool
  | [] => true
  | a :: t => !t.contains a && noRepeat t

/-- A crossing table obeys R372 for a gang of `g` harts. -/
def xtabOk (bs : List Byte) (g : Nat) : Bool :=
  let n := leAt bs 0 8
  let xs := xingsOf bs
  decide (1 ≤ n ∧ n ≤ 896) && decide (xs.length = n)
    && (List.range n).all (fun i => zeroAt bs (8 + 16 * i + 3) 1 && zeroAt bs (8 + 16 * i + 7) 1)
    && xs.all (fun x => decide (x.rankA < g ∧ x.rankB < g ∧ x.portA ≤ 3 ∧ x.portB ≤ 3)
        && entryOk x.entryA && entryOk x.entryB && entriesJoin x.entryA x.entryB)
    && noRepeat (xingEnds xs)

/-! ### Loaded kernels -/

/-- The kernel-table entry at a virtual address of an address space: the object and the kernel's index (R65,
R362). -/
def State.kernelAt (s : State) (asid : BitVec 16) (va : Nat) : Option (Loaded × Nat) :=
  (s.loaded.filterMap (fun L =>
    if L.asid = asid then
      (L.sections.find? (fun t => t.1 == 6 && decide (t.2.1 ≤ va) && decide (va + 48 ≤ t.2.1 + t.2.2)
        && (va - t.2.1) % 48 == 0)).map (fun t => (L, (va - t.2.1) / 48))
    else none)).head?

/-- The copy of an object for a VLBYTES in an address space (R71). -/
def State.copyFor (s : State) (L : Loaded) (vlbytes : Nat) : Option Loaded :=
  s.loaded.find? (fun K => K.asid == L.asid && K.vlbytes == vlbytes && K.object == L.object)

/-- The address of the first level of a kernel in the loaded loop table, if its levels lie in it. -/
def Loaded.levelsAt (L : Loaded) (idx n : Nat) : Option Nat :=
  match L.sections.find? (fun t => t.1 == 7) with
  | some (_, base, size) => if 8 * (idx + n) ≤ size then some (base + 8 * idx) else none
  | none => none

/-- The loaded address of a kernel's entry: CODESEC is a code section that holds it (R67). -/
def Loaded.entryAt (L : Loaded) (sec off : Nat) : Option Nat :=
  match L.sections[sec]? with
  | some (k, base, size) => if k = 1 ∧ off % 4 = 0 ∧ off < size then some (base + off) else none
  | none => none

/-! ### Checks and codes (R365) -/

/-- The fields of the record obey R362 and R363. -/
def Parts.recordOk (p : Parts) : Bool :=
  decide (1 ≤ p.inst ∧ p.inst ≤ 65535) && decide (leAt p.record 36 1 < 8) && decide (leAt p.record 37 1 < 8) && decide (p.prio ≤ p.ceil)
    && decide (p.clus ≤ 16) && decide (p.banks ≤ 62) && decide (p.flags < 8) && decide (p.astep ≠ 3)
    && zeroAt p.record 41 1 && zeroAt p.record 112 16
    && (List.range 4).all (fun i => zeroAt p.record (52 + 16 * i) 4)
    && p.args % 64 == 0 && p.pagesAt % 4096 == 0
    && refOk p.done && p.preds.all (fun e => refOk e.1)
    && (!p.lanes || decide (p.clus ≠ 0)) && (decide (p.xtabAt = 0) || p.lanes)

/-- The kernel-table entry obeys R67 in its object. -/
def Parts.entryOk (p : Parts) (L : Loaded) : Bool :=
  zeroAt p.entry 29 3 && zeroAt p.entry 40 8 && (L.entryAt p.codeSec p.entryOff).isSome
    && decide (p.nlevels ≤ 8) && (decide (p.nlevels ≠ 0) || decide (p.loopIdx = 0))
    && (decide (p.nlevels = 0) || (L.levelsAt p.loopIdx p.nlevels).isSome)

/-- The queue register of a die (R367). -/
def State.qcfgOf (s : State) (d q : Nat) : Word :=
  match s.dies[d]? with
  | some D => D.qcfg[q]?.getD 0
  | none => 0

/-- Code 3 (R369): the queue is not open to a user-level submission. -/
def Parts.notOpen (p : Parts) (c : Word) : Bool :=
  !c.getLsbD 7 || decide ((fld c 4 3).toNat < p.prio) || decide ((fld c 4 3).toNat < p.ceil)

/-- The records of a queue (R374: resume entries do not count). -/
def Queue.records (q : Queue) : Nat :=
  (q.entries.filter (fun e => match e with | .record _ => true | .resume _ => false)).length

/-- NPAGES of the page set that a record names, 0 without one (R323). -/
def Parts.npages (p : Parts) : Nat := (p.pages.head?.map (fun im => leAt im 3 1)).getD 0

/-- Code 4 for what the record asks (R365, R456). -/
def Parts.neverPlaced (p : Parts) (level die : Nat) (copy : Option Loaded) (xs : List Xing) : Bool :=
  (decide (p.clus ≠ 0) && (decide (512 * p.clus < p.vlmin) || decide (p.vlmax < 512 * p.clus)))
    || copy.isNone
    || decide (p.clus < p.npages)
    || decide (62 - maxNat ((xingEnds xs).map (fun e => endsAt xs e.1)) < p.banks)
    || (level == 1 && die != 0)

/-- The result of a submission (R365, R369): the first code that applies in the order 3, 2, 4, 5, 1, or the
record as it enters the queue. `user` marks a user-level `klaunch`; `sound` is false for an operand with
bits that R386 keeps zero. -/
def State.checkLaunch (s : State) (user sound : Bool) (asid : BitVec 16) (die q : Nat) (p : Parts) :
    Except Nat Launch :=
  let xs := xingsOf p.xtab
  let ls := levelsOf p.levels p.nlevels
  let kernel := s.kernelAt asid p.ktab
  let copy := kernel.bind (fun k => s.copyFor k.1 (512 * p.clus))
  if user && p.notOpen (s.qcfgOf die q) then .error 3
  else match kernel with
    | none => .error 2
    | some (L, idx) =>
      if !sound || !p.recordOk || !p.entryOk L || !levelsOk p.levels p.nlevels
          || (decide (p.xtabAt ≠ 0) && !xtabOk p.xtab (gangSize ls)) then .error 2
      else if p.neverPlaced s.mgmt.level die copy xs then .error 4
      else if decide (p.pagesAt ≠ 0) && (pageFault p.pages).isSome then .error 5
      else match (s.dies[die]?).bind (fun D => D.queues[q]?), copy with
        | some Q, some C =>
          if 64 ≤ Q.records then .error 1
          else .ok {
            id := s.nextId
            entry := BitVec.ofNat 64 ((C.entryAt p.codeSec p.entryOff).getD 0)
            args := BitVec.ofNat 64 p.args
            inst := p.inst
            prio := p.prio
            ceil := p.ceil
            clus := p.clus
            banks := p.banks
            lanes := p.lanes
            astep := p.astep
            asid := asid
            done := s.bindRef p.done
            preds := (p.preds.filter (fun e => refV e.1)).map (fun e => (s.bindRef e.1, e.2))
            levels := ls
            rings := (C.rings.filter (fun r => r.1 == idx)).map (fun r => r.2)
            xings := xs
            pages := if p.pagesAt = 0 then none else some (pageSetOf p.pages)
            die := die
            queue := q
            next := 0 }
        | _, _ => .error 2

/-! ### Queues and their heads (R366, R368) -/

/-- A queue of a die. -/
def State.queue (s : State) (d : Fin 4) (q : Nat) : Queue := (s.die d).queues[q]?.getD Queue.reset

/-- A queue of a die replaced by its image. -/
def State.updQueue (s : State) (d : Fin 4) (q : Nat) (f : Queue → Queue) : State :=
  s.updDie d (fun D => { D with queues := D.queues.setIfInBounds q (f (D.queues[q]?.getD Queue.reset)) })

/-- The record that an entry of a queue stands for. -/
def State.entryLaunch (s : State) : QEntry → Option Launch
  | .record l => some l
  | .resume g => (s.gang? g).map (fun G => G.launch)

/-- The PRIO and the CEIL of the head of a queue. -/
def State.headPrio (s : State) (q : Queue) : Nat × Nat :=
  match (q.entries.head?).bind s.entryLaunch with
  | some l => (l.prio, l.ceil)
  | none => (0, 0)

/-- A new head, or a head that is not ready: its current priority is its PRIO (R368). -/
def State.freshHead (s : State) (q : Queue) : Queue := { q with prio := (s.headPrio q).1, age := 0, readyFor := 0 }

/-- Every used predecessor is met (R363, R366). -/
def State.predsMet (s : State) (l : Launch) : Bool :=
  l.preds.all (fun e => decide (e.2.toNat ≤ (s.refValue e.1).toNat))

/-- The head of a queue is ready (R366, R374). -/
def State.headReady (s : State) (q : Queue) : Bool :=
  match q.entries with
  | .record l :: _ => s.predsMet l
  | .resume _ :: _ => true
  | [] => false

/-- A record posted to its queue (R366). -/
def State.post (s : State) (l : Launch) : State :=
  let d : Fin 4 := ⟨l.die % 4, by omega⟩
  let Q := s.queue d l.queue
  let Q' := { Q with entries := Q.entries ++ [.record l] }
  let s := s.updQueue d l.queue (fun _ => if Q.entries.isEmpty then s.freshHead Q' else Q')
  { s with nextId := s.nextId + 1, records := s.records ++ [(l.id, l.inst, l.done)] }

/-- Cycles that pass for the queues of a die (R368): a ready head ages, and one that is not ready starts
again. -/
def State.ageQueues (s : State) (d : Fin 4) (n : Nat) : State :=
  s.updDie d (fun D => { D with
    clock := D.clock + n
    queues := D.queues.map (fun q =>
      if s.headReady q then { q with age := q.age + n, readyFor := q.readyFor + n } else s.freshHead q) })

/-- SCHCFG (R367). -/
def Die.preempt (D : Die) : Nat := (fld D.schcfg 32 32).toNat
def Die.agePeriod (D : Die) : Nat := (fld D.schcfg 0 32).toNat

/-- AGING_STEP (R368): the current priority of a ready head rises by 1 after AGE cycles, up to its CEIL. -/
def execAgingStep (die : Fin 4) (q : BitVec 5) (s : State) : Host.Outcome State Fault Refusal :=
  let Q := s.queue die q.toNat
  let period := (s.die die).agePeriod
  .next (if s.headReady Q && decide (period ≠ 0) && decide (period ≤ Q.age) && decide (Q.prio < (s.headPrio Q).2) then
    s.updQueue die q.toNat (fun Q => { Q with prio := Q.prio + 1, age := Q.age - period })
  else s)

/-! ### `klaunch` (R386) -/

/-- `n` bytes from an address up, by plain loads of a byte. -/
def loadEach (va : Word) : Nat → Op (List Byte)
  | 0 => return []
  | n + 1 => do
    let v ← loadScalar va 1
    let rest ← loadEach (va + 1) n
    return BitVec.ofNat 8 v :: rest

/-- The images of a page set, by plain loads (R322). -/
def loadImages (va : Word) : Nat → Op (List (List Byte))
  | 0 => return []
  | n + 1 => do
    let bs ← loadRun va 512
    let rest ← loadImages (va + 4096) n
    return bs :: rest

/-- The parts of a launch read for the hart whose turn it is (R386). -/
def loadParts (va : Word) (asid : BitVec 16 → BitVec 16) : Op Parts := do
  let record ← loadRun va 16
  let p : Parts := ⟨record, [], [], [], []⟩
  let entry ← loadEach (BitVec.ofNat 64 p.ktab) 48
  let p := { p with entry := entry }
  let s ← get
  let levels ← match (s.kernelAt (asid (BitVec.ofNat 16 p.asid)) p.ktab).bind
      (fun k => if p.nlevels ≤ 8 then k.1.levelsAt p.loopIdx p.nlevels else none) with
    | some a => loadEach (BitVec.ofNat 64 a) (8 * p.nlevels)
    | none => pure []
  let xtab ← if p.xtabAt = 0 then pure [] else do
    let head ← loadEach (BitVec.ofNat 64 p.xtabAt) 8
    let n := natOf head
    if 1 ≤ n ∧ n ≤ 896 then do
      let rest ← loadEach (BitVec.ofNat 64 (p.xtabAt + 8)) (16 * n)
      pure (head ++ rest)
    else pure head
  let pages ← if p.pagesAt = 0 ∨ p.pagesAt % 4096 ≠ 0 then pure [] else do
    let first ← loadRun (BitVec.ofNat 64 p.pagesAt) 512
    let n := leAt first 3 1
    if 1 ≤ n ∧ n ≤ 16 then do
      let rest ← loadImages (BitVec.ofNat 64 (p.pagesAt + 4096)) (n - 1)
      pure (first :: rest)
    else pure [first]
  return { p with levels := levels, xtab := xtab, pages := pages }

/-- KLAUNCH (R365, R369, R386). A user-level launch runs in the launcher's own address space (R371). -/
def execKlaunch (d a b : Reg) (s : State) : Host.Outcome State Fault Refusal :=
  runOp (do
    let va := s.getX a
    let w := s.getX b
    check (decide (va.toNat % 64 = 0)) .misaligned va
    let asid (r : BitVec 16) : BitVec 16 := if s.me.sup then r else s.me.space
    let p ← loadParts va asid
    modify (fun s => s.raise (fun d => d.hart == s.cur) 3)
    let u ← get
    match u.checkLaunch (!s.me.sup) (fld w 7 57 == 0) (asid (BitVec.ofNat 16 p.asid))
        (fld w 5 2).toNat (fld w 0 5).toNat p with
    | .error c => retireX d (BitVec.ofNat 64 c)
    | .ok l => do
      set (u.post l)
      retireX d 0) s

end Sys2Proof.Machine
end

