-- ==== Sys2Proof/Machine/Sched.lean ====
section
/-!
DEFINITION. The die scheduler: choosing a candidate and what a hart needs (R368 to R370), placing a gang
(R371, R372, R430), ending a hart and a gang (R375), and saving and resuming gangs (R373, R374, R400, R435 to
R439).
-/

namespace Sys2Proof.Machine

/-! ### Choosing (R369) -/

/-- The ready heads of a die, the queue after the one last served first. -/
def State.readyHeads (s : State) (d : Fin 4) : List (Nat × Queue) :=
  ((List.range 32).map (fun i => ((s.die d).served + 1 + i) % 32)).filterMap (fun q =>
    let Q := s.queue d q
    if s.headReady Q then some (q, Q) else none)

/-- What names an entry of a queue: the record's or the gang's number. -/
def QEntry.key : QEntry → Bool × Nat
  | .record l => (false, l.id)
  | .resume g => (true, g)

/-- A candidate that an earlier decision of a die chose and could not place is a ready head still (R369). -/
def State.stillBlocked (s : State) (d : Fin 4) (c : Nat × Bool × Nat) : Bool :=
  s.headReady (s.queue d c.1) && ((s.queue d c.1).entries.head?.map QEntry.key) == some c.2

/-- The candidate of the highest current priority, the first among equals. -/
def bestHead (from_ : Option (Nat × Queue)) (l : List (Nat × Queue)) : Option (Nat × Queue) :=
  l.foldl (fun best c => match best with
    | none => some c
    | some b => if b.2.prio < c.2.prio then some c else some b) from_

/-- Of the candidates that earlier decisions of a die chose and could not place, that of the highest current priority (R369):
each of them holds others back until it is placed. -/
def State.heldBack (s : State) (d : Fin 4) : Option (Nat × Queue) :=
  bestHead none (((s.die d).blocked.filter (s.stillBlocked d)).map (fun c => (c.1, s.queue d c.1)))

/-- The chosen candidate (R369): the ready head with the highest current priority; those that earlier decisions
chose give way only to a strictly higher one. -/
def State.chosen (s : State) (d : Fin 4) : Option (Nat × Queue) := bestHead (s.heldBack d) (s.readyHeads d)

/-- A decision of a die is remembered (R369): its chosen candidate, beside those that it could not place before, with the
clusters freed for it (R376). -/
def State.noteChosen (s : State) (d : Fin 4) : State :=
  match (s.chosen d).bind (fun c => c.2.entries.head?.map (fun e => (c.1, e.key))) with
  | none => s.updDie d (fun D => { D with blocked := [], freed := [] })
  | some now => s.updDie d (fun D => { D with
      blocked := now :: (D.blocked.filter (s.stillBlocked d)).filter (fun c => c != now)
      freed := if D.blocked.head? = some now then D.freed else [] })

/-- The other dies of a gang's harts admit a placement at a current priority (R369, R370): where one of them holds a
candidate back, the priority is strictly higher than that one's. -/
def State.admits (s : State) (d : Fin 4) (dies : List (Fin 4)) (prio : Nat) : Bool :=
  dies.all (fun e => e == d || (match s.heldBack e with
    | some (_, Q) => decide (Q.prio < prio)
    | none => true))

/-! ### What a hart needs (R370) -/

/-- What the scheduler must find for one hart: its die, clusters and banks, FIFO banks for crossings, FIFO banks that are
claimed (R155), stream contexts and crossing ports (R149), and, for a landing, a tile without one (R391). -/
structure Need where
  die : Fin 4
  clus : Nat
  banks : Nat
  fifos : Nat
  claims : Nat
  streams : Nat
  ports : List Nat
  landing : Bool
  deriving DecidableEq, Repr

/-- The index of a rank over the `dies` levels together (R361). -/
def dieIndex (ls : List Level) (rank : Nat) : Nat :=
  ((List.range ls.length).filter (fun k => match ls[k]? with
    | some l => l.kind == 2
    | none => false)).foldl (fun n k => n * (match ls[k]? with
      | some l => l.trips
      | none => 1) + levelIndex ls rank k) 0

/-- The die of a rank (R361). -/
def Launch.dieOf (l : Launch) (rank : Nat) : Fin 4 := ⟨(l.die + dieIndex l.levels rank) % 4, by omega⟩

/-- The needs of the ranks of a record that starts. -/
def Launch.needs (l : Launch) : List Need :=
  (List.range (gangSize l.levels)).map (fun r => ⟨l.dieOf r, l.clus, l.banks, endsAt l.xings r, 0, 0, portsAt l.xings r, false⟩)

/-- The streams that a saved hart brings back. -/
def Saved.configured (v : Saved) : List (Nat × Stream) := v.streams.filter (fun e => decide (e.1 < 16) && e.2.saved)

/-- The needs of the ranks of a saved gang (R370, R400). -/
def Gang.needs (G : Gang) : List Need :=
  G.members.map (fun m =>
    match m.saved with
    | some v =>
      ⟨G.launch.dieOf m.rank, G.launch.clus, G.launch.banks,
        v.ports.length, v.configured.length + (if v.cap.land then 1 else 0), v.configured.length,
        v.ports.map (fun e => e.1), v.cap.land⟩
    | none => ⟨G.launch.dieOf m.rank, G.launch.clus, G.launch.banks, 0, 0, 0, [], false⟩)

/-- The needs of a candidate. -/
def State.needs (s : State) : QEntry → List Need
  | .record l => l.needs
  | .resume g => match s.gang? g with
    | some G => G.needs
    | none => []

/-- The contexts of a tile that hold clusters (R17). -/
def State.holders (s : State) (t : Fin 224) : Nat :=
  ((hartsOf t).filter (fun h => ((s.hart h).own ||| (s.hart h).grant) != 0)).length

/-- A context on which a hart can be placed: idle, and not kept with an unfinished gang (R375). -/
def Hart.free (H : Hart) : Bool := H.run == .idle && H.gang.isNone

/-- The banks of a tile that may go into a grant mask (R370). -/
def State.freeBanks (s : State) (t : Fin 224) : List Nat :=
  ((s.tile t).inRole .cache).filter (fun b => !(s.granted t).getLsbD b
    && (match (s.tile t).banks[b]? with
      | some k => !k.claimed
      | none => false))

/-- The unclaimed FIFO banks of a tile inside a grant mask, or outside every one. -/
def State.spareFifos (s : State) (t : Fin 224) (inside : Bool) : Nat :=
  (((s.tile t).inRole .fifo).filter (fun b => (s.granted t).getLsbD b == inside
    && (match (s.tile t).banks[b]? with
      | some k => !k.claimed
      | none => false))).length

/-- A tile can take a hart with a need (R370); its ports that the hart's crossings name carry none (R149), and a
landing's tile has no other landing (R391). What is claimed may be a FIFO bank inside a grant mask, and what a crossing end
takes may not (R155, R370). DEDUCED (log 22). -/
def State.fits (s : State) (n : Need) (t : Fin 224) : Bool :=
  dieOf t == n.die && decide (t.val < s.tilesUp) && !(s.tile t).quarantined
    && (hartsOf t).any (fun h => (s.hart h).free)
    && decide (n.clus ≤ 16 - popcount (s.heldClusters t))
    && (n.clus == 0 || decide (s.holders t < 2))
    && decide (n.banks + (n.fifos + (n.claims - s.spareFifos t true) - s.spareFifos t false) + 2 ≤ (s.freeBanks t).length)
    && decide (s.contexts t + n.streams ≤ 32)
    && n.ports.all (fun k => (hartsOf t).all (fun h => !((s.hart h).port k).isOpen))
    && (!n.landing || (hartsOf t).all (fun h => !(s.hart h).cap.land))

/-- A tile is found for one need, moving earlier ones where that helps (an augmenting path): the tiles tried,
and the assignment of tiles to needs, if there is one. -/
def State.findTile (s : State) (needs : List Need) (i : Nat) (asg : List (Nat × Nat)) (seen : List Nat) :
    Nat → List Nat × Option (List (Nat × Nat))
  | 0 => (seen, none)
  | fuel + 1 =>
    match needs[i]? with
    | none => (seen, none)
    | some n =>
      (List.finRange 224).foldl (fun (acc : List Nat × Option (List (Nat × Nat))) t =>
        match acc.2 with
        | some _ => acc
        | none =>
          if acc.1.contains t.val || !s.fits n t then acc
          else
            let seen := t.val :: acc.1
            match assoc asg t.val with
            | none => (seen, some (assocSet asg t.val i))
            | some j =>
              match s.findTile needs j (assocErase asg t.val) seen fuel with
              | (seen, some asg') => (seen, some (assocSet asg' t.val i))
              | (seen, none) => (seen, none)) (seen, none)

/-- Every hart of a candidate can be given what it needs, all at once and on distinct tiles (R370). -/
def State.canPlace (s : State) (needs : List Need) : Bool :=
  ((List.range needs.length).foldl (fun (acc : Option (List (Nat × Nat))) i =>
    match acc with
    | none => none
    | some asg => (s.findTile needs i asg [] 57).2) (some [])).isSome

/-- The contexts and resources named for the ranks of a candidate are such as R370 allows. -/
def State.placesOk (s : State) (needs : List Need) (ps : List Place) : Bool :=
  decide (ps.length = needs.length) && noRepeat (ps.map (fun p => p.tile))
    && (needs.zip ps).all (fun e =>
      let n := e.1
      let p := e.2
      s.fits n p.tile && (s.hart (hartAt p.tile p.ctx)).free
        && popcount p.clusters == n.clus && (p.clusters &&& s.heldClusters p.tile) == 0
        && popcount p.banks == n.banks && (bitsOf p.banks).all (fun b => (s.freeBanks p.tile).contains b))

/-! ### Placing a gang (R371, R372, R430) -/

/-- The level at which the device reads for a placement: a word of an address space, through the ASID table
of a die. -/
def State.spaceEntry (s : State) (d : Fin 4) (asid : BitVec 16) : Word × Word :=
  let a := (s.die d).asidTable.toNat + 32 * asid.toNat
  match s.place asid a with
  | .cell c => (BitVec.ofNat 64 (natOf (s.bytesUnder c 0 8)), BitVec.ofNat 64 (natOf (s.bytesUnder (c + 8) 0 8)))
  | _ => (0, 0)

/-- A byte of an address space as the device reads it, if it can be read. -/
def State.spaceByte (s : State) (d : Fin 4) (asid : BitVec 16) (va : Nat) : Option Byte :=
  match s.walk (s.spaceEntry d asid).1 asid va with
  | .error _ => none
  | .ok l =>
    if (permFault .read true l.pte).isSome || s.keyInvalid l.key || s.poisoned l.pa 1 then none
    else match s.place asid l.pa with
      | .cell c => some (s.byteUnder c l.key)
      | _ => none

/-- Bytes of an address space, if they can be read. -/
def State.spaceBytes (s : State) (d : Fin 4) (asid : BitVec 16) (va : Nat) : Nat → Option (List Byte)
  | 0 => some []
  | n + 1 => match s.spaceByte d asid va, s.spaceBytes d asid (va + 1) n with
    | some b, some t => some (b :: t)
    | _, _ => none

/-- The address of the argument image of a rank (R362). -/
def Launch.argsAt (l : Launch) (inst rank : Nat) : Nat :=
  match l.astep with
  | 0 => l.args.toNat
  | 1 => l.args.toNat + 256 * rank
  | _ => l.args.toNat + 256 * (inst * gangSize l.levels + rank)

/-- x1 to x31 of a placed hart (R371). Words that cannot be read are free values: the manual does not say what
such a hart starts with (log 10). -/
def State.argRegs (s : State) (d : Fin 4) (l : Launch) (inst rank : Nat) : Vector Word 32 :=
  Vector.ofFn (fun r : Fin 32 =>
    if r.val = 0 then 0
    else match s.spaceBytes d l.asid (l.argsAt inst rank + 8 * r.val) 8 with
      | some bs => BitVec.ofNat 64 (natOf bs)
      | none => Config.freeWord (s.fresh + rank * 32 + r.val))

/-- LPART with clusters granted and owned (R229). -/
def lpartOf (grant own : BitVec 16) : Word := setFld (setFld 0#64 16 grant) 0 own

/-- A context cleared for its next hart (R371): what belongs to the context stays, its counters (R363), its
fault queue (R433), its debug module (R442), its CYCLE (R218) and the streams that a supervisor saved from
it. -/
def Hart.cleared (H : Hart) : Hart :=
  { Hart.reset with
    ctr := H.ctr
    ctrRel := H.ctrRel
    fq := { H.fq with seq := 0 }
    dbg := { H.dbg with stat := 0, haltReq := false, stepping := false }
    csr := { Csrs.reset with cycle := H.csr.cycle }
    releasing := H.releasing.filter (fun t => t.saved) }

/-- A hart placed on a context (R371, R430). -/
def State.placeHart (s : State) (l : Launch) (gang inst rank : Nat) (p : Place) : State :=
  let h := hartAt p.tile p.ctx
  let d := dieOf p.tile
  let e := s.spaceEntry d l.asid
  let args := s.argRegs d l inst rank
  s.updHart h (fun H =>
    let H := H.cleared
    { H with
      run := .running
      gang := some (gang, rank)
      pc := l.entry
      x := args
      banks := p.banks
      fabric := { H.fabric with staged := l.pages }
      csr := { H.csr with
        lpart := lpartOf p.clusters (if l.lanes then p.clusters else 0)
        ptbase := e.1 &&& 0x1FFFFFFFFFFFF000#64
        tvec := e.2 &&& ~~~3#64
        asid := l.asid.setWidth 64 } })

/-- A ring that the object declares, on a placed hart (R68, R163): a declaration that `ring.cfg` would refuse
leaves the ring unconfigured. -/
def State.declareRing (s : State) (h : HartId) (r : RingDecl) : State :=
  match ringConfigure (BitVec.ofNat 3 r.ring) r.base r.shape { s with cur := h } with
  | .ok _ s' => { s' with cur := s.cur }
  | .error _ _ => s

/-- The contexts of a gang's harts, by rank. -/
def Gang.ctx (G : Gang) (r : Nat) : HartId := ((G.member? r).map (fun m => m.ctx)).getD 0

/-- The crossings of a record opened (R372). -/
def State.openAll (s : State) (G : Gang) (xs : List Xing) : State :=
  xs.foldl (fun s x =>
    (s.openCrossingBy State.claimOutside (G.ctx x.rankA) x.portA x.entryA (G.ctx x.rankB) x.portB x.entryB
      false).getD s) s

/-- A queue whose entry has been served (R366, R368): a record counts its instance and leaves after the last one. -/
def State.served (s : State) (d : Fin 4) (q : Nat) (e : QEntry) : State :=
  let s := s.updQueue d q (fun Q => { Q with entries := Q.entries.flatMap (fun x =>
    if x.key ≠ e.key then [x]
    else match x with
      | .record l => if l.inst ≤ l.next + 1 then [] else [.record { l with next := l.next + 1 }]
      | .resume _ => []) })
  (s.updQueue d q s.freshHead).updDie d (fun D => { D with
    served := q, blocked := D.blocked.filter (fun c => c != (q, e.key)), freed := [] })

/-- The next instance of a record placed (R361, R366, R370, R371). -/
def State.placeRecord (s : State) (die : Fin 4) (q : Nat) (l : Launch) (places : List Place) : State :=
  let ranks := places.mapIdx (fun r p => (r, p))
  let id := s.nextId
  let G : Gang := {
    id := id
    launch := l
    inst := l.next
    members := ranks.map (fun e => ⟨e.1, hartAt e.2.tile e.2.ctx, false, none⟩)
    fc := 0
    running := true
    since := (s.die die).clock
    yielded := false
    prio := l.prio }
  let s := ranks.foldl (fun s e => s.placeHart l id l.next e.1 e.2) s
  let s := ranks.foldl (fun s e =>
    l.rings.foldl (fun s r => s.declareRing (hartAt e.2.tile e.2.ctx) r) s) s
  let s := { s with nextId := id + 1, fresh := s.fresh + 32 * places.length, gangs := s.gangs ++ [G] }
  (s.openAll G l.xings).served die q (.record l)

/-- PLACE_GANG (R361, R366, R369, R370, R371): the chosen candidate is a record, and its next instance is placed. One
that cannot be placed holds the others back. -/
def execPlaceGang (die : Fin 4) (places : List Place) (s : State) : Host.Outcome State Fault Refusal :=
  .next (match s.chosen die with
    | some (q, Q) =>
      match Q.entries with
      | .record l :: _ =>
        if s.placesOk l.needs places && s.admits die (l.needs.map (fun n => n.die)) Q.prio then
          s.placeRecord die q l places
        else s.noteChosen die
      | _ => s
    | none => s)

/-! ### Ending a hart and a gang (R364, R375, R401) -/

/-- References to a hart of a gang pass to the context that it last ran on (R364). -/
def CtrRef.passed (g r : Nat) (h : HartId) : CtrRef → CtrRef
  | .member g' r' c => if g' = g ∧ r' = r then .ctx h c else .member g' r' c
  | x => x

/-- The same for every reference that a record holds. -/
def Launch.mapRefs (l : Launch) (f : CtrRef → CtrRef) : Launch :=
  { l with done := f l.done, preds := l.preds.map (fun e => (f e.1, e.2)) }

/-- The binding of a hart that ends passes to its context (R364). -/
def State.passRefs (s : State) (g r : Nat) (h : HartId) : State :=
  let f := CtrRef.passed g r h
  { s with
    dies := s.dies.map (fun D => { D with queues := D.queues.map (fun q => { q with
      entries := q.entries.map (fun e => match e with
        | .record l => .record (l.mapRefs f)
        | .resume k => .resume k) }) })
    records := s.records.map (fun e => (e.1, e.2.1, f e.2.2))
    gangs := s.gangs.map (fun G => { G with launch := G.launch.mapRefs f }) }

/-- The banks of a hart's grant mask that are not in the cache role return to it (R375). -/
def State.banksBack (s : State) (h : HartId) : State :=
  (bankList (s.hart h).banks).foldl (fun s b => s.changeRole (tileOf h) b .cache) s

/-- The crossings of a hart of a gang that finishes closed: their banks return to the cache role (R372, R375). -/
def State.finishCrossings (s : State) (h : HartId) : State :=
  (List.range 4).foldl (fun s k => s.closeCrossingBy State.fifoToCache h k) s

/-- The crossings of a hart closed (R437). -/
def State.closeAll (s : State) (h : HartId) : State := (List.range 4).foldl (fun s k => s.closeCrossing h k) s

/-- The resources that a gang keeps on a context are freed (R375). -/
def State.freeContext (s : State) (h : HartId) : State :=
  let s := (s.finishCrossings h).banksBack h
  (s.unparkHart h).updHart h Hart.cleared

/-- The capsules of a gang that exist anywhere (R401). -/
def State.capsulesOf (s : State) (G : Gang) : Nat :=
  (s.capsules.filter (fun t => t.cap.gang == G.id)).length
    + (G.members.map (fun m =>
        let p := s.memberCap m
        p.ring.length + p.parked.length + p.faulted.length + (if p.held.isSome then 1 else 0))).sum

/-- What is in flight for a gang that is no more: its capsules are discarded, with one record of their number
(R401), and its tokens. -/
def State.discard (s : State) (G : Gang) : State :=
  let n := s.capsulesOf G
  let s := { s with
    capsules := s.capsules.filter (fun t => t.cap.gang != G.id)
    tokens := s.tokens.filter (fun t => t.gang != G.id)
    gangs := s.gangs.filter (fun K => K.id != G.id) }
  if n = 0 then s else s.logOwn (bytesOf 8 n)

/-- An instance of a record has finished: DONE counts when it was the last one, by releases of its harts (R342, R375). -/
def State.instanceDone (s : State) (id : Nat) (rs : List (HartId × Nat)) : State :=
  match s.records.find? (fun e => e.1 == id) with
  | some (_, n, done) =>
    if n ≤ 1 then ({ s with records := s.records.filter (fun e => e.1 != id) } : State).refStep rs done
    else { s with records := s.records.map (fun e => if e.1 = id then (e.1, n - 1, e.2.2) else e) }
  | none => s

/-- The gang finishes if every hart of it has executed `kdone` (R375). -/
def State.finishGang (s : State) (g : Nat) : State :=
  match s.gang? g with
  | some G =>
    if G.members.all (fun m => m.done) then
      let s := s.discard G
      let s := G.members.foldl (fun s m => s.freeContext m.ctx) s
      s.instanceDone G.launch.id (G.members.map (fun m => (m.ctx, 3)))
    else s
  | none => s

/-- The streams of a hart released as `kdone` does (R375): a stopped copy is abandoned, the source first, and a
stream of a running copy is left. -/
def State.releaseAll (s : State) (h : HartId) : State :=
  (List.range 16).foldl (fun s n =>
    let t := (s.hart h).stream n
    if !t.cfg then s
    else match t.copy with
      | none => s.beginRelease h n
      | some c =>
        if c.stopped then
          let (sn, dn) := if t.desc.dir then (c.other, n) else (n, c.other)
          (s.beginRelease h sn).beginRelease h dn
        else s) s

/-- The hart whose turn it is ends: its context becomes idle, and stays with its gang until that finishes
(R375). -/
def State.endHart (s : State) : State :=
  let h := s.cur
  match s.me.gang with
  | none => s.freeContext h
  | some (g, r) =>
    let (H, n) := s.me.dropSets
    let s := (s.updMe (fun _ => { H with run := .idle, wait := .none, waited := 0, watchdog := 0, ladder := 0 })).fcAdd g 0 n
    let s := (s.updGang g (fun G => G.updMember r (fun m => { m with done := true }))).passRefs g r h
    s.finishGang g

/-- KDONE (R375): the landing is withdrawn (R404), the streams are released, every access of the hart is
performed, and the hart ends. A wait keeps what was released. -/
def execKdone (s : State) : Host.Outcome State Fault Refusal :=
  .next (if s.me.cap.held.isSome then s.trap .capState 1
  else
    let s := (s.withdraw.releasePool).1.releaseAll s.cur
    if s.me.streams.any (fun t => t.cfg) || s.me.releasing.any (fun t => !t.saved) then s.waitIn .other
    else (((s.release s.cur false 3).drainHart s.cur).forget s.cur false).endHart)

/-- The entries, window, FIFO bank and context of a stream given up. -/
def State.dropStream (s : State) (h : HartId) (t : Stream) : State :=
  let s := ((s.giveUp t t.extents).1).freeWindow t.granules
  if t.cfg || !t.saved then s.freeFifo (tileOf h) t.bank else s

/-- A gang ended without the waits of `kdone` (R462): its harts are freed, saved ones with their slots, and
DONE is not incremented. -/
def State.endGang (s : State) (g : Nat) : State :=
  match s.gang? g with
  | none => s
  | some G =>
    let s := G.members.foldl (fun s m =>
      match m.saved with
      | some v =>
        let s := v.streams.foldl (fun s e => if e.2.saved then s.dropStream m.ctx e.2 else s) s
        s.updDie ⟨v.die % 4, by omega⟩ (fun D => { D with poolUsed := setErase D.poolUsed v.slot })
      | none =>
        let H := s.hart m.ctx
        let s := (H.streams.toList.filter (fun t => t.cfg)).foldl (fun s t => s.dropStream m.ctx t) s
        let s := H.releasing.foldl (fun s t => s.dropStream m.ctx t) s
        let s := if H.cap.land then s.updBank (tileOf m.ctx) H.cap.bank (fun _ => ⟨.cache, false, false⟩) else s
        s.updHart m.ctx (fun H => { H with releasing := [] })) s
    let s := G.members.foldl (fun s m => s.passRefs g m.rank m.ctx) s
    let s := s.discard G
    let s := G.members.foldl (fun s m => if m.saved.isSome then s else s.freeContext m.ctx) s
    { s with
      records := s.records.filter (fun e => e.1 != G.launch.id)
      dies := s.dies.map (fun D => { D with queues := D.queues.map (fun q =>
        { q with entries := q.entries.filter (fun e => e != .resume g) }) }) }

/-! ### Saving a gang (R373, R400, R435, R437) -/

/-- The slots of a die's save pool that hold no image (R435). -/
def Die.freeSlots (D : Die) : List Nat :=
  (List.range (Nat.min D.poolSlots.toNat 224)).filter (fun k => !D.poolUsed.contains k)

/-- The first free slot of a die that takes an image of `b` banks (R435). -/
def State.slotFor (s : State) (d : Fin 4) (b : Nat) : Option Nat :=
  let D := s.die d
  if imageSize b ≤ D.poolSize.toNat then
    D.freeSlots.find? (fun k =>
      s.imageOk (D.poolBase.toNat + k * D.poolSize.toNat) (imageSize b) D.poolKey.toNat)
  else none

/-- The 64-byte pieces of a service buffer (R392, R393). -/
def bufOffsets : List Nat := (List.range (slotBytes / 64)).map (fun k => 64 * k)

/-- The service buffer of a held capsule written to its slot (R400), piece by piece at the level of `cap.land`. A
piece that cannot be read is left as the slot has it. -/
def State.heldToSlot (s : State) (h : HartId) : State :=
  let p := (s.hart h).cap
  match p.held with
  | none => s
  | some (c, _) =>
    let q := s.capOf c.gang c.origin
    bufOffsets.foldl (fun s off => match s.reach h p.sup .read (p.buf.toNat + off) with
      | .to l a => s.poolWrite q (q.slotAt c + off) (s.bytesUnder a l.key 64)
      | _ => s) s

/-- The service buffer of a held capsule restored from its slot (R400). DEDUCED (log 23): through the hart's
translation where that names a scratchpad bank of the tile on which it was saved, since its pages still name that place
(R439); but what lay in granted banks of a hart that has been moved has come back with those banks (R438). -/
def State.slotToHeld (s : State) (h : HartId) (v : Saved) (stays : Bool) : State :=
  let p := (s.hart h).cap
  match p.held with
  | none => s
  | some (c, _) =>
    let q := s.capOf c.gang c.origin
    bufOffsets.foldl (fun s off => match s.reach h p.sup .read (p.buf.toNat + off) with
      | .to l a =>
        if regionOf l.pa = .spad && spadTile l.pa == v.oldTile && s.roleAt l.pa == .spad
            && (stays || !v.banks.getLsbD (spadBank l.pa)) then
          s.putBytes a l.key ((List.range 64).map (fun k => s.poolAt q (q.slotAt c + off + k)))
        else s
      | _ => s) s

/-- The capsule side of a hart at a save (R400): the ring's capsules go to their slots and ahead of the parked
list, and the arrival ring's bank is freed. -/
def State.saveCaps (s : State) (h : HartId) : State :=
  let p := (s.hart h).cap
  let s := (p.ring.foldl State.writeSlot s).heldToSlot h
  let s := if p.land then s.freeFifo (tileOf h) p.bank else s
  s.updHart h (fun H => { H with cap := { H.cap with ring := [], parked := p.ring ++ p.parked, bank := 0 } })

/-- The streams of a hart at a save (R437): releases under way go as far as they can, and each configured
stream is saved; its save area, or zeros, by register. -/
def State.saveStreams (s : State) (h : HartId) : State × List (List Byte) :=
  let s := (List.range (s.hart h).releasing.length).reverse.foldl (fun s k => s.advanceRelease h k) s
  (List.range 16).foldl (fun (acc : State × List (List Byte)) n =>
    if ((acc.1.hart h).stream n).cfg then
      let (s, bs) := (acc.1.saveHome h n).saveStream h n
      (s, acc.2 ++ [bs])
    else (acc.1, acc.2 ++ [((acc.1.hart h).stream n).saveArea])) (s, [])

/-- The stream registers of a hart after `saveStreams`, by number, the contexts that were released or saved
before it from 16 up. `old` counts those. -/
def Hart.takeStreams (H : Hart) (cfg : List Nat) : List (Nat × Stream) :=
  let kept := H.releasing.drop (H.releasing.length - cfg.length)
  (List.range 16).map (fun n =>
    match kept.find? (fun t => t.num == n) with
    | some t => if cfg.contains n then (n, t) else (n, H.stream n)
    | none => (n, H.stream n))
  ++ (H.releasing.take (H.releasing.length - cfg.length)).map (fun t => (16 + t.num, t))

/-- One hart of a gang saved (R437): its slot, and the state after it. -/
def State.saveHart (s : State) (G : Gang) (m : Member) : State :=
  let h := m.ctx
  let d := dieOf (tileOf h)
  match s.slotFor d (popcount (s.hart h).banks) with
  | none => s
  | some slot =>
    let s := ((s.drainHart h).forget h false).unparkHart h
    let s := s.saveCaps h
    let cfg := (List.range 16).filter (fun n => ((s.hart h).stream n).cfg)
    let (s, areas) := s.saveStreams h
    let H := s.hart h
    let D := s.die d
    let s := s.writeImage h areas (s.rankIn h) (D.poolBase.toNat + slot * D.poolSize.toNat) D.poolKey.toNat
    let v : Saved := {
      die := d.val
      slot := slot
      cap := H.cap
      fabric := H.fabric
      fq := { FaultQ.reset with seq := H.fq.seq }
      streams := H.takeStreams cfg
      ports := (H.ports.toList.mapIdx (fun k p => (k, { p with items := p.items ++ p.flight, flight := [] }))).filter
        (fun e => e.2.isOpen)
      oldTile := (tileOf h).val
      banks := H.banks
      winSup := H.wins.toList.map (fun w => w.sup)
      moved := H.moved
      ctrRel := H.ctrRel
      tokRel := H.tokRel }
    (s.updDie d (fun D => { D with poolUsed := setInsert D.poolUsed slot })).updGang G.id
      (fun G => G.updMember m.rank (fun m => { m with saved := some v }))

/-- The contexts of a saved gang freed, once every hart of it is saved. -/
def State.vacate (s : State) (G : Gang) : State :=
  let s := G.members.foldl (fun s m => s.updHart m.ctx (fun H => { H with releasing := [] })) s
  let s := G.members.foldl (fun s m => s.closeAll m.ctx) s
  G.members.foldl (fun s m => s.freeContext m.ctx) s

/-- Enough free slots hold images of all the harts of a gang (R435). -/
def State.slotsFor (s : State) (G : Gang) : Bool :=
  (G.members.foldl (fun (acc : Option State) m => match acc with
    | none => none
    | some s =>
      let d := dieOf (tileOf m.ctx)
      (s.slotFor d (popcount (s.hart m.ctx).banks)).map (fun k =>
        s.updDie d (fun D => { D with poolUsed := setInsert D.poolUsed k }))) (some s)).isSome

/-- The resume entry of a gang at the head of its record's queue, behind the resume entries there (R374). -/
def State.postResume (s : State) (G : Gang) : State :=
  let d : Fin 4 := ⟨G.launch.die % 4, by omega⟩
  let isResume : QEntry → Bool := fun e => match e with
    | .resume _ => true
    | .record _ => false
  let Q := s.queue d G.launch.queue
  let Q' := { Q with
    entries := Q.entries.takeWhile isResume ++ [.resume G.id] ++ Q.entries.dropWhile isResume }
  s.updQueue d G.launch.queue (fun _ => if (Q.entries.head?).any isResume then Q' else s.freshHead Q')

/-- A gang pre-empted (R373, R374, R437): every hart of it is saved, and its resources are freed. -/
def State.saveGang (s : State) (G : Gang) : State :=
  let s := G.members.foldl (fun s m => s.saveHart G m) s
  let s := s.vacate G
  (s.updGang G.id (fun G => { G with running := false, yielded := false })).postResume G

/-- The gang can be stopped: none of its harts is halted. -/
def State.stoppable (s : State) (G : Gang) : Bool :=
  G.running && G.members.all (fun m => (s.hart m.ctx).run != .halted)

/-- The gang may be a victim for a candidate of a current priority on some dies (R373, R389). DESIGN CHOICE (log 22): the
least run of a victim is that of the die of its own queue, by that die's SCHCFG.PREEMPT and clock. -/
def State.victim (s : State) (dies : List (Fin 4)) (prio : Nat) (G : Gang) : Bool :=
  let d : Fin 4 := ⟨G.launch.die % 4, by omega⟩
  let ran := decide ((s.die d).preempt ≤ (s.die d).clock - G.since)
  s.stoppable G && G.members.any (fun m => dies.contains (dieOf (tileOf m.ctx)))
    && (if G.yielded then decide (G.launch.prio ≤ prio) else decide (G.launch.prio < prio) && ran)

/-- The better victim first (R373): the lowest PRIO, and among equals the most recently placed. -/
def victimBefore (a b : Gang) : Bool :=
  decide (a.launch.prio < b.launch.prio) || (a.launch.prio == b.launch.prio && decide (b.since ≤ a.since))

/-- Victims in order. -/
def insertVictim (G : Gang) : List Gang → List Gang
  | [] => [G]
  | K :: t => if victimBefore G K then G :: K :: t else K :: insertVictim G t

/-- Victims are saved one by one until the candidate can be placed; `none` if all together do not suffice
(R373). -/
def State.preempt (s : State) (needs : List Need) : List Gang → Option State
  | [] => none
  | G :: rest =>
    if s.slotsFor G then
      let s' := s.saveGang G
      if s'.canPlace needs then some s' else s'.preempt needs rest
    else s.preempt needs rest

/-! ### Resuming a gang (R374, R438, R439) -/

/-- The lowest `n` clusters of a grant. -/
def lowest (grant : BitVec 16) (n : Nat) : BitVec 16 := ((bitsOf grant).take n).foldl (fun m c => setBit m c true) 0

/-- One saved hart back on a context (R438, R439), but for its crossings. -/
def State.resumeHart (s : State) (G : Gang) (m : Member) (v : Saved) (p : Place) : State :=
  let h := hartAt p.tile p.ctx
  let base := s.imageBase v
  let key := s.imageKey v.die
  let own := lowest p.clusters (popcount (BitVec.ofNat 16 (s.img base key 0x20 8)))
  let s := s.updHart h (fun H =>
    let H := H.cleared
    let H := { H with
      csr := { H.csr with lpart := lpartOf p.clusters own }
      banks := p.banks
      gang := some (G.id, m.rank)
      wins := Vector.ofFn (fun k : Fin 4 => { Window.reset with sup := v.winSup.getD k.val false }) }
    let H := s.fromImage H base key
    let moved := decide (v.oldTile ≠ p.tile.val) || v.banks != p.banks
    let value := v.oldTile + 256 * p.tile.val + (if v.banks = p.banks then 0 else 65536)
    { H with
      run := if m.done then .idle else .running
      cap := { v.cap with bank := 0 }
      fabric := { v.fabric with active := v.fabric.active.map (fun a =>
        { a with clusters := (bitsOf own).take a.set.pages.length }) }
      fq := { H.fq with waiting := H.fq.waiting ++ v.fq.waiting, seq := v.fq.seq }
      streams := Vector.ofFn (fun n : Fin 16 =>
        match v.streams.find? (fun e => e.1 == n.val) with
        | some (_, t) => if t.saved then { Stream.reset with num := n.val } else t
        | none => { Stream.reset with num := n.val })
      releasing := H.releasing ++ (v.streams.filter (fun e => decide (16 ≤ e.1))).map (fun e => e.2)
      moved := if moved then BitVec.ofNat 64 value else v.moved
      ctrRel := v.ctrRel
      tokRel := v.tokRel
      csr := { H.csr with sstat := if moved then setBit H.csr.sstat 28 true else H.csr.sstat } })
  let s := ((bankList p.banks).mapIdx (fun k b => (k, b))).foldl (fun s e =>
    match s.img base key (0xEF0 + e.1) 1 with
    | 1 => (s.changeRole p.tile e.2 .spad).bankIn p.tile e.2 (base + 0x84000 + 66560 * e.1) key
    | 2 => s.changeRole p.tile e.2 .fifo
    | _ => s) s
  let s := (v.streams.filter (fun e => decide (16 ≤ e.1))).foldl (fun s e => s.relabel e.2 h) s
  let s := v.configured.foldl (fun s e =>
    match s.restoreStream h e.1 e.2.desc e.2.pos e.2.status (some e.2) with
    | some s' => s'
    | none => s.updHart h (fun H => { H with releasing := H.releasing ++ [e.2] })) s
  let s := if v.cap.land then
      match s.claimFifo p.tile with
      | some (s, b) => s.updHart h (fun H => { H with cap := { H.cap with bank := b } })
      | none => s
    else s
  let s := s.slotToHeld h v (v.oldTile == p.tile.val && v.banks == p.banks)
  let s := match (s.hart h).fabric.active with
    | some a => s.putRegion h (FabRun.settle ⟨s.hart h, a, 0, 0⟩)
    | none => s
  s.updDie ⟨v.die % 4, by omega⟩ (fun D => { D with poolUsed := setErase D.poolUsed v.slot })

/-- The crossings of a resumed gang opened again, with what was buffered in them (R438). -/
def State.reopen (s : State) (old new : Gang) : State :=
  old.members.foldl (fun s m =>
    match m.saved with
    | none => s
    | some v => v.ports.foldl (fun s e =>
      let h := new.ctx m.rank
      match old.members.find? (fun k => k.ctx == e.2.peer) with
      | none => s
      | some k =>
        let other := (k.saved.bind (fun u => assoc u.ports e.2.peerPort)).getD Port.reset
        let s := if ((s.hart h).port e.1).isOpen then s
          else (s.openCrossingBy State.claimOutside h e.1 e.2.entry (new.ctx k.rank) e.2.peerPort other.entry
            e.2.paired).getD s
        s.updHart h (fun H => { H with ports := H.ports.setIfInBounds e.1 { H.port e.1 with items := e.2.items } })) s) s

/-- A saved gang goes on whole (R374, R438). -/
def State.resumePlaced (s : State) (die : Fin 4) (q g : Nat) (G : Gang) (places : List Place) : State :=
  let back (K : Gang) : Gang := { K with
    running := true
    since := (s.die die).clock
    yielded := false
    members := (G.members.zip places).map (fun e =>
      { e.1 with ctx := hartAt e.2.tile e.2.ctx, saved := none }) }
  let s := (G.members.zip places).foldl (fun s e => match e.1.saved with
    | some v => s.resumeHart G e.1 v e.2
    | none => s) s
  ((s.updGang g back).reopen G (back G)).served die q (.resume g)

/-- RESUME_GANG (R369, R370, R374, R438): the chosen candidate is a saved gang, and it goes on whole. One that cannot
be placed holds the others back. -/
def execResumeGang (die : Fin 4) (places : List Place) (s : State) : Host.Outcome State Fault Refusal :=
  .next (match s.chosen die with
    | some (q, Q) =>
      match Q.entries with
      | .resume g :: _ =>
        match s.gang? g with
        | some G =>
          if s.placesOk G.needs places && s.admits die (G.needs.map (fun n => n.die)) Q.prio then
            s.resumePlaced die q g G places
          else s.noteChosen die
        | none => s
      | _ => s
    | none => s)

/-! ### Pre-emption (R373) -/

/-- A candidate placed on the contexts and resources that the scheduler gives it. -/
def State.placeEntry (s : State) (die : Fin 4) (q : Nat) (e : QEntry) (places : List Place) : State :=
  match e with
  | .record l => s.placeRecord die q l places
  | .resume g => match s.gang? g with
    | some G => s.resumePlaced die q g G places
    | none => s

/-- PREEMPTION (R373): victims are saved, and the candidate is then placed on the contexts and resources that
`State.spots` names (log 4). Nothing happens where those are not such as R370 allows. -/
def execPreemption (die : Fin 4) (s : State) : Host.Outcome State Fault Refusal :=
  .next (match s.chosen die with
    | some (q, Q) =>
      match Q.entries with
      | e :: _ =>
        let needs := s.needs e
        let dies := needs.map (fun n => n.die)
        let limit := (s.die die).preempt
        if limit = 0 ∨ Q.readyFor < limit ∨ s.canPlace needs = true ∨ s.admits die dies Q.prio = false then s.noteChosen die
        else
          let vs := (s.gangs.filter (s.victim dies Q.prio)).foldl (fun l G => insertVictim G l) []
          match s.preempt needs vs with
          | some s' => if s'.placesOk needs s.spots then s'.placeEntry die q e s.spots else s
          | none => s.noteChosen die
      | [] => s
    | none => s)

end Sys2Proof.Machine
end

