-- ==== Sys2Proof/Machine/Clock.lean ====
section
/-!
DEFINITION. The cycles of a tile's island: CYCLE and TIMER of its contexts, the ages of waiting and of the watchdog,
and with the first tile of a die the die's scheduler (R196, R218, R368, R384, R462).
-/

namespace Sys2Proof.Machine

/-- `n` island cycles of a hart's TIMER (R218). -/
def Hart.timerSteps (H : Hart) (n : Nat) : Hart :=
  let t := H.csr.timer.toNat
  if t = 0 || H.run == .halted then H
  else if t ≤ n then { H with csr := { H.csr with timer := 0, sstat := setBit H.csr.sstat 24 true } }
  else { H with csr := { H.csr with timer := BitVec.ofNat 64 (t - n) } }

/-- `n` island cycles of a context (R196, R218, R384, R462). -/
def Hart.cycles (H : Hart) (held : Bool) (n : Nat) : Hart :=
  let H := H.timerSteps n
  { H with
    csr := { H.csr with cycle := H.csr.cycle + BitVec.ofNat 64 n }
    waited := if H.run = .waiting then H.waited + n else H.waited
    watchdog := if H.run = .idle ∨ held = true then H.watchdog else H.watchdog + n }

/-- `n` cycles of a tile's island: its contexts count, and with the first tile of a die its scheduler, which comes to
a decision (R218, R368, R369, R462; log 5). -/
def State.tick (s : State) (t : Fin 224) (n : Nat) : State :=
  let held := (hartsOf t).map (fun h => s.underHold h)
  let s := ((hartsOf t).zip held).foldl (fun s e => s.updHart e.1 (fun H => H.cycles e.2 n)) s
  if t.val % 56 = 0 then (s.ageQueues (dieOf t) n).noteChosen (dieOf t) else s

/-- TIMER_EXPIRY (R218): the island cycle of a hart's tile that steps its TIMER from 1 to 0. -/
def execTimerExpiry (h : HartId) (s : State) : Host.Outcome State Fault Refusal :=
  .next (if (s.hart h).csr.timer = 1 ∧ (s.hart h).run ≠ .halted then s.tick (tileOf h) 1 else s)

end Sys2Proof.Machine
end

