-- ==== Sys2Proof/Machine/Control.lean ====
section
/-!
DEFINITION. Branches, the branch queue, jumps, calls, the return-address store and the hardware loops
(R208 to R214, R225 to R227).
-/

namespace Sys2Proof.Machine

/-! ### Branches -/

/-- A branch: to its target if the condition holds, otherwise on to the next word (R208). -/
def branch {n : Nat} (taken : Bool) (o : BitVec n) (s : State) : Host.Outcome State Fault Refusal :=
  .next (if taken then s.goTo (s.target o) else s.advance)

def execBeq (a b : Reg) (o : BitVec 11) (s : State) : Host.Outcome State Fault Refusal :=
  branch (s.getX a == s.getX b) o s
def execBne (a b : Reg) (o : BitVec 11) (s : State) : Host.Outcome State Fault Refusal :=
  branch (s.getX a != s.getX b) o s
def execBlt (a b : Reg) (o : BitVec 11) (s : State) : Host.Outcome State Fault Refusal :=
  branch ((s.getX a).slt (s.getX b)) o s
def execBge (a b : Reg) (o : BitVec 11) (s : State) : Host.Outcome State Fault Refusal :=
  branch (!(s.getX a).slt (s.getX b)) o s
def execBltu (a b : Reg) (o : BitVec 11) (s : State) : Host.Outcome State Fault Refusal :=
  branch ((s.getX a).ult (s.getX b)) o s
def execBgeu (a b : Reg) (o : BitVec 11) (s : State) : Host.Outcome State Fault Refusal :=
  branch (!(s.getX a).ult (s.getX b)) o s
def execBeqz (a : Reg) (o : BitVec 16) (s : State) : Host.Outcome State Fault Refusal :=
  branch (s.getX a == 0) o s
def execBnez (a : Reg) (o : BitVec 16) (s : State) : Host.Outcome State Fault Refusal :=
  branch (s.getX a != 0) o s
def execBltz (a : Reg) (o : BitVec 16) (s : State) : Host.Outcome State Fault Refusal :=
  branch ((s.getX a).slt 0) o s
def execBgez (a : Reg) (o : BitVec 16) (s : State) : Host.Outcome State Fault Refusal :=
  branch (!(s.getX a).slt 0) o s
def execBlez (a : Reg) (o : BitVec 16) (s : State) : Host.Outcome State Fault Refusal :=
  branch (!(0#64).slt (s.getX a)) o s
def execBgtz (a : Reg) (o : BitVec 16) (s : State) : Host.Outcome State Fault Refusal :=
  branch ((0#64).slt (s.getX a)) o s

/-- A branch on the oldest entry of the branch queue, taken if it equals `want` (R208, R209). Convoys run
whole in their step, so every reserved entry is written. -/
def branchPop (want : Bool) (o : BitVec 16) (s : State) : Host.Outcome State Fault Refusal :=
  match s.me.branchQ with
  | [] => .next (s.trap .branchUnderflow 0)
  | b :: q => branch (b == want) o (s.updMe (fun H => { H with branchQ := q }))

def execBqt (o : BitVec 16) (s : State) : Host.Outcome State Fault Refusal := branchPop true o s
def execBqf (o : BitVec 16) (s : State) : Host.Outcome State Fault Refusal := branchPop false o s

/-! ### Jumps, calls and the return-address store -/

/-- A call: with 32 entries the trap of R212, otherwise the return address is pushed and the hart jumps.
The entries stand oldest first. -/
def callTo (target : Word) (s : State) : Host.Outcome State Fault Refusal :=
  if 32 ≤ s.me.ras.length then .next (s.trap .rasOverflow (s.pc + 4))
  else .next ((s.updMe (fun H => { H with ras := H.ras ++ [H.pc + 4] })).goTo target)

/-- J (R210). -/
def execJ (o : BitVec 24) (s : State) : Host.Outcome State Fault Refusal := .next (s.goTo (s.target o))
/-- CALL (R210, R212). -/
def execCall (o : BitVec 24) (s : State) : Host.Outcome State Fault Refusal := callTo (s.target o) s
/-- JR (R210, R211). -/
def execJr (a : Reg) (i : BitVec 16) (s : State) : Host.Outcome State Fault Refusal :=
  if aligned4 (s.targetX a i) then .next (s.goTo (s.targetX a i))
  else .next (s.trap .instrMisaligned (s.targetX a i))
/-- CALLR (R210 to R212). -/
def execCallr (a : Reg) (i : BitVec 16) (s : State) : Host.Outcome State Fault Refusal :=
  if aligned4 (s.targetX a i) then callTo (s.targetX a i) s
  else .next (s.trap .instrMisaligned (s.targetX a i))
/-- RET (R210, R212). An entry that is not a multiple of 4 takes the trap of R211 before the pop (DEDUCED,
log 16). -/
def execRet (s : State) : Host.Outcome State Fault Refusal :=
  match s.me.ras.getLast? with
  | none => .next (s.trap .rasUnderflow 0)
  | some t =>
    if aligned4 t then .next ((s.updMe (fun H => { H with ras := H.ras.dropLast })).goTo t)
    else .next (s.trap .instrMisaligned t)

/-- RASP with a new slot (R214, R419). -/
def Hart.setRasp (H : Hart) (w : Word) : Hart := { H with csr := { H.csr with rasp := w } }

/-- `n` iterations of `ras.spill` (R214). -/
def spillLoop : Nat → Op Unit
  | 0 => pure ()
  | n + 1 => do
    let H ← getMe
    storeShadow H.csr.rasp (H.ras.headD 0)
    updMe (fun H => { H with ras := H.ras.tail }.setRasp (H.csr.rasp + 8))
    spillLoop n

/-- `n` iterations of `ras.fill` (R214). -/
def fillLoop : Nat → Op Unit
  | 0 => pure ()
  | n + 1 => do
    let H ← getMe
    let e ← loadShadow (H.csr.rasp - 8)
    updMe (fun H => { H with ras := e :: H.ras }.setRasp (H.csr.rasp - 8))
    fillLoop n

/-- The spill or fill form around its loop (R214): a trap keeps the iterations done and takes them from
X[xa]; a wait leaves the store and RASP as they were, and the instruction runs again. -/
def rasMove (k : Hart → Nat) (loop : Nat → Op Unit) (a d : Reg) (s : State) :
    Host.Outcome State Fault Refusal :=
  let H := s.me
  let n := Nat.min (H.getX a).toNat (k H)
  match loop n s with
  | .ok _ s' => .next ((s'.setX d (BitVec.ofNat 64 n)).advance)
  | .error (.trap c v) s' =>
    let j := if H.ras.length ≤ s'.me.ras.length then s'.me.ras.length - H.ras.length
      else H.ras.length - s'.me.ras.length
    .next ((s'.setX a (H.getX a - BitVec.ofNat 64 j)).trap c v)
  | .error (.wait w) s' =>
    .next ((s'.updMe (fun G => { G with ras := H.ras }.setRasp H.csr.rasp)).waitIn w)

/-- RAS_SPILL (R210, R214). -/
def execRasSpill (a d : Reg) (s : State) : Host.Outcome State Fault Refusal :=
  if s.me.sup then rasMove (fun H => H.ras.length) spillLoop a d s
  else .next (s.illegal (.rasSpill a d))
/-- RAS_FILL (R210, R214). -/
def execRasFill (a d : Reg) (s : State) : Host.Outcome State Fault Refusal :=
  if s.me.sup then rasMove (fun H => 32 - H.ras.length) fillLoop a d s
  else .next (s.illegal (.rasFill a d))
/-- RAS_DROP (R213). -/
def execRasDrop (a : Reg) (s : State) : Host.Outcome State Fault Refusal :=
  let n := (s.getX a).toNat
  if s.me.ras.length < n then .next (s.trap .rasUnderflow (s.getX a))
  else .next ((s.updMe (fun H => { H with ras := H.ras.take (H.ras.length - n) })).advance)

/-! ### Hardware loops -/

/-- A loop level of a hart. -/
def Hart.loop (H : Hart) (l : BitVec 2) : Loop := H.loops[l.toNat]'l.isLt

/-- A hart with a loop level replaced. -/
def Hart.setLoop (H : Hart) (l : BitVec 2) (x : Loop) : Hart :=
  { H with loops := H.loops.set l.toNat x l.isLt }

/-- `hend` at a level, over the levels above it (R226): the hart and the next PC if it jumps. -/
def Hart.hend (H : Hart) (chain : Bool) : Nat → BitVec 2 → Hart × Option Word
  | fuel, l =>
    let x := H.loop l
    if 1 < x.count.toNat then (H.setLoop l { x with count := x.count - 1 }, some x.start)
    else if chain then
      match fuel with
      | 0 => (H.setLoop l { x with count := x.init }, none)
      | n + 1 =>
        if l = 3 then (H.setLoop l { x with count := x.init }, none)
        else (H.setLoop l { x with count := x.init }).hend chain n (l + 1)
    else (H.setLoop l { x with count := 0 }, none)

/-- The `hend` forms (R226, R227). -/
def hendAt (chain : Bool) (l : BitVec 2) (s : State) : Host.Outcome State Fault Refusal :=
  match s.me.hend chain 3 l with
  | (H, some t) => .next ((s.updMe (fun _ => H)).goTo t)
  | (H, none) => .next (s.updMe (fun _ => H)).advance

/-- HLOOP (R226). -/
def execHloop (l : BitVec 2) (a : Reg) (s : State) : Host.Outcome State Fault Refusal :=
  .next (s.updMe (fun H => H.setLoop l ⟨H.pc + 4, H.getX a, H.getX a⟩)).advance
/-- HEND (R226). -/
def execHend (l : BitVec 2) (s : State) : Host.Outcome State Fault Refusal := hendAt false l s
/-- HEND_C (R226). -/
def execHendC (l : BitVec 2) (s : State) : Host.Outcome State Fault Refusal := hendAt true l s
/-- HGET (R226). -/
def execHget (d : Reg) (l : BitVec 2) (f : BitVec 3) (s : State) : Host.Outcome State Fault Refusal :=
  let x := s.me.loop l
  .next ((s.setX d (match f.toNat with | 0 => x.start | 1 => x.init | _ => x.count)).advance)
/-- HSET (R211, R226). -/
def execHset (l : BitVec 2) (a : Reg) (f : BitVec 3) (s : State) : Host.Outcome State Fault Refusal :=
  let w := s.getX a
  if f = 0 && !aligned4 w then .next (s.trap .instrMisaligned w)
  else .next (s.updMe (fun H =>
    let x := H.loop l
    H.setLoop l (match f.toNat with
      | 0 => { x with start := w }
      | 1 => { x with init := w }
      | _ => { x with count := w }))).advance

end Sys2Proof.Machine
end

