-- ==== Sys2Proof/Machine/VConvert.lean ====
section
/-!
DEFINITION. Conversions (R252 to R255), with packed elements (R83) and microscaling (R81, R92).
-/

namespace Sys2Proof.Machine

/-- The rounding of a VCVT form at element `i` (R84, R86). -/
def Hart.cvtRound (H : Hart) (w : VFields) (i : Nat) : Rounding :=
  if w.rm = 5 then .stoch (stochastic (H.getX w.vc) i) else .mode (H.rmode w.rm)

/-- Packed element `j` of `b` bits of a vector register (R83). -/
def Hart.packed (H : Hart) (r b j : Nat) : Nat :=
  let k := b * j / 8
  (H.elem r 0 k + 256 * H.elem r 0 (k + 1)) / 2 ^ (b * j % 8) % 2 ^ b

/-- The elements that a form on packed elements of `b` bits finds present, of VL (R83). -/
def packedLen (b vl : Nat) : Nat := if b = 6 ∨ b = 2 then vl / 4 * 4 else if b = 4 then vl / 2 * 2 else vl

/-- VCVT.SAT (R252). -/
def cvtSat (w : VFields) : Bool := w.selNat 9 1 == 1

/-- `vcvt` between formats of whole elements (R253). -/
def cvtForm (w : VFields) (lo hi : Nat) : GOp Unit :=
  mapElems w w.width.toNat (fun H i =>
    convertElem w.fmtB (widthBits w.widthB) w.fmt.toNat (widthBits w.width.toNat) (H.cvtRound w i) (cvtSat w) H.ftz
      (H.elem w.va.toNat w.widthB i)) lo hi

/-- `vcvt` from i8 to INT4 (R83, R253). -/
def cvtToInt4 (c : Ctx) (w : VFields) (lo hi : Nat) : GOp Unit :=
  let hi := Nat.min hi (packedLen 4 c.vl)
  if hi ≤ lo then pure ()
  else gMod (fun H0 =>
    let H := (H0.active w.mask (elems lo hi)).foldl (fun (H : Hart) i =>
      let v := signedNat 8 (H0.elem w.va.toNat 0 i)
      let (x, fl) := intToInt 4 true (cvtSat w) v
      let old := H.elem w.vd.toNat 0 (i / 2)
      let new := if i % 2 = 0 then old / 16 * 16 + x else old % 16 + 16 * x
      (H.putElem w.vd.toNat 0 (i / 2) new).raise fl) H0
    H.cover w.vd.toNat 0 ((hi - 1) / 2))

/-- `vcvt` from INT4 to i8 (R83, R253). -/
def cvtFromInt4 (c : Ctx) (w : VFields) (lo hi : Nat) : GOp Unit :=
  let hi := Nat.min hi (packedLen 4 c.vl)
  if hi ≤ lo then pure ()
  else mapElems w 0 (fun H i => (wrapInt 8 (signedNat 4 (H.packed w.va.toNat 4 i)), 0)) lo hi

/-- The bytes of codes of `b` bits packed from the first up (R83). -/
def packCodes (b : Nat) (codes : List Nat) : Nat := codes.foldr (fun x acc => x + 2 ^ b * acc) 0

/-- One block of `vcvt.mx` (R92, R254), of which the first `present` elements of VL are present: the excess
elements of an incomplete packing unit count as +0 and keep their bits (R83). -/
def quantBlock (w : VFields) (vl present : Nat) (H0 : Hart) (H : Hart) (b : Nat) : Hart :=
  let F := fmtOfCode w.fmtB
  let c := w.fmt.toNat
  let vs := (List.range 32).map (fun j =>
    if 32 * b + j < present then F.decode H0.ftz (H0.elem w.va.toNat w.widthB (32 * b + j)) else .num false 0 0)
  let (x, bad) := mxScaleOf c vs
  let qs := vs.mapIdx (fun j v => if bad then (0, 0) else mxQuantise c x (H0.cvtRound w (32 * b + j)) v)
  let n := 4 * mxBits c
  let bytes := packCodes (mxBits c) (qs.mapIdx (fun j q =>
    if present ≤ 32 * b + j ∧ 32 * b + j < vl then H0.packed w.vd.toNat (mxBits c) (32 * b + j) else q.1))
  let H := (List.range n).foldl (fun (H : Hart) k => H.putElem w.vd.toNat 0 (b * n + k) (bytes / 256 ^ k % 256)) H
  let H := H.putElem w.vb.toNat 0 b x
  let H := H.raise (flIf bad flNV ||| qs.foldl (fun f q => f ||| q.2) 0)
  (H.cover w.vd.toNat 0 (b * n + n - 1)).cover w.vb.toNat 0 b

/-- `vcvt.mx` (R254): the blocks of the group that hold a present element (R83; log 30). DESIGN CHOICE (log 30): where another
slot makes the group width e64 and a group of 16 lanes is half a block, each of the two groups quantises the whole block. -/
def quantForm (c : Ctx) (w : VFields) (lo hi : Nat) : GOp Unit :=
  let present := packedLen (mxBits w.fmt.toNat) c.vl
  gMod (fun H0 =>
    (elems (lo / 32) ((Nat.min hi present + 31) / 32)).foldl (quantBlock w c.vl present H0) H0)

/-- `vcvt.demx` (R255). -/
def dequantForm (c : Ctx) (w : VFields) (lo hi : Nat) : GOp Unit :=
  let hi := Nat.min hi (packedLen (mxBits w.fmtB) c.vl)
  if hi ≤ lo then pure ()
  else mapElems w w.width.toNat (fun H i =>
    let e := H.packed w.va.toNat (mxBits w.fmtB) i
    let (x, fl) := (fmtOfCode w.fmt.toNat).round (H.cvtRound w i) false H.ftz
      (mxScaled w.fmtB (H.elem w.vb.toNat 0 (i / 32)) e)
    (x, fl ||| (mxValue w.fmtB e).sig)) lo hi

/-- The VCVT form at function 0 by its formats (R252). -/
def cvtAny (c : Ctx) (w : VFields) (lo hi : Nat) : GOp Unit :=
  if w.fmt = 0x10 then cvtToInt4 c w lo hi
  else if w.fmtB = 0x10 then cvtFromInt4 c w lo hi
  else cvtForm w lo hi

end Sys2Proof.Machine
end

