-- ==== Sys2Proof/Machine/Vector.lean ====
section
/-!
DEFINITION. Running a convoy of vector mode (R46 to R51, R235 to R241, R267, R269, R276, R278): what each
form does in a group, what it does as its convoy issues, and the groups one after another.
-/

namespace Sys2Proof.Machine

/-! ### What each form does -/

/-- A form that is not whole-vector, in group `g` over the elements from `lo` up to but not with `hi`. -/
def groupOp (c : Ctx) (t : Slot) (g lo hi : Nat) : GOp Unit :=
  let w := t.w
  match t.op with
  | .vadd => intForm vAdd w lo hi
  | .vsub => intForm vSub w lo hi
  | .vrsub => intForm vRsub w lo hi
  | .vmin => intForm vMin w lo hi
  | .vmax => intForm vMax w lo hi
  | .vmul => intForm vMul w lo hi
  | .vmulh => intForm vMulh w lo hi
  | .vmacc => maccForm w lo hi
  | .vsadd => intForm vSadd w lo hi
  | .vssub => intForm vSsub w lo hi
  | .vabsd => intForm vAbsd w lo hi
  | .vdiv => intForm vDiv w lo hi
  | .vrem => intForm vRem w lo hi
  | .vand => intForm vAnd w lo hi
  | .vor => intForm vOr w lo hi
  | .vxor => intForm vXor w lo hi
  | .vandn => intForm vAndn w lo hi
  | .vsll => intForm vSll w lo hi
  | .vsrl => intForm vSrl w lo hi
  | .vsra => intForm vSra w lo hi
  | .vmv => intForm vMv w lo hi
  | .vnot => intForm vNot w lo hi
  | .vmseq => cmpForm true false (fun o => o == .eq) w lo hi
  | .vmsne => cmpForm true true (fun o => o != .eq) w lo hi
  | .vmslt => cmpForm false false (fun o => o == .lt) w lo hi
  | .vmsle => cmpForm false false (fun o => o != .gt) w lo hi
  | .vmsgt => cmpForm false false (fun o => o == .gt) w lo hi
  | .vmsge => cmpForm false false (fun o => o != .lt) w lo hi
  | .vmand => maskForm (fun a b => a && b) w lo hi
  | .vmor => maskForm (fun a b => a || b) w lo hi
  | .vmxor => maskForm (fun a b => a != b) w lo hi
  | .vmandn => maskForm (fun a b => a && !b) w lo hi
  | .vmnot => maskForm (fun a _ => !a) w lo hi
  | .vmset => maskForm (fun _ _ => true) w lo hi
  | .vmclr => maskForm (fun _ _ => false) w lo hi
  | .vmtov => mtovForm w lo hi
  | .vvtom => vtomForm w lo hi
  | .vfadd => fpForm FVal.add w lo hi
  | .vfsub => fpForm (fun rdn a b => a.add rdn b.neg) w lo hi
  | .vfmul => fpForm (fun _ a b => a.mul b) w lo hi
  | .vfdiv => fpForm (fun _ a b => a.div b) w lo hi
  | .vfsqrt => fpForm (fun _ a _ => a.sqrt) w lo hi
  | .vfmin => fpExtreme false w lo hi
  | .vfmax => fpExtreme true w lo hi
  | .vfsgnj => fpInject (fun _ y => y) w lo hi
  | .vfsgnjn => fpInject (fun _ y => !y) w lo hi
  | .vfsgnjx => fpInject (fun x y => x != y) w lo hi
  | .vfclass => fpClassForm w lo hi
  | .vfmadd => fmaForm false false w lo hi
  | .vfmsub => fmaForm false true w lo hi
  | .vfnmadd => fmaForm true true w lo hi
  | .vfnmsub => fmaForm true false w lo hi
  | .vcvt => cvtAny c w lo hi
  | .vcvtMx => quantForm c w lo hi
  | .vcvtDemx => dequantForm c w lo hi
  | .vsel => selForm w lo hi
  | .vid => vidForm w lo hi
  | .vins => insForm w lo hi
  | .vxsend => sendForm c w g
  | .vxrecv => recvForm w g lo hi
  | .vld | .vldff => loadForm Hart.unitAddr w lo hi
  | .vlds => loadForm Hart.strideAddr w lo hi
  | .vst => storeForm Hart.unitAddr c w lo hi
  | .vsts => storeForm Hart.strideAddr c w lo hi
  | .vgather => loadForm Hart.indexAddr w lo hi true
  | .vscatter => storeForm Hart.indexAddr c w lo hi true
  | .vldr => imageForm true c w g
  | .vstr => imageForm false c w g
  | .vldStrm => streamLoad w lo hi
  | .vstStrm => streamStore w lo hi
  | .vacc => accForm c w lo hi
  | .vamoswap | .vamoadd | .vamoand | .vamoor | .vamoxor | .vamomin | .vamomax => vamoForm t.op c w lo hi
  | _ => pure ()

/-- A whole-vector form, after the other slots of the last group (R47). -/
def wholeOp (c : Ctx) (t : Slot) : GOp Unit :=
  let w := t.w
  match t.op with
  | .vslideup => permForm (slideUp w) c w
  | .vslidedown => permForm (slideDown c w) c w
  | .vperm => permForm (permute c w) c w
  | .vbcast => permForm (broadcast c w) c w
  | .vcompress => compressForm c w
  | .vexpand => expandForm c w
  | .vredsum => redForm (redSum w) (redTree w) c w
  | .vredmin => redForm (redExtreme false w) false c w
  | .vredmax => redForm (redExtreme true w) false c w
  | .vredand => redForm (redLogic (fun a b => a &&& b)) false c w
  | .vredor => redForm (redLogic (fun a b => a ||| b)) false c w
  | .vredxor => redForm (redLogic (fun a b => a ^^^ b)) false c w
  | .vscansum => scanForm (redSum w) (redTree w) c w
  | .vscanmin => scanForm (redExtreme false w) false c w
  | .vscanmax => scanForm (redExtreme true w) false c w
  | .vpop => popForm c w
  | .vfirst => firstForm c w
  | .vbqAny => bqForm true c w
  | .vbqNone => bqForm false c w
  | .vext => extForm c w
  | .vldm => maskImage true c w
  | .vstm => maskImage false c w
  | .vsetlf => setlfForm c w
  | .vxint => intersectForm c w
  | .vxuni => uniteForm false c w
  | .vxmrg => uniteForm true c w
  | .vwait => waitForm c w
  | _ => pure ()

/-! ### Groups -/

/-- The end of a group: it is done, or a slot of it stops. -/
inductive Ran where
  | done (G : Grp) (s : State)
  | stopped (slot : Nat) (e : Stop) (s : State)

/-- Slots run one after another in a group. -/
def runSlots (f : Slot → GOp Unit) (G : Grp) (s : State) : List Slot → Ran
  | [] => .done G s
  | t :: rest =>
    match f t G s with
    | .ok (_, G') s' => runSlots f G' s' rest
    | .error e s' => .stopped t.n e s'

/-- An empty group of the hart whose turn it is. -/
def State.openGroup (s : State) : Grp := ⟨s.me, [], [], [], [], none, []⟩

/-- The form is a vector atomic. -/
def isAtomic (o : VOp) : Bool :=
  match o with
  | .vamoswap | .vamoadd | .vamoand | .vamoor | .vamoxor | .vamomin | .vamomax => true
  | _ => false

/-- The slot is a release (R264). -/
def Slot.releases (t : Slot) : Bool :=
  (isAtomic t.op || t.op == .vst || t.op == .vsts || t.op == .vscatter || t.op == .vstr) && t.w.selNat 16 1 == 1

/-- A group with a vector atomic and a release: what the release orders before itself is performed before the atomic reads, so
that it cannot come between that read and its write (R281). -/
def State.releaseBeside (s : State) (sl : List Slot) : State :=
  if sl.any (fun t => isAtomic t.op) && sl.any Slot.releases then s.release s.cur false s.me.vscope else s

/-- The slots of element group `g` (R46, R47): the whole-vector ones in the last group, after the others. -/
def runGroup (c : Ctx) (sl : List Slot) (vs g : Nat) (G : Grp) (s : State) : Ran :=
  let lo := Nat.max (g * c.size) vs
  let hi := Nat.min ((g + 1) * c.size) c.vl
  let s := s.releaseBeside sl
  match runSlots (fun t => groupOp { c with slot := t.n } t g lo hi) G s (sl.filter (fun t => !t.op.whole)) with
  | .stopped k e s => .stopped k e s
  | .done G s =>
    if (c.vl - 1) / c.size = g then
      runSlots (fun t => wholeOp { c with slot := t.n } t) G s (sl.filter (fun t => t.op.whole))
    else .done G s

/-- A convoy stops at element `elem` (R48, R50): a trap names its slot, and what younger instructions have loaded is given
up (R49); a wait leaves the groups before it committed and the convoy to be issued again. -/
def State.stopConvoy (s : State) (slot elem : Nat) (e : Stop) : State :=
  match e with
  | .trap cause v => ((s.forget s.cur false).updMe (fun H => H.setVstart (vstartOf true slot elem))).trap cause v
  | .wait (.peer va _ trim) =>
    (s.updMe (fun H => H.setVstart (vstartOf false 0 elem))).waitIn (.peer va (some (slot, elem)) trim)
  | .wait w => (s.updMe (fun H => H.setVstart (vstartOf false 0 elem))).waitIn w

/-- The convoy retires (R48, R239, R240, R270): VSTART is 0, replies are written, bits pushed, the next VL
set, and the PC passes the convoy (R27). -/
def State.retireConvoy (s : State) (n : Nat) (G : Grp) : State :=
  let s := s.updMe (fun H =>
    let H := (H.writeReplies G.replies).setVstart 0
    let H := { H with branchQ := H.branchQ ++ G.pushes, cut := none }
    match G.newVl with
    | some v => H.setVl v
    | none => H)
  s.goTo (s.pc + BitVec.ofNat 64 (4 + 8 * n))

/-- The groups from `g` on, over at most `k` groups (R46, R48, R50). -/
def runGroups (c : Ctx) (sl : List Slot) (vs : Nat) (s : State) (g : Nat) : Nat → State
  | 0 => s
  | k + 1 =>
    if s.me.cut = some 0 then
      s.updMe (fun H => { H.setVstart (vstartOf false 0 (Nat.max (g * c.size) vs)) with cut := none })
    else match runGroup c sl vs g s.openGroup s with
      | .stopped slot e s' => s'.stopConvoy slot (g * c.size) e
      | .done G s' =>
        let s' := (s'.commitGroup G).updMe (fun H =>
          { H with cut := H.cut.map (fun n => n - 1), watchdog := 0, ladder := 0 })
        if (c.vl - 1) / c.size = g then s'.retireConvoy sl.length G
        else runGroups c sl vs s' (g + 1) k

/-! ### Issue -/

/-- The mask of a `vldff` is written by an earlier slot of its convoy. -/
def maskIsMade (sl : List Slot) (t : Slot) : Bool :=
  sl.any (fun u => decide (u.n < t.n) && (u.op.uses u.w).mw.contains t.w.mask.toNat && t.w.mask != 0)

/-- The least element that trims a `vldff`, or that the host or a peer must answer for, looked for group by group after the
slots before it (R267): VL is fixed before any group commits, so that where one of those slots waits, the convoy does. -/
def trimSearch (c : Ctx) (before : List Slot) (t : Slot) (G : Grp) (s : State) (g : Nat) : Nat → Trim × State
  | 0 => (.no, s)
  | k + 1 =>
    let lo := g * c.size
    let hi := Nat.min ((g + 1) * c.size) c.vl
    if hi ≤ lo then (.no, s)
    else match runSlots (fun u => groupOp { c with slot := u.n } u g lo hi) G s before with
      | .stopped _ (.wait w) s' => (.wait w, s')
      | .stopped _ (.trap _ _) s' => (.no, s')
      | .done G' s' =>
        match trimAt s' G'.h t.w lo hi with
        | .no => trimSearch c before t G' s' (g + 1) k
        | r => (r, s')

/-- What a slot checks and fixes as its convoy issues: the VL that the convoy runs with (R176, R267, R269,
R279, R280). -/
def issueSlot (c : Ctx) (sl : List Slot) (pc : Word) (vs : Nat) (t : Slot) : GOp Nat := do
  match t.op with
  | .vldStrm =>
    streamCheck false t.w
    touchStream pc t.n t.w.vc.toNat
    if vs = 0 then do
      let vl ← streamTrim t.w c.vl
      gMod (fun H => H.setVl vl)
      return vl
    else return c.vl
  | .vstStrm =>
    streamCheck true t.w
    touchStream pc t.n t.w.vc.toNat
    return c.vl
  | .vldff =>
    if vs = 0 then do
      let s ← gState
      let before := if maskIsMade sl t then sl.filter (fun u => decide (u.n < t.n) && !u.op.whole) else []
      match trimSearch c before t s.openGroup s 0 4 with
      | (.yes f, _) =>
        if f = 0 then return c.vl
        else do
          gMod (fun H => H.setVl f)
          return f
      | (.ask p, _) => do
        let _ ← gLift (askHost p)
        return c.vl
      | (.wait w, s') => do
        gLift (set s')
        gWait w
      | (.no, _) => return c.vl
    else return c.vl
  | .vacc =>
    windowCheck t.w
    return c.vl
  | .accmerge =>
    if vs = 0 then windowCheck t.w
    return c.vl
  | _ => return c.vl

/-- The slots issue in order (R237, R269): the VL, or the slot that stops. -/
def issueSlots (c : Ctx) (sl : List Slot) (pc : Word) (vs : Nat) (G : Grp) (s : State) :
    List Slot → Ran × Nat
  | [] => (.done G s, c.vl)
  | t :: rest =>
    match issueSlot c sl pc vs t G s with
    | .ok (vl, G') s' => issueSlots { c with vl := vl } sl pc vs G' s' rest
    | .error e s' => (.stopped t.n e s', c.vl)

/-- The bits that a convoy which retires with no effect pushes (R48, R249). -/
def emptyPushes (sl : List Slot) : List Bool :=
  sl.filterMap (fun t => match t.op with
    | .vbqAny => some false
    | .vbqNone => some true
    | _ => none)

/-- The slots of `accmerge` one after another (R280); an event that arrives stops it between slots. -/
def mergeSlots (c : Ctx) (w : VFields) (x : Window) (G : Grp) (s : State) (j : Nat) : Nat → Ran
  | 0 => .done G s
  | n + 1 =>
    match mergeSlot c w x j G s with
    | .error e s' => .stopped 0 e s'
    | .ok (_, G') s' => mergeSlots c w x G' s' (j + 1) n

/-- `accwin` and `accmerge` (R278 to R280): they run once, and are not divided into groups. A trap of
`accmerge` leaves VSTART 0. -/
def runOnce (c : Ctx) (t : Slot) (G : Grp) (s : State) : State :=
  match t.op with
  | .accmerge =>
    let x := G.h.window t.w
    let size := elemBytes t.w
    match mergePages x.sup x.base.toNat (x.base.toNat + x.count * size) (x.count * size / 4096 + 2) G s with
    | .error (.trap cause v) s' => s'.trap cause v
    | .error (.wait w) s' => s'.waitIn w
    | .ok (_, G) s' =>
      let s' := if t.w.selNat 16 1 = 1 then s'.release s'.cur false G.h.vscope else s'
      let n := match s'.me.cut with
        | some k => Nat.min k x.count
        | none => x.count
      match mergeSlots c t.w x G s' 0 n with
      | .stopped _ (.trap cause v) s' => s'.trap cause v
      | .stopped _ (.wait w) s' => s'.waitIn w
      | .done G s' =>
        if n < x.count then s'.updMe (fun H => { H with cut := none })
        else (s'.commitGroup G).retireConvoy 1 G
  | .accwinSum | .accwinMin | .accwinMax =>
    let op := if t.op = .accwinSum then WinOp.sum else if t.op = .accwinMin then .min else .max
    match winForm op c t.w G s with
    | .ok (_, G) s' => (s'.commitGroup G).retireConvoy 1 G
    | .error e s' => s'.stopConvoy 0 0 e
  | _ => s

/-- A convoy of vector mode that has passed its checks (R46 to R50, R237, R240). DESIGN CHOICE (log 30): a trap
that a slot takes as it issues, before any group runs (`vld.strm`, `vst.strm`, `vacc`, `accmerge`), and the trap
of `accwin`, write VSTART as R48 states for a fault in the group at VSTART.ELEM: SLOTV 1, SLOT the slot. -/
def State.runVector (s : State) (sl : List Slot) : State :=
  let H := s.me
  let vs := (fld H.csr.vstart 0 16).toNat
  let c : Ctx := ⟨0, H.lanes, groupSize H sl, groupWidth H sl, H.vl⟩
  if 4 * c.size < c.vl then s.trap .vectorLength (BitVec.ofNat 64 c.vl)
  else if 16 < H.branchQ.length + (sl.filter (fun t => t.op.pushes)).length then s.waitIn .other
  else
    let G := s.openGroup
    let (ran, vl) := if vs < c.vl then issueSlots c sl H.pc vs G s sl else (.done G s, c.vl)
    match ran with
    | .stopped slot e s' => s'.stopConvoy slot vs e
    | .done G s =>
      let s := s.commitGroup G
      if vl ≤ vs then s.retireConvoy sl.length { s.openGroup with pushes := emptyPushes sl }
      else match sl with
        | [t] =>
          if t.op.alone && !t.op.whole && t.op != .vldr && t.op != .vstr then
            (if vs = 0 then runOnce { c with vl := vl } t s.openGroup s
             else s.retireConvoy 1 s.openGroup)
          else runGroups { c with vl := vl } sl vs s (vs / c.size) 4
        | _ => runGroups { c with vl := vl } sl vs s (vs / c.size) 4

end Sys2Proof.Machine
end

