-- ==== Sys2Proof/Machine/ConvoyExec.lean ====
section
/-!
DEFINITION. Executing convoys (R26, R34, R41 to R50, R287, R327): a convoy as fetched, and each vector form
as the only slot of a convoy.
-/

namespace Sys2Proof.Machine

/-- The forms of the one-group convoys: matrix mode (R287) and the fabric (R327). -/
def oneForm (c : Ctx) (t : Slot) : GOp Unit :=
  let w := t.w
  match t.op with
  | .mma => mmaForm false w
  | .mmaInt => mmaForm true w
  | .mtern => mmaForm true w
  | .msound => msoundForm c w
  | .mcheck => mcheckForm c w
  | .mzero => mzeroForm
  | .mst => mstForm c w
  | .mxchg => mxchgForm w
  | .fload => floadForm w
  | .fgo => fgoForm
  | .fgoResume => fgoResumeForm
  | .fdrain => fdrainForm
  | .fstat => fstatForm w
  | .frel => frelForm
  | _ => pure ()

/-- A convoy of one group (R287, R327). -/
def State.runOneGroup (s : State) (sl : List Slot) : State :=
  let c : Ctx := ⟨0, s.me.lanes, 1, 3, 1⟩
  match runSlots (fun t => oneForm { c with slot := t.n } t) s.openGroup s sl with
  | .stopped slot (.trap cause v) s' => s'.stopConvoy slot 0 (.trap cause v)
  | .stopped slot (.wait (.peer va _ _)) s' => s'.waitIn (.peer va (some (slot, 0)) none)
  | .stopped _ (.wait w) s' => s'.waitIn w
  | .done G s' => (s'.commitGroup G).retireConvoy sl.length G

/-- The slots of a convoy that has passed its checks run (R42 to R50). -/
def State.runChecked (s : State) (sl : List Slot) : State := if oneGroup sl then s.runOneGroup sl else s.runVector sl

/-! ### The vector queue (R197, R198, R238 to R240; log 6) -/

/-- A slot that accesses no memory, no stream and no crossing, takes no trap, and leaves VL alone: its convoy is past its
fault point as soon as it has been checked (R49). -/
def Slot.inLanes (t : Slot) : Bool :=
  decide (1 ≤ t.op.major.toNat ∧ t.op.major.toNat ≤ 9) || t.op == .vext || t.op == .vins

/-- The oldest convoy of a hart's vector queue runs and retires, with the scalar operands that it read as it was placed
(R238); its replies are written (R239). -/
def State.vecTurn (s : State) (h : HartId) : State :=
  let H := s.hart h
  match H.vq with
  | [] => s
  | q :: rest =>
    let s1 : State := { s.updHart h (fun H => { H with x := q.x, f := q.f, pc := q.pc, vq := rest, cut := none }) with cur := h }
    let s2 := match convoyCheck s1.me q.header q.words with
      | .ok sl => s1.runChecked sl
      | .error _ => s1
    let K := s2.hart h
    let merge (rs : List Nat) (a b : Vector Word 32) : Vector Word 32 :=
      Vector.ofFn (fun i => if rs.contains i.val then b[i] else a[i])
    { s2.updHart h (fun K => { K with pc := H.pc, run := H.run, wait := H.wait, cut := H.cut
                                      x := merge q.xs H.x K.x, f := merge q.fs H.f K.f }) with cur := s.cur }

/-- At most `n` convoys of a hart's vector queue run. -/
def State.vecTurns (s : State) (h : HartId) : Nat → State
  | 0 => s
  | n + 1 => (s.vecTurn h).vecTurns h n

/-- Every convoy of a hart's vector queue runs. -/
def State.drainVector (s : State) (h : HartId) : State := s.vecTurns h (s.hart h).vq.length

/-- Registers that the replies of queued convoys will write. -/
def Hart.pendingX (H : Hart) : List Nat := H.vq.flatMap (fun q => q.xs)
def Hart.pendingF (H : Hart) : List Nat := H.vq.flatMap (fun q => q.fs)

/-- A convoy may stand in the vector queue while the hart goes on: the plan lets it, it is past its fault point, and it
names no register that a queued convoy's reply will write (R239). -/
def Hart.mayQueue (H : Hart) (sl : List Slot) : Bool :=
  H.lag != 0 && H.cut.isNone && (fld H.csr.vstart 0 16 == 0) && decide (H.vl ≤ 4 * groupSize H sl)
    && sl.all (fun t => t.inLanes
      && !(t.operands.x ++ t.writes.x).any (fun r => H.pendingX.contains r)
      && !(t.operands.f ++ t.writes.f).any (fun r => H.pendingF.contains r))

/-- A convoy placed in the vector queue (R197, R239, R240): the hart waits at its header while the queue is full or too
few reply slots or branch-queue entries are free. -/
def State.placeConvoy (s : State) (header : BitVec 32) (words : List (BitVec 64)) (sl : List Slot) : State :=
  let H := s.me
  let q : Queued := { pc := H.pc, header := header, words := words, x := H.x, f := H.f
                      xs := sl.flatMap (fun t => (t.op.uses t.w).xw)
                      fs := sl.flatMap (fun t => (t.op.uses t.w).fw)
                      pushes := (sl.filter (fun t => t.op.pushes)).length }
  let replies := ((H.vq ++ [q]).map (fun q => q.xs.length + q.fs.length)).sum
  let pushes := ((H.vq ++ [q]).map (fun q => q.pushes)).sum
  if 64 ≤ H.vq.length ∨ 16 < replies ∨ 16 < H.branchQ.length + pushes then s.waitIn .other
  else
    (s.updMe (fun H => { H with vq := H.vq ++ [q], lag := H.lag - 1 })).goTo (H.pc + BitVec.ofNat 64 (4 + 8 * words.length))

/-- A convoy of the hart whose turn it is (R42 to R50): it stands in the vector queue where the plan has it so, and
otherwise runs once the convoys before it have. -/
def State.runConvoy (s : State) (header : BitVec 32) (words : List (BitVec 64)) : State :=
  match convoyCheck s.me header words with
  | .error (r, k) => s.trap .illegalConvoy (convoyTval r k header)
  | .ok sl =>
    if s.me.mayQueue sl then s.placeConvoy header words sl
    else (s.drainVector s.cur).runChecked sl

/-- CONVOY (R34). -/
def execConvoy (header : BitVec 32) (words : List (BitVec 64)) (s : State) :
    Host.Outcome State Fault Refusal :=
  if words.length = slotsOf header then .next (s.runConvoy header words) else .fault .malformedConvoy

/-- The header of a convoy whose one slot is of a form (R34, R35). -/
def soloHeader (o : VOp) : BitVec 32 :=
  setFld 0xF8000000#32 12 (BitVec.ofNat 3 ((unitOfMajor o.major.toNat).getD 0))

/-- A form with its fields, as the only slot of a convoy at the PC. -/
def solo (o : VOp) (w : VFields) (s : State) : Host.Outcome State Fault Refusal :=
  .next (s.runConvoy (soloHeader o) [encodeVector o w])

/-- VADD (R246). -/
def execVadd (w : VFields) (s : State) : Host.Outcome State Fault Refusal := solo .vadd w s
/-- VSUB (R246). -/
def execVsub (w : VFields) (s : State) : Host.Outcome State Fault Refusal := solo .vsub w s
/-- VRSUB (R246). -/
def execVrsub (w : VFields) (s : State) : Host.Outcome State Fault Refusal := solo .vrsub w s
/-- VMIN (R246). -/
def execVmin (w : VFields) (s : State) : Host.Outcome State Fault Refusal := solo .vmin w s
/-- VMAX (R246). -/
def execVmax (w : VFields) (s : State) : Host.Outcome State Fault Refusal := solo .vmax w s
/-- VMUL (R246). -/
def execVmul (w : VFields) (s : State) : Host.Outcome State Fault Refusal := solo .vmul w s
/-- VMULH (R246). -/
def execVmulh (w : VFields) (s : State) : Host.Outcome State Fault Refusal := solo .vmulh w s
/-- VMACC (R246). -/
def execVmacc (w : VFields) (s : State) : Host.Outcome State Fault Refusal := solo .vmacc w s
/-- VSADD (R246). -/
def execVsadd (w : VFields) (s : State) : Host.Outcome State Fault Refusal := solo .vsadd w s
/-- VSSUB (R246). -/
def execVssub (w : VFields) (s : State) : Host.Outcome State Fault Refusal := solo .vssub w s
/-- VABSD (R246). -/
def execVabsd (w : VFields) (s : State) : Host.Outcome State Fault Refusal := solo .vabsd w s
/-- VDIV (R246). -/
def execVdiv (w : VFields) (s : State) : Host.Outcome State Fault Refusal := solo .vdiv w s
/-- VREM (R246). -/
def execVrem (w : VFields) (s : State) : Host.Outcome State Fault Refusal := solo .vrem w s
/-- VAND (R247). -/
def execVand (w : VFields) (s : State) : Host.Outcome State Fault Refusal := solo .vand w s
/-- VOR (R247). -/
def execVor (w : VFields) (s : State) : Host.Outcome State Fault Refusal := solo .vor w s
/-- VXOR (R247). -/
def execVxor (w : VFields) (s : State) : Host.Outcome State Fault Refusal := solo .vxor w s
/-- VANDN (R247). -/
def execVandn (w : VFields) (s : State) : Host.Outcome State Fault Refusal := solo .vandn w s
/-- VSLL (R247). -/
def execVsll (w : VFields) (s : State) : Host.Outcome State Fault Refusal := solo .vsll w s
/-- VSRL (R247). -/
def execVsrl (w : VFields) (s : State) : Host.Outcome State Fault Refusal := solo .vsrl w s
/-- VSRA (R247). -/
def execVsra (w : VFields) (s : State) : Host.Outcome State Fault Refusal := solo .vsra w s
/-- VMV (R247). -/
def execVmv (w : VFields) (s : State) : Host.Outcome State Fault Refusal := solo .vmv w s
/-- VNOT (R247). -/
def execVnot (w : VFields) (s : State) : Host.Outcome State Fault Refusal := solo .vnot w s
/-- VMSEQ (R248). -/
def execVmseq (w : VFields) (s : State) : Host.Outcome State Fault Refusal := solo .vmseq w s
/-- VMSNE (R248). -/
def execVmsne (w : VFields) (s : State) : Host.Outcome State Fault Refusal := solo .vmsne w s
/-- VMSLT (R248). -/
def execVmslt (w : VFields) (s : State) : Host.Outcome State Fault Refusal := solo .vmslt w s
/-- VMSLE (R248). -/
def execVmsle (w : VFields) (s : State) : Host.Outcome State Fault Refusal := solo .vmsle w s
/-- VMSGT (R248). -/
def execVmsgt (w : VFields) (s : State) : Host.Outcome State Fault Refusal := solo .vmsgt w s
/-- VMSGE (R248). -/
def execVmsge (w : VFields) (s : State) : Host.Outcome State Fault Refusal := solo .vmsge w s
/-- VMAND (R249). -/
def execVmand (w : VFields) (s : State) : Host.Outcome State Fault Refusal := solo .vmand w s
/-- VMOR (R249). -/
def execVmor (w : VFields) (s : State) : Host.Outcome State Fault Refusal := solo .vmor w s
/-- VMXOR (R249). -/
def execVmxor (w : VFields) (s : State) : Host.Outcome State Fault Refusal := solo .vmxor w s
/-- VMANDN (R249). -/
def execVmandn (w : VFields) (s : State) : Host.Outcome State Fault Refusal := solo .vmandn w s
/-- VMNOT (R249). -/
def execVmnot (w : VFields) (s : State) : Host.Outcome State Fault Refusal := solo .vmnot w s
/-- VMSET (R249). -/
def execVmset (w : VFields) (s : State) : Host.Outcome State Fault Refusal := solo .vmset w s
/-- VMCLR (R249). -/
def execVmclr (w : VFields) (s : State) : Host.Outcome State Fault Refusal := solo .vmclr w s
/-- VMTOV (R249). -/
def execVmtov (w : VFields) (s : State) : Host.Outcome State Fault Refusal := solo .vmtov w s
/-- VVTOM (R249). -/
def execVvtom (w : VFields) (s : State) : Host.Outcome State Fault Refusal := solo .vvtom w s
/-- VPOP (R249). -/
def execVpop (w : VFields) (s : State) : Host.Outcome State Fault Refusal := solo .vpop w s
/-- VFIRST (R249). -/
def execVfirst (w : VFields) (s : State) : Host.Outcome State Fault Refusal := solo .vfirst w s
/-- VBQ_ANY (R240). -/
def execVbqAny (w : VFields) (s : State) : Host.Outcome State Fault Refusal := solo .vbqAny w s
/-- VBQ_NONE (R240). -/
def execVbqNone (w : VFields) (s : State) : Host.Outcome State Fault Refusal := solo .vbqNone w s
/-- VFADD (R250). -/
def execVfadd (w : VFields) (s : State) : Host.Outcome State Fault Refusal := solo .vfadd w s
/-- VFSUB (R250). -/
def execVfsub (w : VFields) (s : State) : Host.Outcome State Fault Refusal := solo .vfsub w s
/-- VFMUL (R250). -/
def execVfmul (w : VFields) (s : State) : Host.Outcome State Fault Refusal := solo .vfmul w s
/-- VFDIV (R250). -/
def execVfdiv (w : VFields) (s : State) : Host.Outcome State Fault Refusal := solo .vfdiv w s
/-- VFSQRT (R250). -/
def execVfsqrt (w : VFields) (s : State) : Host.Outcome State Fault Refusal := solo .vfsqrt w s
/-- VFMIN (R250). -/
def execVfmin (w : VFields) (s : State) : Host.Outcome State Fault Refusal := solo .vfmin w s
/-- VFMAX (R250). -/
def execVfmax (w : VFields) (s : State) : Host.Outcome State Fault Refusal := solo .vfmax w s
/-- VFSGNJ (R250). -/
def execVfsgnj (w : VFields) (s : State) : Host.Outcome State Fault Refusal := solo .vfsgnj w s
/-- VFSGNJN (R250). -/
def execVfsgnjn (w : VFields) (s : State) : Host.Outcome State Fault Refusal := solo .vfsgnjn w s
/-- VFSGNJX (R250). -/
def execVfsgnjx (w : VFields) (s : State) : Host.Outcome State Fault Refusal := solo .vfsgnjx w s
/-- VFCLASS (R250). -/
def execVfclass (w : VFields) (s : State) : Host.Outcome State Fault Refusal := solo .vfclass w s
/-- VFMADD (R251). -/
def execVfmadd (w : VFields) (s : State) : Host.Outcome State Fault Refusal := solo .vfmadd w s
/-- VFMSUB (R251). -/
def execVfmsub (w : VFields) (s : State) : Host.Outcome State Fault Refusal := solo .vfmsub w s
/-- VFNMADD (R251). -/
def execVfnmadd (w : VFields) (s : State) : Host.Outcome State Fault Refusal := solo .vfnmadd w s
/-- VFNMSUB (R251). -/
def execVfnmsub (w : VFields) (s : State) : Host.Outcome State Fault Refusal := solo .vfnmsub w s
/-- VCVT (R253). -/
def execVcvt (w : VFields) (s : State) : Host.Outcome State Fault Refusal := solo .vcvt w s
/-- VCVT_MX (R254). -/
def execVcvtMx (w : VFields) (s : State) : Host.Outcome State Fault Refusal := solo .vcvtMx w s
/-- VCVT_DEMX (R255). -/
def execVcvtDemx (w : VFields) (s : State) : Host.Outcome State Fault Refusal := solo .vcvtDemx w s
/-- VSLIDEUP (R256). -/
def execVslideup (w : VFields) (s : State) : Host.Outcome State Fault Refusal := solo .vslideup w s
/-- VSLIDEDOWN (R256). -/
def execVslidedown (w : VFields) (s : State) : Host.Outcome State Fault Refusal := solo .vslidedown w s
/-- VPERM (R256). -/
def execVperm (w : VFields) (s : State) : Host.Outcome State Fault Refusal := solo .vperm w s
/-- VBCAST (R256). -/
def execVbcast (w : VFields) (s : State) : Host.Outcome State Fault Refusal := solo .vbcast w s
/-- VSEL (R256). -/
def execVsel (w : VFields) (s : State) : Host.Outcome State Fault Refusal := solo .vsel w s
/-- VID (R256). -/
def execVid (w : VFields) (s : State) : Host.Outcome State Fault Refusal := solo .vid w s
/-- VCOMPRESS (R273). -/
def execVcompress (w : VFields) (s : State) : Host.Outcome State Fault Refusal := solo .vcompress w s
/-- VEXPAND (R273). -/
def execVexpand (w : VFields) (s : State) : Host.Outcome State Fault Refusal := solo .vexpand w s
/-- VREDSUM (R258). -/
def execVredsum (w : VFields) (s : State) : Host.Outcome State Fault Refusal := solo .vredsum w s
/-- VREDMIN (R258). -/
def execVredmin (w : VFields) (s : State) : Host.Outcome State Fault Refusal := solo .vredmin w s
/-- VREDMAX (R258). -/
def execVredmax (w : VFields) (s : State) : Host.Outcome State Fault Refusal := solo .vredmax w s
/-- VREDAND (R258). -/
def execVredand (w : VFields) (s : State) : Host.Outcome State Fault Refusal := solo .vredand w s
/-- VREDOR (R258). -/
def execVredor (w : VFields) (s : State) : Host.Outcome State Fault Refusal := solo .vredor w s
/-- VREDXOR (R258). -/
def execVredxor (w : VFields) (s : State) : Host.Outcome State Fault Refusal := solo .vredxor w s
/-- VSCANSUM (R258). -/
def execVscansum (w : VFields) (s : State) : Host.Outcome State Fault Refusal := solo .vscansum w s
/-- VSCANMIN (R258). -/
def execVscanmin (w : VFields) (s : State) : Host.Outcome State Fault Refusal := solo .vscanmin w s
/-- VSCANMAX (R258). -/
def execVscanmax (w : VFields) (s : State) : Host.Outcome State Fault Refusal := solo .vscanmax w s
/-- VEXT (R259). -/
def execVext (w : VFields) (s : State) : Host.Outcome State Fault Refusal := solo .vext w s
/-- VINS (R259). -/
def execVins (w : VFields) (s : State) : Host.Outcome State Fault Refusal := solo .vins w s
/-- VXSEND (R260). -/
def execVxsend (w : VFields) (s : State) : Host.Outcome State Fault Refusal := solo .vxsend w s
/-- VXRECV (R260). -/
def execVxrecv (w : VFields) (s : State) : Host.Outcome State Fault Refusal := solo .vxrecv w s
/-- VLD_STRM (R269). -/
def execVldStrm (w : VFields) (s : State) : Host.Outcome State Fault Refusal := solo .vldStrm w s
/-- VST_STRM (R269). -/
def execVstStrm (w : VFields) (s : State) : Host.Outcome State Fault Refusal := solo .vstStrm w s
/-- VLD (R266). -/
def execVld (w : VFields) (s : State) : Host.Outcome State Fault Refusal := solo .vld w s
/-- VLDS (R266). -/
def execVlds (w : VFields) (s : State) : Host.Outcome State Fault Refusal := solo .vlds w s
/-- VLDFF (R267). -/
def execVldff (w : VFields) (s : State) : Host.Outcome State Fault Refusal := solo .vldff w s
/-- VLDR (R268). -/
def execVldr (w : VFields) (s : State) : Host.Outcome State Fault Refusal := solo .vldr w s
/-- VLDM (R268). -/
def execVldm (w : VFields) (s : State) : Host.Outcome State Fault Refusal := solo .vldm w s
/-- VST (R266). -/
def execVst (w : VFields) (s : State) : Host.Outcome State Fault Refusal := solo .vst w s
/-- VSTS (R266). -/
def execVsts (w : VFields) (s : State) : Host.Outcome State Fault Refusal := solo .vsts w s
/-- VSTR (R268). -/
def execVstr (w : VFields) (s : State) : Host.Outcome State Fault Refusal := solo .vstr w s
/-- VSTM (R268). -/
def execVstm (w : VFields) (s : State) : Host.Outcome State Fault Refusal := solo .vstm w s
/-- VGATHER (R271). -/
def execVgather (w : VFields) (s : State) : Host.Outcome State Fault Refusal := solo .vgather w s
/-- VSCATTER (R271). -/
def execVscatter (w : VFields) (s : State) : Host.Outcome State Fault Refusal := solo .vscatter w s
/-- VSETLF (R275). -/
def execVsetlf (w : VFields) (s : State) : Host.Outcome State Fault Refusal := solo .vsetlf w s
/-- VXINT (R276). -/
def execVxint (w : VFields) (s : State) : Host.Outcome State Fault Refusal := solo .vxint w s
/-- VXUNI (R276). -/
def execVxuni (w : VFields) (s : State) : Host.Outcome State Fault Refusal := solo .vxuni w s
/-- VXMRG (R276). -/
def execVxmrg (w : VFields) (s : State) : Host.Outcome State Fault Refusal := solo .vxmrg w s
/-- ACCWIN_SUM (R279). -/
def execAccwinSum (w : VFields) (s : State) : Host.Outcome State Fault Refusal := solo .accwinSum w s
/-- ACCWIN_MIN (R279). -/
def execAccwinMin (w : VFields) (s : State) : Host.Outcome State Fault Refusal := solo .accwinMin w s
/-- ACCWIN_MAX (R279). -/
def execAccwinMax (w : VFields) (s : State) : Host.Outcome State Fault Refusal := solo .accwinMax w s
/-- VACC (R279). -/
def execVacc (w : VFields) (s : State) : Host.Outcome State Fault Refusal := solo .vacc w s
/-- ACCMERGE (R280). -/
def execAccmerge (w : VFields) (s : State) : Host.Outcome State Fault Refusal := solo .accmerge w s
/-- VAMOSWAP (R281). -/
def execVamoswap (w : VFields) (s : State) : Host.Outcome State Fault Refusal := solo .vamoswap w s
/-- VAMOADD (R281). -/
def execVamoadd (w : VFields) (s : State) : Host.Outcome State Fault Refusal := solo .vamoadd w s
/-- VAMOAND (R281). -/
def execVamoand (w : VFields) (s : State) : Host.Outcome State Fault Refusal := solo .vamoand w s
/-- VAMOOR (R281). -/
def execVamoor (w : VFields) (s : State) : Host.Outcome State Fault Refusal := solo .vamoor w s
/-- VAMOXOR (R281). -/
def execVamoxor (w : VFields) (s : State) : Host.Outcome State Fault Refusal := solo .vamoxor w s
/-- VAMOMIN (R281). -/
def execVamomin (w : VFields) (s : State) : Host.Outcome State Fault Refusal := solo .vamomin w s
/-- VAMOMAX (R281). -/
def execVamomax (w : VFields) (s : State) : Host.Outcome State Fault Refusal := solo .vamomax w s
/-- MMA (R295). -/
def execMma (w : VFields) (s : State) : Host.Outcome State Fault Refusal := solo .mma w s
/-- MMA_INT (R295). -/
def execMmaInt (w : VFields) (s : State) : Host.Outcome State Fault Refusal := solo .mmaInt w s
/-- MTERN (R295). -/
def execMtern (w : VFields) (s : State) : Host.Outcome State Fault Refusal := solo .mtern w s
/-- MSOUND (R304). -/
def execMsound (w : VFields) (s : State) : Host.Outcome State Fault Refusal := solo .msound w s
/-- MCHECK (R306). -/
def execMcheck (w : VFields) (s : State) : Host.Outcome State Fault Refusal := solo .mcheck w s
/-- MZERO (R298). -/
def execMzero (w : VFields) (s : State) : Host.Outcome State Fault Refusal := solo .mzero w s
/-- MST (R299). -/
def execMst (w : VFields) (s : State) : Host.Outcome State Fault Refusal := solo .mst w s
/-- MXCHG (R300). -/
def execMxchg (w : VFields) (s : State) : Host.Outcome State Fault Refusal := solo .mxchg w s
/-- FLOAD (R328). -/
def execFload (w : VFields) (s : State) : Host.Outcome State Fault Refusal := solo .fload w s
/-- FGO (R329). -/
def execFgo (w : VFields) (s : State) : Host.Outcome State Fault Refusal := solo .fgo w s
/-- FGO_RESUME (R329). -/
def execFgoResume (w : VFields) (s : State) : Host.Outcome State Fault Refusal := solo .fgoResume w s
/-- FDRAIN (R330). -/
def execFdrain (w : VFields) (s : State) : Host.Outcome State Fault Refusal := solo .fdrain w s
/-- FSTAT (R331). -/
def execFstat (w : VFields) (s : State) : Host.Outcome State Fault Refusal := solo .fstat w s
/-- FREL (R332). -/
def execFrel (w : VFields) (s : State) : Host.Outcome State Fault Refusal := solo .frel w s
/-- VWAIT (R384). -/
def execVwait (w : VFields) (s : State) : Host.Outcome State Fault Refusal := solo .vwait w s

end Sys2Proof.Machine
end

