-- ==== Sys2Proof/Machine/Csr.lean ====
section
/-!
DEFINITION. The CSR forms (R54, R55, R215, R216).
-/

namespace Sys2Proof.Machine

/-- A CSR access (R55, R215): the illegal-instruction trap where it is not permitted; otherwise X[xd]
takes the old value and, if the access counts as a write, the CSR the new one. Convoys run whole in their
step, so no access waits for one (R216). -/
def csrAccess (i : Instr) (d : Reg) (c : BitVec 12) (write : Bool) (f : Word → Word) (s : State) :
    Host.Outcome State Fault Refusal :=
  if csrLegal s.me.sup c.toNat write then
    let t := s.csrRead s.cur c.toNat
    let s' := if write then s.updMe (fun H => H.csrWrite c.toNat (f t)) else s
    .next ((s'.setX d t).advance)
  else .next (s.illegal i)

/-- CSRR (R215). -/
def execCsrr (d : Reg) (c : BitVec 12) (s : State) : Host.Outcome State Fault Refusal :=
  csrAccess (.csrr d c) d c false id s
/-- CSRW (R215). -/
def execCsrw (d a : Reg) (c : BitVec 12) (s : State) : Host.Outcome State Fault Refusal :=
  csrAccess (.csrw d a c) d c true (fun _ => s.getX a) s
/-- CSRS (R215). -/
def execCsrs (d a : Reg) (c : BitVec 12) (s : State) : Host.Outcome State Fault Refusal :=
  csrAccess (.csrs d a c) d c (a != 0) (fun t => t ||| s.getX a) s
/-- CSRC (R215). -/
def execCsrc (d a : Reg) (c : BitVec 12) (s : State) : Host.Outcome State Fault Refusal :=
  csrAccess (.csrc d a c) d c (a != 0) (fun t => t &&& ~~~(s.getX a)) s
/-- CSRSI (R215). -/
def execCsrsi (d n : Reg) (c : BitVec 12) (s : State) : Host.Outcome State Fault Refusal :=
  csrAccess (.csrsi d n c) d c (n != 0) (fun t => t ||| n.setWidth 64) s
/-- CSRCI (R215). -/
def execCsrci (d n : Reg) (c : BitVec 12) (s : State) : Host.Outcome State Fault Refusal :=
  csrAccess (.csrci d n c) d c (n != 0) (fun t => t &&& ~~~(n.setWidth 64)) s

end Sys2Proof.Machine
end

