-- ==== Sys2Proof/Machine/Tlb.lean ====
section
/-!
DEFINITION. Dropping translations: `tlb.inv` (R425).
-/

namespace Sys2Proof.Machine

/-- The tiles that a scope reaches from a tile (R425): 0 and 1 the tile, 2 its die, 3 to 5 the module. -/
def tilesInReach (t : Fin 224) (scope : Nat) : List (Fin 224) :=
  if scope ≤ 1 then [t]
  else if scope = 2 then (List.finRange 224).filter (fun u => dieOf u == dieOf t)
  else List.finRange 224

/-- The landing dies that a compute die adjoins (R12). -/
def adjoining (d : Fin 4) : List (Fin 8) := [⟨2 * d.val, by omega⟩, ⟨2 * d.val + 1, by omega⟩]

/-- A cached translation that `tlb.inv` names (R425): of the ASID, or of every ASID for a page with G = 1;
of the page of an address, or of every page. -/
def Tlb.named (e : Tlb) (asid : BitVec 16) (va : Option Nat) : Bool :=
  (e.asid == asid || pteG e.pte) && (match va with
    | some a => decide (a / e.size = e.va / e.size)
    | none => true)

/-- The extent of a stream from whose front on its pages are no longer those that it registered (R425). -/
def State.staleExtent (s : State) (h : HartId) (t : Stream) : Option Nat :=
  firstIdx (fun e =>
    decide (t.home < e.hi) && (match s.translate h t.sup (if t.desc.dir then .write else .read) e.va with
      | .ok l => l.pa / l.size * l.size != e.page
      | .error _ => true)) t.extents 0

/-- A stream translates its pages again (R425): where a frame differs, the entries of that extent and of those
after it are freed, and the remainder registers again. -/
def State.retranslate (s : State) (h : HartId) (n : Nat) : State :=
  let t := (s.hart h).stream n
  if !t.cfg then s
  else match s.staleExtent h t with
    | none => s
    | some i =>
      let gone := t.extents.drop i
      let (s, t) := s.giveUp { t with extents := t.extents.take i } gone
      let first := Nat.max t.home ((gone.head?.map (fun e => e.lo)).getD 0)
      s.putStream h n { t with reached := s.nextReached h t first }

/-- What `tlb.inv` does once it is legal (R425): every translation in reach that it names is dropped, every
access in reach is performed, and streams translate again. -/
def State.dropTranslations (s : State) (asid : BitVec 16) (va : Option Nat) (scope : Nat) : State :=
  let ts := tilesInReach (tileOf s.cur) scope
  let hs := ts.flatMap hartsOf
  let s := s.drain (fun d => hs.contains d.hart)
  let s := ts.foldl (fun s t =>
    if (s.tile t).tlb.isEmpty then s
    else s.updTile t (fun T => { T with tlb := T.tlb.filter (fun e => !e.named asid va) })) s
  let s := if scope ≤ 1 then s
    else if scope = 2 then s.dropFrames asid va (adjoining (dieOf (tileOf s.cur)))
    else s.dropFrames asid va dieList
  let s := if scope ≤ 2 then s
    else { s with hostIf := { s.hostIf with atc := s.hostIf.atc.filter (fun e => e.1.1 != asid) } }
  (hs.filter (fun h => (s.hart h).streams.any (fun t => t.cfg && !t.extents.isEmpty))).foldl (fun s h =>
    (List.range 16).foldl (fun s n => s.retranslate h n) s) s

/-- TLB_INV (R224, R425). -/
def execTlbInv (a b : Reg) (p : BitVec 3) (s : State) : Host.Outcome State Fault Refusal :=
  .next (if s.me.sup then
    (s.dropTranslations (fld (s.getX a) 0 16) (if b = 0 then none else some (s.getX b).toNat) p.toNat).advance
  else s.illegal (.tlbInv a b p))

end Sys2Proof.Machine
end

