-- ==== Sys2Proof/Machine/Host.lean ====
section
/-!
DEFINITION. The outside parties: event routing and host event queues (R445, R459), host queue pairs and
submissions (R387, R457, R458), host and peer accesses (R133, R138), reservations at peers (R136, R137), woken
requests (R134), address translation services (R431), scrubbing (R111) and the units of L2 slices (R140).
-/

namespace Sys2Proof.Machine

/-! ### Host memory and interrupts -/

/-- Bytes written to host memory by the Watershed. -/
def State.hostPut (s : State) (a : Nat) (bs : List Byte) : State := { s with mem := memPutAll s.mem (hostCell a) bs }

/-- Bytes of host memory read by the Watershed. -/
def State.hostGet (s : State) (a n : Nat) : List Byte := memBytes s.mem (hostCell a) n

/-- An MSI-X vector signalled (R449, R459). -/
def State.signal (s : State) (v : Nat) : State := { s with mgmt := { s.mgmt with interrupts := s.mgmt.interrupts ++ [v] } }

/-- The fields of QCFG and EQCFG (R458). -/
def cfgEntries (w : Word) : Nat := (fld w 0 12).toNat + 1
def cfgVector (w : Word) : Nat := (fld w 16 11).toNat
def cfgOn (w : Word) : Bool := w.getLsbD 31

/-! ### Events (R445, R459, R464) -/

/-- A host event queue. -/
def State.evq (s : State) (e : Nat) : EvQ := s.evqs[e]?.getD ⟨0, 0, 0, 0, true, false⟩

/-- A record of an event for a host event queue (R459): while the queue is full or disabled it is not written,
and LOST marks the next one. -/
def State.postEvent (s : State) (e seq src : Nat) (claimed : Bool) (detail : List Byte) : State :=
  let Q := s.evq e
  let n := cfgEntries Q.cfg
  if !cfgOn Q.cfg || decide ((Q.tail + 65536 - Q.head) % 65536 = n) then
    { s with evqs := s.evqs.setIfInBounds e { Q with lost := true } }
  else
    let flags := (if Q.phase then 1 else 0) + (if claimed then 2 else 0) + (if Q.lost then 4 else 0)
    let bytes := bytesOf 8 seq ++ bytesOf 2 src ++ [byteOf flags] ++ bytesOf 5 0
      ++ (detail ++ List.replicate 16 0).take 16
    let tail := (Q.tail + 1) % 65536
    let s := s.hostPut (Q.base.toNat + 32 * (Q.tail % n)) bytes
    let Q' : EvQ := { Q with tail := tail, phase := if tail % n = 0 then !Q.phase else Q.phase, lost := false }
    let s := { s with evqs := s.evqs.setIfInBounds e Q' }
    if claimed then s else s.signal (cfgVector Q.cfg)

/-- An event of a source (R445): recorded in the log, and delivered as its routes say. -/
def State.raiseEvent (s : State) (src : Nat) (detail : List Byte) : State :=
  let r := s.routeOf src
  let den := r.route.getLsbD 10
  let hen := r.route.getLsbD 11
  let seq := s.mgmt.logSeq
  let s := s.logEvent src (den && hen) detail
  let s := if den then s.setRoute { r with pending := true } else s
  if hen then s.postEvent (fld r.route 12 6).toNat seq src (den && hen) detail else s

/-- An event of the Watershed itself, whose source number the manual does not give (log 10). -/
def State.sendEvent (s : State) (detail : List Byte) : State :=
  let src := (Config.freeWord s.fresh).toNat % 4096
  ({ s with fresh := s.fresh + 1 } : State).raiseEvent src detail

/-- DEVICE_EVENT (R445). -/
def execDeviceEvent (src : Nat) (detail : List (BitVec 8)) (s : State) : Host.Outcome State Fault Refusal :=
  .next (if s.mgmt.level = 0 then s else s.raiseEvent src detail)

/-- EVENT_ACK (R445). -/
def execEventAck (src : Nat) (s : State) : Host.Outcome State Fault Refusal :=
  .next (s.setRoute { s.routeOf src with pending := false })

/-- EQCFG_ENABLE (R458): a write of EQCFG. -/
def execEqcfgEnable (e : BitVec 6) (v : BitVec 64) (s : State) : Host.Outcome State Fault Refusal :=
  let Q := s.evq e.toNat
  let w := v &&& 0x87FF0FFF#64
  .next (if s.mgmt.level = 0 ∨ (cfgOn Q.cfg = true ∧ cfgOn w = true) then s
  else
    let Q' := if cfgOn w then { Q with cfg := w, tail := 0, phase := true } else { Q with cfg := w }
    { s with evqs := s.evqs.setIfInBounds e.toNat Q' })

/-! ### Queue pairs (R457, R458, R460) -/

/-- A queue pair. -/
def State.pair (s : State) (q : Nat) : Pair := s.pairs[q]?.getD ⟨0, 0, 0, 0, 0, 0, 0, true, false, []⟩

/-- A queue pair replaced. -/
def State.setPair (s : State) (q : Nat) (P : Pair) : State := { s with pairs := s.pairs.setIfInBounds q P }

/-- A handover is in progress (R457). -/
def Mgmt.handing (m : Mgmt) : Bool := m.wshand.getLsbD 0

/-- A doorbell takes effect (R458): a value not below the entry count is an error. -/
def Pair.ring (P : Pair) (sq : Bool) (v : Word) : Pair :=
  let n := (fld v 0 16).toNat
  if cfgEntries P.cfg ≤ n then { P with error := true }
  else if sq then { P with tail := n } else { P with cqHead := n }

/-- A doorbell (R458, R460): ignored by a disabled pair, latched during a handover. -/
def State.doorbell (s : State) (q : Nat) (sq : Bool) (v : Word) : State :=
  let P := s.pair q
  if s.mgmt.level = 0 ∨ cfgOn P.cfg = false then s
  else s.setPair q (if s.mgmt.handing then { P with latched := P.latched ++ [(sq, v)] } else P.ring sq v)

/-- SQDB (R458). -/
def execSqdb (pair : BitVec 6) (v : BitVec 64) (s : State) : Host.Outcome State Fault Refusal :=
  .next (s.doorbell pair.toNat true v)
/-- CQDB (R458). -/
def execCqdb (pair : BitVec 6) (v : BitVec 64) (s : State) : Host.Outcome State Fault Refusal :=
  .next (s.doorbell pair.toNat false v)

/-- QCFG_ENABLE (R458): a write of QCFG. -/
def execQcfgEnable (pair : BitVec 6) (v : BitVec 64) (s : State) : Host.Outcome State Fault Refusal :=
  let P := s.pair pair.toNat
  let w := v &&& 0x87FF0FFF#64
  .next (if s.mgmt.level = 0 ∨ (cfgOn P.cfg = true ∧ cfgOn w = true) then s
  else s.setPair pair.toNat (if cfgOn w then
      { P with cfg := w, head := 0, tail := 0, cqTail := 0, cqHead := 0, phase := true, error := false, latched := [] }
    else { P with cfg := w }))

/-- The parts of a launch that a command processor reads in an address space (R387, R457); `none` when they
cannot be read. -/
def State.hostParts (s : State) (d : Fin 4) (asid : BitVec 16) (va : Nat) : Option Parts :=
  let rd := s.spaceBytes d asid
  (rd va 128).bind (fun record =>
    let p : Parts := ⟨record, [], [], [], []⟩
    (rd p.ktab 48).bind (fun entry =>
      let p := { p with entry := entry }
      let levels := match (s.kernelAt (BitVec.ofNat 16 p.asid) p.ktab).bind
          (fun k => if p.nlevels ≤ 8 then k.1.levelsAt p.loopIdx p.nlevels else none) with
        | some a => rd a (8 * p.nlevels)
        | none => some []
      levels.bind (fun levels =>
        let xtab := if p.xtabAt = 0 then some [] else (rd p.xtabAt 8).bind (fun head =>
          let n := natOf head
          if 1 ≤ n ∧ n ≤ 896 then (rd (p.xtabAt + 8) (16 * n)).map (fun rest => head ++ rest) else some head)
        xtab.bind (fun xtab =>
          let pages := if p.pagesAt = 0 ∨ p.pagesAt % 4096 ≠ 0 then some [] else
            (rd p.pagesAt 4096).bind (fun first =>
              let n := leAt first 3 1
              if 1 ≤ n ∧ n ≤ 16 then
                ((List.range (n - 1)).mapM (fun i => rd (p.pagesAt + 4096 * (i + 1)) 4096)).map (fun rest => first :: rest)
              else some [first])
          pages.map (fun pages => { p with levels := levels, xtab := xtab, pages := pages })))))

/-- The code of a submission entry, and the state after it (R365, R456, R457): at level 1 only die 0 is there. -/
def State.submit (s : State) (e : List Byte) : State × Nat :=
  let target := leAt e 3 1
  let die : Fin 4 := ⟨target / 32 % 4, by omega⟩
  let va := leAt e 8 8
  let sound := leAt e 2 1 == 1 && decide (target < 128) && va % 64 == 0 && zeroAt e 6 2 && zeroAt e 16 16
  if !sound then (s, 2)
  else if s.mgmt.level = 1 ∧ die ≠ 0 then (s, 4)
  else match s.hostParts die (BitVec.ofNat 16 (leAt e 4 2)) va with
    | none => (s, 6)
    | some p =>
      match s.checkLaunch false true (BitVec.ofNat 16 p.asid) die.val (target % 32) p with
      | .error c => (s, c)
      | .ok l => (s.post l, 0)

/-- HOST_SUBMISSION (R457, R458): the next entry of a pair is validated and posted, and its completion is
written. An entry is taken when the completion ring has room. -/
def execHostSubmission (pair : BitVec 6) (s : State) : Host.Outcome State Fault Refusal :=
  let q := pair.toNat
  let P := s.pair q
  let n := cfgEntries P.cfg
  .next (if s.mgmt.level = 0 ∨ s.mgmt.handing = true ∨ cfgOn P.cfg = false ∨ P.error = true ∨ P.head = P.tail
      ∨ (P.cqTail + 1) % n = P.cqHead then s
  else
    let e := s.hostGet (P.sqBase.toNat + 32 * P.head) 32
    let (s, code) := s.submit e
    let head := (P.head + 1) % n
    let bytes := (e.take 2) ++ [byteOf code, if P.phase then 1 else 0] ++ bytesOf 2 head ++ bytesOf 10 0
    let s := s.hostPut (P.cqBase.toNat + 16 * P.cqTail) bytes
    let cq := (P.cqTail + 1) % n
    (s.setPair q { P with head := head, cqTail := cq, phase := if cq = 0 then !P.phase else P.phase }).signal
      (cfgVector P.cfg))

/-! ### Accesses of the host and of peers (R129, R133, R138) -/

/-- The lines that a request touches. -/
def reqLines (r : MemReq) : List Nat := linesOf r.pa r.size

/-- A request of an outside party reaches memory that this module homes. -/
def State.homed (s : State) (r : MemReq) : Bool :=
  encrypted r.pa && encrypted (r.pa + Nat.max 1 r.size - 1) && (match s.place 0 r.pa with
    | .cell _ => true
    | _ => false)

/-- The bytes of a request take effect under a key slot, once the home has the value of its lines (R120). What the host or a
peer writes counts as a release of its agent, since its requests arrive in its own order (R349, R350; log 8). -/
def State.serve (s : State) (who : Agent) (v : Viewer) (key : Nat) (r : MemReq) : State :=
  let s := s.homeLines key r.data.isSome (reqLines r)
  match r.data with
  | some bs => (s.write v r.pa key (bs.take r.size)).noteRelease who 5 r.pa r.size
  | none => s

/-- HOST_SNOOP (R133, R349, R444): a host request or a snoop is held by no reservation; at a RELEASING entry it is served
once what it covers there is home. DESIGN CHOICE (log 22): the manual names no key for the host's requests, and the model uses
slot 0. -/
def execHostSnoop (req : MemReq) (s : State) : Host.Outcome State Fault Refusal :=
  .next (if s.mgmt.level = 0 || !s.homed req || s.keyInvalid 0 then s
  else match s.meetAll .external (reqLines req) 0 req.data.isSome with
    | (s', .served) => s'.serve .host .home 0 req
    | (s', _) => s')

/-- The first element from `j` on with no byte among those from `lo` up to but not with `hi`, over at most `n`. -/
def Rsv.frontAfter (r : Rsv) (lo hi : Nat) (j : Nat) : Nat → Nat
  | 0 => j
  | n + 1 =>
    let a : Int := (r.base * 4096 + r.first : Nat) + (j : Int) * r.stride
    if a < hi ∧ (lo : Int) < a + 2 ^ r.esize then r.frontAfter lo hi (j + 1) n else j

/-- POS of the entries of a peer's stream follows the stream's own traffic as the home serves it (R128). -/
def State.peerPassed (s : State) (module : Nat) (who : Option PeerAgent) (req : MemReq) : State :=
  match who.bind (fun a => a.stream.map (fun n => (a, n))) with
  | none => s
  | some (a, n) =>
    let own (r : Rsv) : Bool := r.remote && r.origin == module && r.tile == a.tile && r.hart == a.ctx && r.stream == n
      && !r.whole && r.dir == req.data.isSome
    dieList.foldl (fun s d =>
      if (s.landing d).entries.any (fun e => own e.2) then
        s.updLanding d (fun l => { l with entries := l.entries.map (fun e =>
          if own e.2 then
            (e.1, e.2.withPos s.mgmt.level d (e.2.frontAfter req.pa (req.pa + Nat.max 1 req.size) e.2.pos (e.2.count - e.2.pos)))
          else e) })
      else s) s

/-- PEER_MEM_REQUEST (R133, R138): a Causeway request is served, parks, or gets a conflict completion, which
leaves nothing here. Its data is encrypted under the key slot of the inbound configuration (R113); one that names an INVALID
slot reaches no memory (R118). Where the host holds a line of it, the host is snooped first (R120). -/
def execPeerMemRequest (module : Nat) (who : Option PeerAgent) (req : MemReq) (s : State) :
    Host.Outcome State Fault Refusal :=
  let asker := match who with
    | some a => Requester.lefahel module a
    | none => .cxl
  let write := req.data.isSome
  .next (if s.mgmt.level ≠ 2 ∨ s.homed req = false ∨ s.keyInvalid s.inboundKey = true then s
  else match s.meetInTurn (.peer module who) asker (reqLines req) s.inboundKey write with
    | (s', .served) => match s'.hostLines (reqLines req) s.inboundKey write with
      | [] => (s'.peerPassed module who req).serve .peer .peer s.inboundKey req
      | held => s'.snoopAll held
    | (s', _) => s')

/-- PEER_CONFLICT_COMPLETION (R48, R132, R138): the access of a hart of this module to a peer, for which it waits, met a
trap-mode entry there. The hart takes the precise trap at its instruction; of a convoy, VSTART names the slot and the
element. An element that ends a `vldff` sets VL, and the convoy goes on (R267). -/
def execPeerConflictCompletion (h : HartId) (va : BitVec 64) (s : State) : Host.Outcome State Fault Refusal :=
  let trapped (at_ : Option (Nat × Nat)) : State := s.updHart h (fun H =>
    let H := match at_ with
      | some (slot, elem) => H.setVstart (vstartOf true slot elem)
      | none => H
    H.enterTrap false Cause.reservation.code va H.pc)
  .next (match (s.hart h).run, (s.hart h).wait with
    | .waiting, .peer a at_ trim =>
      if a ≠ va then s
      else match trim with
        | some (i + 1) => (s.updHart h (fun H => H.setVl (i + 1))).rerun h
        | _ => trapped at_
    | _, _ => s)

/-- REPLAY_WAKE (R134, R144): the tag of an entry fires; its parked requests re-enter in the order in which
they were parked, and are checked again. Those of engines, regions and peers re-enter as their own events. -/
def execReplayWake (die : Fin 8) (entry : Nat) (s : State) : Host.Outcome State Fault Refusal :=
  let harts := ((s.landing die).parked.filter (fun p => p.entry == entry && s.live die p)).filterMap (fun p =>
    match p.who with
    | .hart h => some h
    | _ => none)
  .next (harts.reverse.foldl (fun s h => if (s.hart h).run = .waiting then s.rerun h else s) s)

/-! ### Reservations at peers (R136, R137) -/

/-- The entry that a peer asks for (R136). -/
def peerEntry (m : RsvMsg) : Rsv where
  dir := m.dir
  mode := m.mode.toNat
  state := 0
  esize := m.esize.toNat
  extsize := m.extSize.toNat
  key := m.key.toNat
  scope := m.scope.toNat
  remote := true
  origin := m.module
  tile := m.tile.val
  hart := m.ctx.val
  stream := m.stream.toNat
  base := m.extBase
  stride := m.stride
  first := m.first
  count := m.count
  pos := 0
  whole := m.whole
  coming := 0

/-- The entries of a peer's extent. -/
def State.rsvRefs (s : State) (module : Nat) (seq : BitVec 16) : List (Nat × Nat) := (assoc s.rsvIn (module, seq)).getD []

/-- A message of a peer that cannot be done yet is taken up again (log 24). -/
def State.again (s : State) (a : Act) : State := { s with agenda := s.agenda ++ [a] }

/-- A peer's request for an extent (R136): the extent is registered at every die that homes a byte of it, or refused, and the answer is sent. Where
the host owns a line of it, the host is snooped first (R120, R343). -/
def State.reserveFor (s : State) (msg : RsvMsg) : State :=
  let r := peerEntry msg
  if s.mgmt.level ≠ 2 then s
  else if !(s.hostExtent r).isEmpty then (s.snoopAll (s.hostExtent r)).again (.askAgain msg)
  else match s.registerAt r (homesOf s.mgmt.level (r.base * 4096) (extBytes r.extsize)) with
    | some (s', refs) => { s' with
        rsvIn := assocSet s'.rsvIn (msg.module, msg.seq) refs
        outbox := s'.outbox ++ [⟨msg.module, msg.seq, .ack⟩] }
    | none => { s with outbox := s.outbox ++ [⟨msg.module, msg.seq, .nak⟩] }

/-- RSVREQ (R136). -/
def execRsvreq (msg : RsvMsg) (s : State) : Host.Outcome State Fault Refusal := .next (s.reserveFor msg)

/-- A request to a peer is no longer awaited. -/
def State.answered (s : State) (seq : BitVec 16) (releasing : Bool) : State :=
  { s with rsvOut := s.rsvOut.filter (fun r => !(r.seq == seq && r.releasing == releasing)) }

/-- The stream that holds the extent of a request to a peer, wherever its context is. -/
def State.peerStream (s : State) (seq : BitVec 16) : Option (StreamAt × Stream) :=
  (allHarts.flatMap s.streamsOf ++ s.savedStreams).find? (fun e => e.2.extents.any (fun x => x.peer == some seq))

/-- The stream that holds the extent of a request to a peer replaced by its image. -/
def State.updPeerStream (s : State) (seq : BitVec 16) (f : Stream → Stream) : State :=
  match s.peerStream seq with
  | some (p, t) => s.putAt p (f t)
  | none => s

/-- RSVACK (R136, R186): the extent is registered at the peer. -/
def execRsvack (seq : BitVec 16) (s : State) : Host.Outcome State Fault Refusal :=
  .next (if s.rsvOut.any (fun r => r.seq == seq && !r.releasing) then
    (s.answered seq false).updPeerStream seq (fun t => t.mark 9 true)
  else s)

/-- The extent of a request to a peer runs in line mode (R125, R137). -/
def State.peerRefused (s : State) (seq : BitVec 16) : State :=
  if s.rsvOut.any (fun r => r.seq == seq && !r.releasing) then
    (s.answered seq false).updPeerStream seq (fun t => Stream.mark { t with
      extents := t.extents.map (fun e => if e.peer = some seq then { e with line := true, peer := none } else e) } 2 true)
  else s

/-- RSVNAK (R136, R137). -/
def execRsvnak (seq : BitVec 16) (s : State) : Host.Outcome State Fault Refusal := .next (s.peerRefused seq)
/-- RSVREQ_TIMEOUT (R137). -/
def execRsvreqTimeout (seq : BitVec 16) (s : State) : Host.Outcome State Fault Refusal := .next (s.peerRefused seq)

/-- The elements of an extent below the POS of a cut are home: the peer has accepted them (R128, R136). -/
def Stream.homedTo (t : Stream) (seq : BitVec 16) (pos : Nat) : Stream :=
  if t.desc.dir && t.desc.idx == 0 then
    match t.extents.find? (fun e => e.peer == some seq) with
    | some e => t.homed (Nat.min (e.lo + pos - t.home) t.made.length)
    | none => t
  else t

/-- A cut of an extent at a peer (R132, R136): the extent was split there at POS, and the rest of the stream runs in line mode once what it
has produced is home. -/
def State.cutBy (s : State) (seq : BitVec 16) (pos : Nat) : State :=
  match s.peerStream seq with
    | some (p, t) =>
      let ds := t.entryRefs
      let (s, t, done) := s.splitAt true p t.num (t.homedTo seq pos)
      let s := s.putAt p t
      if done then s.cutAt ds else s.again (.cutAgain seq pos)
    | none => s

/-- RSVCUT (R132, R136). -/
def execRsvcut (seq : BitVec 16) (pos : Nat) (s : State) : Host.Outcome State Fault Refusal := .next (s.cutBy seq pos)

/-- RSVSTATE (R136). -/
def execRsvstate (module : Nat) (seq : BitVec 16) (st : BitVec 2) (s : State) : Host.Outcome State Fault Refusal :=
  .next (s.setStateAt (s.rsvRefs module seq) st.toNat)

/-- RSVREL (R135, R136): the extent is freed, and the peer is told that its release is complete. -/
def execRsvrel (module : Nat) (seq : BitVec 16) (s : State) : Host.Outcome State Fault Refusal :=
  .next { s.freeAt (s.rsvRefs module seq) with
    rsvIn := assocErase s.rsvIn (module, seq)
    outbox := s.outbox ++ [⟨module, seq, .done⟩] }

/-- RSVDONE (R136, R184): the peer has accepted all the data of a released extent. -/
def execRsvdone (seq : BitVec 16) (s : State) : Host.Outcome State Fault Refusal := .next (s.answered seq true)

/-- A parked request is one of some modules'. -/
def Parker.ofPeer (p : Parker) (ms : List Nat) : Bool :=
  match p with
  | .peer m _ => ms.contains m
  | _ => false

/-- An extent of a stream is registered at one of some modules. -/
def State.atPeer (s : State) (lost : List Nat) (e : Extent) : Bool :=
  e.peer.isSome && (match s.peerOf e.page with
    | some w => lost.contains w.target
    | none => false)

/-- The least element of a stream that has not passed and lies in an extent (R137). -/
def State.firstIn (s : State) (h : HartId) (t : Stream) (e : Extent) : Nat :=
  let f := Nat.max t.home e.lo
  if t.desc.idx = 0 then f else ((List.range' f (t.desc.count - f)).find? (s.inExtent h t e)).getD f

/-- A stream with an extent at a lost module, or a release that a lost module has not answered, stops (R137, R185); one that
has stopped already meets the fault of each such extent when it goes on. Its extents there are in line mode from then on. -/
def State.losePeer (s : State) (lost : List Nat) (seqs : List (BitVec 16)) (p : StreamAt) : State :=
  match s.streamAt p with
  | none => s
  | some t =>
    let h := s.hostHart p
    let u := { t with extents := t.extents.map (fun e =>
      if s.atPeer lost e then { e with line := true, peer := none, lost := true } else e) }
    let stop (u : Stream) (f : Nat) : State :=
      if t.stopAt.isSome then s.putAt p u
      else
        let va := match s.elemVa h t f with
          | .ok va => va
          | .error (.fault _ va) => va
          | .error (.ask _) => t.desc.base.toNat
        let (s, u) := s.stopAtFault h t.num u f va .peerLost
        s.putAt p u
    match t.extents.find? (s.atPeer lost) with
    | some e => stop (u.mark 2 true) (s.firstIn h t e)
    | none => if t.release == .write && t.owed.any (fun q => seqs.contains q) then stop u t.home else s

/-- PORT_DOWN (R137, R450): `lost` are the modules that the port reached and no other port reaches. Their
entries here are freed, their parked requests are gone, and the extents registered at them fault. -/
def execPortDown (port : Fin 16) (lost : List Nat) (s : State) : Host.Outcome State Fault Refusal :=
  let seqs := (s.rsvOut.filter (fun r => lost.contains r.module)).map (fun r => r.seq)
  let s : State := { s with
    portsUp := setBit s.portsUp port.val false
    rsvOut := s.rsvOut.filter (fun r => !lost.contains r.module)
    rsvIn := s.rsvIn.filter (fun e => !lost.contains e.1.1)
    outbox := s.outbox.filter (fun m => !lost.contains m.module)
    landings := s.landings.map (fun l => { l with parked := l.parked.filter (fun p => !p.who.ofPeer lost) }) }
  let s := s.mapEntries (fun r => if r.remote && lost.contains r.origin then none else some r)
  .next ((allHarts.flatMap s.streamsOf ++ s.savedStreams).foldl (fun s e => s.losePeer lost seqs e.1) s)

/-! ### Address translation services (R431) -/

/-- The host's answer to a page: a translation, or a failure that the waiting access meets. -/
def State.atsEnd (s : State) (r : PageReq) (granted : Option Nat) : State :=
  if s.hostIf.asked.contains r then
    { s with hostIf := { s.hostIf with
      asked := s.hostIf.asked.filter (fun q => q != r)
      pri := s.hostIf.pri.filter (fun q => q != r)
      atc := match granted with
        | some p => (s.hostIf.atc ++ [((r.asid, r.page), p)]).drop (s.hostIf.atc.length + 1 - 1024)
        | none => s.hostIf.atc
      failed := match granted with
        | some _ => s.hostIf.failed
        | none => s.hostIf.failed ++ [r] } }
  else s

/-- The page-request groups that are outstanding (R431): at most 32; later ones wait to be sent. -/
def HostIf.groups (i : HostIf) : List PageReq := i.pri.take 32

/-- ATS_TRANSLATION_COMPLETION (R431): a denial with page requests enabled leaves the access waiting for its
page-request group. A page whose group is under way has no translation request of its own. -/
def execAtsTranslationCompletion (asid : BitVec 16) (page : Nat) (granted : Option Nat) (s : State) :
    Host.Outcome State Fault Refusal :=
  let r : PageReq := ⟨asid, page⟩
  .next (if !s.hostIf.asked.contains r || s.hostIf.pri.contains r then s
  else if granted.isNone && s.hostIf.prien then { s with hostIf := { s.hostIf with pri := s.hostIf.pri ++ [r] } }
  else s.atsEnd r granted)

/-- PRI_RESPONSE (R431), of an outstanding group: after a success the translation is requested again. -/
def execPriResponse (asid : BitVec 16) (page : Nat) (ok : Bool) (s : State) : Host.Outcome State Fault Refusal :=
  let r : PageReq := ⟨asid, page⟩
  .next (if !s.hostIf.groups.contains r then s
  else if ok then { s with hostIf := { s.hostIf with pri := s.hostIf.pri.filter (fun q => q != r) } }
  else s.atsEnd r none)

/-- PRI_TIMEOUT (R431). -/
def execPriTimeout (asid : BitVec 16) (page : Nat) (s : State) : Host.Outcome State Fault Refusal :=
  .next (if s.hostIf.groups.contains ⟨asid, page⟩ then s.atsEnd ⟨asid, page⟩ none else s)

/-- ATS_INVALIDATE (R431): the entries of `count` pages are dropped, and the accesses that used them are
performed. -/
def execAtsInvalidate (asid : BitVec 16) (page count : Nat) (s : State) : Host.Outcome State Fault Refusal :=
  let s := s.drain (fun d => (s.hart d.hart).space == asid)
  .next { s with hostIf := { s.hostIf with
    atc := s.hostIf.atc.filter (fun e => !(e.1.1 == asid && decide (page ≤ e.1.2 ∧ e.1.2 < page + count))) } }

/-! ### Scrubbing and slices -/

/-- A sector found uncorrectable is poisoned (R111). -/
def State.poisonSector (s : State) (q : Nat) : State :=
  if encrypted (q * 32) then { s with poison := setInsert s.poison q } else s

/-- SCRUB (R111): `bad` are the sectors of the stack in which an uncorrectable error is found. -/
def execScrub (die : Fin 8) (bad : List Nat) (s : State) : Host.Outcome State Fault Refusal :=
  .next ((bad.filter (fun q => regionOf (q * 32) == .hbm && homeOf s.mgmt.level (q * 32) == die)).foldl
    State.poisonSector s)

/-- SLCFG_WRITE (R139, R140). -/
def execSlcfgWrite (die : Fin 4) (slice : BitVec 3) (v : BitVec 64) (s : State) : Host.Outcome State Fault Refusal :=
  .next (s.updDie die (fun D => D.regWrite (0x400 + 8 * slice.toNat) v))

/-- A unit given to windows takes part in placement (R140). -/
def Slice.reclaim (l : Slice) (unit : Nat) : Slice :=
  { l with
    pending := l.pending.filter (fun u => u != unit)
    lines := if decide (unit < l.winunits.toNat) then l.lines.filter (fun x => x.unit != unit) else l.lines }

/-- WINDOW_UNIT_RECLAIM (R140): the lines of a unit given to windows have been written back, and its granules
are free for placement. -/
def execWindowUnitReclaim (die : Fin 4) (slice : BitVec 3) (unit : BitVec 5) (s : State) :
    Host.Outcome State Fault Refusal :=
  .next (s.updDie die (fun D =>
    match D.slices[slice.toNat]? with
    | some l => { D with slices := D.slices.setIfInBounds slice.toNat (l.reclaim unit.toNat) }
    | none => D))

end Sys2Proof.Machine
end

