-- ==== Sys2Proof/Machine/Int.lean ====
section
/-!
DEFINITION. The integer forms of the scalar core: majors 0x01, 0x02, 0x03, 0x09 and 0x0A (R200 to R203).
-/

namespace Sys2Proof.Machine

/-- A two-operand integer form: X[xd] := f(X[xa], X[xb]) (R200). -/
def aluXX (f : Word → Word → Word) (d a b : Reg) (s : State) : Host.Outcome State Fault Refusal :=
  .next ((s.setX d (f (s.getX a) (s.getX b))).advance)

/-- A one-operand integer form: X[xd] := f(X[xa]) (R200). -/
def aluX (f : Word → Word) (d a : Reg) (s : State) : Host.Outcome State Fault Refusal :=
  .next ((s.setX d (f (s.getX a))).advance)

/-- The shift amount of a register: its low six bits (R200). -/
def shamt (b : Word) : Nat := (fld b 0 6).toNat

/-- A result of 32 bits sign-extended (R56). -/
def sextW32 (w : Word) : Word := (w.setWidth 32).signExtend 64

/-- Leading zero bits of the low `n` bits of a word (R200). -/
def leadingZeros (w : Word) : Nat → Nat
  | 0 => 0
  | n + 1 => if w.getLsbD n then 0 else 1 + leadingZeros w n

/-- Trailing zero bits of a word, from bit `64 - n` up (R200). -/
def trailingZeros (w : Word) : Nat → Nat
  | 0 => 0
  | n + 1 => if w.getLsbD (63 - n) then 0 else 1 + trailingZeros w n

/-- Signed quotient rounded towards zero; zero divisor and overflow as R203 states. -/
def quotS (n : Nat) (a b : BitVec n) : BitVec n := if b = 0 then BitVec.allOnes n else a.sdiv b

/-- Signed remainder with the sign of `a` (R203). -/
def remS (n : Nat) (a b : BitVec n) : BitVec n := if b = 0 then a else a.srem b

/-- Unsigned quotient (R203). -/
def quotU (a b : Word) : Word := if b = 0 then BitVec.allOnes 64 else a / b

/-- Unsigned remainder (R203). -/
def remU (a b : Word) : Word := if b = 0 then a else a % b

/-- The high 64 bits of a product of two integers (R203). -/
def highProduct (a b : Int) : Word := BitVec.ofInt 64 (Int.fdiv (a * b) (2 ^ 64))

def execAdd (d a b : Reg) (s : State) : Host.Outcome State Fault Refusal := aluXX (· + ·) d a b s
def execSub (d a b : Reg) (s : State) : Host.Outcome State Fault Refusal := aluXX (· - ·) d a b s
def execAnd (d a b : Reg) (s : State) : Host.Outcome State Fault Refusal := aluXX (· &&& ·) d a b s
def execOr (d a b : Reg) (s : State) : Host.Outcome State Fault Refusal := aluXX (· ||| ·) d a b s
def execXor (d a b : Reg) (s : State) : Host.Outcome State Fault Refusal := aluXX (· ^^^ ·) d a b s
def execAndn (d a b : Reg) (s : State) : Host.Outcome State Fault Refusal :=
  aluXX (fun x y => x &&& ~~~y) d a b s
def execSll (d a b : Reg) (s : State) : Host.Outcome State Fault Refusal :=
  aluXX (fun x y => x <<< shamt y) d a b s
def execSrl (d a b : Reg) (s : State) : Host.Outcome State Fault Refusal :=
  aluXX (fun x y => x >>> shamt y) d a b s
def execSra (d a b : Reg) (s : State) : Host.Outcome State Fault Refusal :=
  aluXX (fun x y => x.sshiftRight (shamt y)) d a b s
def execSlt (d a b : Reg) (s : State) : Host.Outcome State Fault Refusal :=
  aluXX (fun x y => boolWord (x.slt y)) d a b s
def execSltu (d a b : Reg) (s : State) : Host.Outcome State Fault Refusal :=
  aluXX (fun x y => boolWord (x.ult y)) d a b s
def execMin (d a b : Reg) (s : State) : Host.Outcome State Fault Refusal :=
  aluXX (fun x y => if y.slt x then y else x) d a b s
def execMax (d a b : Reg) (s : State) : Host.Outcome State Fault Refusal :=
  aluXX (fun x y => if x.slt y then y else x) d a b s
def execMinu (d a b : Reg) (s : State) : Host.Outcome State Fault Refusal :=
  aluXX (fun x y => if y.ult x then y else x) d a b s
def execMaxu (d a b : Reg) (s : State) : Host.Outcome State Fault Refusal :=
  aluXX (fun x y => if x.ult y then y else x) d a b s
def execAddw (d a b : Reg) (s : State) : Host.Outcome State Fault Refusal :=
  aluXX (fun x y => sextW32 (x + y)) d a b s
def execSubw (d a b : Reg) (s : State) : Host.Outcome State Fault Refusal :=
  aluXX (fun x y => sextW32 (x - y)) d a b s
def execSh1add (d a b : Reg) (s : State) : Host.Outcome State Fault Refusal :=
  aluXX (fun x y => (x <<< 1) + y) d a b s
def execSh2add (d a b : Reg) (s : State) : Host.Outcome State Fault Refusal :=
  aluXX (fun x y => (x <<< 2) + y) d a b s
def execSh3add (d a b : Reg) (s : State) : Host.Outcome State Fault Refusal :=
  aluXX (fun x y => (x <<< 3) + y) d a b s
def execClz (d a : Reg) (s : State) : Host.Outcome State Fault Refusal :=
  aluX (fun x => BitVec.ofNat 64 (leadingZeros x 64)) d a s
def execCtz (d a : Reg) (s : State) : Host.Outcome State Fault Refusal :=
  aluX (fun x => BitVec.ofNat 64 (trailingZeros x 64)) d a s
def execCpop (d a : Reg) (s : State) : Host.Outcome State Fault Refusal :=
  aluX (fun x => BitVec.ofNat 64 (popcount x)) d a s
def execSlli (d a : Reg) (n : BitVec 6) (s : State) : Host.Outcome State Fault Refusal :=
  aluX (fun x => x <<< n.toNat) d a s
def execSrli (d a : Reg) (n : BitVec 6) (s : State) : Host.Outcome State Fault Refusal :=
  aluX (fun x => x >>> n.toNat) d a s
def execSrai (d a : Reg) (n : BitVec 6) (s : State) : Host.Outcome State Fault Refusal :=
  aluX (fun x => x.sshiftRight n.toNat) d a s
def execSextB (d a : Reg) (s : State) : Host.Outcome State Fault Refusal :=
  aluX (fun x => (x.setWidth 8).signExtend 64) d a s
def execSextH (d a : Reg) (s : State) : Host.Outcome State Fault Refusal :=
  aluX (fun x => (x.setWidth 16).signExtend 64) d a s
def execSextW (d a : Reg) (s : State) : Host.Outcome State Fault Refusal := aluX sextW32 d a s
def execZextB (d a : Reg) (s : State) : Host.Outcome State Fault Refusal :=
  aluX (fun x => (x.setWidth 8).setWidth 64) d a s
def execZextH (d a : Reg) (s : State) : Host.Outcome State Fault Refusal :=
  aluX (fun x => (x.setWidth 16).setWidth 64) d a s
def execZextW (d a : Reg) (s : State) : Host.Outcome State Fault Refusal :=
  aluX (fun x => (x.setWidth 32).setWidth 64) d a s
/-- ADDI (R201). -/
def execAddi (d a : Reg) (i : BitVec 16) (s : State) : Host.Outcome State Fault Refusal :=
  aluX (fun x => x + simm i) d a s
/-- LIK (R202). -/
def execLik (d : Reg) (i : BitVec 21) (s : State) : Host.Outcome State Fault Refusal :=
  .next ((s.setX d (simm i * 65536)).advance)
/-- PCREL (R202). -/
def execPcrel (d : Reg) (i : BitVec 21) (s : State) : Host.Outcome State Fault Refusal :=
  .next ((s.setX d (s.target i)).advance)
def execMul (d a b : Reg) (s : State) : Host.Outcome State Fault Refusal := aluXX (· * ·) d a b s
def execMulh (d a b : Reg) (s : State) : Host.Outcome State Fault Refusal :=
  aluXX (fun x y => highProduct x.toInt y.toInt) d a b s
def execMulhu (d a b : Reg) (s : State) : Host.Outcome State Fault Refusal :=
  aluXX (fun x y => highProduct x.toNat y.toNat) d a b s
def execMulhsu (d a b : Reg) (s : State) : Host.Outcome State Fault Refusal :=
  aluXX (fun x y => highProduct x.toInt y.toNat) d a b s
def execDiv (d a b : Reg) (s : State) : Host.Outcome State Fault Refusal := aluXX (quotS 64) d a b s
def execDivu (d a b : Reg) (s : State) : Host.Outcome State Fault Refusal := aluXX quotU d a b s
def execRem (d a b : Reg) (s : State) : Host.Outcome State Fault Refusal := aluXX (remS 64) d a b s
def execRemu (d a b : Reg) (s : State) : Host.Outcome State Fault Refusal := aluXX remU d a b s
def execMulw (d a b : Reg) (s : State) : Host.Outcome State Fault Refusal :=
  aluXX (fun x y => sextW32 (x * y)) d a b s
def execDivw (d a b : Reg) (s : State) : Host.Outcome State Fault Refusal :=
  aluXX (fun x y => (quotS 32 (x.setWidth 32) (y.setWidth 32)).signExtend 64) d a b s
def execRemw (d a b : Reg) (s : State) : Host.Outcome State Fault Refusal :=
  aluXX (fun x y => (remS 32 (x.setWidth 32) (y.setWidth 32)).signExtend 64) d a b s

end Sys2Proof.Machine
end

