-- ==== Sys2Proof/Machine/Load.lean ====
section
/-!
DEFINITION. The loader: the ALF object (R64 to R69), the checks of R71 in their order, relocation for one VLBYTES,
and placing the sections in an address space.
-/

namespace Sys2Proof.Machine

/-! ### Reading an object (R64 to R68) -/

/-- A section-table entry (R65). -/
structure AlfSection where
  kind : Nat
  flags : Nat
  off : Nat
  size : Nat
  align : Nat
  pad : Nat
  deriving DecidableEq, Repr

/-- The section table (R64, R65); empty where it does not lie in the object. -/
def alfSections (o : List Byte) : Option (List AlfSection) :=
  let n := leAt o 16 4
  let at_ := leAt o 20 4
  if o.length < at_ + 32 * n then none
  else some ((List.range n).map (fun i =>
    let e := at_ + 32 * i
    ⟨leAt o e 4, leAt o (e + 4) 4, leAt o (e + 8) 8, leAt o (e + 16) 8, leAt o (e + 24) 4, leAt o (e + 28) 4⟩))

/-- The section has bytes in the object: not zero-filled data, nor shadow-stack pages (R65). -/
def AlfSection.filed (e : AlfSection) : Bool := e.kind != 4 && e.kind != 5

/-- The loader places the section in memory (R65). -/
def AlfSection.placed (e : AlfSection) : Bool := e.flags.testBit 0

/-- The bytes of a section. -/
def AlfSection.bytes (e : AlfSection) (o : List Byte) : List Byte :=
  if e.filed then (o.drop e.off).take e.size else if e.kind = 4 then List.replicate e.size 0 else []

/-- The entries of a table of `n`-byte entries, over all the sections of a kind. DESIGN CHOICE (log 26): the bytes
that remain after the last whole entry of a section are ignored. -/
def entriesOf (o : List Byte) (ss : List AlfSection) (kind n : Nat) : List (List Byte) :=
  (ss.filter (fun e => e.kind == kind)).flatMap (fun e =>
    let bs := e.bytes o
    (List.range (bs.length / n)).map (fun i => (bs.drop (n * i)).take n))

/-! ### The checks of R71 -/

/-- Reason 2 for one section-table entry (R65). -/
def AlfSection.bad (e : AlfSection) : Bool :=
  e.kind == 0 || decide (13 < e.kind) || e.pad != 0
    || (if e.kind = 11 then e.flags % 65536 / 8 != 0 else e.flags / 8 != 0)

/-- Reason 2 (R64 to R68, R71). DESIGN CHOICE (log 26): a symbol whose BIND is a reserved value, 2 or more (R66), refuses the
object with this reason, which R71 states of reserved fields that are not zero. -/
def reservedBad (o : List Byte) (ss : List AlfSection) : Bool :=
  decide (3 < leAt o 6 2) || !zeroAt o 24 40 || ss.any AlfSection.bad
    || [6, 7, 8, 12, 13].any (fun k => decide (1 < (ss.filter (fun e => e.kind == k)).length))
    || (entriesOf o ss 6 48).any (fun b => !zeroAt b 29 3 || !zeroAt b 40 8)
    || (entriesOf o ss 7 8).any (fun b => !zeroAt b 1 3)
    || (entriesOf o ss 8 8).any (fun b => !zeroAt b 5 3)
    || (entriesOf o ss 10 16).any (fun b => !zeroAt b 3 1 || !zeroAt b 10 2)
    || (entriesOf o ss 12 24).any (fun b => decide (1 < leAt b 16 1) || !zeroAt b 17 7)

/-- Reason 4 (R71): sections with bytes overlap the header, the end of the object, or one another. -/
def overlapBad (o : List Byte) (ss : List AlfSection) : Bool :=
  let fs := ss.filter (fun e => e.filed && e.size != 0)
  fs.any (fun e => decide (e.off < 64 ∨ o.length < e.off + e.size))
    || (List.range fs.length).any (fun i => match fs[i]? with
      | some a => (fs.drop (i + 1)).any (fun b => decide (a.off < b.off + b.size ∧ b.off < a.off + a.size))
      | none => false)

/-- A loaded object before it is placed: its sections with their bases and bytes. -/
abbrev Image := List (AlfSection × Nat × List Byte)

/-- The sections at their bases; one that is not placed has base 0. -/
def imageOf (o : List Byte) (ss : List AlfSection) (bases : List Nat) : Image :=
  ss.mapIdx (fun i e => (e, if e.placed then bases.getD i 0 else 0, e.bytes o))

/-- The loaded address of a symbol (R66); `none` for an undefined one or an index beyond the table. -/
def symbolAt (o : List Byte) (ss : List AlfSection) (im : Image) (i : Nat) : Option Nat :=
  match (entriesOf o ss 12 24)[i]? with
  | some b => (im[leAt b 4 4]?).map (fun e => e.2.1 + leAt b 8 8)
  | none => none

/-- The field that a relocation type writes: bytes at the place, lowest bit and bits (R69). -/
def relocField : Nat → Option (Nat × Nat)
  | 1 => some (8, 64)
  | 2 => some (4, 11)
  | 3 => some (4, 16)
  | 4 => some (4, 24)
  | 5 => some (4, 21)
  | 6 | 8 => some (4, 16)
  | 7 | 9 => some (4, 12)
  | _ => none

/-- The value of a relocation (R69): of types 2 to 5 in words, which the target must be a whole number of. -/
def relocValue (type : Nat) (place vlbytes : Nat) (addend : Word) (target : Option Nat) (symbol : Nat) : Option Int :=
  if type ≤ 5 then
    match target with
    | none => none
    | some t =>
      let v := BitVec.ofNat 64 t + addend
      if type = 1 then some v.toNat
      else
        let d := (v - BitVec.ofNat 64 place).toInt
        if d % 4 = 0 then some (d / 4) else none
  else if symbol ≠ 0xFFFFFFFF then none
  else
    let v := (fld addend 0 48).toInt + ((fld addend 48 16).toNat : Int) * (vlbytes : Int)
    some (if type ≤ 7 then v else -v)

/-- Bytes of a list replaced from an offset. -/
def patch (bs : List Byte) (off : Nat) (new : List Byte) : List Byte :=
  bs.take off ++ new ++ bs.drop (off + new.length)

/-- One relocation applied to its section (R69); `none` for reason 5. -/
def relocate (o : List Byte) (ss : List AlfSection) (vlbytes : Nat) (sec : Nat) (r : List Byte) (im : Image) :
    Option Image :=
  let p := leAt r 0 8
  let type := leAt r 8 4
  let symbol := leAt r 12 4
  match relocField type, im[sec]? with
  | some (n, bits), some (e, base, bs) =>
    if bs.length < p + n then none
    else match relocValue type (base + p) vlbytes (BitVec.ofNat 64 (leAt r 16 8)) (symbolAt o ss im symbol) symbol with
      | none => none
      | some v =>
        if type ≠ 1 ∧ ¬(-(2 : Int) ^ (bits - 1) ≤ v ∧ v < (2 : Int) ^ (bits - 1)) then none
        else
          let old := leAt bs p n
          let new := old / 2 ^ bits * 2 ^ bits + wrapInt bits v
          some (im.set sec (e, base, patch bs p (bytesOf n new)))
  | _, _ => none

/-- Every relocation applied in order; `none` for reason 5 (R71). -/
def relocateAll (o : List Byte) (ss : List AlfSection) (vlbytes : Nat) (im : Image) : Option Image :=
  (ss.filter (fun e => e.kind == 11)).foldl (fun im e =>
    (entriesOf o [e] 11 24).foldl (fun im r => im.bind (relocate o ss vlbytes (e.flags / 65536) r)) im) (some im)

/-- A convoy header stands at an address that is 0 modulo 8 among code words from an address on (R26, R28). -/
def headerMisplaced (at_ : Nat) (bs : List Byte) : Nat → Bool
  | 0 => false
  | fuel + 1 =>
    if bs.length < 4 then false
    else
      let w := leAt bs 0 4
      if w / 2 ^ 26 = 0x3E then
        if at_ % 8 = 0 then true
        else
          let n := 4 + 8 * (w / 2 ^ 24 % 4 + 1)
          headerMisplaced (at_ + n) (bs.drop n) fuel
      else headerMisplaced (at_ + 4) (bs.drop 4) fuel

/-- Reason 6 (R71). -/
def codeBad (im : Image) : Bool :=
  im.any (fun e => e.1.kind == 1 && (e.2.2.length % 4 != 0 || headerMisplaced e.2.1 e.2.2 e.2.2.length))

/-- A page image keeps the limits of R322 and R323: links, memory operations and unit instructions. DESIGN CHOICE (log 26):
these, and whole images with NPAGES from 1 to 16, are the limits of the fabric that reason 7 of R71 speaks of; the depths of
links (R313, R318) are left to `fload`. -/
def pageLimitsOk (page : List Byte) : Bool :=
  decide (leAt page 5 1 ≤ 64 ∧ leAt page 6 1 ≤ 16)
    && (List.range 16).all (fun u => decide (leAt page (1216 + 8 * u) 1 ≤ 16))

/-- The page sets of a section are whole, each of 1 to 16 pages within their limits (R322, R323). DESIGN CHOICE (log 26): as
`pageLimitsOk` says. -/
def pageSetsOk (bs : List Byte) : Nat → Bool
  | 0 => bs.isEmpty
  | fuel + 1 =>
    if bs.isEmpty then true
    else
      let n := leAt bs 3 1
      decide (1 ≤ n ∧ n ≤ 16 ∧ 4096 * n ≤ bs.length)
        && (List.range n).all (fun p => pageLimitsOk ((bs.drop (4096 * p)).take 4096))
        && pageSetsOk (bs.drop (4096 * n)) fuel

/-- Reason 7 (R65, R71, R322, R360, R393): the levels of each kernel, the capsule-operation table, the page sets. DESIGN CHOICE
(log 26): a capsule-operation section that is not 2,048 bytes long, a level of a kind above 2, and levels of a kernel that lie
outside the loop table are refused so, though R71 names only tables beyond the limits. -/
def limitsBad (o : List Byte) (ss : List AlfSection) : Bool :=
  let levels := (entriesOf o ss 7 8).flatten
  (entriesOf o ss 6 48).any (fun b =>
      let idx := leAt b 26 2
      let n := leAt b 28 1
      decide (levels.length < 8 * (idx + n)) || !levelsOk (levels.drop (8 * idx)) n)
    || ss.any (fun e => e.kind == 8 && e.size != 2048)
    || (entriesOf o ss 8 8).any (fun b => leAt b 4 1 / 2 != 0)
    || ss.any (fun e => e.kind == 9 && !pageSetsOk (e.bytes o) (e.size / 4096 + 1))

/-- The first reason of R71 for which an object is refused, or its relocated sections. DESIGN CHOICE (log 26): the
bytes of the header that a shorter object lacks read as 0. -/
def checkObject (job : LoadJob) : Except Nat Image :=
  let o := job.object
  let vlmin := leAt o 8 4
  let vlmax := leAt o 12 4
  if o.take 4 ≠ [0x41, 0x4C, 0x46, 0x01] ∨ leAt o 4 2 ≠ 1 then .error 1
  else match alfSections o with
    | none => .error 2
    | some ss =>
      if reservedBad o ss then .error 2
      else if job.vlbytes ≠ 0 ∧ (job.vlbytes < vlmin ∨ vlmax < job.vlbytes) then .error 3
      else if overlapBad o ss then .error 4
      else
        match relocateAll o ss job.vlbytes (imageOf o ss job.bases) with
        | none => .error 5
        | some im =>
          if codeBad im then .error 6
          else if limitsBad o ss then .error 7
          else .ok im

/-! ### Placing (R71) -/

/-- One byte placed at a virtual address of an address space, through the ASID table of die 0 (log 13); `none` where
the address is not memory. DESIGN CHOICE (log 26): the loader writes through whatever translation stands, and
compares neither the flags of the section nor its kind with the permissions of the page. -/
def State.spacePut (s : State) (asid : BitVec 16) (va : Nat) (b : Byte) : Option State :=
  match s.walk (s.spaceEntry 0 asid).1 asid va with
  | .error _ => none
  | .ok l =>
    if s.keyInvalid l.key then none
    else match s.place asid l.pa with
      | .cell c => some (s.putByte c l.key b)
      | _ => none

/-- Bytes placed at a virtual address. -/
def State.spacePutAll (s : State) (asid : BitVec 16) (va : Nat) : List Byte → Option State
  | [] => some s
  | b :: t => (s.spacePut asid va b).bind (fun s => s.spacePutAll asid (va + 1) t)

/-- Each placed section stands at a multiple of its alignment, and a page set at one of 4 KiB (R65, R322). DESIGN
CHOICE (log 26): the alignment field `n` stands for 2^n bytes. -/
def alignedOk (im : Image) : Bool :=
  im.all (fun e => !e.1.placed
    || (e.2.1 % 2 ^ e.1.align == 0 && (e.1.kind != 9 || e.2.1 % 4096 == 0)))

/-- The ring declarations of an object (R68). One whose RING or ENTRYBYTES no `ring.cfg` can name is refused as
`ring.cfg` would refuse it, and one whose symbol has no address too. -/
def ringsOf (o : List Byte) (im : Image) : List (Nat × RingDecl) :=
  let ss := im.map (fun e => e.1)
  ((entriesOf o ss 10 16).filter (fun b => decide (leAt b 2 1 < 8 ∧ leAt b 4 4 < 65536))).filterMap (fun b =>
    (symbolAt o ss im (leAt b 12 4)).map (fun base =>
      (leAt b 0 2, ⟨leAt b 2 1, BitVec.ofNat 64 base, BitVec.ofNat 64 (leAt b 4 4 + 65536 * leAt b 8 2)⟩)))

/-- LOAD_OBJECT (R71): a refused object is reported with its reason and none of it is loaded. -/
def execLoadObject (job : LoadJob) (s : State) : Host.Outcome State Fault Refusal :=
  .next (if s.mgmt.level = 0 then s
  else match checkObject job with
    | .error r => { s with loadReport := r }
    | .ok im =>
      if !alignedOk im then s
      else match im.foldl (fun (acc : Option State) e =>
          if e.1.placed then acc.bind (fun s => s.spacePutAll job.asid e.2.1 e.2.2) else acc) (some s) with
        | none => s
        | some s' =>
          let L : Loaded := {
            object := job.object
            asid := job.asid
            vlbytes := job.vlbytes
            sections := im.map (fun e => (e.1.kind, e.2.1, if e.1.placed then e.1.size else 0))
            rings := ringsOf job.object im }
          { s' with loadReport := 0, loaded := L :: s'.loaded })

end Sys2Proof.Machine
end

