-- ==== Sys2Proof/Machine/Mgmt.lean ====
section
/-!
DEFINITION. The management complex: the mailbox and the firmware sequence (R453 to R456, R460), keys and
attestation (R454, R465), bring-up (R452, R456), the watchdog ladder and resets (R457, R462), telemetry (R463),
and register writes by the host and the Watershed (R112, R113, R451, R453, R458).
-/

namespace Sys2Proof.Machine

/-! ### The mailbox (R453) -/

/-- The management side replaced by its image. -/
def State.updMgmt (s : State) (f : Mgmt → Mgmt) : State := { s with mgmt := f s.mgmt }

/-- MBSTAT with a RESULT and a DETAIL (R453). -/
def Mgmt.answer (m : Mgmt) (result detail : Nat) : Mgmt :=
  { m with mbstat := setFld (setFld (BitVec.ofNat 64 m.level) 8 (BitVec.ofNat 8 result)) 16 (BitVec.ofNat 16 detail) }

/-- The service level moves (R453, R456, R457). -/
def Mgmt.toLevel (m : Mgmt) (n : Nat) : Mgmt :=
  { m with level := n, wslevel := BitVec.ofNat 64 n, mbstat := setFld m.mbstat 0 (BitVec.ofNat 2 n) }

/-- RESULT is busy (R453). -/
def Mgmt.busy (m : Mgmt) : Bool := fld m.mbstat 8 8 == 1

/-- The valid bytes in the data window (R453). -/
def Mgmt.len (m : Mgmt) : Nat := (fld m.mblen 0 32).toNat

/-- The first bytes of the data window. -/
def Mgmt.data (m : Mgmt) (n : Nat) : List Byte := memBytes m.window 0 n

/-- A command written to MBCMD (R453): ignored while RESULT is busy. The command answers with its RESULT and
DETAIL. -/
def State.command (s : State) (code : Nat) (arg : BitVec 32) (f : State → State × Nat × Nat) :
    Host.Outcome State Fault Refusal :=
  .next (if s.mgmt.busy then s
  else
    let s := s.updMgmt (fun m => { m with mbcmd := setFld (BitVec.ofNat 64 code) 8 arg })
    let (s, r, d) := f s
    s.updMgmt (fun m => m.answer r d))

/-- The slot that is not active (R453, R460). -/
def Mgmt.inactive (m : Mgmt) : Nat := if m.active = some 0 then 1 else 0

/-- A firmware slot. -/
def Mgmt.slot (m : Mgmt) (k : Nat) : FwSlot := m.slots[k]?.getD ⟨[], false⟩

/-- The image in the inactive slot replaced, and the stage of the sequence. -/
def Mgmt.putImage (m : Mgmt) (st : FwStage) (img : List Byte) (ok : Bool) : Mgmt :=
  { m with stage := st, slots := m.slots.setIfInBounds m.inactive ⟨img, ok⟩ }

/-- BEGIN (R453). -/
def execMbBegin (arg : BitVec 32) (s : State) : Host.Outcome State Fault Refusal :=
  s.command 1 arg (fun s =>
    if s.mgmt.stage = .idle then
      let n := arg.toNat * 4096
      (s.updMgmt (fun m => m.putImage (.loading n) (List.replicate n 0) false), 0, 0)
    else (s, 2, 0))

/-- CHUNK (R453). -/
def execMbChunk (arg : BitVec 32) (s : State) : Host.Outcome State Fault Refusal :=
  s.command 2 arg (fun s =>
    match s.mgmt.stage with
    | .loading n =>
      let len := s.mgmt.len
      let off := arg.toNat * 4096
      if 61440 < len ∨ n < off + len then (s, 3, 0)
      else
        (s.updMgmt (fun m =>
          let img := (m.slot m.inactive).image
          m.putImage m.stage (img.take off ++ m.data len ++ img.drop (off + len)) false), 0, 0)
    | _ => (s, 2, 0))

/-- The verdict of the boot core on an image for which `n` bytes were expected (R455). -/
def imageVerdict (m : Mgmt) (img : List Byte) (n : Nat) : Nat :=
  let len := leAt img 8 8
  let keyid := leAt img 16 1
  let sound := (img.take 4 == [0x43, 0x46, 0x57, 0x01]) && zeroAt img 17 47 && zeroAt img 160 96
    && decide (256 ≤ len) && decide (roundup len 4096 = n)
  if !sound then 3
  else if 3 < keyid ∨ m.revoked.getLsbD keyid = true then 6
  else if leAt img 4 4 < m.svnmin then 5
  else if (img.drop 64).take 32 = Config.sm3 ((img.drop 256).take (len - 256))
      ∧ Config.sm2Verify keyid (img.take 96) ((img.drop 96).take 64) = true then 0
  else 4

/-- VERIFY (R455). DESIGN CHOICE (log 25): straight after BEGIN, with no CHUNK between, it stands in its order too. -/
def execMbVerify (arg : BitVec 32) (s : State) : Host.Outcome State Fault Refusal :=
  s.command 3 arg (fun s =>
    match s.mgmt.stage with
    | .loading n =>
      let img := (s.mgmt.slot s.mgmt.inactive).image
      let r := imageVerdict s.mgmt img n
      if r = 0 then
        (s.updMgmt (fun m => m.putImage .verified img true), 0, 0)
      else (s, r, 0)
    | _ => (s, 2, 0))

/-- The inactive slot becomes the active one (R456, R460). -/
def Mgmt.flip (m : Mgmt) : Mgmt :=
  let k := m.inactive
  { m with active := some k, wshand := setBit m.wshand 1 (k == 1) }

/-- The compute die of an island, for the islands of tiles, L2 columns, links and die networks; the manual
numbers no islands, and the model takes them in the order of R23 (log 13). -/
def islandDie (i : Nat) : Option (Fin 4) :=
  if i < 224 then some ⟨i / 56 % 4, by omega⟩
  else if i < 228 then some ⟨(i - 224) % 4, by omega⟩
  else if 244 ≤ i ∧ i < 252 then some ⟨(i - 244) % 4, by omega⟩
  else none

/-- The islands of a compute die run at a frequency (R456). -/
def Mgmt.dieClock (m : Mgmt) (d : Fin 4) (mhz : Nat) : Mgmt :=
  { m with islands := m.islands.mapIdx (fun i f => if islandDie i = some d then mhz else f) }

/-- BOOT (R456, R460): at level 0 the module comes to level 1, and at level 2 a handover starts. -/
def execMbBoot (arg : BitVec 32) (s : State) : Host.Outcome State Fault Refusal :=
  s.command 4 arg (fun s =>
    if s.mgmt.stage ≠ .verified then (s, 2, 0)
    else if s.mgmt.level = 0 then
      (s.updMgmt (fun m => { (m.flip.toLevel 1).dieClock 0 900 with stage := .idle }), 0, 0)
    else if s.mgmt.level = 2 then
      (s.updMgmt (fun m => { m with stage := .idle, wshand := setBit (setBit m.wshand 0 true) 2 false }), 1, 0)
    else (s, 9, 0))

/-- ABORT (R453). -/
def execMbAbort (arg : BitVec 32) (s : State) : Host.Outcome State Fault Refusal :=
  s.command 5 arg (fun s =>
    match s.mgmt.stage with
    | .loading _ =>
      (s.updMgmt (fun m => m.putImage .idle [] false), 0, 0)
    | _ => (s, 2, 0))

/-- A record of the event log as its 64 bytes (R464). -/
def LogRec.bytes (r : LogRec) : List Byte :=
  bytesOf 8 r.seq ++ bytesOf 2 r.source ++ [if r.claimed then 1 else 0] ++ bytesOf 5 0 ++ bytesOf 8 r.stamp
    ++ (r.detail ++ List.replicate 40 0).take 40

/-- Bytes put into the data window. -/
def Mgmt.putData (m : Mgmt) (off : Nat) (bs : List Byte) : Mgmt := { m with window := memPutAll m.window off bs }

/-- LOG (R453, R464): up to 960 of the oldest unread records. -/
def execMbLog (arg : BitVec 32) (s : State) : Host.Outcome State Fault Refusal :=
  s.command 6 arg (fun s =>
    let rs := (s.mgmt.log.filter (fun r => !r.read)).take 960
    (s.updMgmt (fun m =>
      { m.putData 0 (rs.flatMap LogRec.bytes) with
        log := m.log.map (fun r => if rs.contains r then { r with read := true } else r) }), 0, rs.length))

/-! ### Keys and attestation (R454, R465) -/

/-- The entries of landing dies that record a key index. -/
def State.keyedEntries (s : State) (k : Nat) : List (Nat × Nat × Rsv) :=
  (dieList.map (fun d => ((s.landing d).entries.filter (fun e => e.2.key == k)).map (fun e => (d.val, e.1, e.2)))).flatten

/-- The entries that record a key index freed, wherever a stream or a peer's extent names them. -/
def State.freeKeyed (s : State) (k : Nat) : State :=
  let refs := (s.keyedEntries k).map (fun e => (e.1, e.2.1))
  let forget (t : Stream) : Stream := { t with
    extents := t.extents.map (fun e => { e with dies := e.dies.filter (fun q => !refs.contains q) }) }
  let s := s.freeAt refs
  let s := if refs.isEmpty then s
    else (allHarts.flatMap s.streamsOf ++ s.savedStreams).foldl (fun s e => match s.streamAt e.1 with
      | some t => s.putAt e.1 (forget t)
      | none => s) s
  { s with rsvIn := s.rsvIn.map (fun e => (e.1, e.2.filter (fun q => !refs.contains q))) }

/-- Every holder of a line filled under a key index gives it up (R117). -/
def State.recallKey (s : State) (k : Nat) : State :=
  (s.dir.filter (fun e => e.key == k)).foldl (fun s e => s.putDir e.recall) s

/-- A key slot changed (R117, R465): the lines, windows and reservations tagged with it are written back and
invalidated first. -/
def State.setKey (s : State) (k : Nat) (K : KeySlot) : State :=
  let s := (s.keyedEntries k).foldl (fun s e => (s.splitEntry false e.1 e.2.1 e.2.2).1) s
  let s := s.freeKeyed k
  let s := ((s.flushWindows (fun l => l.key == k)).drain (fun d => d.key == k)).recallKey k
  { s with
    tiles := s.tiles.map (fun T => { T with icache := T.icache.filter (fun l => l.key != k) })
    keys := s.keys.setIfInBounds k K }

/-- A key command (R454): its level, its LEN, then its ARG and what else refuses it. -/
def State.keyCommand (s : State) (code : Nat) (arg : BitVec 32) (lens types : List Nat) (good : State → Bool)
    (K : State → KeySlot) : Host.Outcome State Fault Refusal :=
  s.command code arg (fun s =>
    let slot := (fld arg 0 9).toNat
    let type := (fld arg 9 2).toNat
    if s.mgmt.level = 0 then (s, 9, 0)
    else if !lens.contains s.mgmt.len then (s, 3, 0)
    else if slot = 0 ∨ types.contains type = false ∨ arg.toNat / 2048 ≠ 0 ∨ good s = false then (s, 8, 0)
    else ({ s.setKey slot (K s) with fresh := s.fresh + 1 }, 0, 0))

/-- KEYLOAD (R454): the wrapped key in the data window. -/
def execKeyload (arg : BitVec 32) (s : State) : Host.Outcome State Fault Refusal :=
  let type := (fld arg 9 2).toNat
  let lens := if type = 1 then [129] else if type = 2 then [161] else [129, 161]
  s.keyCommand 7 arg lens [1, 2] (fun s => Config.sm2Match (s.mgmt.data s.mgmt.len))
    (fun s => ⟨type, .loaded (Config.sm2Decrypt (s.mgmt.data s.mgmt.len))⟩)

/-- KEYGEN (R454): a key that no other slot has. -/
def execKeygen (arg : BitVec 32) (s : State) : Host.Outcome State Fault Refusal :=
  s.keyCommand 8 arg [0] [1, 2] (fun _ => true) (fun s => ⟨(fld arg 9 2).toNat, .fresh s.fresh⟩)

/-- KEYCLEAR (R454). -/
def execKeyclear (arg : BitVec 32) (s : State) : Host.Outcome State Fault Refusal :=
  s.keyCommand 9 arg [0] [0, 3] (fun _ => true) (fun _ => ⟨(fld arg 9 2).toNat, .none⟩)

/-- `n` bytes of a list, with zeros where it is short. -/
def padTo (n : Nat) (bs : List Byte) : List Byte := (bs ++ List.replicate n 0).take n

/-- Bytes 0 to 191 of the attestation record (R454). -/
def Mgmt.attestation (m : Mgmt) : List Byte :=
  let img := match m.active with
    | some k => (m.slot k).image
    | none => []
  let digest := if m.active.isSome then Config.sm3 (img.take 256) else []
  padTo 32 (m.data 32) ++ padTo 32 digest ++ padTo 32 (Config.sm3 Config.fusedState)
    ++ bytesOf 4 (leAt img 4 4) ++ [byteOf (m.active.getD 0), byteOf m.level] ++ bytesOf 26 0
    ++ padTo 64 Config.keyWrapPublic

/-- ATTEST (R454). -/
def execAttest (arg : BitVec 32) (s : State) : Host.Outcome State Fault Refusal :=
  s.command 10 arg (fun s =>
    if s.mgmt.len ≠ 32 then (s, 3, 0)
    else if arg ≠ 0 then (s, 8, 0)
    else
      let body := s.mgmt.attestation
      (s.updMgmt (fun m => { m.putData 0 (body ++ padTo 64 (Config.sm2Sign body)) with
        mblen := 256 }), 0, 0))

/-! ### Bring-up and handover (R452, R456, R460) -/

/-- Memory outside the module: the host's and the peers'. -/
def outside (m : List Host.Cell) : List Host.Cell := m.filter (fun e => decide (0x1000000000000000 ≤ e.1))

/-- POWER_ON (R115, R452): the module as after power-on. The fuses stay, and so does what is outside the
module; slot 0 takes a fresh key. -/
def execPowerOn (s : State) : Host.Outcome State Fault Refusal :=
  .next { State.reset with
    agenda := s.agenda
    fresh := s.fresh + 1
    mem := outside s.mem
    peerHeld := s.peerHeld
    keys := State.reset.keys.setIfInBounds 0 ⟨2, .fresh s.fresh⟩
    mgmt := { Mgmt.reset with svnmin := s.mgmt.svnmin, revoked := s.mgmt.revoked } }

/-- An event sent to the host, and recorded, with a detail that the manual leaves open (R462). -/
def State.tellHost (s : State) : State := ({ s with fresh := s.fresh + 5 } : State).sendEvent (freeDetail s.fresh)

/-- TRAINING_COMPLETE (R456, R462): at level 2, of the dies that a reset has left to train again. -/
def execTrainingComplete (ok : Bool) (part : BitVec 16) (s : State) : Host.Outcome State Fault Refusal :=
  .next (if s.mgmt.level ≠ 1 then
    (if ok then { s with dies := s.dies.map (fun D => { D with retraining := false }) } else s)
  else if ok then { s.updMgmt (fun m => (m.toLevel 2).dieClock 0 1800) with portsUp := BitVec.allOnes 16 }
  else (s.updMgmt (fun m => m.answer 7 part.toNat)).logOwn (bytesOf 2 part.toNat))

/-- The doorbells latched by a pair take effect in their order (R460). -/
def Pair.unlatch (P : Pair) : Pair :=
  { P.latched.foldl (fun P e => P.ring e.1 e.2) P with latched := [] }

/-- A handover ends: the queues are served again from their saved heads (R460). -/
def State.endHandover (s : State) (f : Mgmt → Mgmt) : State :=
  { s with mgmt := f { s.mgmt with wshand := setBit s.mgmt.wshand 0 false }, pairs := s.pairs.map Pair.unlatch }

/-- HANDOVER_READY (R460). -/
def execHandoverReady (s : State) : Host.Outcome State Fault Refusal :=
  .next (if s.mgmt.handing then
    s.endHandover (fun m => ({ m.flip with wshand := setBit m.flip.wshand 2 true } : Mgmt).answer 0 0)
  else s)

/-- HANDOVER_TIMEOUT (R460): the cores run from the old slot again. -/
def execHandoverTimeout (s : State) : Host.Outcome State Fault Refusal :=
  .next (if s.mgmt.handing then s.endHandover (fun m => m.answer 7 0) else s)

/-- WSKICK (R457): the core's watchdog is restarted. -/
def execWskick (core : Fin 4) (s : State) : Host.Outcome State Fault Refusal :=
  .next (s.updMgmt (fun m => { m with wskick := m.wskick.set core.val true }))

/-- WATERSHED_WATCHDOG_EXPIRY (R457): the core's watchdog has run out. -/
def execWatershedWatchdogExpiry (core : Fin 4) (s : State) : Host.Outcome State Fault Refusal :=
  .next (s.updMgmt (fun m => { m with wskick := m.wskick.set core.val false }))

/-! ### Chafen's CSRs of the Watershed cores (R457) -/

/-- What a Watershed core reads of one of Chafen's CSRs (R457); `none` is the standard illegal-instruction exception, which
an access below machine level raises. -/
def Mgmt.wsRead (m : Mgmt) (core : Fin 4) (machine : Bool) (csr : Nat) : Option Word :=
  if !machine then none
  else match csr with
    | 0x7C0 => some (BitVec.ofNat 64 core.val)
    | 0x7C1 => some m.wslevel
    | 0x7C2 => some m.wshand
    | 0x7C3 => some 0
    | _ => none

/-- A write of one of Chafen's CSRs by a Watershed core at machine level (R457): WSLEVEL by the security core alone, READY of
WSHAND, and WSKICK. A core that sets READY during a handover ends it (R460). -/
def State.wsWrite (s : State) (core : Fin 4) (csr : Nat) (v : Word) : State :=
  match csr with
  | 0x7C1 => if core = 2 ∧ v.toNat % 4 < 3 then s.updMgmt (fun m => m.toLevel (v.toNat % 4)) else s
  | 0x7C2 =>
    if s.mgmt.handing ∧ v.getLsbD 2 = true then
      s.endHandover (fun m => ({ m.flip with wshand := setBit m.flip.wshand 2 true } : Mgmt).answer 0 0)
    else s.updMgmt (fun m => { m with wshand := setBit m.wshand 2 (v.getLsbD 2) })
  | 0x7C3 => s.updMgmt (fun m => { m with wskick := m.wskick.set core.val true })
  | _ => s

/-! ### The watchdog ladder (R462) -/

/-- WDCFG.LIM of a hart's die. -/
def State.watchLimit (s : State) (h : HartId) : Nat := (fld (s.die (dieOf (tileOf h))).wdcfg 0 48).toNat

/-- The watchdog counter of a placed hart has reached LIM. -/
def State.watchDue (s : State) (h : HartId) : Bool :=
  s.watchLimit h != 0 && (s.hart h).run != .idle && decide (s.watchLimit h ≤ (s.hart h).watchdog)

/-- WATCHDOG_NOTICE (R418, R462): step 1. -/
def execWatchdogNotice (h : HartId) (s : State) : Host.Outcome State Fault Refusal :=
  .next (if s.watchDue h = true ∧ (s.hart h).ladder = 0 then
    (s.updHart h (fun H => { H with
      watchdog := 0
      ladder := 1
      csr := { H.csr with sstat := setBit H.csr.sstat 27 true } })).noteStep
  else s)

/-- WATCHDOG_SAVE (R373, R462): step 2. Without free slots for its images the gang is ended, and the host is
told. -/
def execWatchdogSave (h : HartId) (s : State) : Host.Outcome State Fault Refusal :=
  .next (if s.watchDue h = true ∧ (s.hart h).ladder = 1 then
    match s.gangOf h with
    | some (G, _) => if s.slotsFor G then (s.saveGang G).noteStep else (s.endGang G.id).tellHost
    | none => s
  else s)

/-- Step 2 has failed for a hart (R462): its limit has passed once more, and it is not saved. -/
def State.saveFailed (s : State) (h : HartId) : Bool :=
  s.watchDue h && (s.hart h).ladder == 1 && decide (2 * s.watchLimit h ≤ (s.hart h).watchdog)

/-- TILE_QUARANTINE (R462): step 3. -/
def execTileQuarantine (t : Fin 224) (s : State) : Host.Outcome State Fault Refusal :=
  .next (if (hartsOf t).any s.saveFailed then
    (((hartsOf t).filter s.saveFailed).foldl (fun s h => s.updHart h (fun H => { H with watchdog := 0, ladder := 3 }))
      (s.updTile t (fun T => { T with quarantined := true }))).noteStep
  else s)

/-- The limit has passed again for a hart of a tile since step 3 (R462). -/
def State.stillStuck (s : State) (h : HartId) : Bool := s.watchDue h && (s.hart h).ladder == 3

/-- TILE_RETURN (R462). -/
def execTileReturn (t : Fin 224) (s : State) : Host.Outcome State Fault Refusal :=
  .next (s.updTile t (fun T => { T with quarantined := false }))

/-- The running gangs with a hart for which a predicate holds, and the saved ones for which another does. -/
def State.gangsWith (s : State) (p : HartId → Bool) (q : Saved → Bool) (r : Launch → Bool) : List Nat :=
  (s.gangs.filter (fun G => r G.launch || G.members.any (fun m => match m.saved with
    | some v => q v
    | none => p m.ctx))).map (fun G => G.id)

/-- A context reset: what the streams that a supervisor saved from it hold is given up. -/
def State.resetHart (s : State) (h : HartId) : State :=
  let s := (s.hart h).releasing.foldl (fun s t => s.dropStream h t) s
  (s.unparkHart h).updHart h (fun _ => Hart.reset)

/-- A tile reset with its contexts; a quarantine stays. -/
def State.resetTile (s : State) (t : Fin 224) : State :=
  ((hartsOf t).foldl State.resetHart s).updTile t (fun T => { Tile.reset with quarantined := T.quarantined })

/-- ISLAND_RESET (R462): step 4. The gangs with a hart on the tile are ended (log 13). -/
def execIslandReset (t : Fin 224) (s : State) : Host.Outcome State Fault Refusal :=
  if (hartsOf t).all (fun h => !s.stillStuck h) then .next s
  else
  let s := (s.gangsWith (fun h => tileOf h == t) (fun _ => false) (fun _ => false)).foldl State.endGang s
  .next (s.resetTile t).noteStep

/-- A die reset (R462): its gangs, save pool, launch queues and counters are discarded, and the entries that its
harts own are freed. -/
def State.resetDie (s : State) (d : Fin 4) : State :=
  let s := (s.gangsWith (fun h => dieOf (tileOf h) == d) (fun v => v.die == d.val || v.oldTile / 56 == d.val)
    (fun l => l.die == d.val)).foldl State.endGang s
  let ids := (s.die d).queues.toList.flatMap (fun q => q.entries.filterMap (fun e => match e with
    | .record l => some l.id
    | .resume _ => none))
  let s := { s with records := s.records.filter (fun e => !ids.contains e.1) }
  let s := ((List.finRange 224).filter (fun t => dieOf t == d)).foldl State.resetTile s
  let s := s.mapEntries (fun r => if !r.remote && r.tile / 56 == d.val then none else some r)
  s.updDie d (fun _ => { Die.reset with retraining := true })

/-- Step 4 has failed for a hart (R462): 1 ms of its tile's island has passed since it was due, or the limit once
more. -/
def State.resetFailed (s : State) (h : HartId) : Bool :=
  let ms := 1000 * s.mgmt.islands[(tileOf h).val]?.getD 450
  s.stillStuck h && decide (s.watchLimit h + Nat.min ms (s.watchLimit h) ≤ (s.hart h).watchdog)

/-- DIE_RESET (R462): step 5. -/
def execDieReset (die : Fin 4) (s : State) : Host.Outcome State Fault Refusal :=
  .next (if allHarts.any (fun h => dieOf (tileOf h) == die && s.resetFailed h) then (s.resetDie die).tellHost else s)

/-- RESET_REQUEST (R462): step 6, where a die that was reset does not train again. The reset that the host then
performs is POWER_ON. -/
def execResetRequest (die : Fin 4) (s : State) : Host.Outcome State Fault Refusal :=
  .next (if (s.die die).retraining then s.tellHost else s)

/-! ### Telemetry (R463) -/

/-- A lower frequency of an island (R463): a multiple of 50 MHz, from 450 MHz up, by as much as the manual leaves
open (log 10). -/
def lowered (f n : Nat) : Nat := 450 + 50 * ((Config.freeWord n).toNat % ((f - 450) / 50))

/-- The Watershed sets an island's frequency and voltage (R23, R463): steps of 50 MHz from 450 MHz to 1.8 GHz, at 480
to 750 mV. -/
def State.setIsland (s : State) (k mhz mv : Nat) : State :=
  if mhz % 50 = 0 ∧ 450 ≤ mhz ∧ mhz ≤ 1800 ∧ 480 ≤ mv ∧ mv ≤ 750 then
    s.updMgmt (fun m => { m with islands := m.islands.setIfInBounds k mhz, volts := m.volts.setIfInBounds k mv })
  else s

/-- An island's frequency or voltage can be lowered. -/
def Mgmt.canSlow (m : Mgmt) (k : Nat) : Bool :=
  decide (500 ≤ m.islands[k]?.getD 450) || decide (480 < m.volts[k]?.getD 480)

/-- An island runs slower and at a lower voltage (R24), each where it is not at its least: by as much as the manual
leaves open (log 10). -/
def State.slowIsland (s : State) (k : Nat) : State :=
  let f := s.mgmt.islands[k]?.getD 450
  let v := s.mgmt.volts[k]?.getD 480
  { s.setIsland k (if 500 ≤ f then lowered f s.fresh else f)
      (if 480 < v then 480 + (Config.freeWord (s.fresh + 1)).toNat % (v - 480) else v) with fresh := s.fresh + 2 }

/-- The power of every rail sampled (R24, R463). A crossing of 2,000 W is recorded; above it the Watershed lowers islands,
at least one that can be lowered, chosen as the manual leaves open (log 10). -/
def State.powerSample (s : State) (rails : List Nat) : State :=
  let high := decide (2000 < rails.sum)
  let crossed := decide (2000 < s.mgmt.rails.sum) != high
  let s := s.updMgmt (fun m => { m with rails := rails })
  let s := if crossed then s.noteStep else s
  if !high then s
  else
    let can := (List.range 256).filter s.mgmt.canSlow
    let sure := can[(Config.freeWord s.fresh).toNat % can.length]?
    let pick := can.filter (fun k => sure == some k || (Config.freeWord (s.fresh + 1 + k)).getLsbD 0)
    pick.foldl State.slowIsland { s with fresh := s.fresh + 257 }

/-- One island's sample (R463). -/
def State.sample (s : State) (x : Sample) : State :=
  let i := x.island.val
  let old := s.mgmt.temps[i]?.getD 0
  let crossed := [105, 115].filter (fun (lim : Int) => decide (lim < old) != decide (lim < x.celsius))
  let s := s.updMgmt (fun m => { m with
    temps := m.temps.setIfInBounds i x.celsius
    sensed := m.sensed.setIfInBounds i x.mv })
  let s := crossed.foldl (fun s _ => s.noteStep) s
  let f := s.mgmt.islands[i]?.getD 450
  let s := if 105 < x.celsius ∧ 500 ≤ f then
      { s.updMgmt (fun m => { m with islands := m.islands.setIfInBounds i (lowered f s.fresh) }) with fresh := s.fresh + 1 }
    else s
  if 115 < x.celsius then
    match islandDie i with
    | some d => (s.resetDie d).tellHost
    | none => s
  else s

/-- TELEMETRY_SAMPLE (R463). -/
def execTelemetrySample (samples : List Sample) (s : State) : Host.Outcome State Fault Refusal :=
  .next (if s.mgmt.level = 0 then s else samples.foldl State.sample s)

/-! ### Register writes (R112, R113, R451, R453, R458) -/

/-- A peer window may stand beside the others (R113). -/
def State.peerWinOk (s : State) (w : Nat) (W : PeerWin) : Bool :=
  !W.on
    || ((List.range' 30 19).any (fun k => W.size == 2 ^ k) && W.base % W.size == 0 && decide (W.target < 1536)
      && regionOf W.base == .peer && regionOf (W.base + W.size - 1) == .peer
      && (List.range 64).all (fun v => v == w || (match s.peerWin[v]? with
        | some V => !V.on || decide (V.base + V.size ≤ W.base) || decide (W.base + W.size ≤ V.base)
        | none => true)))

/-- A write of a peer window by the Watershed (R113, R451): a SIZE of 0 disables it, and what it may not become
is refused. -/
def State.peerWinWrite (s : State) (off : Nat) (v : Word) : State :=
  let w := off / 32
  match s.peerWin[w]? with
  | none => s
  | some W =>
    let n := v.toNat
    let W' := match off % 32 / 8 with
      | 0 => { W with base := n }
      | 1 => { W with size := n, on := decide (n ≠ 0) }
      | 2 => { W with target := n }
      | _ => { W with offset := n }
    if s.peerWinOk w W' then { s with peerWin := s.peerWin.setIfInBounds w W' } else s

/-- A write of a device register by the Watershed (R451). -/
def State.deviceWrite (s : State) (off : Nat) (v : Word) : State :=
  if off % 8 ≠ 0 then s
  else if off = 0 then s.updMgmt (fun m => { m with modid := v })
  else if 0x20000 ≤ off ∧ off < 0x20800 then s.peerWinWrite (off - 0x20000) v
  else s.devWrite off v

/-- The mailbox command of a code (R453). -/
def State.mailbox (s : State) (code : Nat) (arg : BitVec 32) : Host.Outcome State Fault Refusal :=
  match code with
  | 1 => execMbBegin arg s
  | 2 => execMbChunk arg s
  | 3 => execMbVerify arg s
  | 4 => execMbBoot arg s
  | 5 => execMbAbort arg s
  | 6 => execMbLog arg s
  | 7 => execKeyload arg s
  | 8 => execKeygen arg s
  | 9 => execKeyclear arg s
  | 10 => execAttest arg s
  | _ => s.command code arg (fun s => (s, 2, 0))

/-- A write of 8 bytes in the mailbox window (R453). -/
def State.windowWrite (s : State) (off : Nat) (v : Word) : Host.Outcome State Fault Refusal :=
  if off = 0 then s.mailbox (fld v 0 8).toNat (fld v 8 32)
  else .next (
    if off = 0x10 then s.updMgmt (fun m => { m with mblen := v &&& 0xFFFFFFFF#64 })
    else if 0x1000 ≤ off ∧ off + 8 ≤ 0x10000 then s.updMgmt (fun m => m.putData (off - 0x1000) (bytesOf 8 v.toNat))
    else s)

/-- What the host reads of 8 bytes in the mailbox window (R453): MBCMD is write-only. -/
def State.windowRead (s : State) (off : Nat) : Word :=
  if off = 8 then s.mgmt.mbstat
  else if off = 0x10 then s.mgmt.mblen
  else if 0x1000 ≤ off ∧ off + 8 ≤ 0x10000 then BitVec.ofNat 64 (natOf (memBytes s.mgmt.window (off - 0x1000) 8))
  else 0

/-! ### The host link (R452, R458) -/

/-- What the host reads of 4 bytes of the configuration space that the ford presents (R452): the vendor ID of the fuse
block and the device ID, and the 64-bit BAR0 of 64 KiB; the rest is the standard's (log 29), and reads 0. -/
def State.cfgRead (s : State) (off : Nat) : BitVec 32 :=
  if off = 0 then 0x02240000#32 ||| Config.vendorId.setWidth 32
  else if off = 0x10 then s.mgmt.bar0.setWidth 32 ||| 4
  else if off = 0x14 then fld s.mgmt.bar0 32 32
  else 0

/-- A write of 4 bytes of that configuration space (R452): BAR0 takes a base that is a multiple of 64 KiB. -/
def State.cfgWrite (s : State) (off : Nat) (v : Word) : State :=
  if off = 0x10 then s.updMgmt (fun m => { m with bar0 := setFld m.bar0 0 (fld v 0 32 &&& 0xFFFF0000#32) })
  else if off = 0x14 then s.updMgmt (fun m => { m with bar0 := setFld m.bar0 32 (fld v 0 32) })
  else s

/-- What the host reads of 8 bytes in BAR2 (R458): the doorbells are write-only. -/
def State.bar2Read (s : State) (off : Nat) : Word :=
  let q := off / 64 % 64
  let n (a : Nat) : Word := BitVec.ofNat 64 a
  if off = 0 then n (64 + 64 * 2 ^ 8 + 2048 * 2 ^ 16)
  else if 0x4000 ≤ off ∧ off < 0x5000 then
    let P := s.pair q
    (match off % 64 with
    | 0 => P.sqBase
    | 8 => P.cqBase
    | 16 => P.cfg
    | 24 => n (P.head + if P.error then 2 ^ 16 else 0)
    | _ => 0)
  else if 0x8000 ≤ off ∧ off < 0x9000 then
    let Q := s.evq q
    (match off % 64 with
    | 0 => Q.base
    | 8 => Q.cfg
    | 16 => n Q.tail
    | 24 => n Q.head
    | _ => 0)
  else 0

/-- A read of 8 bytes by the host (R452, R458), with the windows placed as REGISTER_WRITE places them (log 13); `none` is
Unsupported Request, which is the answer to all but the mailbox window at level 0. -/
def State.hostRead (s : State) (off : Nat) : Option Word :=
  if 2 ^ 44 ≤ off ∧ off < 2 ^ 44 + 0x10000 then some (s.windowRead (off - 2 ^ 44))
  else if s.mgmt.level ≠ 0 ∧ 2 ^ 45 ≤ off ∧ off < 2 ^ 45 + 0x100000 then some (s.bar2Read (off - 2 ^ 45))
  else none

/-- A write of 8 bytes in BAR2 (R458). Bases do not change while their queue is enabled. -/
def State.bar2Write (s : State) (off : Nat) (v : Word) : Host.Outcome State Fault Refusal :=
  let q := off / 64 % 64
  let base := v &&& ~~~0x3F#64
  if off % 8 ≠ 0 then .next s
  else if 0x1000 ≤ off ∧ off < 0x1800 then
    (let p : BitVec 6 := BitVec.ofNat 6 ((off - 0x1000) / 32)
    if off % 32 = 0 then execSqdb p v s else if off % 32 = 8 then execCqdb p v s else .next s)
  else if 0x4000 ≤ off ∧ off < 0x5000 then
    (let P := s.pair q
    if off % 64 = 16 then execQcfgEnable (BitVec.ofNat 6 q) v s
    else .next (if cfgOn P.cfg then s
    else if off % 64 = 0 then s.setPair q { P with sqBase := base }
    else if off % 64 = 8 then s.setPair q { P with cqBase := base }
    else s))
  else if 0x8000 ≤ off ∧ off < 0x9000 then
    (let Q := s.evq q
    let put : EvQ → State := fun Q => { s with evqs := s.evqs.setIfInBounds q Q }
    if off % 64 = 8 then execEqcfgEnable (BitVec.ofNat 6 q) v s
    else .next (if off % 64 = 0 ∧ cfgOn Q.cfg = false then put { Q with base := base }
    else if off % 64 = 24 then put { Q with head := (fld v 0 16).toNat }
    else s))
  else .next s

/-- The settings that firmware makes (R112 to R114): the populated size and the interleave ways of the second tier,
the size of the host window, the key slot of inbound peer writes, and the peer windows whose target is a Lefahel
(R136; DESIGN CHOICE, log 13). -/
def State.firmwareSet (s : State) (k : Nat) (v : Word) : State :=
  let n := v.toNat
  match k with
  | 0 => if n ≤ 3072 then { s with tierGiB := n } else s
  | 1 => if [1, 2, 3, 4, 6].contains n then { s with hdmWays := n } else s
  | 2 => if n ≤ 0x800000000000 then { s with hostBytes := n } else s
  | 3 => if n < 512 then { s with inboundKey := n } else s
  | 4 => { s with peerWin := s.peerWin.mapIdx (fun i w => { w with lefahel := v.getLsbD i }) }
  | _ => s

/-- REGISTER_WRITE (R451): offsets below 2^43 are those of the device registers, written by the Watershed; from
2^44 up stands the mailbox window, from 2^45 up BAR2, and from 2^46 up the settings of firmware (log 13). At
level 0 only the mailbox window answers (R452). -/
def execRegisterWrite (off : Nat) (v : BitVec 64) (s : State) : Host.Outcome State Fault Refusal :=
  if 2 ^ 44 ≤ off ∧ off < 2 ^ 44 + 0x10000 then s.windowWrite (off - 2 ^ 44) v
  else if s.mgmt.level = 0 then .next s
  else if off < 2 ^ 43 then .next (s.deviceWrite off v)
  else if 2 ^ 45 ≤ off ∧ off < 2 ^ 45 + 0x100000 then s.bar2Write (off - 2 ^ 45) v
  else if 2 ^ 46 ≤ off then .next (s.firmwareSet (off - 2 ^ 46) v)
  else .next s

end Sys2Proof.Machine
end

