-- ==== Sys2Proof/Machine/Dispatch.lean ====
section
/-!
DEFINITION. The meaning of every row of the opcode table, one arm each.
-/

namespace Sys2Proof.Machine

def exec (i : Instr) (s : State) : Host.Outcome State Fault Refusal :=
  match i with
  | .add d a b => Sys2Proof.Machine.execAdd d a b s
  | .sub d a b => Sys2Proof.Machine.execSub d a b s
  | .and d a b => Sys2Proof.Machine.execAnd d a b s
  | .or d a b => Sys2Proof.Machine.execOr d a b s
  | .xor d a b => Sys2Proof.Machine.execXor d a b s
  | .andn d a b => Sys2Proof.Machine.execAndn d a b s
  | .sll d a b => Sys2Proof.Machine.execSll d a b s
  | .srl d a b => Sys2Proof.Machine.execSrl d a b s
  | .sra d a b => Sys2Proof.Machine.execSra d a b s
  | .slt d a b => Sys2Proof.Machine.execSlt d a b s
  | .sltu d a b => Sys2Proof.Machine.execSltu d a b s
  | .min d a b => Sys2Proof.Machine.execMin d a b s
  | .max d a b => Sys2Proof.Machine.execMax d a b s
  | .minu d a b => Sys2Proof.Machine.execMinu d a b s
  | .maxu d a b => Sys2Proof.Machine.execMaxu d a b s
  | .addw d a b => Sys2Proof.Machine.execAddw d a b s
  | .subw d a b => Sys2Proof.Machine.execSubw d a b s
  | .sh1add d a b => Sys2Proof.Machine.execSh1add d a b s
  | .sh2add d a b => Sys2Proof.Machine.execSh2add d a b s
  | .sh3add d a b => Sys2Proof.Machine.execSh3add d a b s
  | .clz d a => Sys2Proof.Machine.execClz d a s
  | .ctz d a => Sys2Proof.Machine.execCtz d a s
  | .cpop d a => Sys2Proof.Machine.execCpop d a s
  | .slli d a sz => Sys2Proof.Machine.execSlli d a sz s
  | .srli d a sz => Sys2Proof.Machine.execSrli d a sz s
  | .srai d a sz => Sys2Proof.Machine.execSrai d a sz s
  | .sextB d a => Sys2Proof.Machine.execSextB d a s
  | .sextH d a => Sys2Proof.Machine.execSextH d a s
  | .sextW d a => Sys2Proof.Machine.execSextW d a s
  | .zextB d a => Sys2Proof.Machine.execZextB d a s
  | .zextH d a => Sys2Proof.Machine.execZextH d a s
  | .zextW d a => Sys2Proof.Machine.execZextW d a s
  | .addi d a imm => Sys2Proof.Machine.execAddi d a imm s
  | .lik d imm => Sys2Proof.Machine.execLik d imm s
  | .pcrel d imm => Sys2Proof.Machine.execPcrel d imm s
  | .mul d a b => Sys2Proof.Machine.execMul d a b s
  | .mulh d a b => Sys2Proof.Machine.execMulh d a b s
  | .mulhu d a b => Sys2Proof.Machine.execMulhu d a b s
  | .mulhsu d a b => Sys2Proof.Machine.execMulhsu d a b s
  | .div d a b => Sys2Proof.Machine.execDiv d a b s
  | .divu d a b => Sys2Proof.Machine.execDivu d a b s
  | .rem d a b => Sys2Proof.Machine.execRem d a b s
  | .remu d a b => Sys2Proof.Machine.execRemu d a b s
  | .mulw d a b => Sys2Proof.Machine.execMulw d a b s
  | .divw d a b => Sys2Proof.Machine.execDivw d a b s
  | .remw d a b => Sys2Proof.Machine.execRemw d a b s
  | .ldI8 d a imm => Sys2Proof.Machine.execLdI8 d a imm s
  | .ldI16 d a imm => Sys2Proof.Machine.execLdI16 d a imm s
  | .ldI32 d a imm => Sys2Proof.Machine.execLdI32 d a imm s
  | .ldI64 d a imm => Sys2Proof.Machine.execLdI64 d a imm s
  | .ldN8 d a imm => Sys2Proof.Machine.execLdN8 d a imm s
  | .ldN16 d a imm => Sys2Proof.Machine.execLdN16 d a imm s
  | .ldN32 d a imm => Sys2Proof.Machine.execLdN32 d a imm s
  | .ldF16 d a imm => Sys2Proof.Machine.execLdF16 d a imm s
  | .ldF32 d a imm => Sys2Proof.Machine.execLdF32 d a imm s
  | .ldF64 d a imm => Sys2Proof.Machine.execLdF64 d a imm s
  | .stI8 sz a imm => Sys2Proof.Machine.execStI8 sz a imm s
  | .stI16 sz a imm => Sys2Proof.Machine.execStI16 sz a imm s
  | .stI32 sz a imm => Sys2Proof.Machine.execStI32 sz a imm s
  | .stI64 sz a imm => Sys2Proof.Machine.execStI64 sz a imm s
  | .stF16 sz a imm => Sys2Proof.Machine.execStF16 sz a imm s
  | .stF32 sz a imm => Sys2Proof.Machine.execStF32 sz a imm s
  | .stF64 sz a imm => Sys2Proof.Machine.execStF64 sz a imm s
  | .amoswap d a b q l z p => Sys2Proof.Machine.execAmoswap d a b q l z p s
  | .amoadd d a b q l z p => Sys2Proof.Machine.execAmoadd d a b q l z p s
  | .amoand d a b q l z p => Sys2Proof.Machine.execAmoand d a b q l z p s
  | .amoor d a b q l z p => Sys2Proof.Machine.execAmoor d a b q l z p s
  | .amoxor d a b q l z p => Sys2Proof.Machine.execAmoxor d a b q l z p s
  | .amomin d a b q l z p => Sys2Proof.Machine.execAmomin d a b q l z p s
  | .amomax d a b q l z p => Sys2Proof.Machine.execAmomax d a b q l z p s
  | .amominu d a b q l z p => Sys2Proof.Machine.execAmominu d a b q l z p s
  | .amomaxu d a b q l z p => Sys2Proof.Machine.execAmomaxu d a b q l z p s
  | .amocas d a b q l z p => Sys2Proof.Machine.execAmocas d a b q l z p s
  | .beq a b o => Sys2Proof.Machine.execBeq a b o s
  | .bne a b o => Sys2Proof.Machine.execBne a b o s
  | .blt a b o => Sys2Proof.Machine.execBlt a b o s
  | .bge a b o => Sys2Proof.Machine.execBge a b o s
  | .bltu a b o => Sys2Proof.Machine.execBltu a b o s
  | .bgeu a b o => Sys2Proof.Machine.execBgeu a b o s
  | .beqz a o => Sys2Proof.Machine.execBeqz a o s
  | .bnez a o => Sys2Proof.Machine.execBnez a o s
  | .bltz a o => Sys2Proof.Machine.execBltz a o s
  | .bgez a o => Sys2Proof.Machine.execBgez a o s
  | .blez a o => Sys2Proof.Machine.execBlez a o s
  | .bgtz a o => Sys2Proof.Machine.execBgtz a o s
  | .bqt o => Sys2Proof.Machine.execBqt o s
  | .bqf o => Sys2Proof.Machine.execBqf o s
  | .j o => Sys2Proof.Machine.execJ o s
  | .call o => Sys2Proof.Machine.execCall o s
  | .jr a imm => Sys2Proof.Machine.execJr a imm s
  | .callr a imm => Sys2Proof.Machine.execCallr a imm s
  | .ret => Sys2Proof.Machine.execRet s
  | .rasSpill a d => Sys2Proof.Machine.execRasSpill a d s
  | .rasFill a d => Sys2Proof.Machine.execRasFill a d s
  | .rasDrop a => Sys2Proof.Machine.execRasDrop a s
  | .fadd d a b r f => Sys2Proof.Machine.execFadd d a b r f s
  | .fsub d a b r f => Sys2Proof.Machine.execFsub d a b r f s
  | .fmul d a b r f => Sys2Proof.Machine.execFmul d a b r f s
  | .fdiv d a b r f => Sys2Proof.Machine.execFdiv d a b r f s
  | .fsqrt d a r f => Sys2Proof.Machine.execFsqrt d a r f s
  | .fmin d a b f => Sys2Proof.Machine.execFmin d a b f s
  | .fmax d a b f => Sys2Proof.Machine.execFmax d a b f s
  | .fsgnj d a b f => Sys2Proof.Machine.execFsgnj d a b f s
  | .fsgnjn d a b f => Sys2Proof.Machine.execFsgnjn d a b f s
  | .fsgnjx d a b f => Sys2Proof.Machine.execFsgnjx d a b f s
  | .feq d a b f => Sys2Proof.Machine.execFeq d a b f s
  | .flt d a b f => Sys2Proof.Machine.execFlt d a b f s
  | .fle d a b f => Sys2Proof.Machine.execFle d a b f s
  | .fclass d a f => Sys2Proof.Machine.execFclass d a f s
  | .fcvtToInt d a t r f => Sys2Proof.Machine.execFcvtToInt d a t r f s
  | .fcvtFromInt d a t r f => Sys2Proof.Machine.execFcvtFromInt d a t r f s
  | .fcvtFmt d a sz r f => Sys2Proof.Machine.execFcvtFmt d a sz r f s
  | .fmvX d a f => Sys2Proof.Machine.execFmvX d a f s
  | .fmvF d a f => Sys2Proof.Machine.execFmvF d a f s
  | .fmadd d a b c f r => Sys2Proof.Machine.execFmadd d a b c f r s
  | .fmsub d a b c f r => Sys2Proof.Machine.execFmsub d a b c f r s
  | .fnmadd d a b c f r => Sys2Proof.Machine.execFnmadd d a b c f r s
  | .fnmsub d a b c f r => Sys2Proof.Machine.execFnmsub d a b c f r s
  | .csrr d c => Sys2Proof.Machine.execCsrr d c s
  | .csrw d a c => Sys2Proof.Machine.execCsrw d a c s
  | .csrs d a c => Sys2Proof.Machine.execCsrs d a c s
  | .csrc d a c => Sys2Proof.Machine.execCsrc d a c s
  | .csrsi d n c => Sys2Proof.Machine.execCsrsi d n c s
  | .csrci d n c => Sys2Proof.Machine.execCsrci d n c s
  | .fence p => Sys2Proof.Machine.execFence p s
  | .fenceSv p => Sys2Proof.Machine.execFenceSv p s
  | .fenceVs p => Sys2Proof.Machine.execFenceVs p s
  | .lda d a z sz p => Sys2Proof.Machine.execLda d a z sz p s
  | .stl a b sz p => Sys2Proof.Machine.execStl a b sz p s
  | .fenceI p => Sys2Proof.Machine.execFenceI p s
  | .ecall => Sys2Proof.Machine.execEcall s
  | .ebreak => Sys2Proof.Machine.execEbreak s
  | .sret => Sys2Proof.Machine.execSret s
  | .wfi => Sys2Proof.Machine.execWfi s
  | .tlbInv a b p => Sys2Proof.Machine.execTlbInv a b p s
  | .strmCfg d a n => Sys2Proof.Machine.execStrmCfg d a n s
  | .strmRel n => Sys2Proof.Machine.execStrmRel n s
  | .strmRelWait n => Sys2Proof.Machine.execStrmRelWait n s
  | .strmStat d n => Sys2Proof.Machine.execStrmStat d n s
  | .strmStatPos d n => Sys2Proof.Machine.execStrmStatPos d n s
  | .strmStatAvail d n => Sys2Proof.Machine.execStrmStatAvail d n s
  | .strmPop d n => Sys2Proof.Machine.execStrmPop d n s
  | .strmPush a n => Sys2Proof.Machine.execStrmPush a n s
  | .strmCopy d sz => Sys2Proof.Machine.execStrmCopy d sz s
  | .strmResume a n => Sys2Proof.Machine.execStrmResume a n s
  | .strmSave t a n => Sys2Proof.Machine.execStrmSave t a n s
  | .strmRest t a n => Sys2Proof.Machine.execStrmRest t a n s
  | .bankCfgCache d a => Sys2Proof.Machine.execBankCfgCache d a s
  | .bankCfgSpad d a => Sys2Proof.Machine.execBankCfgSpad d a s
  | .bankCfgFifo d a => Sys2Proof.Machine.execBankCfgFifo d a s
  | .bankStat d a => Sys2Proof.Machine.execBankStat d a s
  | .feInitEmpty a b => Sys2Proof.Machine.execFeInitEmpty a b s
  | .feInitFull a b => Sys2Proof.Machine.execFeInitFull a b s
  | .ldf d a p => Sys2Proof.Machine.execLdf d a p s
  | .ldfClr d a p => Sys2Proof.Machine.execLdfClr d a p s
  | .stf a b p => Sys2Proof.Machine.execStf a b p s
  | .stfWait a b p => Sys2Proof.Machine.execStfWait a b p s
  | .ringCfg q a b => Sys2Proof.Machine.execRingCfg q a b s
  | .ringAdvTail q a p => Sys2Proof.Machine.execRingAdvTail q a p s
  | .ringAdvHead q a p => Sys2Proof.Machine.execRingAdvHead q a p s
  | .ringStat d q => Sys2Proof.Machine.execRingStat d q s
  | .ringStatWait d q b => Sys2Proof.Machine.execRingStatWait d q b s
  | .cwait a n p => Sys2Proof.Machine.execCwait a n p s
  | .cread d n => Sys2Proof.Machine.execCread d n s
  | .cadd a n p => Sys2Proof.Machine.execCadd a n p s
  | .tokSend a b p => Sys2Proof.Machine.execTokSend a b p s
  | .tokWait d a p => Sys2Proof.Machine.execTokWait d a p s
  | .tokStat d a => Sys2Proof.Machine.execTokStat d a s
  | .barArrive d a p => Sys2Proof.Machine.execBarArrive d a p s
  | .barWait a b p => Sys2Proof.Machine.execBarWait a b p s
  | .klaunch d a b => Sys2Proof.Machine.execKlaunch d a b s
  | .kid d a sz => Sys2Proof.Machine.execKid d a sz s
  | .kyield => Sys2Proof.Machine.execKyield s
  | .kdone => Sys2Proof.Machine.execKdone s
  | .hloop l a => Sys2Proof.Machine.execHloop l a s
  | .hend l => Sys2Proof.Machine.execHend l s
  | .hendC l => Sys2Proof.Machine.execHendC l s
  | .hget d l f => Sys2Proof.Machine.execHget d l f s
  | .hset l a f => Sys2Proof.Machine.execHset l a f s
  | .capLandOff d => Sys2Proof.Machine.execCapLandOff d s
  | .capLandSend d a => Sys2Proof.Machine.execCapLandSend d a s
  | .capLandLand d a => Sys2Proof.Machine.execCapLandLand d a s
  | .capSend d a p => Sys2Proof.Machine.execCapSend d a p s
  | .capRecv d p => Sys2Proof.Machine.execCapRecv d p s
  | .capFwd p => Sys2Proof.Machine.execCapFwd p s
  | .capFwdStay p => Sys2Proof.Machine.execCapFwdStay p s
  | .capFwdEnd p => Sys2Proof.Machine.execCapFwdEnd p s
  | .capIns d a b => Sys2Proof.Machine.execCapIns d a b s
  | .capDel d a => Sys2Proof.Machine.execCapDel d a s
  | .capSwap d a b => Sys2Proof.Machine.execCapSwap d a b s
  | .capPark => Sys2Proof.Machine.execCapPark s
  | .capParkFlt a => Sys2Proof.Machine.execCapParkFlt a s
  | .capParkRel d a => Sys2Proof.Machine.execCapParkRel d a s
  | .vsetvl d a b e w p => Sys2Proof.Machine.execVsetvl d a b e w p s
  | .lpart d a => Sys2Proof.Machine.execLpart d a s
  | .tshape d a => Sys2Proof.Machine.execTshape d a s
  | .mmodeOn => Sys2Proof.Machine.execMmodeOn s
  | .mmodeOff => Sys2Proof.Machine.execMmodeOff s
  | .fmodeOn d a b => Sys2Proof.Machine.execFmodeOn d a b s
  | .fmodeOff d a => Sys2Proof.Machine.execFmodeOff d a s
  | .mpair d a => Sys2Proof.Machine.execMpair d a s
  | .mpairOff => Sys2Proof.Machine.execMpairOff s
  | .nop x => Sys2Proof.Machine.execNop x s
  | .prefetchRead a imm => Sys2Proof.Machine.execPrefetchRead a imm s
  | .prefetchOwn a imm => Sys2Proof.Machine.execPrefetchOwn a imm s
  | .issuePauseHint x => Sys2Proof.Machine.execIssuePauseHint x s
  | .convoy header words => Sys2Proof.Machine.execConvoy header words s
  | .unitMov u => Sys2Proof.Machine.execUnitMov u s
  | .unitAdd u => Sys2Proof.Machine.execUnitAdd u s
  | .unitSub u => Sys2Proof.Machine.execUnitSub u s
  | .unitMul u => Sys2Proof.Machine.execUnitMul u s
  | .unitMin u => Sys2Proof.Machine.execUnitMin u s
  | .unitMax u => Sys2Proof.Machine.execUnitMax u s
  | .unitAnd u => Sys2Proof.Machine.execUnitAnd u s
  | .unitOr u => Sys2Proof.Machine.execUnitOr u s
  | .unitXor u => Sys2Proof.Machine.execUnitXor u s
  | .unitShl u => Sys2Proof.Machine.execUnitShl u s
  | .unitShr u => Sys2Proof.Machine.execUnitShr u s
  | .unitSeq u => Sys2Proof.Machine.execUnitSeq u s
  | .unitSlt u => Sys2Proof.Machine.execUnitSlt u s
  | .unitSle u => Sys2Proof.Machine.execUnitSle u s
  | .unitFadd u => Sys2Proof.Machine.execUnitFadd u s
  | .unitFsub u => Sys2Proof.Machine.execUnitFsub u s
  | .unitFmul u => Sys2Proof.Machine.execUnitFmul u s
  | .unitFmac u => Sys2Proof.Machine.execUnitFmac u s
  | .unitFmin u => Sys2Proof.Machine.execUnitFmin u s
  | .unitFmax u => Sys2Proof.Machine.execUnitFmax u s
  | .unitBamax u => Sys2Proof.Machine.execUnitBamax u s
  | .unitQcvt u => Sys2Proof.Machine.execUnitQcvt u s
  | .illegalInstruction word => Sys2Proof.Machine.execIllegalInstruction word s
  | .hint kind x => Sys2Proof.Machine.execHint kind x s
  | .vadd w => Sys2Proof.Machine.execVadd w s
  | .vsub w => Sys2Proof.Machine.execVsub w s
  | .vrsub w => Sys2Proof.Machine.execVrsub w s
  | .vmin w => Sys2Proof.Machine.execVmin w s
  | .vmax w => Sys2Proof.Machine.execVmax w s
  | .vmul w => Sys2Proof.Machine.execVmul w s
  | .vmulh w => Sys2Proof.Machine.execVmulh w s
  | .vmacc w => Sys2Proof.Machine.execVmacc w s
  | .vsadd w => Sys2Proof.Machine.execVsadd w s
  | .vssub w => Sys2Proof.Machine.execVssub w s
  | .vabsd w => Sys2Proof.Machine.execVabsd w s
  | .vdiv w => Sys2Proof.Machine.execVdiv w s
  | .vrem w => Sys2Proof.Machine.execVrem w s
  | .vand w => Sys2Proof.Machine.execVand w s
  | .vor w => Sys2Proof.Machine.execVor w s
  | .vxor w => Sys2Proof.Machine.execVxor w s
  | .vandn w => Sys2Proof.Machine.execVandn w s
  | .vsll w => Sys2Proof.Machine.execVsll w s
  | .vsrl w => Sys2Proof.Machine.execVsrl w s
  | .vsra w => Sys2Proof.Machine.execVsra w s
  | .vmv w => Sys2Proof.Machine.execVmv w s
  | .vnot w => Sys2Proof.Machine.execVnot w s
  | .vmseq w => Sys2Proof.Machine.execVmseq w s
  | .vmsne w => Sys2Proof.Machine.execVmsne w s
  | .vmslt w => Sys2Proof.Machine.execVmslt w s
  | .vmsle w => Sys2Proof.Machine.execVmsle w s
  | .vmsgt w => Sys2Proof.Machine.execVmsgt w s
  | .vmsge w => Sys2Proof.Machine.execVmsge w s
  | .vmand w => Sys2Proof.Machine.execVmand w s
  | .vmor w => Sys2Proof.Machine.execVmor w s
  | .vmxor w => Sys2Proof.Machine.execVmxor w s
  | .vmandn w => Sys2Proof.Machine.execVmandn w s
  | .vmnot w => Sys2Proof.Machine.execVmnot w s
  | .vmset w => Sys2Proof.Machine.execVmset w s
  | .vmclr w => Sys2Proof.Machine.execVmclr w s
  | .vmtov w => Sys2Proof.Machine.execVmtov w s
  | .vvtom w => Sys2Proof.Machine.execVvtom w s
  | .vpop w => Sys2Proof.Machine.execVpop w s
  | .vfirst w => Sys2Proof.Machine.execVfirst w s
  | .vbqAny w => Sys2Proof.Machine.execVbqAny w s
  | .vbqNone w => Sys2Proof.Machine.execVbqNone w s
  | .vfadd w => Sys2Proof.Machine.execVfadd w s
  | .vfsub w => Sys2Proof.Machine.execVfsub w s
  | .vfmul w => Sys2Proof.Machine.execVfmul w s
  | .vfdiv w => Sys2Proof.Machine.execVfdiv w s
  | .vfsqrt w => Sys2Proof.Machine.execVfsqrt w s
  | .vfmin w => Sys2Proof.Machine.execVfmin w s
  | .vfmax w => Sys2Proof.Machine.execVfmax w s
  | .vfsgnj w => Sys2Proof.Machine.execVfsgnj w s
  | .vfsgnjn w => Sys2Proof.Machine.execVfsgnjn w s
  | .vfsgnjx w => Sys2Proof.Machine.execVfsgnjx w s
  | .vfclass w => Sys2Proof.Machine.execVfclass w s
  | .vfmadd w => Sys2Proof.Machine.execVfmadd w s
  | .vfmsub w => Sys2Proof.Machine.execVfmsub w s
  | .vfnmadd w => Sys2Proof.Machine.execVfnmadd w s
  | .vfnmsub w => Sys2Proof.Machine.execVfnmsub w s
  | .vcvt w => Sys2Proof.Machine.execVcvt w s
  | .vcvtMx w => Sys2Proof.Machine.execVcvtMx w s
  | .vcvtDemx w => Sys2Proof.Machine.execVcvtDemx w s
  | .vslideup w => Sys2Proof.Machine.execVslideup w s
  | .vslidedown w => Sys2Proof.Machine.execVslidedown w s
  | .vperm w => Sys2Proof.Machine.execVperm w s
  | .vbcast w => Sys2Proof.Machine.execVbcast w s
  | .vsel w => Sys2Proof.Machine.execVsel w s
  | .vid w => Sys2Proof.Machine.execVid w s
  | .vcompress w => Sys2Proof.Machine.execVcompress w s
  | .vexpand w => Sys2Proof.Machine.execVexpand w s
  | .vredsum w => Sys2Proof.Machine.execVredsum w s
  | .vredmin w => Sys2Proof.Machine.execVredmin w s
  | .vredmax w => Sys2Proof.Machine.execVredmax w s
  | .vredand w => Sys2Proof.Machine.execVredand w s
  | .vredor w => Sys2Proof.Machine.execVredor w s
  | .vredxor w => Sys2Proof.Machine.execVredxor w s
  | .vscansum w => Sys2Proof.Machine.execVscansum w s
  | .vscanmin w => Sys2Proof.Machine.execVscanmin w s
  | .vscanmax w => Sys2Proof.Machine.execVscanmax w s
  | .vext w => Sys2Proof.Machine.execVext w s
  | .vins w => Sys2Proof.Machine.execVins w s
  | .vxsend w => Sys2Proof.Machine.execVxsend w s
  | .vxrecv w => Sys2Proof.Machine.execVxrecv w s
  | .vldStrm w => Sys2Proof.Machine.execVldStrm w s
  | .vstStrm w => Sys2Proof.Machine.execVstStrm w s
  | .vld w => Sys2Proof.Machine.execVld w s
  | .vlds w => Sys2Proof.Machine.execVlds w s
  | .vldff w => Sys2Proof.Machine.execVldff w s
  | .vldr w => Sys2Proof.Machine.execVldr w s
  | .vldm w => Sys2Proof.Machine.execVldm w s
  | .vst w => Sys2Proof.Machine.execVst w s
  | .vsts w => Sys2Proof.Machine.execVsts w s
  | .vstr w => Sys2Proof.Machine.execVstr w s
  | .vstm w => Sys2Proof.Machine.execVstm w s
  | .vgather w => Sys2Proof.Machine.execVgather w s
  | .vscatter w => Sys2Proof.Machine.execVscatter w s
  | .vsetlf w => Sys2Proof.Machine.execVsetlf w s
  | .vxint w => Sys2Proof.Machine.execVxint w s
  | .vxuni w => Sys2Proof.Machine.execVxuni w s
  | .vxmrg w => Sys2Proof.Machine.execVxmrg w s
  | .accwinSum w => Sys2Proof.Machine.execAccwinSum w s
  | .accwinMin w => Sys2Proof.Machine.execAccwinMin w s
  | .accwinMax w => Sys2Proof.Machine.execAccwinMax w s
  | .vacc w => Sys2Proof.Machine.execVacc w s
  | .accmerge w => Sys2Proof.Machine.execAccmerge w s
  | .vamoswap w => Sys2Proof.Machine.execVamoswap w s
  | .vamoadd w => Sys2Proof.Machine.execVamoadd w s
  | .vamoand w => Sys2Proof.Machine.execVamoand w s
  | .vamoor w => Sys2Proof.Machine.execVamoor w s
  | .vamoxor w => Sys2Proof.Machine.execVamoxor w s
  | .vamomin w => Sys2Proof.Machine.execVamomin w s
  | .vamomax w => Sys2Proof.Machine.execVamomax w s
  | .mma w => Sys2Proof.Machine.execMma w s
  | .mmaInt w => Sys2Proof.Machine.execMmaInt w s
  | .mtern w => Sys2Proof.Machine.execMtern w s
  | .msound w => Sys2Proof.Machine.execMsound w s
  | .mcheck w => Sys2Proof.Machine.execMcheck w s
  | .mzero w => Sys2Proof.Machine.execMzero w s
  | .mst w => Sys2Proof.Machine.execMst w s
  | .mxchg w => Sys2Proof.Machine.execMxchg w s
  | .fload w => Sys2Proof.Machine.execFload w s
  | .fgo w => Sys2Proof.Machine.execFgo w s
  | .fgoResume w => Sys2Proof.Machine.execFgoResume w s
  | .fdrain w => Sys2Proof.Machine.execFdrain w s
  | .fstat w => Sys2Proof.Machine.execFstat w s
  | .frel w => Sys2Proof.Machine.execFrel w s
  | .vwait w => Sys2Proof.Machine.execVwait w s
  | .steerFire page slot => Sys2Proof.Machine.execSteerFire page slot s
  | .carryFire page slot => Sys2Proof.Machine.execCarryFire page slot s
  | .invariantFire page slot => Sys2Proof.Machine.execInvariantFire page slot s
  | .mergeFire page slot => Sys2Proof.Machine.execMergeFire page slot s
  | .fabricLoad => Sys2Proof.Machine.execFabricLoad s
  | .fabricStore => Sys2Proof.Machine.execFabricStore s
  | .controlTokenArrival k => Sys2Proof.Machine.execControlTokenArrival k s
  | .pageMove page cluster => Sys2Proof.Machine.execPageMove page cluster s
  | .tokenDelivery k => Sys2Proof.Machine.execTokenDelivery k s
  | .gangTermination g => Sys2Proof.Machine.execGangTermination g s
  | .interruptEntry => Sys2Proof.Machine.execInterruptEntry s
  | .timerExpiry h => Sys2Proof.Machine.execTimerExpiry h s
  | .waitResume h => Sys2Proof.Machine.execWaitResume h s
  | .barWaitRecheck h => Sys2Proof.Machine.execBarWaitRecheck h s
  | .vwaitTimeout h => Sys2Proof.Machine.execVwaitTimeout h s
  | .mpairTimeout h => Sys2Proof.Machine.execMpairTimeout h s
  | .extentRegister h sn => Sys2Proof.Machine.execExtentRegister h sn s
  | .stripFetch h sn => Sys2Proof.Machine.execStripFetch h sn s
  | .stripArrival h sn => Sys2Proof.Machine.execStripArrival h sn s
  | .writeStripAccept h sn => Sys2Proof.Machine.execWriteStripAccept h sn s
  | .streamFault h sn => Sys2Proof.Machine.execStreamFault h sn s
  | .faultRecordWrite h => Sys2Proof.Machine.execFaultRecordWrite h s
  | .releaseComplete h k => Sys2Proof.Machine.execReleaseComplete h k s
  | .copyComplete h sn => Sys2Proof.Machine.execCopyComplete h sn s
  | .replayWake die entry => Sys2Proof.Machine.execReplayWake die entry s
  | .hostSnoop req => Sys2Proof.Machine.execHostSnoop req s
  | .peerMemRequest module who req => Sys2Proof.Machine.execPeerMemRequest module who req s
  | .peerConflictCompletion h va => Sys2Proof.Machine.execPeerConflictCompletion h va s
  | .rsvreq msg => Sys2Proof.Machine.execRsvreq msg s
  | .rsvack seq => Sys2Proof.Machine.execRsvack seq s
  | .rsvnak seq => Sys2Proof.Machine.execRsvnak seq s
  | .rsvreqTimeout seq => Sys2Proof.Machine.execRsvreqTimeout seq s
  | .rsvcut seq pos => Sys2Proof.Machine.execRsvcut seq pos s
  | .rsvstate module seq st => Sys2Proof.Machine.execRsvstate module seq st s
  | .rsvrel module seq => Sys2Proof.Machine.execRsvrel module seq s
  | .rsvdone seq => Sys2Proof.Machine.execRsvdone seq s
  | .portDown port lost => Sys2Proof.Machine.execPortDown port lost s
  | .circuitOpen h sn granted => Sys2Proof.Machine.execCircuitOpen h sn granted s
  | .crossingGroupArrival h port => Sys2Proof.Machine.execCrossingGroupArrival h port s
  | .capsuleArrival k => Sys2Proof.Machine.execCapsuleArrival k s
  | .parkedCapsuleEnter h => Sys2Proof.Machine.execParkedCapsuleEnter h s
  | .placeGang die places => Sys2Proof.Machine.execPlaceGang die places s
  | .agingStep die q => Sys2Proof.Machine.execAgingStep die q s
  | .preemption die => Sys2Proof.Machine.execPreemption die s
  | .resumeGang die places => Sys2Proof.Machine.execResumeGang die places s
  | .hostSubmission pair => Sys2Proof.Machine.execHostSubmission pair s
  | .sqdb pair v => Sys2Proof.Machine.execSqdb pair v s
  | .cqdb pair v => Sys2Proof.Machine.execCqdb pair v s
  | .qcfgEnable pair v => Sys2Proof.Machine.execQcfgEnable pair v s
  | .eqcfgEnable e v => Sys2Proof.Machine.execEqcfgEnable e v s
  | .deviceEvent src detail => Sys2Proof.Machine.execDeviceEvent src detail s
  | .eventAck src => Sys2Proof.Machine.execEventAck src s
  | .atsTranslationCompletion asid page granted => Sys2Proof.Machine.execAtsTranslationCompletion asid page granted s
  | .priResponse asid page ok => Sys2Proof.Machine.execPriResponse asid page ok s
  | .priTimeout asid page => Sys2Proof.Machine.execPriTimeout asid page s
  | .atsInvalidate asid page count => Sys2Proof.Machine.execAtsInvalidate asid page count s
  | .scrub die bad => Sys2Proof.Machine.execScrub die bad s
  | .slcfgWrite die slice v => Sys2Proof.Machine.execSlcfgWrite die slice v s
  | .windowUnitReclaim die slice unit => Sys2Proof.Machine.execWindowUnitReclaim die slice unit s
  | .haltreq h => Sys2Proof.Machine.execHaltreq h s
  | .haltAck h => Sys2Proof.Machine.execHaltAck h s
  | .resumereq h => Sys2Proof.Machine.execResumereq h s
  | .dbgcmdRead h regno => Sys2Proof.Machine.execDbgcmdRead h regno s
  | .dbgcmdWrite h regno => Sys2Proof.Machine.execDbgcmdWrite h regno s
  | .dbgcmdSaveImage h => Sys2Proof.Machine.execDbgcmdSaveImage h s
  | .dbgcmdRestoreImage h => Sys2Proof.Machine.execDbgcmdRestoreImage h s
  | .powerOn => Sys2Proof.Machine.execPowerOn s
  | .mbBegin arg => Sys2Proof.Machine.execMbBegin arg s
  | .mbChunk arg => Sys2Proof.Machine.execMbChunk arg s
  | .mbVerify arg => Sys2Proof.Machine.execMbVerify arg s
  | .mbBoot arg => Sys2Proof.Machine.execMbBoot arg s
  | .mbAbort arg => Sys2Proof.Machine.execMbAbort arg s
  | .mbLog arg => Sys2Proof.Machine.execMbLog arg s
  | .keyload arg => Sys2Proof.Machine.execKeyload arg s
  | .keygen arg => Sys2Proof.Machine.execKeygen arg s
  | .keyclear arg => Sys2Proof.Machine.execKeyclear arg s
  | .attest arg => Sys2Proof.Machine.execAttest arg s
  | .trainingComplete ok part => Sys2Proof.Machine.execTrainingComplete ok part s
  | .handoverReady => Sys2Proof.Machine.execHandoverReady s
  | .handoverTimeout => Sys2Proof.Machine.execHandoverTimeout s
  | .wskick core => Sys2Proof.Machine.execWskick core s
  | .watchdogNotice h => Sys2Proof.Machine.execWatchdogNotice h s
  | .watchdogSave h => Sys2Proof.Machine.execWatchdogSave h s
  | .tileQuarantine t => Sys2Proof.Machine.execTileQuarantine t s
  | .islandReset t => Sys2Proof.Machine.execIslandReset t s
  | .dieReset die => Sys2Proof.Machine.execDieReset die s
  | .resetRequest die => Sys2Proof.Machine.execResetRequest die s
  | .telemetrySample samples => Sys2Proof.Machine.execTelemetrySample samples s
  | .loadObject job => Sys2Proof.Machine.execLoadObject job s
  | .registerWrite off v => Sys2Proof.Machine.execRegisterWrite off v s
  | .vwaitRecheck h => Sys2Proof.Machine.execVwaitRecheck h s
  | .watershedWatchdogExpiry core => Sys2Proof.Machine.execWatershedWatchdogExpiry core s
  | .tileReturn t => Sys2Proof.Machine.execTileReturn t s

end Sys2Proof.Machine
end

