-- ==== Sys2Proof/Machine/Place.lean ====
section
/-!
DEFINITION. Where the host's tests place an instruction: a hart at supervisor level with one page mapped
(log 1).
-/

namespace Sys2Proof.Machine

/-- The bytes of an instruction of which the opcode table gives the low `nbits` bits: a vector word stands
alone in a convoy (R26, R34). -/
def tableBytes (nbits w : Nat) : List Byte :=
  if nbits = 64 then
    let header : BitVec 32 :=
      setFld 0xF8000000#32 12 (BitVec.ofNat 3 ((unitOfMajor (w / 2 ^ 58 % 64)).getD 0))
    leBytes 4 header.toNat ++ leBytes 32 (w % 2 ^ 64)
  else leBytes 36 (w % 2 ^ nbits)

/-- The hart `cur` runs at supervisor level with its interrupts off at 0x4000_0004, in a page of 1 GiB that
is mapped to the same physical address, readable, writable and executable, and the bytes stand there. -/
def State.placed (s : State) (bs : List Byte) : State :=
  let s := { s with
    agenda := []
    mgmt := { s.mgmt with level := 2 }
    poison := []
    keys := if s.keyInvalid 0 then s.keys.setIfInBounds 0 ⟨2, .fresh 0⟩ else s.keys }
  let s := s.updTile (tileOf s.cur) (fun T => { T with tlb := [], icache := [] })
  let s := s.updMe (fun H => { H with
    run := .running
    wait := .none
    sup := true
    pc := 0x40000004
    csr := { H.csr with ptbase := 0x1000, sstat := setBit H.csr.sstat 1 false }
    dbg := { H.dbg with haltReq := false, stepping := false } })
  let s := s.putBytes 0x1000 0 (leBytes 8 0x2001)
  let s := s.putBytes 0x2000 0 (leBytes 8 0x3001)
  let s := s.putBytes 0x3008 0 (leBytes 8 0x4000000F)
  s.putBytes 0x40000004 0 bs

end Sys2Proof.Machine
end

