-- ==== Sys2Proof/Machine/Turn.lean ====
section
/-!
DEFINITION. Whose turn it is and what it does: the agenda (log 4), and a hart's turn, which takes a
requested halt, an eligible interrupt, or the instruction at the PC (R196, R423, R440).
-/

namespace Sys2Proof.Machine

/-- What a step does: an instruction or event is executed, or the state goes on as it is. -/
inductive Turn where
  | run (i : Instr) (s : State)
  | done (s : State)

/-- The word of a scalar instruction names a register that a queued convoy's reply will write (R198, R239), or it is none
of those that go on past queued convoys: arithmetic, loads and stores, branches and jumps but for the branch queue's, and
hints (R49, R216). -/
def Hart.vectorFirst (H : Hart) (i : Instr) : Bool :=
  match i, encode i with
  | .convoy _ _, _ => false
  | .bqt _, _ | .bqf _, _ => true
  | _, some (.scalar w) =>
    let fields := [(fld w 21 5).toNat, (fld w 16 5).toNat, (fld w 11 5).toNat, (fld w 6 5).toNat]
    !([0x01, 0x02, 0x03, 0x04, 0x05, 0x06, 0x07, 0x08, 0x09, 0x0A, 0x0B, 0x0C, 0x3D].contains (fld w 26 6).toNat)
      || fields.any (fun r => H.pendingX.contains r || H.pendingF.contains r)
  | _, _ => true

/-- The hart as an instruction finds it: the convoys that must have retired before it have. -/
def State.vectorReady (s : State) (i : Instr) : State :=
  if s.me.vq.isEmpty || !s.me.vectorFirst i then s else s.drainVector s.cur

/-- After an instruction of a hart that the debug module steps, the hart halts with CAUSE 2 once the
instruction has retired or trapped, in its fetch or later (R442). -/
def State.stepped (h : HartId) (s : State) : State :=
  if (s.hart h).dbg.stepping && (s.hart h).run == .running then (s.drainVector h).haltHart h 2 else s

/-- The turn of the hart `s.cur` (R196, R423, R440). An idle or halted context does nothing. An event is taken once the
queued convoys, which are past their fault points, have retired (R50). -/
def State.hartTurn (s : State) : Turn :=
  let H := s.me
  if H.run = .idle ∨ H.run = .halted then .done s
  else if H.dbg.haltReq then .done ((s.drainVector s.cur).haltHart s.cur 0)
  else if s.dueIrq.isSome then .run .interruptEntry (s.drainVector s.cur)
  else if H.run = .waiting ∧ H.vq.isEmpty = false then .done (s.vecTurn s.cur)
  else match s.fetch with
    | .got i => .run i (s.vectorReady i)
    | .trap c v => .done (State.stepped s.cur ((s.endFailed s.cur v.toNat).trap c v))
    | .askHost p => .done ((s.askHost p).waitIn .other)

/-- The rows of the opcode table that are events (INVENTORY, Instructions). -/
def isEvent (i : Instr) : Bool :=
  match i with
  | .illegalInstruction _ => false
  | _ => (encode i).isNone

/-- What is left to do after an instruction or an event has run: an event, an interrupt entry among them, is no instruction of
the hart that the debug module steps (R442). -/
def State.settle (i : Instr) (h : HartId) (s : State) : State := if isEvent i then s else s.stepped h

/-! ### Acts without an instruction -/

/-- A delayed store performed in memory, after the earlier ones that it overlaps (R337). -/
def State.performAt (s : State) (k : Nat) : State :=
  match s.delayed[k]? with
  | none => s
  | some d => s.drain (fun e => e == d)

/-- A delayed store performed within a reach (R336). -/
def State.raiseAt (s : State) (k reach : Nat) : State :=
  { s with delayed := s.delayed.modify k (fun d => { d with reach := Nat.max d.reach (Nat.min reach 5) }) }

/-- A load of a side of a hart performed early (R339, R353): of `size` bytes on the scalar side, and of a granule on the
vector side (R338). It is one that meets no fault and no reservation, a granule is read early once, and at most 64 are early
(R49). -/
def State.readEarly (s : State) (h : HartId) (scalar : Bool) (va size : Nat) : State :=
  match s.reach h (s.hart h).sup .read va with
  | .to l c =>
    let n := if scalar then size else 16
    let a := if scalar then c else c / 16 * 16
    if 64 ≤ (s.early.filter (fun e => e.hart == h && e.scalar == scalar)).length then s
    else if s.poisoned l.pa n || s.peerWaits l.pa || !(s.conflicts (.hart h) (l.pa / 128) false).isEmpty || n = 0 || va % n ≠ 0
        || (!scalar && s.early.any (fun e => e.hart == h && !e.scalar && e.meets a 16)) then s
    else { s with early := s.early ++ [⟨h, scalar, a, l.key, s.read (.side h scalar) a l.key n, []⟩] }
  | _ => s

/-- A write of the host to memory that it homes (R114, R349; log 8). -/
def State.hostWrite (s : State) (off : Nat) (bs : List Byte) : State :=
  if off + bs.length ≤ s.hostBytes then
    (s.write .home (hostCell off) 0 bs).noteRelease .host 5 (hostCell off) bs.length
  else s

/-- A write of a peer to memory that it homes (R350, R357; log 8). -/
def State.peerWrite (s : State) (module addr : Nat) (bs : List Byte) : State :=
  (s.write .peer (peerCell module addr) 0 bs).noteRelease .peer 5 (peerCell module addr) bs.length

/-- A wait-mode entry of a peer holds accesses to a line there, or lets them go on (R138, R350). -/
def State.holdAtPeer (s : State) (module addr : Nat) (held : Bool) : State :=
  let line := peerCell module addr / 128
  { s with peerHeld := if held then setInsert s.peerHeld line else setErase s.peerHeld line }

/-- A translation cached by a hart's tile (R427). -/
def State.tlbFill (s : State) (h : HartId) (va : Nat) : State :=
  match s.walk (s.hart h).csr.ptbase (s.hart h).space va with
  | .ok l => s.updTile (tileOf h) (fun T => { T with tlb := ⟨(s.hart h).space, va, l.size, l.pte⟩ :: T.tlb })
  | .error _ => s

/-- The instruction at the position of a unit of a hart's running region (R313). -/
def State.unitInstr (s : State) (h : HartId) (page slot : Nat) : Option Instr :=
  (s.hart h).region.bind (fun r =>
    (((r.a.set.unit page slot).prog[r.a.pos page slot]?).bind decodeUnit).map (fun e => e.1.toInstr e.2))

/-- Pages that the landing dies homing their frames keep in a frame list, as a hart translates them now (R121, R123): at
most 64. -/
def State.frameFill (s : State) (h : HartId) (vas : List Nat) : State :=
  let pages := (vas.take 64).filterMap (fun va => match s.translate h (s.hart h).sup .read va with
    | .ok l => if encrypted l.pa then
        some (⟨va / l.size * l.size, l.pa / l.size * l.size, l.size, l.key, pteG l.pte⟩ : FramePage) else none
    | .error _ => none)
  let ds := (pages.flatMap (fun p => homesOf s.mgmt.level p.frame p.size)).eraseDups
  ds.foldl (fun s d => s.updLanding d (fun L => L.keep ⟨(s.hart h).space, pages⟩)) s

/-- The convoys of every hart's vector queue run, before an event that may look at any of them. -/
def State.drainAll (s : State) : State :=
  (allHarts.filter (fun h => !(s.hart h).vq.isEmpty)).foldl (fun s h => s.drainVector h) s

/-- One act of the agenda (log 4). -/
def State.act (s : State) (a : Act) : Turn :=
  match a with
  | .hart h => ({ s with cur := h } : State).hartTurn
  | .event i => if isEvent i then .run i s.drainAll else .done s
  | .turnTo h => .done { s with cur := h }
  | .unit h page slot =>
    match s.unitInstr h page slot with
    | some i => .run i { s with cur := h, focus := (page, slot) }
    | none => .done s
  | .perform k => .done (s.performAt k)
  | .raise k reach => .done (s.raiseAt k reach)
  | .early h scalar va size => .done (s.readEarly h scalar va.toNat size)
  | .delay h plan => .done (s.updHart h (fun H => { H with delays := plan }))
  | .land h n k => .done (s.acceptNext h n.val k)
  | .hostWrite off bs => .done (s.hostWrite off bs)
  | .peerWrite m a bs => .done (s.peerWrite m a bs)
  | .peerHold m a held => .done (s.holdAtPeer m a held)
  | .sendMsg => .done { s with outbox := s.outbox.tail }
  | .askAgain msg => .done (s.reserveFor msg)
  | .cutAgain seq pos => .done (s.cutBy seq pos)
  | .lag h n => .done (s.updHart h (fun H => { H with lag := n }))
  | .vector h => .done (s.vecTurn h)
  | .codeFill h va => .done (s.codeFill h va.toNat)
  | .codeEvict t k => .done (s.updTile t (fun T => { T with icache := listDel T.icache k }))
  | .frameFill h vas => .done (s.frameFill h (vas.map (fun v => v.toNat)))
  | .cacheLine t line key owned => .done (s.cacheLine t line key owned)
  | .sliceFill t line unit valid => .done (s.sliceFill t line unit valid)
  | .sliceEvict d line => .done (s.dropLine line d)
  | .hostLine line owned => .done (match s.meetAll .external [line] 0 owned with
    | (s', .served) => s'.cacheAtHost line owned
    | (s', _) => s')
  | .evictLine line => .done (s.evictLine line)
  | .snoopDone line => .done (s.snoopDone line)
  | .tlbFill h va => .done (s.tlbFill h va.toNat)
  | .tlbEvict t k => .done (s.updTile t (fun T => { T with tlb := listDel T.tlb k }))
  | .tick t n => .done (s.tick t n)
  | .cut h n => .done (s.updHart h (fun H => { H with cut := some n }))
  | .poison q => .done (s.poisonSector q)
  | .corrected q => .done (if encrypted (q * 32) then s.noteStep else s)
  | .spots ps => .done { s with spots := ps }
  | .island k mhz mv => .done (s.setIsland k.val mhz mv)
  | .power rails => .done (s.powerSample rails)
  | .wsWrite core csr v => .done (s.wsWrite core csr v)
  | .cfgWrite off v => .done (s.cfgWrite off v)

/-- The next turn: the first act of the agenda, or the hart `cur` (log 4). -/
def State.nextTurn (s : State) : Turn :=
  match s.agenda with
  | [] => s.hartTurn
  | a :: rest => { s with agenda := rest }.act a

end Sys2Proof.Machine
end

