-- ==== Sys2Proof/Machine/Step.lean ====
section
/-!
DEFINITION. One step of the machine, and where the host's tests place an instruction.
-/

namespace Sys2Proof.Machine

/-- One step: the next act of the agenda, or the turn of the hart `cur` (log 4). -/
def step (s : State) : Host.Outcome State Fault Refusal :=
  match s.nextTurn with
  | .done s' => .next s'
  | .run i s' =>
    match exec i s' with
    | .next t => .next (t.settle i s'.cur)
    | o => o

/-- A state in which the hart `cur` fetches an instruction of which the opcode table gives the low `nbits`
bits next (log 1). -/
def State.withFetchWord (s : State) (nbits w : Nat) : State := s.placed (tableBytes nbits w)

end Sys2Proof.Machine
end

