-- ==== Sys2Proof/Safety.lean ====
section
/-!
DEFINITION. What counts as a safe run, and the terms in which claims about instructions are stated: what an
access of the hart meets, what it reads, and what an instruction that retires leaves.
-/

namespace Sys2Proof

/-- The step of a state answers a next state. -/
def StepsOn (s : Machine.State) : Prop := ∃ t, Machine.step s = .next t

/-- No run of `n` steps from a state stops. -/
def SafeFor (s : Machine.State) : Nat → Prop
  | 0 => True
  | n + 1 => ∃ t, Machine.step s = .next t ∧ SafeFor t n

end Sys2Proof

namespace Sys2Proof.Claim

open Sys2Proof Sys2Proof.Machine

/-- The instruction retires as a scalar word, with `v` in X[d] and no other effect. -/
def Writes (i : Instr) (s : State) (d : Reg) (v : Word) : Prop := exec i s = .next (s.setX d v).advance

/-- The instruction takes a trap, with no other effect. -/
def Traps (i : Instr) (s : State) (c : Cause) (v : Word) : Prop := exec i s = .next (s.trap c v)

/-- The instruction waits, with no other effect. -/
def Waits (i : Instr) (s : State) (w : Wait) : Prop := exec i s = .next (s.waitIn w)

/-- An access of the hart to a leaf is served: it waits at no peer, no range reservation and no earlier request stops
it, and the host does not hold its line. After the splits that it makes, and the entry of the directory that it changes,
the machine is `u` (R117, R120, R129, R132, R134, R138). -/
structure Meets (s : State) (l : Leaf) (write : Bool) (u : State) : Prop where
  there : s.peerWaits l.pa = false
  served : ∃ s', s.meetInTurn (.hart s.cur) (.hart s.cur) [l.pa / 128] l.key write = (s', .served) ∧
    s'.hostHolds (l.pa / 128) l.key write = false ∧ u = s'.touchLine (tileOf s'.cur) l.pa l.key write

/-- An aligned access of the hart whose turn it is reaches plain memory at a leaf and a cell, and is served: the machine
is `u` then (R204, R205, R422). -/
structure Access (s : State) (kind : Kind) (write : Bool) (va : Word) (size : Nat) (l : Leaf) (c : Nat)
    (u : State) : Prop where
  aligned : va.toNat % size = 0
  plain : s.deviceAt kind va size = none
  reached : s.reach s.cur s.me.sup kind va.toNat = .to l c
  meets : Meets s l write u

/-- What the scalar side of the hart reads at a cell: memory under the key, with the stores laid over it that the side
sees (R117, R337, R339). -/
def seen (u : State) (l : Leaf) (c size : Nat) : Nat := natOf (u.read (.side u.cur true) c l.key size)

/-- An aligned plain load of the hart reads `v` and leaves the machine at `u`: it takes what it has read early, if it has,
and otherwise is served and reads what its side sees, in sectors that are not poisoned (R111, R204, R339, R353). -/
structure Reads (s : State) (kind : Kind) (va : Word) (size v : Nat) (u : State) : Prop where
  aligned : va.toNat % size = 0
  plain : s.deviceAt kind va size = none
  value : ∃ (l : Leaf) (c : Nat), s.reach s.cur s.me.sup kind va.toNat = .to l c ∧
    ((∃ bs, s.takeEarly s.cur true c l.key size = some (bs, u) ∧ v = natOf bs) ∨
     (s.takeEarly s.cur true c l.key size = none ∧ ∃ w, Meets s l false w ∧ w.poisoned l.pa size = false ∧
       v = seen w l c size ∧ u = w.forgetAt s.cur true c size))

/-- No store is outstanding, and the hart's next store is performed at once (log 7). -/
def NoneDelayed (s : State) : Prop := s.delayed = [] ∧ s.me.delays.head? ≠ some true

/-- The `n` oldest entries of the return-address store are spilled one after the other, and the machine is `u` then (R214). -/
def Spilled : Nat → State → State → Prop
  | 0, s, u => u = s
  | n + 1, s, u => ∃ (l : Leaf) (c : Nat) (w : State), s.me.csr.rasp.toNat % 8 = 0 ∧
      s.reach s.cur s.me.sup .shadowWrite s.me.csr.rasp.toNat = .to l c ∧ Meets s l true w ∧
      Spilled n ((w.store w.cur true c l.key ((bytesOf 8 (s.me.ras.headD 0).toNat).map some)).updMe
        (fun H => { H with ras := H.ras.tail }.setRasp (H.csr.rasp + 8))) u

/-- `n` entries below RASP are filled in beneath the oldest one after the other, and the machine is `u` then (R214). -/
def Filled : Nat → State → State → Prop
  | 0, s, u => u = s
  | n + 1, s, u => ∃ (v : Nat) (w : State), Reads s .shadowRead (s.me.csr.rasp - 8) 8 v w ∧
      Filled n (w.updMe (fun H => { H with ras := BitVec.ofNat 64 v :: H.ras }.setRasp (H.csr.rasp - 8))) u

/-- The bytes of a number stand where a fetch of the hart reaches them: in its tile's instruction cache, or in memory as
its fetches see it, with no sector of them poisoned (R16, R29, R111, R223, R427). -/
def Fetches (s : State) (va : Word) (n v : Nat) : Prop :=
  ∃ (l : Leaf) (c : Nat), s.reach s.cur s.me.sup .fetch va.toNat = .to l c ∧
    ((s.tile (tileOf s.cur)).code c l.key n = some (leBytes n v) ∨
     ((s.tile (tileOf s.cur)).code c l.key n = none ∧ s.poisoned l.pa n = false ∧
      s.read (.engine s.cur) c l.key n = leBytes n v))

/-- A hart that has taken a trap or an interrupt: what R420 writes, and all else as it was. -/
def entered (H : Hart) (cause tval : Word) : Hart :=
  { H with
    csr := { H.csr with
      tepc := H.pc &&& ~~~3
      tcause := cause
      tval := tval
      sstat := setBit (setBit (setBit H.csr.sstat 8 H.sup) 5 (H.csr.sstat.getLsbD 1)) 1 false }
    sup := true
    pc := H.csr.tvec &&& ~~~3
    run := .running
    wait := .none
    waited := 0 }

/-- An operand names a hart (R193, R194): 0 names the one that issues, and tile, context and bit 10 a hart that is placed. -/
def Names (s : State) (w : Word) (h : HartId) : Prop :=
  (w = 0 ∧ h = s.cur) ∨
  (w = BitVec.ofNat 64 (1024 + 256 * ctxOf h + (tileOf h).val) ∧ (s.hart h).run ≠ .idle)

/-- The operand of an `mpair` of hart `p` names hart `h` (R296). -/
def NamesBack (w : Word) (h p : HartId) : Prop :=
  w.toNat < 2 ^ 13 ∧ w.toNat % 2 ^ 8 * 4 + w.toNat / 2 ^ 8 % 4 = h.val ∧ h ≠ p

/-- Two states differ in nothing but the hart whose turn it is. -/
def OnlyMe (s t : State) : Prop := t = s.updMe (fun _ => t.me)

/-- The instruction retires as a scalar word with an encoding of a format boxed in F[d] and flags added, and no
other effect (R219, R87). -/
def WritesF (i : Instr) (s : State) (F : FFmt) (d : Reg) (b : Nat) (fl : Flags) : Prop :=
  exec i s = .next ((s.setF d (box F b)).updMe (fun H => H.raise fl)).advance

/-- The instruction retires as a scalar word with `v` in X[d] and flags added, and no other effect (R87). -/
def WritesX (i : Instr) (s : State) (d : Reg) (v : Word) (fl : Flags) : Prop :=
  exec i s = .next ((s.setX d v).updMe (fun H => H.raise fl)).advance

/-- The rational number of a finite value (R77). -/
def rat : FVal → ℚ
  | .num neg m e => (if neg then -1 else 1) * m * (2 : ℚ) ^ e
  | _ => 0

/-- The value is finite. -/
def finite : FVal → Prop
  | .num _ _ _ => True
  | _ => False

/-- The sign of a finite value or an infinity. -/
def negative : FVal → Bool
  | .nan _ => false
  | .inf n => n
  | .num n _ _ => n

/-- `a` stands below `b`, with the infinities at the ends (R91). -/
def below (a b : FVal) : Prop :=
  match a, b with
  | .nan _, _ | _, .nan _ => False
  | .inf x, .inf y => x = true ∧ y = false
  | .inf x, _ => x = true
  | _, .inf y => y = false
  | _, _ => rat a < rat b

/-- The convoy of one slot that holds a form retires: the PC passes its 12 bytes, VSTART is 0, the hart runs
on at its level, and no cause is written (R27, R48, R51). -/
structure Retired (s t : State) : Prop where
  pc : t.me.pc = s.me.pc + 12
  run : t.me.run = .running
  level : t.me.sup = s.me.sup
  vstart : t.me.csr.vstart = 0
  cause : t.me.csr.tcause = s.me.csr.tcause
  epc : t.me.csr.tepc = s.me.csr.tepc

/-- The form issues as the only slot of a convoy at the PC, and runs at once (R26, R41, R42, R197, R278). -/
structure Issues (s : State) (o : VOp) (w : VFields) : Prop where
  place : s.pc.getLsbD 2 = true
  lanes : 0 < s.me.lanes
  mode : majorLegal s.me.mode o.major.toNat = true
  fabric : fabricLegal s.me.mode o = true
  fields : o.fieldsOk w = true
  window : windowRmOk s.me ⟨0, o, w⟩ = true
  distinct : Slot.distinct ⟨0, o, w⟩ = true
  start : s.me.csr.vstart = 0
  uncut : s.me.cut = none
  queue : s.me.vq = [] ∧ s.me.lag = 0

/-- The form issues and runs: VL is not zero and fits the four groups of a convoy, and the branch queue has room
for what it pushes (R237, R240). -/
structure Runs (s : State) (o : VOp) (w : VFields) : Prop where
  issues : Issues s o w
  some : 0 < s.me.vl
  fits : s.me.vl ≤ 4 * groupSize s.me [⟨0, o, w⟩]
  room : s.me.branchQ.length + (if o.pushes then 1 else 0) ≤ 16

/-- Element `k` is below VL and the mask of the form lets it through (R243). -/
def On (s : State) (w : VFields) (k : Nat) : Prop := k < s.me.vl ∧ s.me.bit w.mask.toNat k = true

/-- The flags of the active elements together (R87). -/
def flagsOf (s : State) (w : VFields) (fl : Nat → Flags) : Flags :=
  ((List.range s.me.vl).filter (fun k => s.me.bit w.mask.toNat k)).foldl (fun a k => a ||| fl k) 0

/-- The hart after a form that writes vector register `vd` at a width code: its registers are `V`, the
high-water mark of `vd` counts VL, and flags are added (R87, R241). -/
def wrote (s : State) (w : VFields) (V : Vector VReg 32) (fl : Flags) : State :=
  s.updMe (fun H => Hart.raise { H with
    v := V
    vdirty := H.vdirty.setIfInBounds w.vd.toNat (BitVec.ofNat 3 (max (H.vdirty[w.vd.toNat]?.getD 0).toNat
      (1 + (s.me.vl - 1) / groupElems H.lanes w.width.toNat))) } fl)

/-- The form retires as a convoy of one slot; each active element of `vd` takes its value and every other
element keeps its own; flags are added, and nothing else changes (R45, R243). -/
def Elementwise (i : Instr) (s : State) (w : VFields) (fl : Flags) (val : Nat → Nat) : Prop :=
  ∃ V : Vector VReg 32, exec i s = .next ((wrote s w V fl).goTo (s.pc + 12)) ∧
    (∀ r < 32, r ≠ w.vd.toNat → V[r]?.getD 0 = s.me.getV r) ∧
    ∀ k < 4 * groupElems s.me.lanes w.width.toNat,
      (On s w k → elemOf s.me.lanes w.width.toNat (V[w.vd.toNat]?.getD 0) k = val k) ∧
      (¬ On s w k → elemOf s.me.lanes w.width.toNat (V[w.vd.toNat]?.getD 0) k =
        s.me.elem w.vd.toNat w.width.toNat k)

/-- The form retires as a convoy of one slot; each active bit of mask register `vd` takes its value and every
other bit keeps its own; flags are added, and nothing else changes (R243, R248). -/
def Bitwise (i : Instr) (s : State) (w : VFields) (fl : Flags) (val : Nat → Bool) : Prop :=
  ∃ M : Vector MReg 7,
    let t := (s.updMe (fun H => Hart.raise { H with m := M } fl)).goTo (s.pc + 12)
    exec i s = .next t ∧ (∀ r < 8, r ≠ w.vd.toNat → t.me.getM r = s.me.getM r) ∧
    ∀ k < 8192, (On s w k → t.me.bit w.vd.toNat k = val k) ∧
      (¬ On s w k → t.me.bit w.vd.toNat k = s.me.bit w.vd.toNat k)

/-- The form retires as a convoy of one slot with a reply in X[r] and no other effect (R239). -/
def Replies (i : Instr) (s : State) (r : Reg) (v : Word) : Prop :=
  exec i s = .next ((s.setX r v).goTo (s.pc + 12))

/-- Register `r` at a width code, in the hart whose turn it is, holds `f k` at each element below `n`. -/
def Holds (t : State) (r : BitVec 5) (width n : Nat) (f : Nat → Nat) : Prop :=
  ∀ k < n, t.me.elem r.toNat width k = f k

/-- The other vector registers, the masks and the scalar registers are as before. -/
structure Others (s t : State) (r : BitVec 5) : Prop where
  v : ∀ q < 32, q ≠ r.toNat → t.me.getV q = s.me.getV q
  m : t.me.m = s.me.m
  x : t.me.x = s.me.x
  f : t.me.f = s.me.f
  vl : t.me.csr.vcfg = s.me.csr.vcfg

/-- The second operand of an integer form at element `k` (R244). -/
def second (s : State) (w : VFields) (k : Nat) : Nat :=
  let n := 8 * 2 ^ w.width.toNat
  match w.sel.toNat / 2 ^ 16 with
  | 0 => s.me.elem w.vb.toNat w.width.toNat k
  | 1 => (s.getX w.vc).toNat % 2 ^ n
  | _ => ((BitVec.ofNat 16 w.sel.toNat).toInt % (2 ^ n : Nat)).toNat

/-- The second operand of a floating form at element `k` (R219, R244). -/
def secondF (s : State) (w : VFields) (k : Nat) : Nat :=
  if w.sel.toNat / 2 ^ 16 = 0 then s.me.elem w.vb.toNat w.width.toNat k
  else unbox (fmtOfCode w.fmt.toNat) (s.getF w.vc)

/-- Nothing stands in the way of an access of the hart to a leaf's line, and nothing is done for it: no reservation, no parked
request, no wait at a peer, and no holder that a directory knows (R120, R129, R134, R138). -/
structure LineFree (s : State) (l : Leaf) (write : Bool) : Prop where
  there : s.peerWaits l.pa = false
  served : s.meetInTurn (.hart s.cur) (.hart s.cur) [l.pa / 128] l.key write = (s, .served)
  unheld : s.dirAt (l.pa / 128) = none

/-- The addresses of the elements of a form are aligned and reach cells, and nothing stops them (R263). -/
structure Reaches (s : State) (kind : Kind) (size : Nat) (addr : Nat → Word) (on : Nat → Prop)
    (L : Nat → Leaf) (C : Nat → Nat) : Prop where
  aligned : ∀ k, on k → (addr k).toNat % size = 0
  reached : ∀ k, on k → s.reach s.cur s.me.sup kind (addr k).toNat = .to (L k) (C k)
  served : ∀ k, on k → LineFree s (L k) (kind == .write)

/-- The host holds none of the lines that `n` bytes touch (R120). -/
def HostAway (s : State) (pa n : Nat) : Prop :=
  ∀ e ∈ s.dir, pa / 128 ≤ e.line → e.line ≤ (pa + n - 1) / 128 → e.host = none

/-- What the vector side of the hart reads at a cell (R339). -/
def vseen (s : State) (l : Leaf) (c size : Nat) : Nat :=
  natOf (s.read (.side s.cur false) c l.key size)

/-- No load has been performed early, and the landing dies keep no frame list (logs 11, 31). -/
def NoneKept (s : State) : Prop := s.early = [] ∧ ∀ d, (s.landing d).frames = []

/-- No store is outstanding, every store of the hart is performed at once, and nothing read before is kept (log 7). -/
def AtOnce (s : State) : Prop := s.delayed = [] ∧ (∀ b ∈ s.me.delays, b = false) ∧ NoneKept s

/-- The landing dies without their frame lists. -/
def bare (L : Vector Landing 8) : Vector Landing 8 := L.map (fun l => { l with frames := [] })

/-- Two states differ only in the frame lists of the landing dies, and in which stores of the hart's vector side a vector
load of the hart has returned (R121, R340). -/
def Like (s t : State) : Prop :=
  { t with delayed := s.delayed, landings := s.landings } = s ∧ bare t.landings = bare s.landings ∧
    t.delayed.map (fun d => { d with observed := false }) = s.delayed.map (fun d => { d with observed := false })

/-- As `Elementwise`, of a form that loads from memory, with no flag. -/
def Loaded (i : Instr) (s : State) (w : VFields) (val : Nat → Nat) : Prop :=
  ∃ (V : Vector VReg 32) (t : State), exec i s = .next t ∧ Like ((wrote s w V 0).goTo (s.pc + 12)) t ∧
    (∀ r < 32, r ≠ w.vd.toNat → V[r]?.getD 0 = s.me.getV r) ∧
    ∀ k < 4 * groupElems s.me.lanes w.width.toNat,
      (On s w k → elemOf s.me.lanes w.width.toNat (V[w.vd.toNat]?.getD 0) k = val k) ∧
      (¬ On s w k → elemOf s.me.lanes w.width.toNat (V[w.vd.toNat]?.getD 0) k =
        s.me.elem w.vd.toNat w.width.toNat k)

/-- The form retires with its registers as before, but for flags added to MSTAT. Bytes of sectors that no element touches read as before under
every key; where the elements have one key, `val k` stands at the cell of each element that no other element
overlaps, and every byte outside the elements reads as before under that key (R264, R338). -/
def Stored (i : Instr) (s : State) (fl : Flags) (size : Nat) (on : Nat → Prop) (L : Nat → Leaf) (C : Nat → Nat)
    (val : Nat → Nat) : Prop :=
  ∃ t, exec i s = .next t ∧ Retired s t ∧ t.me.csr = (s.me.raiseM fl).csr ∧ t.me.x = s.me.x ∧ t.me.f = s.me.f ∧
    t.me.v = s.me.v ∧ t.me.m = s.me.m ∧ t.full = s.full ∧ bare t.landings = bare s.landings ∧
    (∀ a key, (∀ k, on k → a / 32 < C k / 32 ∨ (C k + size - 1) / 32 < a / 32) → t.byteUnder a key = s.byteUnder a key) ∧
    ∀ key, (∀ k, on k → (L k).key = key) →
      (∀ k, on k → (∀ j, on j → j ≠ k → C j + size ≤ C k ∨ C k + size ≤ C j) →
        t.bytesUnder (C k) key size = bytesOf size (val k)) ∧
      ∀ a, (∀ k, on k → a < C k ∨ C k + size ≤ a) → t.byteUnder a key = s.byteUnder a key

/-- The entry at HEAD of ring `q` is there and can be read, and `bs` are its first `need` bytes (R290, R291). -/
def Entry (s : State) (q need : Nat) (bs : List Byte) : Prop :=
  let r := s.me.ring (BitVec.ofNat 3 q)
  let n := (need + 3) / 4
  r.on = true ∧ need ≤ r.size ∧ r.occ ≠ 0 ∧ s.me.shapeM ≠ 0 ∧ s.me.shapeN ≠ 0 ∧ s.me.shapeK ≠ 0 ∧
  ∃ (L : Nat → Leaf) (C : Nat → Nat),
    Reaches s .read 4 (fun k => r.base + BitVec.ofNat 64 (r.head.toNat % r.entries * r.size) + BitVec.ofNat 64 (4 * k))
      (fun k => k < n) L C ∧ (∀ k < n, s.poisoned (L k).pa 4 = false) ∧
    bs = ((List.range n).flatMap (fun k => bytesOf 4 (vseen s (L k) (C k) 4))).take need

/-- No source outside the nodes of the region has a token to send, and no destination outside them holds one
(R312, R325). -/
structure Still (s : State) (a : ActiveSet) : Prop where
  active : s.me.fabric.active = some a
  goes : s.me.fabric.fault = false
  control : a.control = []
  inputs : ∀ l ∈ a.set.linksOf, epKind l.2.src = 2 → s.me.fabric.queue (epQueue l.2.src) = []
  sinks : ∀ e, epKind e = 2 ∨ epKind e = 4 → a.tokens e = []

/-- A source endpoint has no link, or one to nodes, without conversion, each destination once and with room
(R313, R318). -/
def Free (a : ActiveSet) (src : BitVec 16) : Prop :=
  ∀ l, a.set.linkFrom src = some l → l.stype = l.dtype ∧ l.dsts.Nodup ∧
    ∀ e ∈ l.dsts, epKind e ≠ 2 ∧ epKind e ≠ 4 ∧ (a.tokens e).length < l.depth

/-- A node of the region fires: it takes the first token of some ports and sends one on the link of a source
endpoint, and nothing else moves; the hart's scalar side goes on undisturbed (R313). `Q` tells what else the firing
leaves. -/
def Fires (i : Instr) (s : State) (a : ActiveSet) (takes : List (BitVec 16)) (out : Option (BitVec 16 × Word))
    (Q : State → ActiveSet → Prop) : Prop :=
  ∃ t b, exec i s = .next t ∧ t.me.fabric.active = some b ∧ b.set = a.set ∧
    t.pc = s.pc ∧ t.me.run = s.me.run ∧ t.me.x = s.me.x ∧ t.me.f = s.me.f ∧
    (∀ e, epKind e ≠ 2 → epKind e ≠ 4 → b.tokens e =
      (if e ∈ takes then (a.tokens e).tail else a.tokens e) ++
      (match out with
        | some (src, x) => (match a.set.linkFrom src with
          | some l => if e ∈ l.dsts then [x] else []
          | none => [])
        | none => [])) ∧ Q t b

end Sys2Proof.Claim
end

