-- ==== Sys2Proof/Certificates/Slice0/Obligations.lean ====
section
/-!
DEFINITION. The statements for the provers: what the rules of the manual say the machine and each of its
instructions do, over every state.
-/

open Sys2Proof Sys2Proof.Machine

/-! ### The machine as a whole -/

/-- After reset: every hart context is idle at user level with an empty return-address store and its named
CSRs at 0, every bank is a cache bank, no launch queue holds an entry, every SCHCFG holds AGE 65,536 and
PREEMPT 1,048,576, no range reservation is held, every full/empty bit is empty, and the module is at service
level 0. That contexts are idle and at user level, that x and f registers and CSRs with no stated reset value hold 0,
and that the return-address store and the full/empty bits are empty, is the model's choice (log 3). -/
def Obligations.ResetState : Prop :=
    (∀ h : HartId, (State.reset.hart h).run = .idle ∧ (State.reset.hart h).sup = false ∧
      (State.reset.hart h).ras = [] ∧ (State.reset.hart h).csr = Csrs.reset ∧
      (∀ r, (State.reset.hart h).getX r = 0) ∧ (∀ r, (State.reset.hart h).getF r = 0)) ∧
  (∀ (t : Fin 224) (b : Nat), b < 64 → State.reset.roleAt (spadAddr t.val b 0) = .cache) ∧
  (∀ d : Fin 4, (∀ q : Fin 32, (State.reset.die d).queues[q.val].entries = []) ∧
      (State.reset.die d).schcfg = 0x10000000010000) ∧
  (∀ d : Fin 8, (State.reset.landing d).entries = []) ∧
  (∀ pa, State.reset.isFull pa = false) ∧ State.reset.mgmt.level = 0

/-- Memory after reset is in its canonical form. -/
def Obligations.ResetMemoryCanonical : Prop :=
   Memory.wf State.reset.mem = true

/-- Every step keeps memory in its canonical form: addresses strictly rising, and no byte listed that reads
as an unlisted address does. -/
def Obligations.StepKeepsMemoryCanonical : Prop :=
    ∀ s t : State, Memory.wf s.mem = true → step s = .next t → Memory.wf t.mem = true

/-- A hart whose turn it is, on an empty agenda or by the agenda's first act, and that runs with no halt requested
and no interrupt due, executes the instruction at its PC: the step is `exec` of the fetched instruction, once the queued
convoys that must retire before it have (none where the vector queue is empty), after which, as after a fetch that traps,
a hart that the debug module steps halts with CAUSE 2; an event is no such instruction. A scalar word, and a convoy with its vector words, is fetched where its
bytes are reached and no sector of them is poisoned, and it is the instruction that the decoder reads from them. An
event that is first on the agenda is executed. -/
def Obligations.StepRunsFetched : Prop :=
    (∀ (s u : State) (i : Instr),
    (s.agenda = [] ∧ u = s) ∨ (∃ h rest, s.agenda = .hart h :: rest ∧ u = { s with agenda := rest, cur := h }) →
    u.me.run = .running → u.me.dbg.haltReq = false → u.dueIrq = none → u.fetch = .got i →
    let v := u.vectorReady i
    (u.me.vq = [] → v = u) ∧ step s = match exec i v with
      | .next t => .next (t.settle i v.cur)
      | o => o) ∧
  (∀ (s : State) (w : BitVec 32), Claim.Fetches s s.pc 4 w.toNat → fld w 26 6 ≠ 0x3E#6 →
    s.fetch = .got (decodeScalar w)) ∧
  (∀ (s : State) (header : BitVec 32) (words : List (BitVec 64)), Claim.Fetches s s.pc 4 header.toNat →
    fld header 26 6 = 0x3E#6 → headerFault s.pc header = none → words.length = slotsOf header →
    (∀ (k : Nat) (w : BitVec 64), words[k]? = some w →
      Claim.Fetches s (s.pc + 4 + BitVec.ofNat 64 (8 * k)) 8 w.toNat) →
    s.fetch = .got (.convoy header words)) ∧
  (∀ (s : State) (i : Instr) (rest : List Act), s.agenda = .event i :: rest → isEvent i = true →
    let v := ({ s with agenda := rest } : State).drainAll
    ((∀ h : HartId, (s.hart h).vq = []) → v = { s with agenda := rest }) ∧ step s = match exec i v with
      | .next t => .next (t.settle i v.cur)
      | o => o) ∧
  (∀ (s u : State) (c : Cause) (va : Word),
    (s.agenda = [] ∧ u = s) ∨ (∃ h rest, s.agenda = .hart h :: rest ∧ u = { s with agenda := rest, cur := h }) →
    u.me.run = .running → u.me.dbg.haltReq = false → u.dueIrq = none → u.fetch = .trap c va →
    step s = .next (((u.endFailed u.cur va.toNat).trap c va).stepped u.cur)) ∧
  (∀ (s : State) (i : Instr) (h : HartId),
    ((s.hart h).dbg.stepping = false ∨ (s.hart h).run ≠ .running → s.stepped h = s) ∧
    ((s.hart h).dbg.stepping = true → (s.hart h).run = .running → ((s.stepped h).hart h).run = .halted ∧
      fld ((s.stepped h).hart h).dbg.stat 2 2 = 2) ∧
    s.settle i h = if isEvent i then s else s.stepped h)

/-- Words written out from the encodings of the manual decode to the instructions that they stand for: one or more
of each scalar major (0x01 to 0x15 and 0x3D), one of each vector major (0x01 to 0x14), and two unit words. -/
def Obligations.WordsDecode : Prop :=
    decodeScalar 0x0022186A#32 = .illegalInstruction 0x0022186A#32 ∧
  decodeScalar (0x04000000#32 ||| 3 <<< 21 ||| 4 <<< 16 ||| 5 <<< 11 ||| 1 <<< 6) = .sub 3 4 5 ∧
  decodeScalar (0x08000000#32 ||| 3 <<< 21 ||| 4 <<< 16 ||| 0xFFFF) = .addi 3 4 0xFFFF ∧
  decodeScalar (0x0C000000#32 ||| 1 <<< 21 ||| 2 <<< 16 ||| 3 <<< 11 ||| 4 <<< 6) = .div 1 2 3 ∧
  decodeScalar (0x10000000#32 ||| 7 <<< 21 ||| 8 <<< 16 ||| 3 <<< 12 ||| 0x010) = .ldI64 7 8 0x010 ∧
  decodeScalar (0x14000000#32 ||| 7 <<< 21 ||| 8 <<< 16 ||| 2 <<< 12 ||| 0x004) = .stI32 7 8 0x004 ∧
  decodeScalar 0x1871506C#32 = .amoadd 3 17 10 1 0 1 4 ∧ decodeScalar 0x1C1152B7#32 = .beq 17 10 0x2B7 ∧
  decodeScalar 0x1EE002B7#32 = .bqf 0x2B7 ∧ decodeScalar 0x210002B7#32 = .call 0x2B7 ∧
  decodeScalar 0x22400000#32 = .ret ∧ decodeScalar 0x286009A3#32 = .pcrel 3 0x9A3 ∧
  decodeScalar 0x2C715012#32 = .fadd 3 17 10 2 2 ∧ decodeScalar 0x30715642#32 = .fmadd 3 17 10 25 0 2 ∧
  decodeScalar 0x34711019#32 = .csrw 3 17 25 ∧ decodeScalar 0x387100F4#32 = .lda 3 17 1 2 4 ∧
  decodeScalar 0x44710008#32 = .bankCfgSpad 3 17 ∧ decodeScalar 0x44115104#32 = .stf 17 10 4 ∧
  decodeScalar 0x48116804#32 = .cwait 17 13 4 ∧ decodeScalar 0x48710184#32 = .barArrive 3 17 4 ∧
  decodeScalar 0x50710044#32 = .capSend 3 17 4 ∧ decodeScalar 0x54715054#32 = .vsetvl 3 17 10 1 1 4 ∧
  decodeScalar 0x54710501#32 = .mpair 3 17 ∧
  decodeScalar (0x24000000#32 ||| 9 <<< 21 ||| 0x1F) = .lik 9 0x1F ∧
  decodeScalar 0x3C0000C0#32 = .wfi ∧ decodeScalar 0x3C000000#32 = .ecall ∧
  decodeScalar 0x3C053103#32 = .tlbInv 5 6 3 ∧
  decodeScalar 0x418000C0#32 = .strmPop 12 0 ∧
  decodeScalar 0x4C0000C0#32 = .kdone ∧ decodeScalar 0x4C000080#32 = .kyield ∧
  decodeScalar 0x41650000#32 = .strmCfg 11 5 0 ∧ decodeScalar 0x40090100#32 = .strmPush 9 0 ∧
  decodeScalar 0xF4123456#32 = .nop 0x123456 ∧
  decodeVector (0x0400000000000000#64 ||| 3 <<< 47 ||| 1 <<< 42 ||| 2 <<< 37 ||| 3 <<< 26 ||| 0 <<< 21) =
    some (.vadd, ⟨3, 1, 2, 0, 0, 3, 0, 0, 0⟩) ∧
  decodeVector 0x0881C400A8200000#64 = some (.vnot, ⟨3, 17, 0, 0, 5, 2, 1, 0, 0⟩) ∧
  decodeVector 0x0C234540A8200000#64 = some (.vmslt, ⟨6, 17, 10, 0, 5, 2, 1, 0, 0⟩) ∧
  decodeVector 0x1021C540A8680000#64 = some (.vfmul, ⟨3, 17, 10, 0, 5, 2, 3, 2, 0⟩) ∧
  decodeVector 0x1401C55DA4AC0000#64 = some (.vfmadd, ⟨3, 17, 10, 29, 5, 1, 5, 3, 0⟩) ∧
  decodeVector 0x1801C40CA0146A00#64 = some (.vcvt, ⟨3, 17, 0, 12, 5, 0, 0, 5, 0x6A00⟩) ∧
  decodeVector 0x1C21C540A8200000#64 = some (.vperm, ⟨3, 17, 10, 0, 5, 2, 1, 0, 0⟩) ∧
  decodeVector 0x2001C540A86BC000#64 = some (.vredsum, ⟨3, 17, 10, 0, 5, 2, 3, 2, 0x3C000⟩) ∧
  decodeVector 0x2403982000000000#64 = some (.vmand, ⟨7, 6, 1, 0, 0, 0, 0, 0, 0⟩) ∧
  decodeVector 0x28018016A8627FF0#64 = some (.vld, ⟨3, 0, 0, 22, 5, 2, 3, 0, 0x27FF0⟩) ∧
  decodeVector 0x2C004416A8610010#64 = some (.vst, ⟨0, 17, 0, 22, 5, 2, 3, 0, 0x10010⟩) ∧
  decodeVector 0x30018156A822B000#64 = some (.vgather, ⟨3, 0, 10, 22, 5, 2, 1, 0, 0x2B000⟩) ∧
  decodeVector 0x3411C55608230000#64 = some (.vxint, ⟨3, 17, 10, 22, 0, 2, 1, 0, 0x30000⟩) ∧
  decodeVector 0x3891C556A8235900#64 = some (.vamoadd, ⟨3, 17, 10, 22, 5, 2, 1, 0, 0x35900⟩) ∧
  decodeVector 0x3C01C41608200000#64 = some (.vext, ⟨3, 17, 0, 22, 0, 2, 1, 0, 0⟩) ∧
  decodeVector 0x4000182001012280#64 = some (.mma, ⟨0, 6, 1, 0, 0, 0, 8, 0, 0x12280⟩) ∧
  decodeVector 0x441018360001C100#64 = some (.msound, ⟨0, 6, 1, 22, 0, 0, 0, 0, 0x1C100⟩) ∧
  decodeVector 0x4810455604880200#64 = some (.mst, ⟨0, 17, 10, 22, 0, 1, 4, 2, 0x200⟩) ∧
  decodeVector 0x4C10000000000000#64 = some (.fgo, ⟨0, 0, 0, 0, 0, 0, 0, 0, 0⟩) ∧
  decodeVector 0x50014556A8210000#64 = some (.vwait, ⟨2, 17, 10, 22, 5, 2, 1, 0, 0x10000⟩) ∧
  decodeUnit (0x04000000#32 ||| 0 <<< 21 ||| 3 <<< 19 ||| 1 <<< 11 ||| 2 <<< 6 ||| 3 <<< 1) =
    some (.add, ⟨0, 3, 0, 1, 2, 3⟩)

/-- A scalar instruction that obeys its field rules decodes back from its word, with every operand at every
value; a word that breaks a rule decodes to the illegal instruction that holds it. -/
def Obligations.ScalarWordsRoundTrip : Prop :=
    (∀ (i : Instr) (w : BitVec 32), encodeScalar i = some w → i.scalarOk = true →
    (∀ v, i ≠ .illegalInstruction v) → decodeScalar w = i) ∧
  (∀ w : BitVec 32, encodeScalar (decodeScalar w) = some w) ∧
  (∀ w : BitVec 32, (decodeScalar w).scalarOk = true ∨ decodeScalar w = .illegalInstruction w)

/-- A vector form with any fields decodes back from its word, where its window or matrix operation is the one
that its selectors name; and the word of a decoded form is the word that it was decoded from. -/
def Obligations.VectorWordsRoundTrip : Prop :=
    (∀ (o : VOp) (w : VFields), (o = .fgo → fld w.sel 17 1 = 0) → (o = .fgoResume → fld w.sel 17 1 = 1) →
    decodeVector (encodeVector o w) = some (o, w)) ∧
  (∀ (x : BitVec 64) (o : VOp) (w : VFields), decodeVector x = some (o, w) → encodeVector o w = x)

/-- A unit operation with any fields decodes back from its word, and a decoded word is encoded back. -/
def Obligations.UnitWordsRoundTrip : Prop :=
    (∀ (o : UOp) (u : UFields), decodeUnit (encodeUnit o u) = some (o, u)) ∧
  (∀ (x : BitVec 32) (o : UOp) (u : UFields), decodeUnit x = some (o, u) → encodeUnit o u = x)

/-! ### Scalar arithmetic -/

/-- R200: each integer form of major 0x01 retires with its result in X[xd] (in x0, nothing is kept), and
changes nothing else.

R200: `clz`, `ctz` and `cpop` retire with a count from 0 to 64 in X[xd]: the number of bits above the
highest 1 bit, of bits below the lowest 1 bit, and of 1 bits.

R202: `lik` writes sext(imm21) × 65,536 and `pcrel` writes PC + 4 × sext(imm21).

R203: products, quotients rounded towards zero and remainders; a zero divisor gives all ones and the
dividend, and the one signed overflow gives the dividend and 0. Division never traps. -/
def Obligations.ScalarArithmetic : Prop :=
  (∀ (s : State) (d a b : Reg) (n : BitVec 6),
     let x := s.getX a
     let y := s.getX b
     let m := y.toNat % 64
     Claim.Writes (.add d a b) s d (BitVec.ofNat 64 (x.toNat + y.toNat)) ∧
     Claim.Writes (.sub d a b) s d (BitVec.ofInt 64 (x.toNat - y.toNat)) ∧
     Claim.Writes (.and d a b) s d (x &&& y) ∧
     Claim.Writes (.or d a b) s d (x ||| y) ∧
     Claim.Writes (.xor d a b) s d (x ^^^ y) ∧
     Claim.Writes (.andn d a b) s d (x &&& ~~~y) ∧
     Claim.Writes (.sll d a b) s d (BitVec.ofNat 64 (x.toNat * 2 ^ m)) ∧
     Claim.Writes (.srl d a b) s d (BitVec.ofNat 64 (x.toNat / 2 ^ m)) ∧
     Claim.Writes (.sra d a b) s d (BitVec.ofInt 64 (x.toInt / (2 ^ m : Nat))) ∧
     Claim.Writes (.slt d a b) s d (if x.toInt < y.toInt then 1 else 0) ∧
     Claim.Writes (.sltu d a b) s d (if x.toNat < y.toNat then 1 else 0) ∧
     Claim.Writes (.min d a b) s d (BitVec.ofInt 64 (min x.toInt y.toInt)) ∧
     Claim.Writes (.max d a b) s d (BitVec.ofInt 64 (max x.toInt y.toInt)) ∧
     Claim.Writes (.minu d a b) s d (BitVec.ofNat 64 (min x.toNat y.toNat)) ∧
     Claim.Writes (.maxu d a b) s d (BitVec.ofNat 64 (max x.toNat y.toNat)) ∧
     Claim.Writes (.addw d a b) s d ((BitVec.ofNat 32 (x.toNat + y.toNat)).signExtend 64) ∧
     Claim.Writes (.subw d a b) s d ((BitVec.ofInt 32 (x.toNat - y.toNat)).signExtend 64) ∧
     Claim.Writes (.sh1add d a b) s d (BitVec.ofNat 64 (2 * x.toNat + y.toNat)) ∧
     Claim.Writes (.sh2add d a b) s d (BitVec.ofNat 64 (4 * x.toNat + y.toNat)) ∧
     Claim.Writes (.sh3add d a b) s d (BitVec.ofNat 64 (8 * x.toNat + y.toNat)) ∧
     Claim.Writes (.slli d a n) s d (BitVec.ofNat 64 (x.toNat * 2 ^ n.toNat)) ∧
     Claim.Writes (.srli d a n) s d (BitVec.ofNat 64 (x.toNat / 2 ^ n.toNat)) ∧
     Claim.Writes (.srai d a n) s d (BitVec.ofInt 64 (x.toInt / (2 ^ n.toNat : Nat))) ∧
     Claim.Writes (.sextB d a) s d (BitVec.ofInt 64 (BitVec.ofNat 8 x.toNat).toInt) ∧
     Claim.Writes (.sextH d a) s d (BitVec.ofInt 64 (BitVec.ofNat 16 x.toNat).toInt) ∧
     Claim.Writes (.sextW d a) s d (BitVec.ofInt 64 (BitVec.ofNat 32 x.toNat).toInt) ∧
     Claim.Writes (.zextB d a) s d (BitVec.ofNat 64 (x.toNat % 2 ^ 8)) ∧
     Claim.Writes (.zextH d a) s d (BitVec.ofNat 64 (x.toNat % 2 ^ 16)) ∧
     Claim.Writes (.zextW d a) s d (BitVec.ofNat 64 (x.toNat % 2 ^ 32))) ∧
  (∀ (s : State) (d a : Reg),
     let x := s.getX a
     (∃ n ≤ 64, Claim.Writes (.clz d a) s d (BitVec.ofNat 64 n) ∧
       (∀ i, 64 - n ≤ i → x.getLsbD i = false) ∧ (n < 64 → x.getLsbD (63 - n) = true)) ∧
     (∃ n ≤ 64, Claim.Writes (.ctz d a) s d (BitVec.ofNat 64 n) ∧
       (∀ i < n, x.getLsbD i = false) ∧ (n < 64 → x.getLsbD n = true)) ∧
     Claim.Writes (.cpop d a) s d (BitVec.ofNat 64 ((List.range 64).countP (fun i => x.getLsbD i)))) ∧
  (∀ (s : State) (d : Reg) (i : BitVec 21),
     Claim.Writes (.lik d i) s d (BitVec.ofInt 64 (i.toInt * 65536)) ∧
     Claim.Writes (.pcrel d i) s d (BitVec.ofInt 64 (s.pc.toInt + 4 * i.toInt))) ∧
  (∀ (s : State) (d a b : Reg),
     let x := s.getX a
     let y := s.getX b
     let x32 : BitVec 32 := x.setWidth 32
     let y32 : BitVec 32 := y.setWidth 32
     Claim.Writes (.mul d a b) s d (BitVec.ofNat 64 (x.toNat * y.toNat)) ∧
     Claim.Writes (.mulh d a b) s d (BitVec.ofInt 64 (x.toInt * y.toInt / 2 ^ 64)) ∧
     Claim.Writes (.mulhu d a b) s d (BitVec.ofNat 64 (x.toNat * y.toNat / 2 ^ 64)) ∧
     Claim.Writes (.mulhsu d a b) s d (BitVec.ofInt 64 (x.toInt * y.toNat / 2 ^ 64)) ∧
     Claim.Writes (.div d a b) s d
       (if y.toInt = 0 then BitVec.allOnes 64 else BitVec.ofInt 64 (x.toInt.tdiv y.toInt)) ∧
     Claim.Writes (.divu d a b) s d
       (if y.toNat = 0 then BitVec.allOnes 64 else BitVec.ofNat 64 (x.toNat / y.toNat)) ∧
     Claim.Writes (.rem d a b) s d (if y.toInt = 0 then x else BitVec.ofInt 64 (x.toInt.tmod y.toInt)) ∧
     Claim.Writes (.remu d a b) s d (if y.toNat = 0 then x else BitVec.ofNat 64 (x.toNat % y.toNat)) ∧
     Claim.Writes (.mulw d a b) s d ((BitVec.ofNat 32 (x.toNat * y.toNat)).signExtend 64) ∧
     Claim.Writes (.divw d a b) s d
       (if y32.toInt = 0 then BitVec.allOnes 64
        else (BitVec.ofInt 32 (x32.toInt.tdiv y32.toInt)).signExtend 64) ∧
     Claim.Writes (.remw d a b) s d
       (if y32.toInt = 0 then x32.signExtend 64
        else (BitVec.ofInt 32 (x32.toInt.tmod y32.toInt)).signExtend 64))

/-- R201: the word of `addi`, that it decodes to it whatever its fields, and X[xd] := X[xa] + sext(imm16). -/
def Obligations.AddImmediate : Prop :=
    ∀ (s : State) (d a : Reg) (i : BitVec 16),
    decodeScalar (0x08000000#32 ||| d.setWidth 32 <<< 21 ||| a.setWidth 32 <<< 16 ||| i.setWidth 32) = .addi d a i ∧
    Claim.Writes (.addi d a i) s d (BitVec.ofInt 64 ((s.getX a).toInt + i.toInt))

/-! ### Branches and jumps -/

/-- R208: a branch whose condition holds goes on at its own address plus four times its offset, and otherwise
at the next word; nothing else changes.

R209: `bqt` and `bqf` take the oldest bit of the branch queue and branch where it is 1, or 0; an empty
queue is the underflow trap with TVAL 0. -/
def Obligations.Branches : Prop :=
  (∀ (s : State) (a b : Reg) (o : BitVec 11) (z : BitVec 16),
     let x := s.getX a
     let y := s.getX b
     let far (p : Prop) [Decidable p] (n : Int) : Host.Outcome State Fault Refusal :=
       .next (s.goTo (if p then BitVec.ofInt 64 (s.pc.toInt + 4 * n) else s.pc + 4))
     exec (.beq a b o) s = far (x = y) o.toInt ∧
     exec (.bne a b o) s = far (x ≠ y) o.toInt ∧
     exec (.blt a b o) s = far (x.toInt < y.toInt) o.toInt ∧
     exec (.bge a b o) s = far (y.toInt ≤ x.toInt) o.toInt ∧
     exec (.bltu a b o) s = far (x.toNat < y.toNat) o.toInt ∧
     exec (.bgeu a b o) s = far (y.toNat ≤ x.toNat) o.toInt ∧
     exec (.beqz a z) s = far (x = 0) z.toInt ∧
     exec (.bnez a z) s = far (x ≠ 0) z.toInt ∧
     exec (.bltz a z) s = far (x.toInt < 0) z.toInt ∧
     exec (.bgez a z) s = far (0 ≤ x.toInt) z.toInt ∧
     exec (.blez a z) s = far (x.toInt ≤ 0) z.toInt ∧
     exec (.bgtz a z) s = far (0 < x.toInt) z.toInt) ∧
  (∀ (s : State) (z : BitVec 16),
     (∀ (b : Bool) (q : List Bool), s.me.branchQ = b :: q →
       let go (p : Bool) : State := (s.updMe (fun H => { H with branchQ := q })).goTo
         (if p then BitVec.ofInt 64 (s.pc.toInt + 4 * z.toInt) else s.pc + 4)
       exec (.bqt z) s = .next (go b) ∧ exec (.bqf z) s = .next (go (!b))) ∧
     (s.me.branchQ = [] →
       Claim.Traps (.bqt z) s .branchUnderflow 0 ∧ Claim.Traps (.bqf z) s .branchUnderflow 0))

/-- R210 to R212: jumps and calls go to their targets, a call pushes PC + 4; a register target that is not a
multiple of 4 traps with the target in TVAL, and a call with 32 entries traps with PC + 4 in TVAL.

R212: `ret` pops the newest entry and goes on there, and an empty store is the underflow trap. -/
def Obligations.JumpsCallsReturns : Prop :=
  (∀ (s : State) (a : Reg) (o : BitVec 24) (i : BitVec 16),
     let near := BitVec.ofInt 64 (s.pc.toInt + 4 * o.toInt)
     let far := BitVec.ofInt 64 ((s.getX a).toInt + i.toInt)
     let push := s.updMe (fun H => { H with ras := H.ras ++ [s.pc + 4] })
     exec (.j o) s = .next (s.goTo near) ∧
     (s.me.ras.length < 32 → exec (.call o) s = .next (push.goTo near)) ∧
     (far.toNat % 4 = 0 → exec (.jr a i) s = .next (s.goTo far)) ∧
     (far.toNat % 4 = 0 → s.me.ras.length < 32 → exec (.callr a i) s = .next (push.goTo far)) ∧
     (far.toNat % 4 ≠ 0 → Claim.Traps (.jr a i) s .instrMisaligned far ∧
       Claim.Traps (.callr a i) s .instrMisaligned far) ∧
     (32 ≤ s.me.ras.length → Claim.Traps (.call o) s .rasOverflow (s.pc + 4) ∧
       (far.toNat % 4 = 0 → Claim.Traps (.callr a i) s .rasOverflow (s.pc + 4)))) ∧
  (∀ s : State,
     (∀ (r : List Word) (t : Word), s.me.ras = r ++ [t] → t.toNat % 4 = 0 →
       exec .ret s = .next ((s.updMe (fun H => { H with ras := r })).goTo t)) ∧
     (s.me.ras = [] → Claim.Traps .ret s .rasUnderflow 0))

/-- R213: `ras.drop` discards the X[xa] newest entries; where X[xa] exceeds the depth, nothing is discarded and the
underflow trap holds X[xa] in TVAL. -/
def Obligations.DropReturnAddresses : Prop :=
    ∀ (s : State) (a : Reg),
    (∀ (r q : List Word), s.me.ras = r ++ q → q.length = (s.getX a).toNat →
      exec (.rasDrop a) s = .next (s.updMe (fun H => { H with ras := r })).advance) ∧
    (s.me.ras.length < (s.getX a).toNat → Claim.Traps (.rasDrop a) s .rasUnderflow (s.getX a)) ∧
    (s.getX a = 0 → exec (.rasDrop a) s = .next s.advance)

/-- R214: at supervisor level `ras.spill` stores the oldest entries at RASP one after the other, each time raising RASP by 8:
X[xa] of them, or all where there are fewer. `ras.fill` loads the entries below RASP one after the other, each as the new
oldest, and RASP falls by 8 each time: X[xa] of them, or as many as there is room for. Both write the count to X[xd], and
with a count of 0 nothing else. Where an access faults, what was moved before stays moved, X[xa] is less by that number, and
the trap is taken with X[xd] not written. At user level both are illegal instructions. -/
def Obligations.SpillAndFill : Prop :=
    ∀ (s : State) (a d : Reg),
    (s.me.sup = true →
      let out := min (s.getX a).toNat s.me.ras.length
      let room := min (s.getX a).toNat (32 - s.me.ras.length)
      (∀ u, Claim.Spilled out s u → exec (.rasSpill a d) s = .next (u.setX d (BitVec.ofNat 64 out)).advance) ∧
      (∀ u, Claim.Filled room s u → exec (.rasFill a d) s = .next (u.setX d (BitVec.ofNat 64 room)).advance) ∧
      (∀ (j : Nat) (u : State) (c : Cause), j < out → Claim.Spilled j s u → u.me.csr.rasp.toNat % 8 = 0 →
        u.reach u.cur u.me.sup .shadowWrite u.me.csr.rasp.toNat = .fault c →
        exec (.rasSpill a d) s = .next (((u.endFailed u.cur u.me.csr.rasp.toNat).setX a
          (s.getX a - BitVec.ofNat 64 j)).trap c u.me.csr.rasp)) ∧
      (∀ (j : Nat) (u : State) (c : Cause), j < room → Claim.Filled j s u → (u.me.csr.rasp - 8).toNat % 8 = 0 →
        u.reach u.cur u.me.sup .shadowRead (u.me.csr.rasp - 8).toNat = .fault c →
        exec (.rasFill a d) s = .next (((u.endFailed u.cur (u.me.csr.rasp - 8).toNat).setX a
          (s.getX a - BitVec.ofNat 64 j)).trap c (u.me.csr.rasp - 8)))) ∧
    (s.me.sup = true → s.getX a = 0 →
      Claim.Writes (.rasSpill a d) s d 0 ∧ Claim.Writes (.rasFill a d) s d 0) ∧
    (s.me.sup = false → Claim.Traps (.rasSpill a d) s .illegalInstruction (scalarWord (.rasSpill a d)) ∧
      Claim.Traps (.rasFill a d) s .illegalInstruction (scalarWord (.rasFill a d)))

/-- R226: `hloop` arms a level at the next word; `hend` on a level whose COUNT exceeds 1 counts down and goes to
START, and otherwise clears COUNT and goes on;
`hend.c` then reloads COUNT and counts down the level above; `hget` reads and `hset` writes a value of a level. -/
def Obligations.HardwareLoops : Prop :=
    ∀ (s : State) (d a : Reg) (l : BitVec 2),
    exec (.hloop l a) s = .next (s.updMe (fun H => H.setLoop l ⟨s.pc + 4, s.getX a, s.getX a⟩)).advance ∧
    (1 < (s.me.loop l).count.toNat →
      let t := (s.updMe (fun H => H.setLoop l { s.me.loop l with count := (s.me.loop l).count - 1 })).goTo
        (s.me.loop l).start
      exec (.hend l) s = .next t ∧ exec (.hendC l) s = .next t) ∧
    ((s.me.loop l).count.toNat ≤ 1 →
      exec (.hend l) s = .next (s.updMe (fun H => H.setLoop l { s.me.loop l with count := 0 })).advance) ∧
    ((s.me.loop 3).count.toNat ≤ 1 →
      exec (.hendC 3) s =
        .next (s.updMe (fun H => H.setLoop 3 { s.me.loop 3 with count := (s.me.loop 3).init })).advance) ∧
    ((s.me.loop l).count.toNat ≤ 1 → l ≠ 3 → 1 < (s.me.loop (l + 1)).count.toNat →
      exec (.hendC l) s = .next ((s.updMe (fun H =>
        (H.setLoop l { s.me.loop l with count := (s.me.loop l).init }).setLoop (l + 1)
          { s.me.loop (l + 1) with count := (s.me.loop (l + 1)).count - 1 })).goTo (s.me.loop (l + 1)).start)) ∧
    Claim.Writes (.hget d l 0) s d (s.me.loop l).start ∧
    Claim.Writes (.hget d l 1) s d (s.me.loop l).init ∧
    Claim.Writes (.hget d l 2) s d (s.me.loop l).count ∧
    ((s.getX a).toNat % 4 = 0 → exec (.hset l a 0) s =
      .next (s.updMe (fun H => H.setLoop l { s.me.loop l with start := s.getX a })).advance) ∧
    exec (.hset l a 1) s = .next (s.updMe (fun H => H.setLoop l { s.me.loop l with init := s.getX a })).advance ∧
    exec (.hset l a 2) s = .next (s.updMe (fun H => H.setLoop l { s.me.loop l with count := s.getX a })).advance

/-! ### Memory -/

/-- R204: a load that reaches plain memory retires with the value that it reads, extended as its form says.

R205: a scalar load or store whose address is not a multiple of its size traps with the address in TVAL, and
nothing is read or written. -/
def Obligations.Loads : Prop :=
  (∀ (s u : State) (d a : Reg) (i : BitVec 12) (v : Nat),
     let va := BitVec.ofInt 64 ((s.getX a).toInt + i.toInt)
     (Claim.Reads s .read va 1 v u →
       exec (.ldI8 d a i) s = .next (u.setX d ((BitVec.ofNat 8 v).signExtend 64)).advance ∧
       exec (.ldN8 d a i) s = .next (u.setX d (BitVec.ofNat 64 v)).advance) ∧
     (Claim.Reads s .read va 2 v u →
       exec (.ldI16 d a i) s = .next (u.setX d ((BitVec.ofNat 16 v).signExtend 64)).advance ∧
       exec (.ldN16 d a i) s = .next (u.setX d (BitVec.ofNat 64 v)).advance ∧
       exec (.ldF16 d a i) s = .next (u.setF d (0xFFFFFFFFFFFF0000#64 ||| BitVec.ofNat 64 v)).advance) ∧
     (Claim.Reads s .read va 4 v u →
       exec (.ldI32 d a i) s = .next (u.setX d ((BitVec.ofNat 32 v).signExtend 64)).advance ∧
       exec (.ldN32 d a i) s = .next (u.setX d (BitVec.ofNat 64 v)).advance ∧
       exec (.ldF32 d a i) s = .next (u.setF d (0xFFFFFFFF00000000#64 ||| BitVec.ofNat 64 v)).advance) ∧
     (Claim.Reads s .read va 8 v u →
       exec (.ldI64 d a i) s = .next (u.setX d (BitVec.ofNat 64 v)).advance ∧
       exec (.ldF64 d a i) s = .next (u.setF d (BitVec.ofNat 64 v)).advance)) ∧
  (∀ (s : State) (d a : Reg) (i : BitVec 12),
     let va := BitVec.ofInt 64 ((s.getX a).toInt + i.toInt)
     (va.toNat % 2 ≠ 0 → ∀ x ∈ [Instr.ldI16 d a i, .ldN16 d a i, .ldF16 d a i, .stI16 d a i, .stF16 d a i],
       Claim.Traps x s .misaligned va) ∧
     (va.toNat % 4 ≠ 0 → ∀ x ∈ [Instr.ldI32 d a i, .ldN32 d a i, .ldF32 d a i, .stI32 d a i, .stF32 d a i],
       Claim.Traps x s .misaligned va) ∧
     (va.toNat % 8 ≠ 0 → ∀ x ∈ [Instr.ldI64 d a i, .ldF64 d a i, .stI64 d a i, .stF64 d a i],
       Claim.Traps x s .misaligned va))

/-- R204: a store that reaches plain memory retires with the low bytes of its register stored, lowest first.

A store performed at once writes its bytes at its cell under its key and leaves every other byte as it
reads: of other sectors under every key, and of the sectors it touches under its own key. Registers, the
full/empty bits, the reservations and every other hart are as before. -/
def Obligations.Stores : Prop :=
  (∀ (s u : State) (r a : Reg) (i : BitVec 12) (l : Leaf) (c : Nat),
     let va := BitVec.ofInt 64 ((s.getX a).toInt + i.toInt)
     let put (size : Nat) (v : Word) : Host.Outcome State Fault Refusal :=
       .next (u.store s.cur true c l.key ((bytesOf size v.toNat).map some)).advance
     (Claim.Access s .write true va 1 l c u → exec (.stI8 r a i) s = put 1 (s.getX r)) ∧
     (Claim.Access s .write true va 2 l c u →
       exec (.stI16 r a i) s = put 2 (s.getX r) ∧ exec (.stF16 r a i) s = put 2 (s.getF r)) ∧
     (Claim.Access s .write true va 4 l c u →
       exec (.stI32 r a i) s = put 4 (s.getX r) ∧ exec (.stF32 r a i) s = put 4 (s.getF r)) ∧
     (Claim.Access s .write true va 8 l c u →
       exec (.stI64 r a i) s = put 8 (s.getX r) ∧ exec (.stF64 r a i) s = put 8 (s.getF r))) ∧
  (∀ (s : State) (c k : Nat) (bs : List Byte), Memory.wf s.mem = true → Claim.NoneDelayed s →
     let t := s.store s.cur true c k (bs.map some)
     t.bytesUnder c k bs.length = bs ∧
     (∀ a, a < c ∨ c + bs.length ≤ a → t.byteUnder a k = s.byteUnder a k) ∧
     (∀ a j, (a / 32 < c / 32 ∨ (c + bs.length + 31) / 32 ≤ a / 32) → t.byteUnder a j = s.byteUnder a j) ∧
     t.full = s.full ∧ t.landings = s.landings ∧ t.poison = s.poison ∧
     (∀ h, h ≠ s.cur → t.hart h = s.hart h) ∧ t.me = { s.me with delays := s.me.delays.tail })

/-- R206, R207, R342: an AMO that may run at its address returns the old value, sign-extended, and writes the new one in
one act, after the stores to its bytes that its side sees; with `rel` it is a release at its scope, before which the
earlier scalar stores are performed there, and with `acq` an acquire. -/
def Obligations.AtomicsComplete : Prop :=
    ∀ (s u : State) (d a b : Reg) (q r z : BitVec 1) (p : BitVec 3) (l : Leaf) (c : Nat),
    let n := if z = 1 then 8 else 4
    let va := s.getX a
    Claim.Access s .write true va n l c u → s.atomicOk l.pa = true → u.poisoned l.pa n = false →
    let o := if r = 1 then u.release s.cur true p.toNat else u
    let w := ((if q = 1 then o.acquire s.cur true p.toNat c n else o).forgetAt s.cur true c n).drain
      (fun e => e.seenBy (.side s.cur true) && e.meets c n)
    let old := natOf (w.bytesUnder c l.key n)
    let y := (s.getX b).toNat % 2 ^ (8 * n)
    let sg (v : Nat) : Int := signedNat (8 * n) v
    let done (v : Nat) : Host.Outcome State Fault Refusal :=
      let t := w.putBytes c l.key (bytesOf n v)
      .next ((if r = 1 then t.noteRelease (.hart s.cur) p.toNat c n else t).setX d (sextNat (8 * n) old)).advance
    exec (.amoswap d a b q r z p) s = done y ∧
    exec (.amoadd d a b q r z p) s = done ((old + y) % 2 ^ (8 * n)) ∧
    exec (.amoand d a b q r z p) s = done (old &&& y) ∧
    exec (.amoor d a b q r z p) s = done (old ||| y) ∧
    exec (.amoxor d a b q r z p) s = done (old ^^^ y) ∧
    exec (.amomin d a b q r z p) s = done (if sg y < sg old then y else old) ∧
    exec (.amomax d a b q r z p) s = done (if sg old < sg y then y else old) ∧
    exec (.amominu d a b q r z p) s = done (min old y) ∧
    exec (.amomaxu d a b q r z p) s = done (max old y) ∧
    exec (.amocas d a b q r z p) s = done (if old = (s.getX d).toNat % 2 ^ (8 * n) then y else old)

/-- R222, R223, R336, R340: a fence performs the hart's stores of its side at its scope, so that none is left to perform
at a system scope, and gives up its early loads of the other side; `fence.i` drops the instruction lines of its tile;
`lda` loads, and `stl` is a release: the earlier scalar stores are performed at its scope before its own store. -/
def Obligations.OrderForms : Prop :=
    ∀ (s u : State) (d a b : Reg) (z : BitVec 1) (n : BitVec 2) (p : BitVec 3) (l : Leaf) (c : Nat),
    let size := 2 ^ n.toNat
    let mine (side : Delayed → Bool) : State := s.raise (fun e => e.hart == s.cur && side e) p.toNat
    exec (.fence p) s = .next ((mine (fun _ => true)).forget s.cur false).advance ∧
    exec (.fenceSv p) s = .next ((mine (fun e => e.scalar)).forgetWhere (fun e => e.hart == s.cur && !e.scalar)).advance ∧
    exec (.fenceVs p) s = .next ((mine (fun e => !e.scalar)).forget s.cur true).advance ∧
    exec (.fenceI p) s = .next ((mine (fun _ => true)).dropCode (tileOf s.cur)).advance ∧
    (∀ side ∈ ([fun _ => true, fun e => e.scalar, fun e => !e.scalar] : List (Delayed → Bool)),
      ∀ e ∈ (mine side).delayed, e.hart = s.cur → side e = true → p.toNat < e.reach ∧ p.toNat < 5) ∧
    (∀ e ∈ (s.forget s.cur false).early, e.hart ≠ s.cur) ∧
    ((mine (fun _ => true)).dropCode (tileOf s.cur)).tile (tileOf s.cur) =
      { s.tile (tileOf s.cur) with icache := [] } ∧
    (Claim.Access s .read false (s.getX a) size l c u → u.poisoned l.pa size = false →
      let v := Claim.seen u l c size
      let w := (u.forgetAt s.cur true c size).acquire s.cur true p.toNat c size
      exec (.lda d a z n p) s =
        .next (w.setX d (if z = 1 then zextNat (8 * size) v else sextNat (8 * size) v)).advance) ∧
    (Claim.Access s .write true (s.getX a) size l c u →
      exec (.stl a b n p) s = .next ((u.release s.cur true p.toNat).store s.cur true c l.key
        ((bytesOf size (s.getX b).toNat).map some) (some p.toNat)).advance)

/-! ### Scalar floating point -/

/-- R84, R88: a value that a format holds is rounded to its own encoding, in every mode, with no flag.

R84: rounding down gives a value not above the exact one and rounding up a value not below it, and no value of
the format lies strictly between; rounding towards zero gives the one of the two that is nearer to zero, and rounding to
nearest the nearer of the two, at a tie the one with an even encoding (RNE) or the one farther from zero (RMM); NX is set
where the result differs. -/
def Obligations.RoundingOfValues : Prop :=
  (∀ F ∈ [fmtF64, fmtF32, fmtF16, fmtBf16, fmtE4m3, fmtE5m2, fmtE2m3, fmtE3m2, fmtE2m1],
     ∀ (r : Rounding) (sat : Bool) (b : Nat), b < 2 ^ F.bits → Claim.finite (F.decode false b) →
       F.round r sat false (F.decode false b) = (b, 0)) ∧
  (∀ F ∈ [fmtF64, fmtF32, fmtF16, fmtBf16], ∀ (neg : Bool) (m : Nat) (e : Int),
     let x := Claim.rat (.num neg m e)
     |x| ≤ Claim.rat (F.decode false F.maxMag) →
     let out (r : RMode) := F.decode false (F.round (.mode r) false false (.num neg m e)).1
     Claim.finite (out .rdn) ∧ Claim.rat (out .rdn) ≤ x ∧ Claim.finite (out .rup) ∧ x ≤ Claim.rat (out .rup) ∧
     (∀ b < 2 ^ F.bits, Claim.finite (F.decode false b) →
       let y := Claim.rat (F.decode false b)
       (y ≤ x → y ≤ Claim.rat (out .rdn)) ∧ (x ≤ y → Claim.rat (out .rup) ≤ y)) ∧
     (let lo := Claim.rat (out .rdn)
      let hi := Claim.rat (out .rup)
      Claim.finite (out .rtz) ∧ Claim.rat (out .rtz) = (if x < 0 then hi else lo) ∧
      (∀ r ∈ [RMode.rne, .rmm], Claim.finite (out r) ∧ (x - lo < hi - x → Claim.rat (out r) = lo) ∧
        (hi - x < x - lo → Claim.rat (out r) = hi)) ∧
      (lo < hi → hi - x = x - lo →
        (Claim.rat (out .rne) = lo ∨ Claim.rat (out .rne) = hi) ∧
        (F.round (.mode .rne) false false (.num neg m e)).1 % 2 = 0 ∧
        Claim.rat (out .rmm) = (if x < 0 then lo else hi))) ∧
     (∀ r, (F.round (.mode r) false false (.num neg m e)).2 &&& flNX = 0 ↔ Claim.rat (out r) = x))

/-- R79, R84, R220: sums, differences and products are the exact results rounded once; an exact zero sum of
opposite signs is −0 only under RDN; a NaN operand, or ∞ − ∞ and 0 × ∞ with NV, gives the canonical NaN; and an
infinity, as the first operand or the second, is kept. -/
def Obligations.FloatSumsAndProducts : Prop :=
    ∀ (s : State) (d a b : Reg) (r f : BitVec 3),
    let F := scalarFmt f.toNat
    let A := s.fval F a
    let B := s.fval F b
    let out (i : Instr) (v : FVal) : Prop :=
      let p := F.round (.mode (s.me.rmode r)) false s.me.ftz v
      Claim.WritesF i s F d p.1 p.2
    (A.isNan ∨ B.isNan → ∀ i ∈ [Instr.fadd d a b r f, .fsub d a b r f, .fmul d a b r f, .fdiv d a b r f],
      Claim.WritesF i s F d F.nan (A.sig ||| B.sig)) ∧
    (Claim.finite A → Claim.finite B →
      (∃ n m e, out (.fadd d a b r f) (.num n m e) ∧ Claim.rat (.num n m e) = Claim.rat A + Claim.rat B ∧
        (m = 0 → n = if Claim.negative A = Claim.negative B then Claim.negative A else s.me.rmode r == .rdn)) ∧
      (∃ n m e, out (.fsub d a b r f) (.num n m e) ∧ Claim.rat (.num n m e) = Claim.rat A - Claim.rat B ∧
        (m = 0 → n = if Claim.negative A = !Claim.negative B then Claim.negative A else s.me.rmode r == .rdn)) ∧
      (∃ n m e, out (.fmul d a b r f) (.num n m e) ∧ Claim.rat (.num n m e) = Claim.rat A * Claim.rat B ∧
        n = (Claim.negative A != Claim.negative B))) ∧
    (∀ x, A = .inf x → (Claim.finite B ∨ B = .inf x → Claim.WritesF (.fadd d a b r f) s F d (F.inf x) 0) ∧
      (B = .inf (!x) → Claim.WritesF (.fadd d a b r f) s F d F.nan flNV) ∧
      (Claim.finite B ∨ B = .inf (!x) → Claim.WritesF (.fsub d a b r f) s F d (F.inf x) 0) ∧
      (B = .inf x → Claim.WritesF (.fsub d a b r f) s F d F.nan flNV) ∧
      (B.isZero = true → Claim.WritesF (.fmul d a b r f) s F d F.nan flNV) ∧
      (B.isZero = false → B.isNan = false →
        Claim.WritesF (.fmul d a b r f) s F d (F.inf (x != Claim.negative B)) 0)) ∧
    (∀ y, Claim.finite A → B = .inf y →
      Claim.WritesF (.fadd d a b r f) s F d (F.inf y) 0 ∧ Claim.WritesF (.fsub d a b r f) s F d (F.inf (!y)) 0 ∧
      (A.isZero = true → Claim.WritesF (.fmul d a b r f) s F d F.nan flNV) ∧
      (A.isZero = false → Claim.WritesF (.fmul d a b r f) s F d (F.inf (Claim.negative A != y)) 0))

/-- R84, R87, R88, R220: a quotient by zero is an infinity with DZ, 0 / 0 and ∞ / ∞ the canonical NaN with NV, a number
over ∞ a zero, and a quotient or square root that the format holds is given exactly, with no flag; the root of a negative
number or −∞ is the canonical NaN with NV, that of a zero the zero, that of +∞ itself, and that of a NaN the canonical NaN.
Every other quotient and root is what rounding makes of a number that lies on the same side of each number with as many
bits as tell two neighbouring values and their middle apart as the exact quotient or root does. -/
def Obligations.FloatQuotientsAndRoots : Prop :=
    ∀ (s : State) (d a b : Reg) (r f : BitVec 3),
    let F := scalarFmt f.toNat
    let A := s.fval F a
    let B := s.fval F b
    let sign := Claim.negative A != Claim.negative B
    (∃ q fl, Claim.WritesF (.fdiv d a b r f) s F d q fl) ∧ (∃ q fl, Claim.WritesF (.fsqrt d a r f) s F d q fl) ∧
    (Claim.finite A → A.isZero = false → B.isZero = true → Claim.WritesF (.fdiv d a b r f) s F d (F.inf sign) flDZ) ∧
    (A.isZero = true → B.isZero = true → Claim.WritesF (.fdiv d a b r f) s F d F.nan flNV) ∧
    (∀ x y, A = .inf x → B = .inf y → Claim.WritesF (.fdiv d a b r f) s F d F.nan flNV) ∧
    (∀ x, A = .inf x → Claim.finite B → Claim.WritesF (.fdiv d a b r f) s F d (F.inf sign) 0) ∧
    (∀ y, Claim.finite A → B = .inf y → Claim.WritesF (.fdiv d a b r f) s F d (F.signed sign 0) 0) ∧
    (let out (i : Instr) (v : FVal) : Prop :=
       let p := F.round (.mode (s.me.rmode r)) false s.me.ftz v
       Claim.WritesF i s F d p.1 p.2
     (Claim.finite A → Claim.finite B → B.isZero = false → ∃ m e, out (.fdiv d a b r f) (.num sign m e) ∧
       ∀ k j : Int, |k| < 2 ^ (F.m + 3) →
         let y := (k : ℚ) * 2 ^ j
         (y < Claim.rat (.num sign m e) ↔ y < Claim.rat A / Claim.rat B) ∧
         (Claim.rat (.num sign m e) < y ↔ Claim.rat A / Claim.rat B < y)) ∧
     (Claim.finite A → 0 < Claim.rat A → ∃ m e, out (.fsqrt d a r f) (.num false m e) ∧
       ∀ k j : Int, 0 ≤ k → k < 2 ^ (F.m + 3) →
         let y := (k : ℚ) * 2 ^ j
         (y < Claim.rat (.num false m e) ↔ y ^ 2 < Claim.rat A) ∧
         (Claim.rat (.num false m e) < y ↔ Claim.rat A < y ^ 2))) ∧
    (A = .inf false → Claim.WritesF (.fsqrt d a r f) s F d (F.inf false) 0) ∧
    (A = .inf true → Claim.WritesF (.fsqrt d a r f) s F d F.nan flNV) ∧
    (A.isNan → Claim.WritesF (.fsqrt d a r f) s F d F.nan A.sig) ∧
    (∀ q < 2 ^ F.bits, s.me.ftz = false → Claim.finite A → Claim.finite B → B.isZero = false →
      Claim.finite (F.decode false q) → Claim.rat (F.decode false q) * Claim.rat B = Claim.rat A →
      F.signBit q = sign → Claim.WritesF (.fdiv d a b r f) s F d q 0) ∧
    (Claim.finite A → Claim.rat A < 0 → Claim.WritesF (.fsqrt d a r f) s F d F.nan flNV) ∧
    (A.isZero = true → Claim.WritesF (.fsqrt d a r f) s F d (F.signed (Claim.negative A) 0) 0) ∧
    (∀ q < 2 ^ F.bits, s.me.ftz = false → Claim.finite A → 0 < Claim.rat A → Claim.finite (F.decode false q) →
      0 < Claim.rat (F.decode false q) → Claim.rat (F.decode false q) ^ 2 = Claim.rat A →
      Claim.WritesF (.fsqrt d a r f) s F d q 0)

/-- R84, R221: the fused forms round ±(a × b) ± c once, with an exact zero sum of opposite signs −0 only under RDN; 0 × ∞
sets NV and gives the canonical NaN, even when c is a quiet NaN; another NaN gives the canonical NaN; and an infinite product
or c is kept, but for ∞ − ∞, which gives the canonical NaN with NV. -/
def Obligations.FusedMultiplyAdd : Prop :=
    ∀ (s : State) (d a b c : Reg) (f : BitVec 1) (r : BitVec 3),
    let F := scalarFmt f.toNat
    let A := s.fval F a
    let B := s.fval F b
    let C := s.fval F c
    let forms := [(Instr.fmadd d a b c f r, false, false), (.fmsub d a b c f r, false, true),
      (.fnmadd d a b c f r, true, true), (.fnmsub d a b c f r, true, false)]
    let sg (minus : Bool) : ℚ := if minus then -1 else 1
    let ps (minus : Bool) : Bool := (Claim.negative A != Claim.negative B) != minus
    let cs (minus : Bool) : Bool := Claim.negative C != minus
    (Claim.finite A → Claim.finite B → Claim.finite C → ∀ x ∈ forms, ∃ n m e,
      Claim.rat (.num n m e) = sg x.2.1 * (Claim.rat A * Claim.rat B) + sg x.2.2 * Claim.rat C ∧
      (m = 0 → n = if ps x.2.1 = cs x.2.2 then ps x.2.1 else s.me.rmode r == .rdn) ∧
      Claim.WritesF x.1 s F d (F.round (.mode (s.me.rmode r)) false s.me.ftz (.num n m e)).1
        (F.round (.mode (s.me.rmode r)) false s.me.ftz (.num n m e)).2) ∧
    ((∃ y, A = .inf y ∧ B.isZero = true) ∨ (∃ y, B = .inf y ∧ A.isZero = true) →
      ∀ x ∈ forms, Claim.WritesF x.1 s F d F.nan flNV) ∧
    (A.isNan ∨ B.isNan → ∀ x ∈ forms, Claim.WritesF x.1 s F d F.nan (A.sig ||| B.sig ||| C.sig)) ∧
    (let infinite := (∃ y, A = .inf y ∧ B.isNan = false ∧ B.isZero = false) ∨
       (∃ y, B = .inf y ∧ A.isNan = false ∧ A.isZero = false)
     (infinite ∨ (Claim.finite A ∧ Claim.finite B) → C.isNan → ∀ x ∈ forms, Claim.WritesF x.1 s F d F.nan C.sig) ∧
     (infinite → ∀ x ∈ forms,
       (Claim.finite C → Claim.WritesF x.1 s F d (F.inf (ps x.2.1)) 0) ∧
       (∀ z, C = .inf z → (cs x.2.2 = ps x.2.1 → Claim.WritesF x.1 s F d (F.inf (ps x.2.1)) 0) ∧
         (cs x.2.2 ≠ ps x.2.1 → Claim.WritesF x.1 s F d F.nan flNV))) ∧
     (∀ z, Claim.finite A → Claim.finite B → C = .inf z → ∀ x ∈ forms,
       Claim.WritesF x.1 s F d (F.inf (cs x.2.2)) 0))

/-- R91, R220: comparisons give 1 or 0, with NaN unequal and unordered; NV is set by a signalling NaN in `feq` and
by any NaN in `flt` and `fle`.

R91, R220: minimum and maximum take −0 as less than +0, the other operand where one is a NaN, and the
canonical NaN where both are (FTZ clear); the sign forms copy magnitude and sign bits; `fclass` sets one bit, and the
bits of a format are moved as they stand: `fmv.x` reads a register that does not hold a boxed value of the format as the
canonical NaN, as every operand is read, which is the model's reading (log 20). -/
def Obligations.FloatComparisonsAndSelections : Prop :=
  (∀ (s : State) (d a b : Reg) (f : BitVec 3),
     let F := scalarFmt f.toNat
     let A := s.fval F a
     let B := s.fval F b
     (A.isNan ∨ B.isNan → Claim.WritesX (.feq d a b f) s d 0 (A.sig ||| B.sig) ∧
       Claim.WritesX (.flt d a b f) s d 0 flNV ∧ Claim.WritesX (.fle d a b f) s d 0 flNV) ∧
     (A.isNan = false → B.isNan = false →
       (Claim.below A B → Claim.WritesX (.feq d a b f) s d 0 0 ∧ Claim.WritesX (.flt d a b f) s d 1 0 ∧
         Claim.WritesX (.fle d a b f) s d 1 0) ∧
       (Claim.below B A → Claim.WritesX (.feq d a b f) s d 0 0 ∧ Claim.WritesX (.flt d a b f) s d 0 0 ∧
         Claim.WritesX (.fle d a b f) s d 0 0) ∧
       (¬ Claim.below A B → ¬ Claim.below B A → Claim.WritesX (.feq d a b f) s d 1 0 ∧
         Claim.WritesX (.flt d a b f) s d 0 0 ∧ Claim.WritesX (.fle d a b f) s d 1 0))) ∧
  (∀ (s : State) (d a b : Reg) (f : BitVec 3),
     let F := scalarFmt f.toNat
     let x := s.fbits F a
     let y := s.fbits F b
     let A := F.decode false x
     let B := F.decode false y
     let half := 2 ^ (F.bits - 1)
     let under := Claim.below A B ∨ (A.isZero = true ∧ B.isZero = true ∧ Claim.negative A = true)
     (s.me.ftz = false →
       (A.isNan = false → B.isNan = false →
         (under → Claim.WritesF (.fmin d a b f) s F d x 0 ∧ Claim.WritesF (.fmax d a b f) s F d y 0) ∧
         (¬ under → Claim.WritesF (.fmin d a b f) s F d y 0 ∧ Claim.WritesF (.fmax d a b f) s F d x 0)) ∧
       (A.isNan = true → B.isNan = false → Claim.WritesF (.fmin d a b f) s F d y A.sig ∧
         Claim.WritesF (.fmax d a b f) s F d y A.sig) ∧
       (A.isNan = false → B.isNan = true → Claim.WritesF (.fmin d a b f) s F d x B.sig ∧
         Claim.WritesF (.fmax d a b f) s F d x B.sig) ∧
       (A.isNan = true → B.isNan = true → Claim.WritesF (.fmin d a b f) s F d F.nan (A.sig ||| B.sig) ∧
         Claim.WritesF (.fmax d a b f) s F d F.nan (A.sig ||| B.sig))) ∧
     Claim.WritesF (.fsgnj d a b f) s F d (x % half + y / half * half) 0 ∧
     Claim.WritesF (.fsgnjn d a b f) s F d (x % half + (1 - y / half) * half) 0 ∧
     Claim.WritesF (.fsgnjx d a b f) s F d (x % half + (x / half + y / half) % 2 * half) 0 ∧
     Claim.WritesX (.fclass d a f) s d (BitVec.ofNat 64 (2 ^ (match A with
       | .inf n => if n then 0 else 7
       | .num n m _ => if m = 0 then (if n then 3 else 4)
         else if m < 2 ^ F.m then (if n then 2 else 5) else (if n then 1 else 6)
       | .nan g => if g then 8 else 9))) 0 ∧
     Claim.WritesX (.fmvX d a f) s d (BitVec.ofInt 64 (signedNat F.bits x)) 0 ∧
     Claim.WritesF (.fmvF d a f) s F d ((s.getX a).toNat % 2 ^ F.bits) 0)

/-- R84, R89, R220: a finite value becomes an integer by its rounding mode, at a tie the even one (RNE) or the one farther from
zero (RMM), with NX where that changed it; out of range
NV is set and the low bits remain; NaN and infinity give 0 with NV. An integer, and a value of another format,
round once to the format.

R219: a register whose upper bits are not all ones reads as the canonical NaN of a narrower format, and one that
a narrower value was boxed in reads as that value. -/
def Obligations.FloatConversionsAndBoxing : Prop :=
  (∀ (s : State) (d a : Reg) (t src : BitVec 2) (r f : BitVec 3),
     let F := scalarFmt f.toNat
     let A := s.fval F a
     let n := if t.getLsbD 0 then 64 else 32
     let lo : Int := if t.getLsbD 1 then 0 else -2 ^ (n - 1)
     let hi : Int := if t.getLsbD 1 then 2 ^ n - 1 else 2 ^ (n - 1) - 1
     let ext (i : Int) : Word := ((BitVec.ofInt 32 i).signExtend 64)
     let out (v : FVal) := F.round (.mode (s.me.rmode r)) false s.me.ftz v
     (Claim.finite A → ∃ i : Int, |(i : ℚ) - Claim.rat A| < 1 ∧
       (s.me.rmode r = .rdn → i = ⌊Claim.rat A⌋) ∧ (s.me.rmode r = .rup → i = ⌈Claim.rat A⌉) ∧
       (s.me.rmode r = .rtz → i = if Claim.rat A < 0 then ⌈Claim.rat A⌉ else ⌊Claim.rat A⌋) ∧
       (s.me.rmode r = .rne ∨ s.me.rmode r = .rmm → |(i : ℚ) - Claim.rat A| ≤ 1 / 2) ∧
       (s.me.rmode r = .rne → |(i : ℚ) - Claim.rat A| = 1 / 2 → i % 2 = 0) ∧
       (s.me.rmode r = .rmm → |(i : ℚ) - Claim.rat A| = 1 / 2 → |Claim.rat A| < |(i : ℚ)|) ∧
       Claim.WritesX (.fcvtToInt d a t r f) s d (if n = 64 then BitVec.ofInt 64 i else ext i)
         (if i < lo ∨ hi < i then flNV else if (i : ℚ) = Claim.rat A then 0 else flNX)) ∧
     (¬ Claim.finite A → Claim.WritesX (.fcvtToInt d a t r f) s d 0 flNV) ∧
     (∃ v, Claim.finite v ∧ (Claim.rat v = 0 → Claim.negative v = false) ∧
       Claim.rat v = (if t.getLsbD 1 then ((s.getX a).toNat % 2 ^ n : Nat)
         else if n = 64 then (s.getX a).toInt else ((s.getX a).setWidth 32).toInt : Int) ∧
       Claim.WritesF (.fcvtFromInt d a t r f) s F d (out v).1 (out v).2) ∧
     (let v := s.fval (scalarFmt src.toNat) a
      Claim.WritesF (.fcvtFmt d a src r f) s F d (out v).1 ((out v).2 ||| v.sig))) ∧
  (∀ F ∈ [fmtF64, fmtF32, fmtF16, fmtBf16], ∀ (v : Nat) (w : Word),
     (v < 2 ^ F.bits → unbox F (box F v) = v) ∧
     (F.bits < 64 → w.toNat / 2 ^ F.bits ≠ 2 ^ (64 - F.bits) - 1 → unbox F w = F.nan) ∧
     (F.bits < 64 → w.toNat / 2 ^ F.bits = 2 ^ (64 - F.bits) - 1 → unbox F w = w.toNat % 2 ^ F.bits))

/-! ### CSRs, traps and the system forms -/

/-- R215: a CSR form that may make its access retires with the old value in X[xd] and, where it counts as a write,
the new value written; one that may not is an illegal instruction.

R54, R55: which CSR numbers can be read and written at each level. -/
def Obligations.CsrForms : Prop :=
  (∀ (s : State) (d a n : Reg) (c : BitVec 12),
     let t := s.csrRead s.cur c.toNat
     let x := s.getX a
     let m : Word := n.setWidth 64
     let put (w : Word) : Host.Outcome State Fault Refusal :=
       .next ((s.updMe (fun H => H.csrWrite c.toNat w)).setX d t).advance
     (csrLegal s.me.sup c.toNat false = true → Claim.Writes (.csrr d c) s d t ∧
       (a = 0 → Claim.Writes (.csrs d a c) s d t ∧ Claim.Writes (.csrc d a c) s d t) ∧
       (n = 0 → Claim.Writes (.csrsi d n c) s d t ∧ Claim.Writes (.csrci d n c) s d t)) ∧
     (csrLegal s.me.sup c.toNat true = true → exec (.csrw d a c) s = put x ∧
       (a ≠ 0 → exec (.csrs d a c) s = put (t ||| x) ∧ exec (.csrc d a c) s = put (t &&& ~~~x)) ∧
       (n ≠ 0 → exec (.csrsi d n c) s = put (t ||| m) ∧ exec (.csrci d n c) s = put (t &&& ~~~m))) ∧
     (csrLegal s.me.sup c.toNat false = false →
       Claim.Traps (.csrr d c) s .illegalInstruction (scalarWord (.csrr d c))) ∧
     (csrLegal s.me.sup c.toNat true = false →
       Claim.Traps (.csrw d a c) s .illegalInstruction (scalarWord (.csrw d a c)))) ∧
  (∀ n : Nat,
     (csrLegal false n false = true ↔ n ≤ 0x00A ∨ (0x020 ≤ n ∧ n ≤ 0x03F)) ∧
     (csrLegal false n true = true ↔ n = 0 ∨ n = 5 ∨ n = 6 ∨ n = 7 ∨ n = 0x00A) ∧
     (csrLegal true n false = true ↔ n ≤ 0x00A ∨ (0x020 ≤ n ∧ n ≤ 0x03F) ∨ (0x100 ≤ n ∧ n ≤ 0x107)) ∧
     (csrLegal true n true = true ↔ n ≠ 9 ∧ (n ≤ 0x00A ∨ (0x020 ≤ n ∧ n ≤ 0x03F) ∨ (0x100 ≤ n ∧ n ≤ 0x107))))

/-- R85, R217, R218, R232, R241, R418, R419: what a write of a CSR leaves in it: FSTAT.RM stays a mode, VCFG keeps
MODE and holds a VL within VLMAX, reserved fields stay 0, TVEC and TEPC hold multiples of 4 and RASP of 8, IPMOV and
IPWD clear where 1 is written and the other pending bits stay, a write of TIMER withdraws its interrupt, and a VDIRTY
width above 4 is not taken. -/
def Obligations.CsrFieldRules : Prop :=
    ∀ (H : Hart) (w : Word),
    (fld (H.csrWrite 0 w).csr.fstat 11 53 = 0 ∧ fld (H.csrWrite 0 w).csr.fstat 0 7 = fld w 0 7 ∧
      fld (H.csrWrite 0 w).csr.fstat 7 3 = if (fld w 7 3).toNat ≤ 4 then fld w 7 3 else fld H.csr.fstat 7 3) ∧
    ((H.csrWrite 1 w).mode = H.mode ∧ (H.csrWrite 1 w).vl = min (fld w 0 16).toNat (H.vlmax (fld w 16 2).toNat) ∧
      fld (H.csrWrite 1 w).csr.vcfg 16 2 = fld w 16 2 ∧ fld (H.csrWrite 1 w).csr.vcfg 24 40 = 0) ∧
    ((H.csrWrite 0x101 w).csr.tvec = w &&& ~~~3 ∧ (H.csrWrite 0x104 w).csr.tepc = w &&& ~~~3 ∧
      (H.csrWrite 0x107 w).csr.rasp = w &&& ~~~7) ∧
    (let t := (H.csrWrite 0x100 w).csr.sstat
     (∀ i ∈ [1, 5, 8, 16, 17, 18, 19, 20], t.getLsbD i = w.getLsbD i) ∧
     (∀ i ∈ [27, 28], t.getLsbD i = (H.csr.sstat.getLsbD i && !w.getLsbD i)) ∧
     t.getLsbD 24 = H.csr.sstat.getLsbD 24) ∧
    ((H.csrWrite 0x00A w).csr.timer = w ∧ (H.csrWrite 0x00A w).csr.sstat.getLsbD 24 = false) ∧
    (∀ k < 32, ((H.csrWrite (0x020 + k) w).vdirty[k]?.getD 0) =
      if (fld w 0 3).toNat ≤ 4 then fld w 0 3 else H.vdirty[k]?.getD 0)

/-- R420, R423: taking a trap or an interrupt writes TEPC, TCAUSE and TVAL, saves the level and the interrupt enable
in SPP and SPIE, clears SIE, raises the level to supervisor and goes on at TVEC; every other register and bit is kept,
and no other hart, byte of memory or register of the machine changes. The interrupt taken is the eligible one of the
highest code, at the hart's PC, with bit 63 of the cause set; where none is eligible, nothing changes. -/
def Obligations.TrapAndInterruptEntry : Prop :=
    (∀ (s : State) (c : Cause) (v : Word), (s.trap c v).me = Claim.entered s.me (BitVec.ofNat 64 c.code) v ∧
    Claim.OnlyMe s (s.trap c v)) ∧
  (∀ s : State, s.me.run = .running ∨ s.me.run = .waiting ∧ s.me.wait ≠ .wfi →
    (∀ c, c < 5 → (s.sstat s.cur).getLsbD (24 + c) = true →
      (s.me.sup = true → s.me.csr.sstat.getLsbD 1 = true ∧ s.me.csr.sstat.getLsbD (16 + c) = true) →
      (∀ k, c < k → k < 5 → (s.sstat s.cur).getLsbD (24 + k) = true →
        s.me.sup = true ∧ s.me.csr.sstat.getLsbD (16 + k) = false) →
      ∃ t, exec .interruptEntry s = .next t ∧ t.me = Claim.entered s.me (0x8000000000000000 + BitVec.ofNat 64 c)
        (if c = 4 then s.me.moved else 0) ∧ Claim.OnlyMe s t) ∧
    ((∀ c, c < 5 → (s.sstat s.cur).getLsbD (24 + c) = true → s.me.sup = true ∧
      (s.me.csr.sstat.getLsbD 1 = false ∨ s.me.csr.sstat.getLsbD (16 + c) = false)) → exec .interruptEntry s = .next s))

/-- R224, R424: `ecall` and `ebreak` trap with TVAL 0, `ebreak` halts instead where the debug module has enabled
break entry, `sret` restores the level, the interrupt enable and the PC at supervisor level and is illegal at user
level, and `wfi` retires where an interrupt is pending and waits where none is.

R32, R43: a scalar word of no form takes the illegal-instruction trap with the word in TVAL. -/
def Obligations.SystemAndIllegalForms : Prop :=
  (∀ s : State,
     Claim.Traps .ecall s .envCall 0 ∧
     (s.me.dbg.ctl.getLsbD 3 = false → Claim.Traps .ebreak s .breakpoint 0) ∧
     (s.me.dbg.ctl.getLsbD 3 = true → ∃ t, exec .ebreak s = .next t ∧ t.me.run = .halted ∧ t.me.dbg.pc = s.pc ∧
       t.me.dbg.stat = 5) ∧
     (s.me.sup = true → ∃ t, exec .sret s = .next t ∧ t.me.sup = s.me.csr.sstat.getLsbD 8 ∧
       t.me.csr.sstat.getLsbD 1 = s.me.csr.sstat.getLsbD 5 ∧ t.me.csr.sstat.getLsbD 5 = true ∧
       t.me.csr.sstat.getLsbD 8 = false ∧ t.pc = s.me.csr.tepc &&& ~~~3 ∧ t.me.csr.tepc = s.me.csr.tepc ∧
       t.me.x = s.me.x ∧ t.me.ras = s.me.ras ∧ Claim.OnlyMe s t) ∧
     (s.me.sup = false → Claim.Traps .sret s .illegalInstruction 0x3C000080) ∧
     (fld (s.sstat s.cur) 24 5 ≠ 0 → exec .wfi s = .next s.advance) ∧
     (fld (s.sstat s.cur) 24 5 = 0 → Claim.Waits .wfi s .wfi)) ∧
  (∀ (s : State) (w : BitVec 32),
     Claim.Traps (.illegalInstruction w) s .illegalInstruction (w.setWidth 64) ∧
     (fld w 26 6 = 0 → decodeScalar w = .illegalInstruction w))

/-- R33: every word of major 0x3D executes as a no-op: whatever its bits below the major, it decodes to an
instruction of the hint space that retires, and that changes no architectural state but the PC; 0xF4000000 is `nop`. -/
def Obligations.HintsDoNothing : Prop :=
    decodeScalar 0xF4000000#32 = .nop 0 ∧
  ∀ (s : State) (w : BitVec 32), fld w 26 6 = 0x3D →
    exec (decodeScalar w) s = .next s.advance ∧
    (∀ (x : BitVec 21) (a : Reg) (i : BitVec 16) (k : BitVec 5),
      ∀ j ∈ [Instr.nop x, .prefetchRead a i, .prefetchOwn a i, .issuePauseHint x, .hint k x],
        exec j s = .next s.advance)

/-- R425: at supervisor level `tlb.inv` leaves no cached translation that it names in a tile within its scope, and
keeps those of the tiles beyond it; registers are unchanged. At user level it is an illegal instruction. -/
def Obligations.TlbInvalidation : Prop :=
    ∀ (s : State) (a b : Reg) (p : BitVec 3),
    (s.me.sup = true → ∃ t, exec (.tlbInv a b p) s = .next t ∧ t.pc = s.pc + 4 ∧ t.me.x = s.me.x ∧ t.me.f = s.me.f ∧
      t.me.csr = s.me.csr ∧
      ∀ u : Fin 224, (u ∈ tilesInReach (tileOf s.cur) p.toNat →
          ∀ e, e ∈ (t.tile u).tlb ↔ e ∈ (s.tile u).tlb ∧
            e.named (fld (s.getX a) 0 16) (if b = 0 then none else some (s.getX b).toNat) = false) ∧
        (u ∉ tilesInReach (tileOf s.cur) p.toNat → (t.tile u).tlb = (s.tile u).tlb)) ∧
    (s.me.sup = false → Claim.Traps (.tlbInv a b p) s .illegalInstruction (scalarWord (.tlbInv a b p)))

/-! ### Streams -/

/-- R171, R178, R188, R342: `strm.cfg` with a legal descriptor at a reachable, 64-byte aligned address is a release at the
scope of the descriptor and answers 1 for a configured register, 3 where the tile has no context left, 2 where it has no FIFO
bank, and otherwise 0 with the register configured at POS 0 in the bank; a bad address or descriptor traps. -/
def Obligations.StreamConfigure : Prop :=
    ∀ (s u : State) (d a : Reg) (n : BitVec 4) (x : Nat),
    let va := s.getX a
    (va.toNat % 64 ≠ 0 → Claim.Traps (.strmCfg d a n) s .strmConfig va) ∧
    (Claim.Reads s .read va 64 x u →
      let bs := bytesOf 64 x
      let w := u.release u.cur false (descOf bs).scope
      let answer (k : Word) : Host.Outcome State Fault Refusal := .next (w.setX d k).advance
      (descOk bs = false → exec (.strmCfg d a n) s = .next (u.trap .strmConfig va)) ∧
      (descOk bs = true → (w.me.stream n.toNat).cfg = true → exec (.strmCfg d a n) s = answer 1) ∧
      (descOk bs = true → (w.me.stream n.toNat).cfg = false → 32 ≤ w.contexts (tileOf w.cur) →
        exec (.strmCfg d a n) s = answer 3) ∧
      (descOk bs = true → (w.me.stream n.toNat).cfg = false → w.contexts (tileOf w.cur) < 32 →
        w.claimFifo (tileOf w.cur) = none → exec (.strmCfg d a n) s = answer 2) ∧
      (descOk bs = true → (w.me.stream n.toNat).cfg = false → w.contexts (tileOf w.cur) < 32 →
        ∀ (v : State) (b : Nat), w.claimFifo (tileOf w.cur) = some (v, b) →
        ∃ st : Stream, exec (.strmCfg d a n) s = .next ((v.putStream w.cur n.toNat st).setX d 0).advance ∧
          st.cfg = true ∧ st.desc = descOf bs ∧ st.pos = 0 ∧ st.buf = [] ∧ st.win = [] ∧ st.home = 0 ∧ st.extents = [] ∧ st.stopAt = none ∧
          st.copy = none ∧ st.bank = b ∧ st.sup = w.me.sup ∧ st.status = if (descOf bs).dir then 3 else 1))

/-- R174, R191, R192: `strm.pop` takes the first element that has arrived, extended as its format says, and waits
where none has; `strm.push` adds an element to a write stream with room; `strm.copy` binds a read stream to a write
stream. A register in the wrong state, direction or use traps, and so does one at its end. -/
def Obligations.StreamElements : Prop :=
    ∀ (s : State) (d a : Reg) (n k : BitVec 4),
    let t := s.me.stream n.toNat
    let w := s.me.stream k.toNat
    let id : Word := n.setWidth 64
    (t.cfg = true → t.desc.dir = false → t.copy = none → t.pos ≠ t.desc.count →
      (∀ (e : Nat) (r : List Nat), t.buf = e :: r → exec (.strmPop d n) s =
        .next ((s.putStream s.cur n.toNat (Stream.setPos { t with buf := r } (t.pos + 1))).setX d
          (if t.desc.fmt = 0 then BitVec.ofInt 64 (signedNat (8 * t.desc.esize) e)
           else BitVec.ofNat 64 (e % 2 ^ (8 * t.desc.esize)))).advance) ∧
      (t.buf = [] → Claim.Waits (.strmPop d n) s (.stream n.toNat))) ∧
    (t.cfg = true → t.desc.dir = true → t.copy = none → t.pos ≠ t.desc.count → t.desc.fold = 0 →
      (t.buf.length < t.capacity → exec (.strmPush a n) s = .next (s.putStream s.cur n.toNat
        (Stream.setPos { t with buf := t.buf ++ [(s.getX a).toNat % 2 ^ (8 * t.desc.esize)] } (t.pos + 1)).leave).advance) ∧
      (t.capacity ≤ t.buf.length → Claim.Waits (.strmPush a n) s (.stream n.toNat))) ∧
    (t.cfg = false → Claim.Traps (.strmPop d n) s .strmState id ∧ Claim.Traps (.strmPush a n) s .strmState id) ∧
    (t.cfg = true → t.desc.dir = true → Claim.Traps (.strmPop d n) s .strmDirection id) ∧
    (t.cfg = true → t.desc.dir = false → Claim.Traps (.strmPush a n) s .strmDirection id) ∧
    (t.cfg = true → t.desc.dir = false → t.copy.isSome = true → Claim.Traps (.strmPop d n) s .strmBusy id) ∧
    (t.cfg = true → t.desc.dir = false → t.copy = none → t.pos = t.desc.count →
      Claim.Traps (.strmPop d n) s .strmEnd id) ∧
    (t.cfg = true → w.cfg = true → n ≠ k → t.desc.dir = false → w.desc.dir = true → t.copy = none → w.copy = none →
      t.stopAt = none → w.stopAt = none → t.pos = 0 → w.pos = 0 → w.desc.fold = 0 → w.desc.foldlen = 0 →
      t.desc.count = w.desc.count → ∃ u, exec (.strmCopy k n) s = .next u ∧
        Claim.OnlyMe { s with fresh := s.fresh + 1 } u ∧
        u.pc = s.pc + 4 ∧ u.me.x = s.me.x ∧
        (∃ c, (u.me.stream k.toNat).copy = some c ∧ c.other = n.toNat ∧ c.stopped = false) ∧
        (∃ c, (u.me.stream n.toNat).copy = some c ∧ c.other = k.toNat ∧ c.stopped = false) ∧
        (u.me.stream k.toNat).status.getLsbD 6 = true ∧ (u.me.stream n.toNat).status.getLsbD 6 = true) ∧
    (n = k → Claim.Traps (.strmCopy k n) s .strmState (BitVec.ofNat 64 (k.toNat * 16 + n.toNat)))

/-- R184, R186, R189, R190: a release unconfigures the register, with POS and AVAIL kept as its last ones, and the
context goes on among the releases of the hart; a release of an unconfigured register does nothing; one of a stream
whose copy runs traps, and one whose copy has stopped releases both. `strm.rel.wait` waits while the release of the stream
that the register held last goes on, and then retires with what the hart read early from before that stream's writes given up
(R346, log 31). The status forms read the status, that of the context while its release goes on, POS and AVAIL: that AVAIL is
kept as it is at the release, and that a write stream has its free room from configuration on, is the model's reading of R186
and R188 (log 19). -/
def Obligations.StreamRelease : Prop :=
    ∀ (s : State) (d : Reg) (n : BitVec 4),
    let t := s.me.stream n.toNat
    let done (u : State) : Prop := (u.me.stream n.toNat).cfg = false ∧
      (u.me.stream n.toNat).lastPos = t.pos ∧ (u.me.stream n.toNat).lastAvail = t.avail ∧
      u.me.releasing.length = s.me.releasing.length + 1 ∧ u.me.x = s.me.x ∧ u.me.f = s.me.f ∧ u.me.csr = s.me.csr ∧
      u.mem = s.mem
    (t.cfg = true → t.copy = none → (∃ u, exec (.strmRel n) s = .next u ∧ u.pc = s.pc + 4 ∧ done u) ∧
      (∃ u, exec (.strmRelWait n) s = .next u ∧ u.pc = s.pc ∧ u.me.run = .waiting ∧ done u)) ∧
    (∀ c, t.cfg = true → t.copy = some c → c.stopped = false →
      Claim.Traps (.strmRel n) s .strmBusy (n.setWidth 64)) ∧
    (∀ c, t.cfg = true → t.copy = some c → c.stopped = true → ∃ u, exec (.strmRel n) s = .next u ∧ u.pc = s.pc + 4 ∧
      (u.me.stream n.toNat).cfg = false ∧ u.me.x = s.me.x ∧ u.me.f = s.me.f ∧ u.me.csr = s.me.csr ∧ u.mem = s.mem) ∧
    (t.cfg = false → exec (.strmRel n) s = .next s.advance ∧
      (let own := ∃ u ∈ s.me.releasing, u.num = n.toNat ∧ u.serial = t.serial ∧ u.saved = false
       (own → (s.me.wait = .stream n.toNat → Claim.Waits (.strmRelWait n) s (.stream n.toNat)) ∧
         (s.me.wait ≠ .stream n.toNat → exec (.strmRelWait n) s = .next s.advance)) ∧
       (¬ own → exec (.strmRelWait n) s = .next (s.forgetPast s.cur n.toNat t.serial).advance ∧
         ∀ e ∈ (s.forgetPast s.cur n.toNat t.serial).early, e.hart = s.cur → (n.toNat, t.serial) ∉ e.past))) ∧
    (t.cfg = true → Claim.Writes (.strmStat d n) s d t.status ∧
      Claim.Writes (.strmStatPos d n) s d (BitVec.ofNat 64 t.pos) ∧
      Claim.Writes (.strmStatAvail d n) s d (BitVec.ofNat 64 t.avail)) ∧
    (t.cfg = false → (∀ u, s.me.releasingOf n.toNat = some u → Claim.Writes (.strmStat d n) s d u.status) ∧
      (s.me.releasingOf n.toNat = none → Claim.Writes (.strmStat d n) s d t.status) ∧
      Claim.Writes (.strmStatPos d n) s d (BitVec.ofNat 64 t.lastPos) ∧
      Claim.Writes (.strmStatAvail d n) s d (BitVec.ofNat 64 t.lastAvail))

/-- R187, R193, R194: `strm.resume` lets a faulted stream of the hart that it names go on at its fault with its entries
ACTIVE, and leaves any other stream as it is. `strm.save` of a configured stream of the issuing hart, or of a halted one,
makes the produced elements of a write stream home, keeps the context with its entries SUSPENDED, stores the 128 bytes of
its image and unconfigures the register; it waits while an element below the fault cannot be written home. `strm.rest`
configures an unconfigured register from such an image, with the context kept for it. At user level save and restore are
illegal, and so is a resume that names a hart; the other traps come in the order of R194. That a save waits so, that the
reach of the area is checked before anything is saved, and which of the kept contexts an image takes is the model's
choice (log 19). -/
def Obligations.StreamSaveAndRestore : Prop :=
    ∀ (s : State) (t a : Reg) (n : BitVec 4) (h : HartId),
    let va := s.getX a
    let st := (s.hart h).stream n.toNat
    let id : Word := n.setWidth 64
    (s.me.sup = true ∨ t = 0 → Claim.Names s (s.getX t) h →
      (st.cfg = true → st.stopAt.isSome = true → ∃ u, exec (.strmResume t n) s = .next u ∧ u.pc = s.pc + 4 ∧
        u.me.x = s.me.x ∧ u.me.f = s.me.f ∧ u.me.csr = s.me.csr ∧ u.mem = s.mem ∧
        (let v := (u.hart h).stream n.toNat
         v.stopAt = none ∧ v.status = setBit st.status 5 false ∧ v.cfg = true ∧ v.desc = st.desc ∧ v.pos = st.pos ∧
         v.buf = st.buf ∧ v.extents = st.extents ∧
         v.copy.map (fun k => k.other) = st.copy.map (fun k => k.other) ∧
         (∀ k, v.copy = some k → k.stopped = ((s.hart h).partner st).any (fun p => p.stopAt.isSome))) ∧
        ∀ (d : Fin 8) (k : Nat) (r : Rsv), (k, r) ∈ (s.landing d).entries → (d.val, k) ∈ st.entryRefs →
          (k, { r with state := 0 }) ∈ (u.landing d).entries) ∧
      (st.cfg = false ∨ st.stopAt = none → exec (.strmResume t n) s = .next s.advance)) ∧
    (s.me.sup = true → Claim.Names s (s.getX t) h → va.toNat % 64 = 0 → st.cfg = true →
      (h = s.cur ∨ (s.hart h).run = .halted) → ∀ (l l' : Leaf) (c c' : Nat) (u u' : State),
      s.reach s.cur true .write va.toNat = .to l c → s.reach s.cur true .write (va + 64).toNat = .to l' c' →
      Claim.Meets s l true u → Claim.Meets u l' true u' →
      let v := u'.saveHome h n.toNat
      let sv := (v.hart h).stream n.toNat
      let w := (v.saveStream h n.toNat).1
      let image := sv.desc.bytes ++ bytesOf 8 sv.pos ++
        bytesOf 8 (if sv.cfg then setBit sv.status 10 true else sv.status).toNat ++ bytesOf 48 0
      (sv.unhomed = false →
        exec (.strmSave t a n) s = .next ((w.store s.cur true c l.key ((image.take 64).map some)).store s.cur true c'
          l'.key ((image.drop 64).map some)).advance ∧
        ((w.hart h).stream n.toNat).cfg = false ∧ ((w.hart h).stream n.toNat).status.getLsbD 10 = true ∧
        ((w.hart h).stream n.toNat).lastPos = sv.pos ∧
        (∃ k, (w.hart h).releasing = (v.hart h).releasing ++ [k] ∧ k.saved = true ∧ k.desc = sv.desc ∧ k.pos = sv.pos ∧
          k.made = if sv.desc.dir then sv.made else []) ∧
        ∀ (d : Fin 8) (k : Nat) (r : Rsv), (k, r) ∈ (v.landing d).entries → (d.val, k) ∈ sv.entryRefs →
          (k, { r with state := 1 }) ∈ (w.landing d).entries) ∧
      (sv.unhomed = true → exec (.strmSave t a n) s = .next (v.waitIn (.stream n.toNat)))) ∧
    (s.me.sup = true → Claim.Names s (s.getX t) h → st.cfg = false → ∀ (x x' : Nat) (u u' : State),
      Claim.Reads s .read va 64 x u → Claim.Reads u .read (va + 64) 64 x' u' →
      let d := descOf (bytesOf 64 x)
      let p := leAt (bytesOf 64 x') 0 8
      let kept := u'.keptStream h n.toNat d p
      (u'.contexts (tileOf h) < 32 → ∀ (w : State) (b : Nat), u'.claimFifo (tileOf h) = some (w, b) →
        ∃ z, exec (.strmRest t a n) s = .next z ∧ z.pc = s.pc + 4 ∧ z.me.x = s.me.x ∧ z.me.f = s.me.f ∧
          (let v := (z.hart h).stream n.toNat
           v.cfg = true ∧ v.saved = false ∧ v.desc = d ∧ v.pos = p ∧ v.bank = b ∧ v.status.getLsbD 0 = true ∧
           v.status.getLsbD 10 = false ∧ v.made = (kept.map (fun k => k.2.made)).getD [])) ∧
      (32 ≤ u'.contexts (tileOf h) ∨ u'.claimFifo (tileOf h) = none →
        exec (.strmRest t a n) s = .next (u'.trap .strmConfig va))) ∧
    (s.me.sup = true → Claim.Names s (s.getX t) h →
      (va.toNat % 64 ≠ 0 → Claim.Traps (.strmSave t a n) s .misaligned va ∧
        Claim.Traps (.strmRest t a n) s .misaligned va) ∧
      (va.toNat % 64 = 0 → st.cfg = false → Claim.Traps (.strmSave t a n) s .strmState id) ∧
      (va.toNat % 64 = 0 → st.cfg = true → Claim.Traps (.strmRest t a n) s .strmState id ∧
        (h ≠ s.cur → (s.hart h).run ≠ .halted → Claim.Traps (.strmSave t a n) s .strmState id))) ∧
    (s.me.sup = true → (∀ g, ¬ Claim.Names s (s.getX t) g) → ∀ i ∈ [Instr.strmResume t n, .strmSave t a n, .strmRest t a n],
      Claim.Traps i s .strmState (s.getX t)) ∧
    (s.me.sup = false → Claim.Traps (.strmSave t a n) s .illegalInstruction (scalarWord (.strmSave t a n)) ∧
      Claim.Traps (.strmRest t a n) s .illegalInstruction (scalarWord (.strmRest t a n)) ∧
      (t ≠ 0 → Claim.Traps (.strmResume t n) s .illegalInstruction (scalarWord (.strmResume t n))))

/-! ### Banks, full/empty bits, rings, counters and barriers -/

/-- R153, R155, R159, R160: a change of bank roles by a hart that may make it answers 0 and gives every named bank
the role and no other bank another; 2 where a named bank is a claimed FIFO, 1 where fewer than two cache banks would
remain; outside the grant of a user it traps. `bank.stat` reads the role, the grant and the claim. -/
def Obligations.BankRoles : Prop :=
    ∀ (s : State) (d a : Reg),
    let m := s.getX a
    let T := s.tile (tileOf s.cur)
    let role (b : Nat) : Option Role := T.banks[b]?.map (fun k => k.role)
    ∀ x ∈ [(Instr.bankCfgCache d a, Role.cache), (.bankCfgSpad d a, .spad), (.bankCfgFifo d a, .fifo)],
      (s.me.sup = false → m &&& ~~~s.me.banks ≠ 0 → Claim.Traps x.1 s .bankGrant m) ∧
      (s.me.sup = true ∨ m &&& ~~~s.me.banks = 0 →
        let held := ∃ b < 64, m.getLsbD b = true ∧ ∃ k, T.banks[b]? = some k ∧ k.role = .fifo ∧ k.claimed = true
        let left := ((List.range 64).filter (fun b =>
          if m.getLsbD b then x.2 = .cache else role b = some .cache)).length
        (m = 0 → Claim.Writes x.1 s d 0) ∧ (m ≠ 0 → held → Claim.Writes x.1 s d 2) ∧
        (m ≠ 0 → ¬ held → left < 2 → Claim.Writes x.1 s d 1) ∧
        (m ≠ 0 → ¬ held → 2 ≤ left → ∃ u, exec x.1 s = .next u ∧ u.pc = s.pc + 4 ∧ u.getX d = 0 ∧
          (∀ r, r ≠ d → u.getX r = s.getX r) ∧
          (∀ b < 64, (u.tile (tileOf s.cur)).banks[b]?.map (fun k => k.role) =
            if m.getLsbD b then some x.2 else role b) ∧
          (∀ v, v ≠ tileOf s.cur → u.tile v = s.tile v))) ∧
      (∀ k, T.banks[(fld m 0 6).toNat]? = some k → Claim.Writes (.bankStat d a) s d (BitVec.ofNat 64
        ((match k.role with | .cache => 0 | .spad => 1 | .fifo => 2) +
          (if s.me.banks.getLsbD (fld m 0 6).toNat then 4 else 0) +
          (if k.role = .fifo ∧ k.claimed = true then 8 else 0))))

/-- R157, R161, R162: `fe.init` sets the bits of X[xb] words of one tile's scratchpad; `ldf` on a full word that no
hart waits for before it loads the word and, in the clearing form, empties it; `stf` stores a word and fills it, and
`stf.wait` does so on an empty word. Where the word is in the other state, the hart waits. -/
def Obligations.FullEmptyBits : Prop :=
    ∀ (s : State) (d a b : Reg) (p : BitVec 3),
    let va := s.getX a
    let n := (s.getX b).toNat
    (va.toNat % 8 = 0 → n < 2 ^ 32 → ∀ (pas : Nat → Nat) (T : Nat),
      (∀ i < n, ∃ l c, s.reach s.cur s.me.sup .write (va + 8 * BitVec.ofNat 64 i).toNat = .to l c ∧
        regionOf l.pa = .spad ∧ spadTile l.pa = T ∧ l.pa = pas i) →
      ∀ x ∈ [(Instr.feInitEmpty a b, false), (.feInitFull a b, true)],
        ∃ u, exec x.1 s = .next u ∧ u.pc = s.pc + 4 ∧ u.me.x = s.me.x ∧ u.mem = s.mem ∧
          ∀ q, u.isFull q = if ∃ i < n, pas i / 8 = q / 8 then x.2 else s.isFull q) ∧
    (∀ (l : Leaf) (c : Nat), va.toNat % 8 = 0 → s.reach s.cur s.me.sup .read va.toNat = .to l c →
      regionOf l.pa = .spad →
      let w := ((s.forgetAt s.cur true c 8).forgetAt s.cur false c 8).acquire s.cur true p.toNat c 8
      let v := BitVec.ofNat 64 (Claim.seen s l c 8)
      (s.isFull l.pa = true → s.feBehind (l.pa / 8) true = false →
        exec (.ldf d a p) s = .next (w.setX d v).advance ∧
        exec (.ldfClr d a p) s = .next ((w.setFull l.pa false).setX d v).advance) ∧
      (s.isFull l.pa = false → ∀ i ∈ [Instr.ldf d a p, .ldfClr d a p],
        ∃ u, exec i s = .next u ∧ u.me.run = .waiting ∧ u.pc = s.pc ∧ u.me.x = s.me.x ∧ u.mem = s.mem ∧
          u.full = s.full)) ∧
    (∀ (l : Leaf) (c : Nat), va.toNat % 8 = 0 → s.reach s.cur s.me.sup .write va.toNat = .to l c →
      regionOf l.pa = .spad →
      let w := ((s.release s.cur true p.toNat).forgetAt s.cur true c 8).write (.side s.cur true) c l.key (bytesOf 8 n)
      let u := ((w.noteRelease (.hart s.cur) p.toNat c 8).setFull l.pa true).advance
      exec (.stf a b p) s = .next u ∧
      (s.isFull l.pa = false → s.feBehind (l.pa / 8) false = false → exec (.stfWait a b p) s = .next u) ∧
      (s.isFull l.pa = true → ∃ w, exec (.stfWait a b p) s = .next w ∧ w.me.run = .waiting ∧ w.pc = s.pc ∧
        w.mem = s.mem ∧ w.full = s.full)) ∧
    (va.toNat % 8 ≠ 0 → ∀ i ∈ [Instr.ldf d a p, .ldfClr d a p, .stf a b p, .stfWait a b p],
      Claim.Traps i s .misaligned va)

/-- R163 to R165: `ring.cfg` with a legal shape, over pages that all lie in the tile's scratchpad, sets the ring up
empty; advancing the tail is a release of the hart's writes and adds entries where there is room and otherwise waits,
advancing the head removes entries that are there, and `ring.stat` reads HEAD and the occupancy. -/
def Obligations.Rings : Prop :=
    ∀ (s : State) (q : BitVec 3) (d a b : Reg) (p : BitVec 3),
    let r := s.me.ring q
    let n := (s.getX a).toNat
    let occ := (r.tail - r.head).toNat
    let stat : Word := BitVec.ofNat 64 (r.head.toNat * 2 ^ 32 + occ)
    let e := (fld (s.getX b) 0 16).toNat
    let k := (fld (s.getX b) 16 16).toNat
    (ringShapeOk (s.getX a) (s.getX b) = true →
      (∀ g, n / 4096 ≤ g → g * 4096 < n + e * k → ∃ l, s.translate s.cur s.me.sup .read
        (max n (g * 4096) % 2 ^ 64) = .ok l ∧ s.keyInvalid l.key = false ∧ s.inSpadOf (tileOf s.cur) l.pa = true) →
      exec (.ringCfg q a b) s =
        .next (s.updMe (fun H => H.setRing q ⟨true, s.getX a, e, k, 0, 0⟩)).advance) ∧
    (ringShapeOk (s.getX a) (s.getX b) = false → Claim.Traps (.ringCfg q a b) s .ringConfig (s.getX b)) ∧
    (r.on = true → n ≠ 0 → n ≤ r.entries → occ + n ≤ r.entries → exec (.ringAdvTail q a p) s =
      .next (((s.release s.cur false p.toNat).forgetWhere (fun e => e.hart == s.cur && !e.scalar)).updMe (fun H =>
        H.setRing q { r with tail := r.tail + BitVec.ofNat 32 n })).advance) ∧
    (r.on = true → n ≤ r.entries → r.entries < occ + n → Claim.Waits (.ringAdvTail q a p) s (.ring q.toNat false)) ∧
    (r.on = true → n ≤ occ → exec (.ringAdvHead q a p) s =
      .next (s.updMe (fun H => H.setRing q { r with head := r.head + BitVec.ofNat 32 n })).advance) ∧
    (r.on = true → occ < n → Claim.Traps (.ringAdvHead q a p) s .ringUnderflow (s.getX a)) ∧
    (r.on = true → occ < 2 ^ 16 → Claim.Writes (.ringStat d q) s d stat ∧
      ((s.getX b).toNat ≤ occ → (s.getX b).toNat ≤ r.entries → Claim.Writes (.ringStatWait d q b) s d stat) ∧
      (occ < (s.getX b).toNat → (s.getX b).toNat ≤ r.entries →
        Claim.Waits (.ringStatWait d q b) s (.ring q.toNat false))) ∧
    (r.on = false → Claim.Traps (.ringAdvTail q a p) s .ringConfig 0 ∧
      Claim.Traps (.ringAdvHead q a p) s .ringConfig 0 ∧ Claim.Traps (.ringStat d q) s .ringConfig 0 ∧
      Claim.Traps (.ringStatWait d q b) s .ringConfig 0)

/-- R377, R380, R381: `cwait` retires once its counter has reached X[xa], an acquire at its scope of the releases that have
stepped the counter, so that where one of them synchronises, or none is known, no later access of the hart has been performed
before it; `cread` reads a counter and `cadd`, a release, adds to it;
`tok.send`, a release, to a rank of the gang puts a token on the network and counts it in flight, `tok.wait` takes one that
has arrived, the earliest first, an acquire of its send, and counts it out of flight, and otherwise waits; `tok.stat` reads
the count with the flight counter above it. That an acquire with no release to read from orders its hart's accesses alone,
and which releases a counter carries, is the model's reading (log 8).

R382, R383: an arrival at a barrier counts LEFT down, and the last one loads it again from TOTAL and steps the
generation; it returns the old word and is a release of the hart's scalar stores. `bar.wait` retires where the generation
differs from X[xb], and otherwise waits. -/
def Obligations.CountersTokensBarriers : Prop :=
  (∀ (s : State) (d a b : Reg) (n : BitVec 4) (p : BitVec 3),
     let k := s.me.ctr[n.toNat]'n.isLt
     let ch := (s.getX a).toNat
     (let rs := relsOf s.me.ctrRel n.toNat
      let meets := rs = [] ∨ ∃ r ∈ rs, r.1.far s.cur ≤ min r.2 p.toNat + 1
      (s.getX a).toNat ≤ k.toNat →
        (meets → exec (.cwait a n p) s = .next (s.forget s.cur false).advance) ∧
        (¬ meets → exec (.cwait a n p) s = .next s.advance)) ∧
     (k.toNat < (s.getX a).toNat → Claim.Waits (.cwait a n p) s .counter) ∧
     Claim.Writes (.cread d n) s d k ∧
     exec (.cadd a n p) s = .next ((s.release s.cur false p.toNat).updMe (fun H =>
       { H with ctr := H.ctr.set n.toNat (H.ctr[n.toNat]'n.isLt + s.getX a) n.isLt
                ctrRel := noteRel H.ctrRel n.toNat (s.cur, p.toNat) })).advance ∧
     (∀ (G : Gang) (r : Nat) (m : Member), s.gangOf s.cur = some (G, r) → G.member? (s.getX a).toNat = some m →
       (s.getX a).toNat < G.members.length → (s.getX a).toNat < 256 → fld (s.getX b) 4 12 = 0 →
       fld (s.getX b) 32 32 = 0 → s.memberTokens m (fld (s.getX b) 0 4).toNat ≠ 0xFFFFFFFF →
       ∃ u, exec (.tokSend a b p) s = .next u ∧ u.pc = s.pc + 4 ∧ u.me.x = s.me.x ∧
         u.delayed = (s.release s.cur true p.toNat).delayed ∧ (u.gang? G.id).map (fun K => K.fc) = some (G.fc + 1) ∧
         u.tokens = s.tokens ++
           [⟨G.id, (s.cur, p.toNat), r, (s.getX a).toNat, (fld (s.getX b) 0 4).toNat, fld (s.getX b) 16 16⟩]) ∧
     (ch < 16 → 0 < s.me.tokens ch → ∃ u, exec (.tokWait d a p) s = .next u ∧ u.pc = s.pc + 4 ∧
       u.me.tokens ch = s.me.tokens ch - 1 ∧ (∀ k, k ≠ ch → u.me.tokens k = s.me.tokens k) ∧
       u.getX d = (if d = 0 then 0 else 1) ∧ (∀ r, r ≠ d → u.getX r = s.getX r) ∧
       u.early = (s.acquireFrom s.cur true p.toNat ((relsOf s.me.tokRel ch).take 1)).early ∧
       (∀ (G : Gang) (r : Nat), s.gangOf s.cur = some (G, r) →
         (u.gang? G.id).map (fun K => K.fc) = some (G.fc - 1))) ∧
     (ch < 16 → s.me.tokens ch = 0 → Claim.Waits (.tokWait d a p) s (.tok d)) ∧
     (16 ≤ ch → Claim.Traps (.tokWait d a p) s .tokenDest (s.getX a)) ∧
     (s.me.gang = none → Claim.Traps (.tokSend a b p) s .tokenDest (s.getX a)) ∧
     (∀ (G : Gang) (r : Nat), s.gangOf s.cur = some (G, r) → G.fc < 2 ^ 32 →
       Claim.Writes (.tokStat d a) s d (BitVec.ofNat 64 (G.fc * 2 ^ 32 + s.me.tokens (ch % 16))))) ∧
  (∀ (s u : State) (d a b : Reg) (p : BitVec 3) (l : Leaf) (c : Nat),
     let va := s.getX a
     (Claim.Access s .write true va 8 l c u → s.atomicOk l.pa = true → u.poisoned l.pa 8 = false →
       let o := (u.release u.cur true p.toNat).acquire u.cur true p.toNat c 8
       let w := (o.forgetAt u.cur true c 8).drain (fun e => e.seenBy (.side u.cur true) && e.meets c 8)
       let old := natOf (w.bytesUnder c l.key 8)
       let gen := old / 2 ^ 32
       let total := old / 2 ^ 16 % 2 ^ 16
       let left := old % 2 ^ 16
       0 < left → left ≤ total →
       let new := if left = 1 then (gen + 1) % 2 ^ 32 * 2 ^ 32 + total * 2 ^ 16 + total else old - 1
       exec (.barArrive d a p) s =
         .next (((w.putBytes c l.key (bytesOf 8 new)).noteRelease (.hart u.cur) p.toNat c 8).setX d
           (BitVec.ofNat 64 old)).advance) ∧
     (Claim.Access s .read false va 8 l c u → s.atomicOk l.pa = true → u.poisoned l.pa 8 = false →
       let gen := Claim.seen u l c 8 / 2 ^ 32
       let w := (u.forgetAt u.cur true c 8).acquire u.cur true p.toNat c 8
       (gen ≠ (s.getX b).toNat % 2 ^ 32 → exec (.barWait a b p) s = .next w.advance) ∧
       (gen = (s.getX b).toNat % 2 ^ 32 → exec (.barWait a b p) s = .next (w.waitIn (.bar va.toNat)))))

/-! ### Kernels, capsules and lanes -/

/-- R386, R388, R389, R375: `kid` answers the rank, the sizes and the indexes of the hart's gang; `kyield` marks
the gang; `kdone` without streams in use ends the hart, which stays with its gang until every hart has ended, and
a finished gang is gone; `klaunch` of an accepted record puts it last in the queue that X[xb] names and answers
0, and a user-level launch to a queue that is not open answers 3. -/
def Obligations.KernelForms : Prop :=
    ∀ (s : State) (d a b : Reg),
    let k := (s.getX a).toNat
    let spatial (l : Level) : Bool := l.kind == 1 || l.kind == 2
    Claim.Writes (.kid d a 4) s d (BitVec.ofNat 64 (tileOf s.cur).val) ∧
    (∀ (G : Gang) (r : Nat), s.gangOf s.cur = some (G, r) →
      Claim.Writes (.kid d a 0) s d (BitVec.ofNat 64 r) ∧
      Claim.Writes (.kid d a 1) s d (BitVec.ofNat 64 G.members.length) ∧
      Claim.Writes (.kid d a 2) s d (BitVec.ofNat 64 G.inst) ∧
      Claim.Writes (.kid d a 3) s d (BitVec.ofNat 64 G.launch.inst) ∧
      Claim.Writes (.kid d a 5) s d (BitVec.ofNat 64 G.launch.prio) ∧
      (∀ l, G.launch.levels[k]? = some l →
        Claim.Writes (.kid d a 6) s d (BitVec.ofNat 64 (if spatial l then
          r / (((G.launch.levels.drop (k + 1)).filter spatial).map (fun l => l.trips)).prod % l.trips else 0)) ∧
        Claim.Writes (.kid d a 7) s d (BitVec.ofNat 64 l.trips)) ∧
      (G.launch.levels.length ≤ k → Claim.Writes (.kid d a 6) s d 0 ∧ Claim.Writes (.kid d a 7) s d 0) ∧
      exec .kyield s = .next (({ s with gangs := s.gangs.map (fun K =>
        if K.id = G.id then { K with yielded := true } else K) } : State).advance) ∧
      (s.me.cap.held = none → s.me.cap.land = false → (∀ t ∈ s.me.streams, t.cfg = false) → s.me.releasing = [] →
        s.delayed = [] →
        ((∃ m ∈ G.members, m.rank ≠ r ∧ m.done = false) → ∃ t, exec .kdone s = .next t ∧
          (t.hart s.cur).run = .idle ∧ (t.hart s.cur).gang = s.me.gang ∧ t.mem = s.mem ∧
          (t.gang? G.id).map (fun K => K.members) =
            some (G.members.map (fun m => if m.rank = r then { m with done := true } else m))) ∧
        ((∀ m ∈ G.members, m.rank ≠ r → m.done = true) →
          (∃ m ∈ G.members, m.ctx = s.cur) → ∃ t, exec .kdone s = .next t ∧
          (t.hart s.cur).run = .idle ∧ (t.hart s.cur).gang = none ∧ t.gang? G.id = none))) ∧
    (s.me.cap.held.isSome = true → Claim.Traps .kdone s .capState 1) ∧
    (k % 64 ≠ 0 → Claim.Traps (.klaunch d a b) s .misaligned (s.getX a)) ∧
    (∀ (p : Parts) (u : State), k % 64 = 0 →
      loadParts (s.getX a) (fun r => if s.me.sup then r else s.me.space) s = .ok p u →
      let w := u.raise (fun e => e.hart == u.cur) 3
      let y := s.getX b
      let c := w.qcfgOf (fld y 5 2).toNat (fld y 0 5).toNat
      (s.me.sup = false → c.getLsbD 7 = false → exec (.klaunch d a b) s = .next (w.setX d 3).advance) ∧
      (s.me.sup = true → 128 ≤ y.toNat → exec (.klaunch d a b) s = .next (w.setX d 2).advance) ∧
      (∀ l, w.checkLaunch (!s.me.sup) (decide (y.toNat < 128))
          (if s.me.sup then BitVec.ofNat 16 p.asid else s.me.space) (fld y 5 2).toNat (fld y 0 5).toNat p = .ok l →
        ∃ t, exec (.klaunch d a b) s = .next t ∧ t.pc = w.pc + 4 ∧ t.getX d = 0 ∧
          (∀ r, r ≠ d → t.getX r = w.getX r) ∧ t.mem = w.mem ∧
          l.prio ≤ l.ceil ∧ l.ceil < 8 ∧ 1 ≤ l.inst ∧ l.inst ≤ 65535 ∧ l.id = w.nextId ∧ t.nextId = w.nextId + 1 ∧
          (∀ (D : Fin 4), D.val = (fld y 5 2).toNat →
            (w.queue D (fld y 0 5).toNat).records < 64 ∧
            (t.queue D (fld y 0 5).toNat).entries =
              (w.queue D (fld y 0 5).toNat).entries ++ [.record l])))

/-- R404, R405: `cap.land.off` withdraws the landing and gives up an empty pool, the other modes of `cap.land`
take the pool and, for a landing, a FIFO bank; `cap.send`, a release, takes the lowest free slot and sends towards step 0,
or answers 1 with the pool full; `cap.recv`, an acquire of the capsule's last send, takes the head of the ring into the
service buffer and answers the address of its operation, or waits. That the slot's bytes are not written at the send, that the
capsule keeps its origin as a rank, and that the buffer holds it at once is the model's reading (log 21). -/
def Obligations.CapsuleSending : Prop :=
    ∀ (s : State) (d a : Reg) (p : BitVec 3),
    let va := s.getX a
    let me := s.me.cap
    let some3 (n : Nat) : Nat := if me.inUse = [] then n else 3
    (me.held = none → ∃ t, exec (.capLandOff d) s = .next t ∧ t.pc = s.pc + 4 ∧
      t.getX d = (if d = 0 then 0 else BitVec.ofNat 64 (some3 0)) ∧ (∀ r, r ≠ d → t.getX r = s.getX r) ∧
      t.me.cap.land = false ∧ t.me.cap.inUse = me.inUse ∧ (me.inUse = [] → t.me.cap.send = false) ∧
      (me.land = true → t.me.cap.ring = [] ∧ t.me.cap.parked = [])) ∧
    (me.held.isSome = true → Claim.Traps (.capLandOff d) s .capState 1 ∧ Claim.Traps (.capLandSend d a) s .capState 1 ∧
      Claim.Traps (.capLandLand d a) s .capState 1) ∧
    (∀ (land : Bool) (bs : List Byte) (u v w : State) (fs : List (Nat × Nat)) (ls : List Leaf),
      let i := if land then Instr.capLandLand d a else .capLandSend d a
      let pool := leAt bs 24 8
      let n := leAt bs 32 2
      me.held = none → va.toNat % 64 = 0 → loadBytes va 64 s = .ok bs u →
      (pool % 64 = 0 ∧ 1 ≤ n ∧ n ≤ 256 ∧ (∀ x ∈ bs.drop 34, x = 0) ∧
        (if land then leAt bs 0 8 % 64 = 0 ∧ leAt bs 8 8 % 8 = 0
         else leAt bs 0 8 = 0 ∧ leAt bs 8 8 = 0 ∧ leAt bs 16 8 = 0)) →
      poolFrames pool (pool + 16448 * n) (16448 * n / 4096 + 2) u = .ok fs v →
      (if land then ringPages (leAt bs 0 8) (leAt bs 0 8 + 16448) 6 v = .ok ls w ∧
        ∀ l ∈ ls, w.inSpadOf (tileOf w.cur) l.pa = true else w = v) →
      let q := w.me.cap
      let changes := q.send = true ∧ q.inUse ≠ [] ∧ (q.poolBase.toNat ≠ pool ∨ q.slots ≠ n)
      let taken := ∃ c : Fin 4, hartAt (tileOf w.cur) c ≠ w.cur ∧ (w.hart (hartAt (tileOf w.cur) c)).cap.land = true
      (changes → exec i s = .next (w.setX d 3).advance) ∧
      (¬ changes → land = true → q.land = false → taken → exec i s = .next (w.setX d 1).advance) ∧
      (¬ changes → land = true → q.land = false → ¬ taken → w.claimFifo (tileOf w.cur) = none →
        exec i s = .next (w.setX d 2).advance) ∧
      (¬ changes → (land = true → q.land = false → ¬ taken ∧ (w.claimFifo (tileOf w.cur)).isSome = true) →
        ∃ t, exec i s = .next t ∧ t.pc = w.pc + 4 ∧ t.getX d = 0 ∧ (∀ r, r ≠ d → t.getX r = w.getX r) ∧
          t.me.cap.send = true ∧ t.me.cap.poolBase = BitVec.ofNat 64 pool ∧ t.me.cap.slots = n ∧
          t.me.cap.frames = fs ∧ t.me.cap.land = land ∧
          (land = true → t.me.cap.buf = BitVec.ofNat 64 (leAt bs 0 8) ∧
            t.me.cap.table = BitVec.ofNat 64 (leAt bs 8 8) ∧ t.me.cap.code = BitVec.ofNat 64 (leAt bs 16 8) ∧
            t.me.cap.ring = q.ring ∧
            t.me.cap.parked = q.parked ++ (q.faulted.filter (fun c => decide (c.fault < 128))).map
              (fun c => { c with status := 1 })))) ∧
    (me.send = false → Claim.Traps (.capSend d a p) s .capState 0) ∧
    (∀ (head payload : List Byte) (u v : State) (G : Gang) (r : Nat), me.send = true → va.toNat % 64 = 0 →
      loadRun va 8 s = .ok head u → imageOk head = true →
      loadRun (va + 64) (leAt head 10 2 / 8) u = .ok payload v → v.gangOf v.cur = some (G, r) →
      ((∀ n < v.me.cap.slots, n ∈ v.me.cap.inUse) → exec (.capSend d a p) s = .next (v.setX d 1).advance) ∧
      (∀ n < v.me.cap.slots, n ∉ v.me.cap.inUse → (∀ m < n, m ∈ v.me.cap.inUse) →
        let w := ((v.release v.cur true p.toNat).fcAdd G.id 1 0).updMe
          (fun H => { H with cap := { H.cap with inUse := H.cap.inUse ++ [n] } })
        let c : Capsule := {
          gang := G.id, origin := r, id := BitVec.ofNat 32 (leAt head 0 4), hops := 0, cur := 0
          nsteps := leAt head 8 1, fmt := head.getD 9 0, status := 0, fault := 0, slot := n
          user := BitVec.ofNat 64 (leAt head 24 8)
          steps := (List.range 8).map (fun k => BitVec.ofNat 32 (leAt head (32 + 4 * k) 4)), payload := payload
          sent := (v.cur, p.toNat) }
        let step := leAt head 32 4
        (step / 2 ^ 12 % 16 = 0 → step % 2 ^ 12 < G.members.length → (w.capOf G.id (step % 2 ^ 12)).land = true →
          exec (.capSend d a p) s =
            .next (({ w with capsules := w.capsules ++ [⟨r, step % 2 ^ 12, c⟩] } : State).setX d 0).advance) ∧
        ∃ t, exec (.capSend d a p) s = .next t ∧ t.pc = w.pc + 4 ∧ t.getX d = 0 ∧
          (∀ x, x ≠ d → t.getX x = w.getX x) ∧ t.me.cap.inUse = w.me.cap.inUse ∧
          (t.gang? G.id).map (fun K => K.fc) = some (G.fc + 1))) ∧
    (me.land = false → Claim.Traps (.capRecv d p) s .capState 0) ∧
    (me.land = true → me.held.isSome = true → Claim.Traps (.capRecv d p) s .capState 1) ∧
    (me.land = true → me.held = none → me.ring = [] → Claim.Waits (.capRecv d p) s (.cap d)) ∧
    (∀ (c : Capsule) (rest : List Capsule) (g r e : Nat) (u : State), me.land = true → me.held = none →
      me.ring = c :: rest → s.me.gang = some (g, r) →
      (loadScalar (me.table + BitVec.ofNat 64 (8 * if c.status = 1 then 0 else (c.step c.cur).toNat / 2 ^ 16 % 2 ^ 8))
        8 : Op Nat) s = .ok e u →
      (e % 2 ^ 32 ≠ 2 ^ 32 - 1 → ∀ v,
        copyToBuf (c.bytes (u.ctxOfRank c.gang c.origin)) u = .ok () v →
        exec (.capRecv d p) s = .next ((((v.acquireFrom v.cur true p.toNat [(.hart c.sent.1, c.sent.2)]).updMe (fun H => { H with cap := { H.cap with
          ring := rest, held := some (c, decide (e / 2 ^ 32 % 2 = 1)) } })).setX d
            (me.code + BitVec.ofNat 64 (e % 2 ^ 32))).advance)) ∧
      (e % 2 ^ 32 = 2 ^ 32 - 1 → ∃ t, exec (.capRecv d p) s = .next t ∧ t.me.run = .waiting ∧ t.pc = u.pc ∧
        t.me.cap.ring = rest ∧ (∀ x, t.getX x = u.getX x) ∧
        (c.status ≠ 1 → (u.capOf c.gang c.origin).land = true →
          t.capsules = u.capsules ++ [⟨r, c.origin, { c with status := 1, fault := 3 }⟩])))

/-- R406 to R408: a held capsule ends when it is forwarded past its last step, its slot free and the flight counter
one less; it travels on to the landing of its next step, with one hop more, or after 255 hops it goes back to its
origin; `cap.ins`, `cap.del` and `cap.swap` edit its later steps, in the device's copy and in the buffer; the park
forms put it on the parked or the faulted list and bring faulted ones back. That `cap.del` leaves the last word as it was, and
the CUR that a capsule bears after 255 hops, is the model's reading (log 21). -/
def Obligations.CapsuleService : Prop :=
    ∀ (s : State) (d a b : Reg) (p : BitVec 3),
    let x := (s.getX a).toNat
    let y := s.getX b
    let forms : List (Instr × (Capsule → Nat)) :=
      [(.capFwd p, fun c => if (c.step c.cur).getLsbD 24 then c.cur + 2 else c.cur + 1),
       (.capFwdStay p, fun c => c.cur), (.capFwdEnd p, fun c => c.nsteps)]
    (s.me.cap.held = none → (∀ e ∈ forms, Claim.Traps e.1 s .capState 0) ∧ Claim.Traps .capPark s .capState 0 ∧
      (s.me.sup = true → Claim.Traps (.capParkFlt a) s .capState 0)) ∧
    (∀ (c : Capsule) (u : State), heldCapsule s = .ok c u →
      let w := (u.release u.cur true p.toNat).updMe (fun H => { H with cap := { H.cap with held := none } })
      (∀ e ∈ forms,
        (c.nsteps ≤ e.2 c → ∃ t, exec e.1 s = .next t ∧ t.pc = w.pc + 4 ∧ (∀ r, t.getX r = w.getX r) ∧
          t.me.cap.held = none ∧ t.capsules = w.capsules ∧ t.mem = w.mem ∧
          (t.capOf c.gang c.origin).inUse = (w.capOf c.gang c.origin).inUse.filter (fun n => n != c.slot) ∧
          (t.gang? c.gang).map (fun G => G.fc) = (w.gang? c.gang).map (fun G => G.fc - 1)) ∧
        (∀ (g r : Nat), u.me.gang = some (g, r) → e.2 c < c.nsteps →
          (c.hops = 255 → (w.capOf c.gang c.origin).land = true → exec e.1 s = .next ({ w with capsules :=
            w.capsules ++ [⟨r, c.origin, { c with status := 1, fault := 4, cur := e.2 c, sent := (u.cur, p.toNat) }⟩] } : State).advance) ∧
          (∀ (dst : Nat) (G : Gang), c.hops ≠ 255 → stepKind (c.step (e.2 c)) = 0 → stepTile (c.step (e.2 c)) = dst →
            w.gang? c.gang = some G → dst < G.members.length → (w.capOf c.gang dst).land = true →
            exec e.1 s = .next ({ w with capsules := w.capsules ++ [⟨r, dst,
              { c with hops := c.hops + 1, status := 0, fault := 0, cur := e.2 c, sent := (u.cur, p.toNat) }⟩] } : State).advance))) ∧
      (∃ t, exec .capPark s = .next t ∧ t.pc = u.pc + 4 ∧ (∀ r, t.getX r = u.getX r) ∧
        t.me.cap.held = none ∧ t.me.cap.parked = u.me.cap.parked ++ [c] ∧ t.me.cap.ring = u.me.cap.ring) ∧
      (s.me.sup = true → 128 ≤ x → x < 256 → ∃ t, exec (.capParkFlt a) s = .next t ∧ t.pc = u.pc + 4 ∧
        (∀ r, t.getX r = u.getX r) ∧ t.me.cap.held = none ∧
        t.me.cap.faulted = u.me.cap.faulted ++ [{ c with status := 2, fault := x }] ∧
        t.me.fq.waiting.length = u.me.fq.waiting.length + 1)) ∧
    (s.me.sup = true → s.me.cap.held.isSome = true → (x < 128 ∨ 256 ≤ x) →
      Claim.Traps (.capParkFlt a) s .capFormat (s.getX a)) ∧
    (s.me.sup = true → s.me.cap.land = true → ∃ t, exec (.capParkRel d a) s = .next t ∧ t.pc = s.pc + 4 ∧
      (let n := min x s.me.cap.faulted.length
       t.getX d = (if d = 0 then 0 else BitVec.ofNat 64 n) ∧ (∀ r, r ≠ d → t.getX r = s.getX r) ∧
       t.me.cap.faulted = s.me.cap.faulted.drop n ∧
       t.me.cap.parked = s.me.cap.parked ++
         (s.me.cap.faulted.take n).map (fun c => { c with status := 0, fault := 0 }))) ∧
    (s.me.sup = true → s.me.cap.land = false → Claim.Traps (.capParkRel d a) s .capState 0) ∧
    (s.me.sup = false →
      Claim.Traps (.capParkFlt a) s .illegalInstruction (scalarWord (.capParkFlt a)) ∧
      Claim.Traps (.capParkRel d a) s .illegalInstruction (scalarWord (.capParkRel d a))) ∧
    ((∀ c, s.me.cap.held ≠ some (c, true)) → Claim.Traps (.capIns d a b) s .capState 2 ∧
      Claim.Traps (.capDel d a) s .capState 2 ∧ Claim.Traps (.capSwap d a b) s .capState 2) ∧
    (∀ c, s.me.cap.held = some (c, true) → c.steps.length = 8 → c.nsteps ≤ 8 →
      let word : BitVec 32 := y.setWidth 32
      let good := y.toNat < 2 ^ 32 ∧ stepKind word ≤ 1 ∧ (stepKind word = 1 → stepTile word = 0) ∧ y.toNat / 2 ^ 25 = 0
      let old := (c.steps.getD x 0).setWidth 64
      let edit (i : Instr) (steps : List (BitVec 32)) (n : Nat) (v : Word) : Prop :=
        ((steps.getD (n - 1) 0).getLsbD 24 = true → Claim.Traps i s .capFormat (s.getX a)) ∧
        ((steps.getD (n - 1) 0).getLsbD 24 = false → ∀ (l : Leaf × Nat) (u : State),
          reachAs s.me.cap.sup .write s.me.cap.buf 64 s = .ok l u →
          exec i s = .next ((((u.layBuf l 8 [byteOf n]).layBuf l 32 (steps.flatMap (fun w => bytesOf 4 w.toNat))).updMe
            (fun H => { H with cap := { H.cap with held := H.cap.held.map (fun e =>
              ({ c with steps := steps, nsteps := n }, e.2)) } })).setX d v).advance)
      (c.cur < x → x ≤ c.nsteps → good →
        (c.nsteps = 8 → Claim.Writes (.capIns d a b) s d 1) ∧
        (c.nsteps < 8 → edit (.capIns d a b) (c.steps.take x ++ [word] ++ (c.steps.take c.nsteps).drop x ++
          c.steps.drop (c.nsteps + 1)) (c.nsteps + 1) 0)) ∧
      (c.cur < x → x < c.nsteps → edit (.capDel d a) (c.steps.take x ++ (c.steps.take c.nsteps).drop (x + 1) ++
        c.steps.drop (c.nsteps - 1)) (c.nsteps - 1) old) ∧
      (c.cur < x → x < c.nsteps → good → edit (.capSwap d a b) (c.steps.set x word) c.nsteps old) ∧
      (x ≤ c.cur ∨ c.nsteps < x → Claim.Traps (.capIns d a b) s .capFormat (s.getX a)) ∧
      (x ≤ c.cur ∨ c.nsteps ≤ x → Claim.Traps (.capDel d a) s .capFormat (s.getX a) ∧
        Claim.Traps (.capSwap d a b) s .capFormat (s.getX a)) ∧
      (¬ good → Claim.Traps (.capIns d a b) s .capFormat (s.getX a) ∧
        Claim.Traps (.capSwap d a b) s .capFormat (s.getX a)))

/-- R231, R234, R284, R285, R289: `vsetvl` sets the type and the length and answers the length; `lpart` takes the
lowest free clusters of the grant, with a cleared vector state; the mode switches change the mode, clear the length
and, for matrix mode, the shape; `tshape` grants a shape and answers it. Each is illegal in a mode that it may
not leave.

R310, R311: entering fabric mode moves the first VL elements of each input register into its queue and
answers VL; leaving it when quiescent writes the queues that the mask names back, clears the other queue
registers, gives up the page sets, and answers the length of the highest queue named.

R296: `mpair` meets a peer that waits in an `mpair` naming this hart with the other role, and both retire, with
code 0 over a new crossing where the harts are in one gang and own as many lanes, both ports are free, and a FIFO bank can be
claimed at each tile, and with code 2 otherwise; with no such peer it waits, and retires with 3 once it has
waited 1,048,576 cycles;
`mpair.off` closes the crossing at both ends. -/
def Obligations.LaneForms : Prop :=
  (∀ (s : State) (d a b : Reg) (e : BitVec 1) (w : BitVec 2) (p : BitVec 3),
     let H := s.me
     let n := (s.getX a).toNat
     let own := fld H.csr.lpart 0 16
     let lim := min (if s.getX b = 0 then 2 ^ 64 else (s.getX b).toNat) (512 * popcount own / 2 ^ w.toNat)
     (H.mode = 0 → p.toNat ≤ 5 → ∃ t, exec (.vsetvl d a b e w p) s = .next t ∧ t.pc = s.pc + 4 ∧
       t.getX d = (if d = 0 then 0 else BitVec.ofNat 64 (min n lim)) ∧ (∀ r, r ≠ d → t.getX r = s.getX r) ∧
       t.me.vl = min n lim ∧ fld t.me.csr.vcfg 16 2 = w ∧ fld t.me.csr.vcfg 18 3 = p ∧ fld t.me.csr.vcfg 21 1 = e ∧
       (∀ i, 22 ≤ i → t.me.csr.vcfg.getLsbD i = H.csr.vcfg.getLsbD i) ∧ t.me.v = H.v ∧ t.me.m = H.m) ∧
     (H.mode = 0 → (∀ q ∈ H.ports, q.isOpen = false) →
       let m := min n 16
       let free := fld H.csr.lpart 16 16 &&& ~~~(s.othersOwn s.cur) &&& ~~~(s.freedFor (tileOf s.cur))
       ∃ t, exec (.lpart d a) s = .next t ∧ t.pc = s.pc + 4 ∧ (∀ r, r ≠ d → t.getX r = s.getX r) ∧
         t.getX d = (if d = 0 then 0 else BitVec.ofNat 64 (popcount t.me.own)) ∧
         (m = popcount own → t.me.own = own ∧ t.me.v = H.v ∧ t.me.m = H.m ∧ t.me.csr = H.csr) ∧
         (m ≠ popcount own →
           popcount t.me.own = (if s.othersWithLanes s.cur = 2 then 0 else min m (popcount free)) ∧
           (∀ i, t.me.own.getLsbD i = true → free.getLsbD i = true ∧
             ∀ j < i, free.getLsbD j = true → t.me.own.getLsbD j = true) ∧
           fld t.me.csr.lpart 16 16 = fld H.csr.lpart 16 16 ∧ t.me.vl = 0 ∧
           (t.me.own ≠ own → t.me.wins = Vector.replicate 4 Window.reset) ∧ t.me.vdirty = Vector.replicate 32 0 ∧
           t.me.v = Vector.replicate 32 0 ∧ t.me.m = Vector.replicate 7 0)) ∧
     (H.mode = 0 → (∃ q ∈ H.ports, q.isOpen = true) → Claim.Traps (.lpart d a) s .laneState (s.getX a)) ∧
     (H.mode ≠ 0 → Claim.Traps (.vsetvl d a b e w p) s .illegalInstruction (scalarWord (.vsetvl d a b e w p)) ∧
       Claim.Traps (.lpart d a) s .illegalInstruction (scalarWord (.lpart d a))) ∧
     (H.mode = 1 → n < 2 ^ 48 →
       let up (v g : Nat) : Nat := (max v 1 + g - 1) / g * g
       let M := min 128 (up (n % 2 ^ 16) 4)
       let N := min (32 * popcount own) (up (n / 2 ^ 16 % 2 ^ 16) 16)
       let K := min 512 (up (n / 2 ^ 32) 32)
       ∃ t, exec (.tshape d a) s = .next t ∧ t.pc = s.pc + 4 ∧ (∀ r, r ≠ d → t.getX r = s.getX r) ∧
         t.getX d = (if d = 0 then 0 else BitVec.ofNat 64 (M + 2 ^ 16 * N + 2 ^ 32 * K)) ∧
         t.me.shapeM = M ∧ t.me.shapeN = N ∧ t.me.shapeK = K ∧ t.me.paired = H.paired ∧ t.me.v = H.v) ∧
     (H.mode = 1 → 2 ^ 48 ≤ n → Claim.Traps (.tshape d a) s .matrixShape (s.getX a)) ∧
     (H.mode ≠ 1 → Claim.Traps (.tshape d a) s .illegalInstruction (scalarWord (.tshape d a))) ∧
     (H.mode = 0 → 0 < H.lanes → ∃ t, exec .mmodeOn s = .next t ∧ t.pc = s.pc + 4 ∧ t.me.mode = 1 ∧ t.me.vl = 0 ∧
       t.me.shapeM = 0 ∧ t.me.shapeN = 0 ∧ t.me.shapeK = 0 ∧ t.me.m = Vector.replicate 7 0 ∧ t.me.x = H.x ∧
       t.me.f = H.f ∧ t.me.v = H.v) ∧
     (H.mode = 1 → exec .mmodeOn s = .next s.advance) ∧
     (H.mode = 0 → H.lanes = 0 → Claim.Traps .mmodeOn s .laneState 0) ∧
     (H.mode = 2 → Claim.Traps .mmodeOn s .illegalInstruction (scalarWord .mmodeOn) ∧
       Claim.Traps .mmodeOff s .illegalInstruction (scalarWord .mmodeOff)) ∧
     (H.mode = 1 → H.paired = false → ∃ t, exec .mmodeOff s = .next t ∧ t.pc = s.pc + 4 ∧ t.me.mode = 0 ∧
       t.me.vl = 0 ∧ t.me.shapeM = 0 ∧ t.me.shapeN = 0 ∧ t.me.shapeK = 0 ∧ t.me.x = H.x ∧ t.me.f = H.f ∧
       t.me.v = H.v ∧ t.me.m = H.m) ∧
     (H.mode = 1 → H.paired = true → Claim.Traps .mmodeOff s .matrixState 0) ∧
     (H.mode = 0 → exec .mmodeOff s = .next s.advance)) ∧
  (∀ (s : State) (d a b : Reg),
     let H := s.me
     let ins := s.getX a
     let outs := s.getX b
     let qw := (fld H.csr.vcfg 16 2).toNat
     (H.mode = 0 → 0 < H.lanes → (ins ||| outs).toNat < 2 ^ 24 → ins &&& outs = 0 →
       ∃ t, exec (.fmodeOn d a b) s = .next t ∧ t.pc = s.pc + 4 ∧ t.me.mode = 2 ∧ t.me.vl = 0 ∧
         t.getX d = (if d = 0 then 0 else BitVec.ofNat 64 H.vl) ∧ (∀ r, r ≠ d → t.getX r = s.getX r) ∧
         t.me.fabric.qw = qw ∧ t.me.fabric.active = H.fabric.active ∧ t.me.fabric.staged = H.fabric.staged ∧
         t.me.v = H.v ∧ t.me.m = H.m ∧ t.me.f = H.f ∧ fld t.me.csr.vcfg 16 2 = fld H.csr.vcfg 16 2 ∧
         (∀ r < 24, ins.getLsbD r = true →
           t.me.fabric.queue r = (List.range H.vl).map (fun i => H.elem r qw i)) ∧
         (∀ r < 24, outs.getLsbD r = true → t.me.fabric.queue r = [])) ∧
     (H.mode = 2 → Claim.Writes (.fmodeOn d a b) s d 0) ∧
     (H.mode = 1 → Claim.Traps (.fmodeOn d a b) s .illegalInstruction (scalarWord (.fmodeOn d a b)) ∧
       Claim.Traps (.fmodeOff d a) s .illegalInstruction (scalarWord (.fmodeOff d a))) ∧
     (H.mode = 0 → H.lanes = 0 → Claim.Traps (.fmodeOn d a b) s .laneState 0) ∧
     (H.mode = 0 → 0 < H.lanes → (2 ^ 24 ≤ (ins ||| outs).toNat ∨ ins &&& outs ≠ 0) →
       Claim.Traps (.fmodeOn d a b) s .laneState (ins ||| outs)) ∧
     (H.mode = 2 → (∀ r < 64, ins.getLsbD r = true → ∃ q, assoc H.fabric.queues r = some q) → H.quiet = true →
       let n := match (List.range 64).filter (fun r => ins.getLsbD r) |>.getLast? with
         | some r => (H.fabric.queue r).length
         | none => 0
       n < 2 ^ 16 →
       ∃ t, exec (.fmodeOff d a) s = .next t ∧ t.pc = s.pc + 4 ∧ t.me.mode = 0 ∧ t.me.vl = n ∧
         t.getX d = (if d = 0 then 0 else BitVec.ofNat 64 n) ∧ (∀ r, r ≠ d → t.getX r = s.getX r) ∧
         t.me.fabric.active = none ∧ t.me.fabric.staged = none ∧ t.me.fabric.queues = [] ∧
         (H.fabric.active ≠ none ∨ H.fabric.staged ≠ none → t.me.fabric.heldTokens = [] ∧ t.me.fabric.stale = false) ∧
         (H.fabric.active = none → H.fabric.staged = none → t.me.fabric.stale = H.fabric.stale) ∧
         t.me.m = H.m ∧ t.me.f = H.f ∧
         t.me.csr.fstat = (H.raise H.fabric.flags).csr.fstat ∧
         fld t.me.csr.vcfg 16 2 = BitVec.ofNat 2 H.fabric.qw ∧
         (∀ r < 32, assoc H.fabric.queues r = none → t.me.getV r = H.getV r) ∧
         ((H.fabric.queues.map (fun q => q.1)).Nodup → ∀ r < 32, ∀ q, assoc H.fabric.queues r = some q →
           (ins.getLsbD r = false → t.me.getV r = 0) ∧
           (r < 24 → t.me.vdirty[r]? = some 4))) ∧
     (H.mode = 2 → (∃ r < 64, ins.getLsbD r = true ∧ assoc H.fabric.queues r = none) →
       Claim.Traps (.fmodeOff d a) s .laneState ins) ∧
     (H.mode = 2 → (∀ r < 64, ins.getLsbD r = true → ∃ q, assoc H.fabric.queues r = some q) → H.quiet = false →
       Claim.Waits (.fmodeOff d a) s .other) ∧
     (H.mode = 0 → Claim.Writes (.fmodeOff d a) s d 0)) ∧
  (∀ (s : State) (d a : Reg),
     let H := s.me
     let w := s.getX a
     (H.mode ≠ 1 → Claim.Traps (.mpair d a) s .illegalInstruction (scalarWord (.mpair d a))) ∧
     (H.mode = 1 → (2 ^ 13 ≤ w.toNat ∨ 224 ≤ w.toNat % 2 ^ 8 ∨
         w.toNat % 2 ^ 8 * 4 + w.toNat / 2 ^ 8 % 4 = s.cur.val) → Claim.Traps (.mpair d a) s .matrixState w) ∧
     (∀ p : HartId, H.mode = 1 → p ≠ s.cur → w.toNat < 2 ^ 13 → w.toNat % 2 ^ 8 * 4 + w.toNat / 2 ^ 8 % 4 = p.val →
       (H.paired = true → Claim.Writes (.mpair d a) s d 1) ∧
       (H.paired = false → ¬ (H.wait = .mpair d w ∧ 1048576 ≤ H.waited) →
         (∀ pd pw, (s.hart p).wait = .mpair pd pw → (s.hart p).run ≠ .waiting ∨ 1048576 ≤ (s.hart p).waited ∨
           ¬ Claim.NamesBack pw s.cur p ∨ pw.getLsbD 12 = w.getLsbD 12) → Claim.Waits (.mpair d a) s (.mpair d w)) ∧
       (H.paired = false → H.wait = .mpair d w → 1048576 ≤ H.waited → ∃ t, exec (.mpair d a) s = .next t ∧
         t.pc = s.pc + 4 ∧ t.me.run = .running ∧ t.getX d = (if d = 0 then 0 else 3) ∧
         (∀ r, r ≠ d → t.getX r = s.getX r) ∧ t.me.paired = false) ∧
       (H.paired = false → ¬ (H.wait = .mpair d w ∧ 1048576 ≤ H.waited) → ∀ (pd : Reg) (pw : Word),
         (s.hart p).wait = .mpair pd pw → (s.hart p).run = .waiting → (s.hart p).waited < 1048576 →
         Claim.NamesBack pw s.cur p → pw.getLsbD 12 ≠ w.getLsbD 12 →
         let opens := s.sameGang s.cur p = true ∧ H.lanes = (s.hart p).lanes ∧
           s.portFree s.cur (w.toNat / 2 ^ 10 % 4) = true ∧ s.portFree p (pw.toNat / 2 ^ 10 % 4) = true ∧
           (tileOf s.cur = tileOf p → w.toNat / 2 ^ 10 % 4 ≠ pw.toNat / 2 ^ 10 % 4) ∧
           ∃ v b u b', s.claimFifo (tileOf s.cur) = some (v, b) ∧ v.claimFifo (tileOf p) = some (u, b')
         ∃ t code, exec (.mpair d a) s = .next t ∧ (opens → code = 0) ∧ (¬ opens → code = 2) ∧
           (t.hart s.cur).pc = H.pc + 4 ∧ (t.hart p).pc = (s.hart p).pc + 4 ∧
           (t.hart s.cur).run = .running ∧ (t.hart p).run = .running ∧
           (t.hart s.cur).getX d = (if d = 0 then 0 else BitVec.ofNat 64 code) ∧
           (t.hart p).getX pd = (if pd = 0 then 0 else BitVec.ofNat 64 code) ∧
           (code = 0 → (t.hart s.cur).paired = true ∧ (t.hart p).paired = true ∧
             (t.hart s.cur).primary = w.getLsbD 12 ∧ (t.hart p).primary = pw.getLsbD 12 ∧
             ((t.hart s.cur).port (w.toNat / 2 ^ 10 % 4)).isOpen = true ∧
             ((t.hart s.cur).port (w.toNat / 2 ^ 10 % 4)).peer = p ∧
             ((t.hart p).port (pw.toNat / 2 ^ 10 % 4)).isOpen = true ∧
             ((t.hart p).port (pw.toNat / 2 ^ 10 % 4)).peer = s.cur))) ∧
     (H.paired = false → exec .mpairOff s = .next s.advance) ∧
     (H.paired = true → ∃ t, exec .mpairOff s = .next t ∧ t.pc = s.pc + 4 ∧ t.me.paired = false ∧ t.me.x = H.x ∧
       (t.me.port H.pairPort).isOpen = false ∧
       ((H.port H.pairPort).isOpen = true → (t.hart (H.port H.pairPort).peer).paired = false)))

/-! ### Convoys and vector forms -/

/-- R26, R34, R42, R48, R237: a vector form alone is the convoy of one slot that holds it; a convoy whose checks fail
is the illegal-convoy trap with the reason in TVAL; with VL 0 a convoy retires with no effect, and with VL beyond
four groups it traps; a slot that reads what an earlier slot wrote sees it, group by group. -/
def Obligations.ConvoyIssue : Prop :=
    ∀ (s : State) (o : VOp) (w : VFields) (h : BitVec 32) (ws : List (BitVec 64)),
    exec (o.toInstr w) s = exec (.convoy (soloHeader o) [encodeVector o w]) s ∧
    (ws.length ≠ (h.toNat / 2 ^ 24 % 4) + 1 → exec (.convoy h ws) s = .fault .malformedConvoy) ∧
    (ws.length = (h.toNat / 2 ^ 24 % 4) + 1 →
      (s.pc.getLsbD 2 = false → Claim.Traps (.convoy h ws) s .illegalConvoy (BitVec.ofNat 64 (2 ^ 36 + h.toNat))) ∧
      (s.pc.getLsbD 2 = true → h.toNat % 2 ^ 9 ≠ 0 →
        Claim.Traps (.convoy h ws) s .illegalConvoy (BitVec.ofNat 64 (2 * 2 ^ 36 + h.toNat))) ∧
      (∀ r k, convoyCheck s.me h ws = .error (r, k) → Claim.Traps (.convoy h ws) s .illegalConvoy
        (BitVec.ofNat 64 (r % 16 * 2 ^ 36 + (match k with | some j => 2 ^ 34 + j % 4 * 2 ^ 32 | none => 0) + h.toNat))) ∧
      (∀ w₁ w₂ : VFields, convoyCheck s.me h ws = .ok [⟨0, .vadd, w₁⟩, ⟨1, .vsub, w₂⟩] → s.me.csr.vstart = 0 →
        s.me.cut = none → s.me.vq = [] → s.me.lag = 0 → s.me.branchQ.length ≤ 16 → 0 < s.me.vl →
        s.me.vl ≤ 4 * groupElems s.me.lanes w₁.width.toNat → w₁.width = w₂.width → w₁.mask = 0 → w₂.mask = 0 →
        w₁.sel = 0 → w₂.sel = 0 →
        ∃ t, exec (.convoy h ws) s = .next t ∧ t.pc = s.pc + 20 ∧ t.me.run = .running ∧ t.me.csr.vstart = 0 ∧
          t.me.x = s.me.x ∧ t.me.m = s.me.m ∧ t.mem = s.mem ∧
          (∀ r < 32, r ≠ w₁.vd.toNat → r ≠ w₂.vd.toNat → t.me.getV r = s.me.getV r) ∧
          (let n : Nat := 8 * 2 ^ w₁.width.toNat
           let old (r : BitVec 5) (k : Nat) : Nat := s.me.elem r.toNat w₁.width.toNat k
           let new (r : BitVec 5) (k : Nat) : Nat := if r = w₁.vd then t.me.elem r.toNat w₁.width.toNat k else old r k
           Claim.Holds t w₁.vd w₁.width.toNat s.me.vl (fun k => (old w₁.va k + old w₁.vb k) % 2 ^ n) ∧
           Claim.Holds t w₂.vd w₁.width.toNat s.me.vl (fun k => (new w₂.va k + 2 ^ n - new w₂.vb k) % 2 ^ n)))) ∧
    (Claim.Issues s o w → o.major.toNat ∉ [0x10, 0x11, 0x12, 0x13] →
      (s.me.vl = 0 → s.me.branchQ.length < 16 → exec (o.toInstr w) s = .next ((s.updMe (fun H => { H with
        branchQ := H.branchQ ++ (if o = .vbqAny then [false] else if o = .vbqNone then [true] else []) })).goTo
          (s.pc + 12))) ∧
      (4 * groupSize s.me [⟨0, o, w⟩] < s.me.vl →
        Claim.Traps (o.toInstr w) s .vectorLength (BitVec.ofNat 64 s.me.vl)))

/-- R246, R247, R256: each integer and logic form gives every active element its result in the element's width, from
the element of `va` and the second operand, read as the format says; the saturating forms clamp and set SAT. -/
def Obligations.VectorInteger : Prop :=
    ∀ (s : State) (w : VFields),
    let n : Nat := 8 * 2 ^ w.width.toNat
    let a (k : Nat) : Nat := s.me.elem w.va.toNat w.width.toNat k
    let b := Claim.second s w
    let d (k : Nat) : Nat := s.me.elem w.vd.toNat w.width.toNat k
    let sg (x : Nat) : Int := if x < 2 ^ (n - 1) then x else x - 2 ^ n
    let rd (x : Nat) : Int := if w.fmt = 0 then sg x else x
    let wrap (z : Int) : Nat := (z % 2 ^ n).toNat
    let lo : Int := if w.fmt = 0 then -2 ^ (n - 1) else 0
    let hi : Int := if w.fmt = 0 then 2 ^ (n - 1) - 1 else 2 ^ n - 1
    let forms : List (Instr × VOp × (Nat → Nat)) := [
      (.vadd w, .vadd, fun k => wrap (a k + b k)), (.vsub w, .vsub, fun k => wrap (a k - b k)),
      (.vrsub w, .vrsub, fun k => wrap (b k - a k)), (.vmin w, .vmin, fun k => wrap (min (rd (a k)) (rd (b k)))),
      (.vmax w, .vmax, fun k => wrap (max (rd (a k)) (rd (b k)))), (.vmul w, .vmul, fun k => wrap (a k * b k)),
      (.vmulh w, .vmulh, fun k => wrap (rd (a k) * rd (b k) / 2 ^ n)),
      (.vmacc w, .vmacc, fun k => wrap (d k + a k * b k)),
      (.vabsd w, .vabsd, fun k => (rd (a k) - rd (b k)).natAbs),
      (.vdiv w, .vdiv, fun k => if b k = 0 then 2 ^ n - 1 else wrap ((rd (a k)).tdiv (rd (b k)))),
      (.vrem w, .vrem, fun k => if b k = 0 then a k else wrap ((rd (a k)).tmod (rd (b k)))),
      (.vand w, .vand, fun k => a k &&& b k), (.vor w, .vor, fun k => a k ||| b k),
      (.vxor w, .vxor, fun k => a k ^^^ b k), (.vandn w, .vandn, fun k => a k &&& (2 ^ n - 1 - b k)),
      (.vsll w, .vsll, fun k => wrap (a k * 2 ^ (b k % n))), (.vsrl w, .vsrl, fun k => a k / 2 ^ (b k % n)),
      (.vsra w, .vsra, fun k => wrap (sg (a k) / 2 ^ (b k % n))), (.vmv w, .vmv, b),
      (.vnot w, .vnot, fun k => 2 ^ n - 1 - a k), (.vid w, .vid, fun k => wrap k)]
    (∀ x ∈ forms, Claim.Runs s x.2.1 w → Claim.Elementwise x.1 s w 0 x.2.2) ∧
    (∀ x ∈ [(Instr.vsadd w, VOp.vsadd, fun k => rd (a k) + rd (b k)), (.vssub w, .vssub, fun k => rd (a k) - rd (b k))],
      Claim.Runs s x.2.1 w → Claim.Elementwise x.1 s w
        (Claim.flagsOf s w (fun k => if x.2.2 k < lo ∨ hi < x.2.2 k then flSAT else 0))
        (fun k => wrap (max lo (min hi (x.2.2 k))))) ∧
    (Claim.Runs s .vsel w → Claim.Elementwise (.vsel w) s { w with mask := 0 } 0
      (fun k => if s.me.bit w.mask.toNat k = true then a k else s.me.elem w.vb.toNat w.width.toNat k))

/-- R240, R248, R249: comparisons and mask forms give the active bits of a mask register, an unordered pair making
only `vmsne` true; masks move to and from elements; `vpop` and `vfirst` reply with the count and the first of the
bits below VL, and `vbq.any` and `vbq.none` push whether there is one, or none. -/
def Obligations.VectorMasks : Prop :=
    ∀ (s : State) (w : VFields),
    let n : Nat := 8 * 2 ^ w.width.toNat
    let a (k : Nat) : Nat := s.me.elem w.va.toNat w.width.toNat k
    let b := Claim.second s w
    let sg (x : Nat) : Int := if w.fmt = 0 ∧ 2 ^ (n - 1) ≤ x then x - 2 ^ n else x
    let F := fmtOfCode w.fmt.toNat
    let A (k : Nat) : FVal := F.decode s.me.ftz (a k)
    let B (k : Nat) : FVal := F.decode s.me.ftz (Claim.secondF s w k)
    let ord (k : Nat) : Bool := !(A k).isNan && !(B k).isNan
    let lt (k : Nat) : Prop := Claim.below (A k) (B k)
    let gt (k : Nat) : Prop := Claim.below (B k) (A k)
    let p := s.me.bit w.va.toNat
    let q := s.me.bit w.vb.toNat
    let forms : List (Instr × VOp × (Nat → Bool)) := [
      (.vmseq w, .vmseq, fun k => decide (a k = b k)), (.vmsne w, .vmsne, fun k => decide (a k ≠ b k)),
      (.vmslt w, .vmslt, fun k => decide (sg (a k) < sg (b k))), (.vmsle w, .vmsle, fun k => decide (sg (a k) ≤ sg (b k))),
      (.vmsgt w, .vmsgt, fun k => decide (sg (b k) < sg (a k))), (.vmsge w, .vmsge, fun k => decide (sg (b k) ≤ sg (a k)))]
    let logic : List (Instr × VOp × (Nat → Bool)) := [
      (.vmand w, .vmand, fun k => p k && q k), (.vmor w, .vmor, fun k => p k || q k),
      (.vmxor w, .vmxor, fun k => p k != q k), (.vmandn w, .vmandn, fun k => p k && !q k),
      (.vmnot w, .vmnot, fun k => !p k), (.vmset w, .vmset, fun _ => true), (.vmclr w, .vmclr, fun _ => false),
      (.vvtom w, .vvtom, fun k => a k != 0)]
    (w.fmt.toNat ≤ 1 → ∀ x ∈ forms, Claim.Runs s x.2.1 w → Claim.Bitwise x.1 s w 0 x.2.2) ∧
    (2 ≤ w.fmt.toNat → ∀ (i : Instr) (o : VOp) (quiet unordered : Bool) (r : Nat → Prop),
      (i, o, quiet, unordered, r) ∈ [
        (Instr.vmseq w, VOp.vmseq, true, false, fun k => ¬ lt k ∧ ¬ gt k), (.vmsne w, .vmsne, true, true, fun k => lt k ∨ gt k),
        (.vmslt w, .vmslt, false, false, lt), (.vmsle w, .vmsle, false, false, fun k => ¬ gt k),
        (.vmsgt w, .vmsgt, false, false, gt), (.vmsge w, .vmsge, false, false, fun k => ¬ lt k)] →
      Claim.Runs s o w → ∃ v : Nat → Bool, (∀ k, ord k = false → v k = unordered) ∧ (∀ k, ord k = true → (v k = true ↔ r k)) ∧
        Claim.Bitwise i s w (Claim.flagsOf s w (fun k =>
          if ord k then 0 else if quiet then (A k).sig ||| (B k).sig else flNV)) v) ∧
    (∀ x ∈ logic, Claim.Runs s x.2.1 w → Claim.Bitwise x.1 s w 0 x.2.2) ∧
    (Claim.Runs s .vmtov w → Claim.Elementwise (.vmtov w) s w 0 (fun k => if p k then 1 else 0)) ∧
    (Claim.Runs s .vpop w → Claim.Replies (.vpop w) s w.vd
      (BitVec.ofNat 64 ((List.range s.me.vl).countP p))) ∧
    (Claim.Runs s .vfirst w →
      (∀ k < s.me.vl, p k = true → (∀ j < k, p j = false) → Claim.Replies (.vfirst w) s w.vd (BitVec.ofNat 64 k)) ∧
      ((∀ k < s.me.vl, p k = false) → Claim.Replies (.vfirst w) s w.vd (BitVec.allOnes 64))) ∧
    (∀ x ∈ [(Instr.vbqAny w, VOp.vbqAny, true), (.vbqNone w, .vbqNone, false)], Claim.Runs s x.2.1 w →
      let push (z : Bool) : Host.Outcome State Fault Refusal :=
        .next ((s.updMe (fun H => { H with branchQ := H.branchQ ++ [z] })).goTo (s.pc + 12))
      ((∃ k < s.me.vl, p k = true) → exec x.1 s = push x.2.2) ∧
      ((∀ k < s.me.vl, p k = false) → exec x.1 s = push !x.2.2))

/-- R250 to R255: each floating form gives every active element the exact result rounded once, as the scalar form
does; conversions convert every element under their rounding and saturation; `vcvt.mx` gives each block of 32 its
scale and codes, an excess element of an incomplete packing unit keeping its bits, and `vcvt.demx` reads them back. -/
def Obligations.VectorFloat : Prop :=
    ∀ (s : State) (w : VFields),
    let F := fmtOfCode w.fmt.toNat
    let r := s.me.rmode w.rm
    let a (k : Nat) : Nat := s.me.elem w.va.toNat w.width.toNat k
    let b := Claim.secondF s w
    let A (k : Nat) : FVal := F.decode s.me.ftz (a k)
    let B (k : Nat) : FVal := F.decode s.me.ftz (b k)
    let B' (k : Nat) : FVal := F.decode s.me.ftz (s.me.elem w.vb.toNat w.width.toNat k)
    let C (k : Nat) : FVal := F.decode s.me.ftz (s.me.elem w.vc.toNat w.width.toNat k)
    let rounded (v : FVal × Flags) : Nat × Flags :=
      ((F.round (.mode r) false s.me.ftz v.1).1, v.2 ||| (F.round (.mode r) false s.me.ftz v.1).2)
    let down := r == .rdn
    let half := 2 ^ (F.bits - 1)
    let forms : List (Instr × VOp × (Nat → Nat × Flags)) := [
      (.vfadd w, .vfadd, fun k => rounded ((A k).add down (B k))),
      (.vfsub w, .vfsub, fun k => rounded ((A k).add down (B k).neg)),
      (.vfmul w, .vfmul, fun k => rounded ((A k).mul (B k))), (.vfdiv w, .vfdiv, fun k => rounded ((A k).div (B k))),
      (.vfsqrt w, .vfsqrt, fun k => rounded (A k).sqrt),
      (.vfmin w, .vfmin, fun k => F.minmax s.me.ftz false (a k) (b k)),
      (.vfmax w, .vfmax, fun k => F.minmax s.me.ftz true (a k) (b k)),
      (.vfsgnj w, .vfsgnj, fun k => (a k % half + b k / half % 2 * half, 0)),
      (.vfsgnjn w, .vfsgnjn, fun k => (a k % half + (1 - b k / half % 2) * half, 0)),
      (.vfsgnjx w, .vfsgnjx, fun k => (a k % half + (a k / half + b k / half) % 2 * half, 0)),
      (.vfclass w, .vfclass, fun k => (F.classify (a k), 0)),
      (.vfmadd w, .vfmadd, fun k => rounded ((A k).fma down (B' k) (C k))),
      (.vfmsub w, .vfmsub, fun k => rounded ((A k).fma down (B' k) (C k).neg)),
      (.vfnmadd w, .vfnmadd, fun k => rounded ((A k).neg.fma down (B' k) (C k).neg)),
      (.vfnmsub w, .vfnmsub, fun k => rounded ((A k).neg.fma down (B' k) (C k)))]
    (∀ x ∈ forms, Claim.Runs s x.2.1 w → Claim.Elementwise x.1 s w (Claim.flagsOf s w (fun k => (x.2.2 k).2))
      (fun k => (x.2.2 k).1)) ∧
    (Claim.Runs s .vcvt w → w.fmt.toNat ≠ 16 → w.fmtB ≠ 16 → w.vd ≠ w.va →
      let one (k : Nat) : Nat × Flags := convertElem w.fmtB (widthBits w.widthB) w.fmt.toNat (widthBits w.width.toNat)
        (s.me.cvtRound w k) (w.sel.getLsbD 9) s.me.ftz (s.me.elem w.va.toNat w.widthB k)
      Claim.Elementwise (.vcvt w) s w (Claim.flagsOf s w (fun k => (one k).2)) (fun k => (one k).1)) ∧
    (Claim.Runs s .vcvt w → w.vd ≠ w.va → ∃ t, exec (.vcvt w) s = .next t ∧ Claim.Retired s t ∧
      Claim.Others s t w.vd ∧ t.mem = s.mem ∧
      (w.fmt.toNat = 16 → ∀ k < s.me.vl / 2 * 2, Claim.On s w k →
        let x := signedNat 8 (s.me.elem w.va.toNat 0 k)
        t.me.packed w.vd.toNat 4 k = ((if w.sel.getLsbD 9 then max (-8) (min 7 x) else x) % 16).toNat) ∧
      (w.fmtB = 16 → ∀ k < s.me.vl / 2 * 2, Claim.On s w k →
        t.me.elem w.vd.toNat 0 k = (signedNat 4 (s.me.packed w.va.toNat 4 k) % 256).toNat)) ∧
    (Claim.Runs s .vcvtMx w → ∃ t, exec (.vcvtMx w) s = .next t ∧ Claim.Retired s t ∧ t.mem = s.mem ∧
      t.me.m = s.me.m ∧ t.me.x = s.me.x ∧
      (∀ q < 32, q ≠ w.vd.toNat → q ≠ w.vb.toNat → t.me.getV q = s.me.getV q) ∧
      let present := packedLen (mxBits w.fmt.toNat) s.me.vl
      ∀ g, 32 * g < present →
        let v (j : Nat) : FVal := if 32 * g + j < present then
          (fmtOfCode w.fmtB).decode s.me.ftz (s.me.elem w.va.toNat w.widthB (32 * g + j)) else .num false 0 0
        let scale := mxScaleOf w.fmt.toNat ((List.range 32).map v)
        t.me.elem w.vb.toNat 0 g = scale.1 ∧
        ∀ j < 32, t.me.packed w.vd.toNat (mxBits w.fmt.toNat) (32 * g + j) =
          if present ≤ 32 * g + j ∧ 32 * g + j < s.me.vl then
            s.me.packed w.vd.toNat (mxBits w.fmt.toNat) (32 * g + j)
          else if scale.2 then 0 else (mxQuantise w.fmt.toNat scale.1 (s.me.cvtRound w (32 * g + j)) (v j)).1) ∧
    (Claim.Runs s .vcvtDemx w → w.vd ≠ w.va → w.vd ≠ w.vb → ∃ t, exec (.vcvtDemx w) s = .next t ∧
      Claim.Retired s t ∧ Claim.Others s t w.vd ∧ t.mem = s.mem ∧
      ∀ k < packedLen (mxBits w.fmtB) s.me.vl, t.me.elem w.vd.toNat w.width.toNat k =
        (F.round (s.me.cvtRound w k) false s.me.ftz (mxScaled w.fmtB (s.me.elem w.vb.toNat 0 (k / 32))
          (s.me.packed w.va.toNat (mxBits w.fmtB) k))).1)

/-- R256 to R259, R273 to R276: the permutes move elements by X[xc] or by an index; compression packs the masked
elements and expansion spreads them; reductions and scans fold the active elements of each segment onto the start
in `vb`; single elements move to and from scalar registers, and the sparse forms intersect and unite fibres. -/
def Obligations.VectorWhole : Prop :=
    ∀ (s : State) (w : VFields),
    let vl := s.me.vl
    let width := w.width.toNat
    let n : Nat := 8 * 2 ^ width
    let a (k : Nat) : Nat := s.me.elem w.va.toNat width k
    let b (k : Nat) : Nat := s.me.elem w.vb.toNat width k
    let d (k : Nat) : Nat := s.me.elem w.vd.toNat width k
    let x := (s.getX w.vc).toNat
    let on (k : Nat) : Bool := s.me.bit w.mask.toNat k
    let rank (k : Nat) : Nat := (List.range k).countP on
    let c : Ctx := ⟨0, s.me.lanes, groupElems s.me.lanes width, width, vl⟩
    let permutes : List (Instr × VOp × (Nat → Nat)) := [
      (.vslideup w, .vslideup, fun k => if x ≤ k then a (k - x) else d k),
      (.vslidedown w, .vslidedown, fun k => if k + x < vl then a (k + x) else 0),
      (.vperm w, .vperm, fun k => if b k < vl then a (b k) else 0),
      (.vbcast w, .vbcast, fun _ => if x < vl then a x else 0)]
    (∀ e ∈ permutes, Claim.Runs s e.2.1 w → Claim.Elementwise e.1 s w 0 e.2.2) ∧
    (Claim.Runs s .vcompress w → ∃ t, exec (.vcompress w) s = .next t ∧ Claim.Retired s t ∧ Claim.Others s t w.vd ∧
      t.mem = s.mem ∧ (∀ k < vl, on k = true → t.me.elem w.vd.toNat width (rank k) = a k) ∧
      (∀ k, rank vl ≤ k → k < 4 * groupElems s.me.lanes width → t.me.elem w.vd.toNat width k = d k)) ∧
    (Claim.Runs s .vexpand w → Claim.Elementwise (.vexpand w) s w 0 (fun k => a (rank k))) ∧
    (∀ e ∈ [(Instr.vredsum w, VOp.vredsum, redSum w, redTree w), (.vredmin w, .vredmin, redExtreme false w, false),
        (.vredmax w, .vredmax, redExtreme true w, false), (.vredand w, .vredand, redLogic (fun a b => a &&& b), false),
        (.vredor w, .vredor, redLogic (fun a b => a ||| b), false),
        (.vredxor w, .vredxor, redLogic (fun a b => a ^^^ b), false)],
      Claim.Runs s e.2.1 w → ∃ t, exec e.1 s = .next t ∧ Claim.Retired s t ∧ Claim.Others s t w.vd ∧ t.mem = s.mem ∧
        (w.sel.getLsbD 16 = false →
          t.me.elem w.vd.toNat width 0 = (reduceSeg (e.2.2.1 s.me) e.2.2.2 s.me w (b 0) (List.range vl)).1 ∧
          ∀ k, 1 ≤ k → k < 4 * groupElems s.me.lanes width → t.me.elem w.vd.toNat width k = d k) ∧
        (∀ j seg, (s.me.segments c w)[j]? = some seg →
          t.me.elem w.vd.toNat width j = (reduceSeg (e.2.2.1 s.me) e.2.2.2 s.me w (b j) seg).1)) ∧
    (w.fmt.toNat ≤ 1 → w.sel.getLsbD 16 = false → Claim.Runs s .vredsum w → ∃ t, exec (.vredsum w) s = .next t ∧
      t.me.elem w.vd.toNat width 0 = (b 0 + (((List.range vl).filter on).map a).sum) % 2 ^ n) ∧
    (∀ e ∈ [(Instr.vscansum w, VOp.vscansum, redSum w, redTree w), (.vscanmin w, .vscanmin, redExtreme false w, false),
        (.vscanmax w, .vscanmax, redExtreme true w, false)],
      Claim.Runs s e.2.1 w → ∃ t, exec e.1 s = .next t ∧ Claim.Retired s t ∧ Claim.Others s t w.vd ∧ t.mem = s.mem ∧
        ∀ j seg, (s.me.segments c w)[j]? = some seg → ∀ i k, seg[i]? = some k → t.me.elem w.vd.toNat width k =
          if on k then (reduceSeg (e.2.2.1 s.me) e.2.2.2 s.me w (b j) (seg.take (i + 1))).1 else d k) ∧
    (Claim.Runs s .vext w → let v := if x < vl then a x else 0
      (w.fmt.toNat ≤ 1 → Claim.Replies (.vext w) s w.vd (if w.fmt = 0 then sextNat n v else BitVec.ofNat 64 v)) ∧
      (2 ≤ w.fmt.toNat → exec (.vext w) s =
        .next ((s.setF w.vd (box (fmtOfCode w.fmt.toNat) v)).goTo (s.pc + 12)))) ∧
    (Claim.Runs s .vins w → ∃ t, exec (.vins w) s = .next t ∧ Claim.Retired s t ∧ Claim.Others s t w.vd ∧ t.mem = s.mem ∧
      ∀ k < 4 * groupElems s.me.lanes width, t.me.elem w.vd.toNat width k = if k = x ∧ k < vl then
        (if w.fmt.toNat ≤ 1 then s.getX w.va else s.getF w.va).toNat % 2 ^ n else d k) ∧
    (Claim.Runs s .vsetlf w →
      let cap := (s.getX w.vb).toNat
      let lim := if cap = 0 then s.me.vlmax width else min (s.me.vlmax width) cap
      let q := max x (min (x + lim) (a (vl - 1)))
      ∃ t, exec (.vsetlf w) s = .next t ∧ t.pc = s.pc + 12 ∧ t.me.vl = q - x ∧ t.me.v = s.me.v ∧
        t.getX (fld w.sel 10 5) = (if fld w.sel 10 5 = 0 then 0 else BitVec.ofNat 64 q) ∧
        ∀ k < q - x, t.me.bit (w.selNat 15 3) k = decide (k = 0 ∨ ∃ i < vl, a i = x + k)) ∧
    (let nb := min x (s.me.vlmax width)
     let A := (List.range vl).map a
     let B := (List.range nb).map b
     let mk := w.selNat 15 3
     (Claim.Runs s .vxint w → (∀ i j, i < j → j < vl → a i < a j) → (∀ i j, i < j → j < nb → b i < b j) →
       ∃ t, exec (.vxint w) s = .next t ∧ Claim.Retired s t ∧ t.me.x = s.me.x ∧ t.me.vl = vl ∧
         ∀ k < vl, (∀ j < nb, b j = a k → t.me.elem w.vd.toNat width k = j % 2 ^ n ∧ t.me.bit mk k = true) ∧
           ((∀ j < nb, b j ≠ a k) → t.me.elem w.vd.toNat width k = 2 ^ n - 1 ∧ t.me.bit mk k = false)) ∧
     (∀ e ∈ [(Instr.vxuni w, VOp.vxuni, false), (.vxmrg w, .vxmrg, true)], Claim.Runs s e.2.1 w →
       let out := unite e.2.2 (s.me.vlmax width) A B
       let taken := uniteTaken e.2.2 (s.me.vlmax width) A B
       ∃ t, exec e.1 s = .next t ∧ t.pc = s.pc + 12 ∧ t.me.vl = out.length ∧
         t.getX (fld w.sel 10 5) = (if fld w.sel 10 5 = 0 then 0 else BitVec.ofNat 64 (taken.2 * 2 ^ 32 + taken.1)) ∧
         (∀ k v o, out[k]? = some (v, o) → t.me.elem w.vd.toNat width k = v ∧ t.me.bit mk k = o) ∧
         (e.2.2 = true → A.length + B.length ≤ s.me.vlmax width → out.length = A.length + B.length)))

/-- R261 to R268, R271, R281, R384: a load gives each active element the bytes at its address, a store puts each
active element there, an atomic does both, and the image forms move whole registers and masks; `vldff` cuts VL at
the first element that would trap; `vwait` retires once every flag is met. The accesses are of one element group. -/
def Obligations.VectorMemory : Prop :=
    ∀ (s : State) (w : VFields) (L : Nat → Leaf) (C : Nat → Nat),
    let size : Nat := 2 ^ w.width.toNat
    let base := s.getX w.vc
    let imm : Int := (BitVec.ofNat 16 w.sel.toNat).toInt
    let idx (k : Nat) : Nat := s.me.elem w.vb.toNat (w.sel.toNat / 2 ^ 11 % 4) k * 2 ^ (w.sel.toNat / 2 ^ 13 % 8)
    let unit (k : Nat) : Word := BitVec.ofInt 64 (base.toInt + imm + k * size)
    let stride (k : Nat) : Word := BitVec.ofInt 64 (base.toInt + imm + k * (s.getX w.vb).toInt)
    let index (k : Nat) : Word := BitVec.ofNat 64 (base.toNat + idx k)
    let on := Claim.On s w
    let oneGroup (o : VOp) : Prop := Claim.Runs s o w ∧ s.me.vl ≤ groupSize s.me [⟨0, o, w⟩]
    let v (k : Nat) : Nat := Claim.vseen s (L k) (C k) size
    let a (k : Nat) : Nat := s.me.elem w.va.toNat w.width.toNat k
    (∀ e ∈ [(Instr.vld w, VOp.vld, unit), (.vldff w, .vldff, unit), (.vlds w, .vlds, stride),
        (.vgather w, .vgather, index)], oneGroup e.2.1 → Claim.NoneKept s →
      Claim.Reaches s .read size e.2.2 on L C → (∀ k, on k → s.poisoned (L k).pa size = false) →
      Claim.Loaded e.1 s w v) ∧
    (∀ f c, oneGroup .vldff → Claim.NoneKept s → 0 < f → on f → (unit f).toNat % size = 0 → c ≠ .memoryError →
      s.reach s.cur s.me.sup .read (unit f).toNat = .fault c →
      Claim.Reaches s .read size unit (fun k => on k ∧ k < f) L C →
      (∀ k, on k → k < f → s.poisoned (L k).pa size = false) →
      ∃ t, exec (.vldff w) s = .next t ∧ Claim.Retired s t ∧ t.me.vl = f ∧ t.mem = s.mem ∧
        ∀ k < f, on k → t.me.elem w.vd.toNat w.width.toNat k = v k) ∧
    (∀ e ∈ [(Instr.vst w, VOp.vst, unit), (.vsts w, .vsts, stride), (.vscatter w, .vscatter, index)], oneGroup e.2.1 →
      Claim.Reaches s .write size e.2.2 on L C → Claim.AtOnce s → Memory.wf s.mem = true →
      Claim.Stored e.1 s 0 size on L C a) ∧
    (let word (k : Nat) : Word := base + BitVec.ofNat 64 (8 * k)
     (oneGroup .vldr → Claim.NoneKept s → 0 < (s.getX w.vb).toNat → base.toNat % 64 = 0 →
       Claim.Reaches s .read 8 word (fun k => k < s.me.lanes) L C →
       (∀ k < s.me.lanes, s.poisoned (L k).pa 8 = false) →
       ∃ t, exec (.vldr w) s = .next t ∧ Claim.Retired s t ∧ Claim.Others s t w.vd ∧ t.mem = s.mem ∧
         ∀ k < s.me.lanes, laneWord (t.me.getV w.vd.toNat) k = BitVec.ofNat 64 (Claim.vseen s (L k) (C k) 8)) ∧
     (oneGroup .vstr → 0 < (s.getX w.vb).toNat → base.toNat % 64 = 0 → Claim.AtOnce s → Memory.wf s.mem = true →
       Claim.Reaches s .write 8 word (fun k => k < s.me.lanes) L C →
       Claim.Stored (.vstr w) s 0 8 (fun k => k < s.me.lanes) L C
         (fun k => (laneWord (s.me.getV w.va.toNat) k).toNat)) ∧
     (oneGroup .vldm → Claim.NoneKept s → base.toNat % 64 = 0 → Claim.Reaches s .read 8 word (fun k => k < 128) L C →
       (∀ k < 128, s.poisoned (L k).pa 8 = false) →
       ∃ t, exec (.vldm w) s = .next t ∧ Claim.Retired s t ∧ t.me.v = s.me.v ∧ t.me.x = s.me.x ∧ t.mem = s.mem ∧
         ∀ k < 128, fld (t.me.getM w.vd.toNat) (64 * k) 64 = BitVec.ofNat 64 (Claim.vseen s (L k) (C k) 8)) ∧
     (oneGroup .vstm → base.toNat % 64 = 0 → Claim.AtOnce s → Memory.wf s.mem = true →
       Claim.Reaches s .write 8 word (fun k => k < 128) L C →
       Claim.Stored (.vstm w) s 0 8 (fun k => k < 128) L C
         (fun k => (fld (s.me.getM w.va.toNat) (64 * k) 64).toNat)) ∧
     (∀ i ∈ [Instr.vldr w, .vldm w, .vstr w, .vstm w], ∀ o, (i, o) ∈ [(Instr.vldr w, VOp.vldr), (.vldm w, .vldm),
         (.vstr w, .vstr), (.vstm w, .vstm)] → oneGroup o → base.toNat % 64 ≠ 0 →
       ∃ t, exec i s = .next t ∧ t.me.csr.tcause = 6 ∧ t.me.csr.tval = base ∧ t.mem = s.mem ∧ t.me.v = s.me.v)) ∧
    (let n : Nat := 8 * size
     let sg (x : Nat) : Int := if w.fmt = 0 ∧ 2 ^ (n - 1) ≤ x then x - 2 ^ n else x
     ∀ e ∈ [(Instr.vamoswap w, VOp.vamoswap, fun (_ y : Nat) => y), (.vamoadd w, .vamoadd, fun x y => (x + y) % 2 ^ n),
         (.vamoand w, .vamoand, fun x y => x &&& y), (.vamoor w, .vamoor, fun x y => x ||| y),
         (.vamoxor w, .vamoxor, fun x y => x ^^^ y), (.vamomin w, .vamomin, fun x y => if sg y < sg x then y else x),
         (.vamomax w, .vamomax, fun x y => if sg x < sg y then y else x)],
       oneGroup e.2.1 → w.fmt.toNat ≤ 1 → Claim.Reaches s .write size index on L C → Claim.AtOnce s →
       Memory.wf s.mem = true → (∀ k, on k → s.atomicOk (L k).pa = true ∧ s.poisoned (L k).pa size = false) →
       (∀ j k, on j → on k → (L j).key = (L k).key ∧ (j ≠ k → C j + size ≤ C k ∨ C k + size ≤ C j)) →
       ∃ t, exec e.1 s = .next t ∧ Claim.Retired s t ∧ t.me.x = s.me.x ∧ t.me.m = s.me.m ∧
         ∀ k, on k → t.bytesUnder (C k) (L k).key size = bytesOf size (e.2.2 (v k) (a k)) ∧
           (w.sel.getLsbD 8 = true → t.me.elem w.vd.toNat w.width.toNat k = v k)) ∧
    (let flag (k : Nat) : Word := BitVec.ofNat 64 (s.me.elem w.va.toNat 3 k)
     let e (k : Nat) : Nat := s.me.elem w.vb.toNat w.width.toNat k
     let n : Nat := 8 * size
     let sg (x : Nat) : Int := if w.fmt = 0 ∧ 2 ^ (n - 1) ≤ x then x - 2 ^ n else x
     let met (k : Nat) : Prop := match w.sel.toNat / 2 ^ 16 with
       | 0 => v k = e k
       | 1 => v k ≠ e k
       | _ => sg (e k) ≤ sg (v k)
     oneGroup .vwait → Claim.NoneKept s → Claim.Reaches s .read size flag on L C → (∀ k, on k → s.poisoned (L k).pa size = false) →
       ((∀ k, on k → met k) → ∃ t, exec (.vwait w) s = .next t ∧ Claim.Retired s t ∧ t.me.v = s.me.v ∧
         t.me.x = s.me.x ∧ t.mem = s.mem ∧ ∀ k < s.me.vl, t.me.bit w.vd.toNat k = false) ∧
       ((∃ k, on k ∧ ¬ met k) → (base = 0 ∨ s.me.waited < base.toNat) →
         ∃ t, exec (.vwait w) s = .next t ∧ Claim.Like (s.waitIn (.vwait base)) t) ∧
       ((∃ k, on k ∧ ¬ met k) → base ≠ 0 → base.toNat ≤ s.me.waited → ∃ t, exec (.vwait w) s = .next t ∧
         Claim.Retired s t ∧ ∀ k < s.me.vl, (t.me.bit w.vd.toNat k = true ↔ on k ∧ ¬ met k)))

/-- R174 to R177, R260, R269, R278 to R280: a stream transfer takes its elements from the stream, or gives them to it,
and a load from one shortens VL to what is available; a crossing transfer sends a group of lane words to the peer, or
takes one; a window is declared, updated in its private copies, and merged into memory. That a window is told from another by
the code of its format alone, at any width, is the model's reading (log 17). -/
def Obligations.VectorTransfers : Prop :=
    ∀ (s : State) (w : VFields),
    let size : Nat := 2 ^ w.width.toNat
    let oneGroup (o : VOp) : Prop := Claim.Runs s o w ∧ s.me.vl ≤ groupSize s.me [⟨0, o, w⟩]
    let a (k : Nat) : Nat := s.me.elem w.va.toNat w.width.toNat k
    let st := s.me.stream w.vc.toNat
    let ready (dir : Bool) : Prop := st.cfg = true ∧ st.busy = false ∧ st.desc.dir = dir ∧ st.desc.esize = size
    (oneGroup .vldStrm → ready false → st.pos ≠ st.desc.count → 0 < st.avail →
      let vl := min s.me.vl st.avail
      ∃ t, exec (.vldStrm w) s = .next t ∧ Claim.Retired s t ∧ t.me.vl = vl ∧ t.me.x = s.me.x ∧ t.me.m = s.me.m ∧
        t.mem = s.mem ∧ (t.me.stream w.vc.toNat).pos = st.pos + vl ∧ (t.me.stream w.vc.toNat).buf = st.buf.drop vl ∧
        (∀ k < vl, s.me.bit w.mask.toNat k = true → t.me.elem w.vd.toNat w.width.toNat k =
          st.buf.getD k 0 % 2 ^ (8 * size))) ∧
    (oneGroup .vldStrm → ready false → st.pos ≠ st.desc.count → st.avail = 0 →
      exec (.vldStrm w) s = .next (s.waitIn (.stream w.vc.toNat))) ∧
    (oneGroup .vldStrm → ready false → st.pos = st.desc.count →
      ∃ t, exec (.vldStrm w) s = .next t ∧ t.pc = s.pc + 12 ∧ t.me.vl = 0 ∧ t.me.v = s.me.v ∧ t.mem = s.mem) ∧
    (oneGroup .vstStrm → ready true → st.pos + s.me.vl ≤ st.desc.count → st.buf.length + s.me.vl ≤ st.capacity →
      ∃ t, exec (.vstStrm w) s = .next t ∧ Claim.Retired s t ∧ t.me.v = s.me.v ∧ t.me.x = s.me.x ∧ t.mem = s.mem ∧
        (t.me.stream w.vc.toNat).pos = st.pos + s.me.vl ∧
        (t.me.stream w.vc.toNat).made = st.made ++ (List.range s.me.vl).map a) ∧
    (∀ e ∈ [(Instr.vldStrm w, VOp.vldStrm), (.vstStrm w, .vstStrm)], oneGroup e.2 → st.cfg = false →
      ∃ t, exec e.1 s = .next t ∧ t.me.csr.tcause = 0x17 ∧ t.me.csr.tval = w.vc.setWidth 64 ∧ t.me.v = s.me.v) ∧
    (let k := w.sel.toNat / 2 ^ 16
     ∀ p : Port, s.me.ports[k]? = some p → p.isOpen = true →
      (oneGroup .vxsend → ∀ q, (s.hart p.peer).ports[p.peerPort]? = some q → p.peer ≠ s.cur →
        (q.items.length + q.flight.length < 65536 / (8 * s.me.lanes) →
          ∃ t, exec (.vxsend w) s = .next t ∧ Claim.Retired s t ∧ t.me.v = s.me.v ∧ t.me.x = s.me.x ∧ t.mem = s.mem ∧
            (t.hart p.peer).ports[p.peerPort]? = some { q with flight := q.flight ++
              [.group ((List.range s.me.lanes).map (fun l => laneWord (s.me.getV w.va.toNat) l))] }) ∧
        (65536 / (8 * s.me.lanes) ≤ q.items.length + q.flight.length →
          exec (.vxsend w) s = .next (s.waitIn (.crossSend k)))) ∧
      (oneGroup .vxrecv → ∀ ws rest q, p.items = .group ws :: rest → ws.length = s.me.lanes →
        (s.hart p.peer).ports[p.peerPort]? = some q → q.entry = p.entry →
        ∃ t, exec (.vxrecv w) s = .next t ∧ Claim.Retired s t ∧ Claim.Others s t w.vd ∧ t.mem = s.mem ∧
          t.me.ports[k]? = some { p with items := rest } ∧
          (s.me.vl = groupElems s.me.lanes w.width.toNat → ∀ l < s.me.lanes,
            laneWord (t.me.getV w.vd.toNat) l = ws.getD l 0)) ∧
      (oneGroup .vxrecv → p.items = [] → exec (.vxrecv w) s = .next (s.waitIn (.crossRecv k)))) ∧
    (∀ e ∈ [(Instr.vxsend w, VOp.vxsend), (.vxrecv w, .vxrecv)], oneGroup e.2 →
      (∀ p, s.me.ports[w.sel.toNat / 2 ^ 16]? = some p → p.isOpen = false) →
      ∃ t, exec e.1 s = .next t ∧ t.me.csr.tcause = 0x15 ∧ t.me.csr.tval = BitVec.ofNat 64 (w.sel.toNat / 2 ^ 16)) ∧
    (let x := s.me.window w
     let base := s.getX w.vc
     let count := (s.getX w.vb).toNat
     let priv := s.getX w.va
     let bytes := s.me.lanes * count * 8
     (∀ e ∈ [(Instr.accwinSum w, VOp.accwinSum, WinOp.sum), (.accwinMin w, .accwinMin, .min),
         (.accwinMax w, .accwinMax, .max)], Claim.Runs s e.2.1 w →
       (base.toNat % size = 0 → 1 ≤ count → count ≤ 65536 → priv.toNat % 64 = 0 →
         ∀ ps, s.privPages priv.toNat (priv.toNat + bytes) (bytes / 4096 + 2) = some ps →
         ∃ t, exec e.1 s = .next t ∧ Claim.Retired s t ∧ t.me.v = s.me.v ∧ t.me.x = s.me.x ∧ t.mem = s.mem ∧
           t.me.window w = ⟨true, e.2.2, w.fmt, base, count, priv, s.me.sup⟩ ∧
           (∀ pa, t.isFull pa = true ↔ s.isFull pa = true ∧ ¬ ∃ p ∈ ps, p.1 / 8 ≤ pa / 8 ∧ pa / 8 < (p.1 + p.2) / 8)) ∧
       (priv.toNat % 64 ≠ 0 → ∃ t, exec e.1 s = .next t ∧ t.me.csr.tcause = 0x1F ∧ t.me.csr.tval = priv)) ∧
     (∀ (l : Leaf) (c : Nat), oneGroup .vacc → x.on = true → x.fmt = w.fmt → s.me.vl = 1 →
       s.me.bit w.mask.toNat 0 = true → Claim.AtOnce s → Memory.wf s.mem = true →
       let j := s.me.elem w.vb.toNat (w.sel.toNat / 2 ^ 11 % 4) 0
       j < x.count → s.reach s.cur x.sup .write (x.priv + BitVec.ofNat 64 (8 * j)).toNat = .to l c → l.pa = c →
       ∃ t, exec (.vacc w) s = .next t ∧ Claim.Retired s t ∧ t.me.v = s.me.v ∧ t.me.x = s.me.x ∧ t.isFull l.pa = true ∧
         t.bytesUnder c l.key size = bytesOf size (if s.isFull l.pa then
           (s.me.winStep w x (natOf (s.bytesUnder c l.key size)) (a 0)).1 else a 0)) ∧
     (∀ k, oneGroup .vacc → x.on = true → x.fmt = w.fmt → Claim.On s w k →
       (∀ j < k, s.me.bit w.mask.toNat j = false) →
       x.count ≤ s.me.elem w.vb.toNat (w.sel.toNat / 2 ^ 11 % 4) k → ∃ t, exec (.vacc w) s = .next t ∧
         t.me.csr.tcause = 0x20 ∧
         t.me.csr.tval = BitVec.ofNat 64 (s.me.elem w.vb.toNat (w.sel.toNat / 2 ^ 11 % 4) k) ∧ t.mem = s.mem) ∧
     (∀ (l : Leaf) (c : Nat) (L : Nat → Leaf) (C : Nat → Nat), Claim.Runs s .accmerge w → x.on = true → x.fmt = w.fmt →
       x.count = 1 → Claim.AtOnce s → Memory.wf s.mem = true → x.base.toNat % size = 0 →
       x.base.toNat % 4096 + size ≤ 4096 →
       s.reach s.cur x.sup .write x.base.toNat = .to l c → Claim.LineFree s l true → s.atomicOk l.pa = true →
       s.poisoned l.pa size = false →
       (∀ i < s.me.lanes, s.reach s.cur x.sup .write (x.priv + BitVec.ofNat 64 (8 * i)).toNat = .to (L i) (C i)) →
       ∃ t, exec (.accmerge w) s = .next t ∧ Claim.Retired s t ∧ t.me.v = s.me.v ∧ t.me.x = s.me.x ∧
         (∀ i < s.me.lanes, t.isFull (L i).pa = false) ∧
         t.bytesUnder c l.key size = bytesOf size ((List.range s.me.lanes).foldl (fun (acc : Nat) i =>
           if s.isFull (L i).pa then (s.me.winStep w x acc (natOf (s.bytesUnder (C i) (L i).key size))).1 else acc)
             (natOf (s.bytesUnder c l.key size)))) ∧
     (∀ e ∈ [(Instr.vacc w, VOp.vacc), (.accmerge w, .accmerge)], Claim.Runs s e.2 w →
       (x.on = false ∨ x.fmt ≠ w.fmt) → ∃ t, exec e.1 s = .next t ∧ t.me.csr.tcause = 0x1F ∧
         t.me.csr.tval = BitVec.ofNat 64 (w.sel.toNat / 2 ^ 9 % 4) ∧ t.mem = s.mem))

/-! ### Matrix mode and the fabric -/

/-- R99, R100, R290 to R300, R303 to R306: the multiply-accumulate forms add the products of the entries at the heads
of their rings to each accumulator of the region and advance the heads unless told to keep them; zeroing, storing and
exchanging act on the whole region; `msound` writes the record of a tile, and `mcheck` lists the neurons to replay. -/
def Obligations.MatrixForms : Prop :=
    ∀ (s : State) (w : VFields),
    let H := s.me
    let M := H.shapeM
    let N := H.shapeN
    let K := H.shapeK
    let inRegion (m n : Nat) : Prop := m < M ∧ n < N
    let fa := w.fmt.toNat
    let fb := w.fmtB
    let ea (A : List Byte) (m k : Nat) : Nat := operandElem A fa K m k
    let eb (B : List Byte) (n k : Nat) : Nat := operandElem B fb K n k
    let port := H.port H.pairPort
    let popped (t : State) (q : BitVec 5) (keep : Bool) : Prop :=
      (t.me.ring (BitVec.ofNat 3 q.toNat)).head = (H.ring (BitVec.ofNat 3 q.toNat)).head + (if keep then 0 else 1)
    M ≤ 128 → N ≤ 2 * H.lanes → 0 < M → 0 < N → 0 < K →
    (∀ (A B : List Byte), Claim.NoneKept s → Claim.Entry s w.vb.toNat (operandBytes fb N K) B →
      (w.sel.getLsbD 7 = false ∨ (H.paired = true ∧ H.primary = true ∧ port.peer ≠ s.cur ∧
        s.crossLoad port + A.length ≤ 65536) → Claim.Entry s w.va.toNat (operandBytes fa M K) A) →
      (w.sel.getLsbD 7 = true → H.paired = true ∧ (H.primary = true → port.peer ≠ s.cur ∧
        s.crossLoad port + A.length ≤ 65536) ∧
        (H.primary = false → ∃ rest, port.items = .entryA M K w.fmt A :: rest)) →
      (∀ e ∈ [(Instr.mmaInt w, VOp.mmaInt), (.mtern w, .mtern)], Claim.Issues s e.2 w →
        ∃ t, exec e.1 s = .next t ∧ Claim.Retired s t ∧ t.me.x = H.x ∧ t.me.f = H.f ∧ t.me.m = H.m ∧ t.mem = s.mem ∧
          popped t w.vb (w.sel.getLsbD 8) ∧
          (w.sel.getLsbD 7 = false ∨ H.primary = true → popped t w.va (w.sel.getLsbD 9)) ∧
          (∀ m n, m < 128 → n < 2 * H.lanes →
            (inRegion m n → t.me.acc m n = (((H.acc m n : Int) + ((List.range K).map (fun k =>
              (operandInt fa (ea A m k)).1 * (operandInt fb (eb B n k)).1)).sum) % 2 ^ 32).toNat) ∧
            (¬ inRegion m n → t.me.acc m n = H.acc m n)) ∧
          (w.sel.getLsbD 7 = true → H.primary = true → ∀ q, (s.hart port.peer).ports[port.peerPort]? = some q →
            H.ports[H.pairPort]? = some port →
            (t.hart port.peer).ports[port.peerPort]? = some { q with flight := q.flight ++ [.entryA M K w.fmt A] })) ∧
      (Claim.Issues s .mma w → ∃ t, exec (.mma w) s = .next t ∧ Claim.Retired s t ∧ t.me.x = H.x ∧ t.me.f = H.f ∧
        t.me.m = H.m ∧ t.mem = s.mem ∧ popped t w.vb (w.sel.getLsbD 8) ∧
        (w.sel.getLsbD 7 = false ∨ H.primary = true → popped t w.va (w.sel.getLsbD 9)) ∧
        (∀ m n, m < 128 → n < 2 * H.lanes →
          (inRegion m n → t.me.acc m n = (mmaCell (fun k => mmaForm.mxValueOf fa (ea A m k))
            (fun k => mmaForm.mxValueOf fb (eb B n k)) (fun g => operandScale A fa M K m g)
            (fun g => operandScale B fb N K n g) (H.acc m n) (List.range (K / 32))).1) ∧
          (¬ inRegion m n → t.me.acc m n = H.acc m n)))) ∧
    (∀ q ∈ [w.va, w.vb], (H.ring (BitVec.ofNat 3 q.toNat)).on = true → (H.ring (BitVec.ofNat 3 q.toNat)).occ = 0 →
      w.sel.getLsbD 7 = false → Claim.Issues s .mtern w → (∃ A, q = w.va ∨ Claim.Entry s w.va.toNat (operandBytes fa M K) A) →
      operandBytes (if q = w.va then fa else fb) (if q = w.va then M else N) K ≤ (H.ring (BitVec.ofNat 3 q.toNat)).size →
      exec (.mtern w) s = .next (s.waitIn (.ring q.toNat false))) ∧
    (Claim.Issues s .mzero w → ∃ t, exec (.mzero w) s = .next t ∧ Claim.Retired s t ∧ t.me.x = H.x ∧ t.mem = s.mem ∧
      ∀ m n, m < 128 → n < 2 * H.lanes → (inRegion m n → t.me.acc m n = 0) ∧ (¬ inRegion m n → t.me.acc m n = H.acc m n)) ∧
    (let size : Nat := 2 ^ w.width.toNat
     let T := fmtF32.decode false (unbox fmtF32 (H.getF w.va))
     let addr (i : Nat) : Word :=
       H.getX w.vc + BitVec.ofNat 64 (i / N) * H.getX w.vb + BitVec.ofNat 64 (i % N * size)
     let v (i : Nat) : Nat × Flags := mstValue H w T (H.acc (i / N) (i % N))
     ∀ L C, Claim.Issues s .mst w → Claim.Reaches s .write size addr (fun i => i < M * N) L C → Claim.AtOnce s →
       Memory.wf s.mem = true →
       (w.sel.getLsbD 7 = false → Claim.Stored (.mst w) s ((List.range (M * N)).foldl (fun f i => f ||| (v i).2) 0)
         size (fun i => i < M * N) L C (fun i => (v i).1)) ∧
       (w.sel.getLsbD 7 = true → ∃ t, exec (.mst w) s = .next t ∧ Claim.Retired s t ∧
         ∀ m n, inRegion m n → t.me.acc m n = 0)) ∧
    (let P := s.hart port.peer
     let q := P.port port.peerPort
     let add := w.sel.getLsbD 8
     Claim.Issues s .mxchg w → H.paired = true → port.peer ≠ s.cur → port.items = [] →
       ((∀ add' fmt' rm', P.wait ≠ .mxchg add' fmt' rm') →
         exec (.mxchg w) s = .next (s.waitIn (.mxchg add w.fmt w.rm))) ∧
       (∀ rm', P.wait = .mxchg add w.fmt rm' → P.run = .waiting → port.flight = [] → q.items = [] → q.flight = [] →
         P.shapeM = M → P.shapeN = N → P.lanes = H.lanes →
         ∃ t, exec (.mxchg w) s = .next t ∧ Claim.Retired s t ∧ t.mem = s.mem ∧
           (t.hart port.peer).pc = P.pc + 12 ∧ (t.hart port.peer).run = .running ∧
           let sum (r : RMode) (a b : Nat) : Nat := (fmtF32.round (.mode r) false false
             ((fmtF32.decode false a).add (r == .rdn) (fmtF32.decode false b)).1).1
           ∀ m n, inRegion m n →
             (add = false → t.me.acc m n = P.acc m n ∧ (t.hart port.peer).acc m n = H.acc m n) ∧
             (add = true → w.fmt ≠ 0 → t.me.acc m n = sum (H.rmode w.rm) (H.acc m n) (P.acc m n) ∧
               (t.hart port.peer).acc m n = sum (P.rmode rm') (P.acc m n) (H.acc m n)) ∧
             (add = true → w.fmt = 0 → t.me.acc m n = (H.acc m n + P.acc m n) % 2 ^ 32 ∧
               (t.hart port.peer).acc m n = (H.acc m n + P.acc m n) % 2 ^ 32)) ∧
       (∀ add' fmt' rm', P.wait = .mxchg add' fmt' rm' → P.run = .waiting → port.flight = [] → q.items = [] →
         q.flight = [] → ¬ (P.shapeM = M ∧ P.shapeN = N ∧ add' = add ∧ fmt' = w.fmt) →
         ∃ t, exec (.mxchg w) s = .next t ∧ t.me.csr.tcause = Cause.matrixShape.code ∧ t.me.csr.tval = 0 ∧
           (t.hart port.peer).csr.tcause = Cause.matrixShape.code ∧ (t.hart port.peer).csr.tval = 0 ∧ t.mem = s.mem ∧
           ∀ m n, t.me.acc m n = H.acc m n ∧ (t.hart port.peer).acc m n = P.acc m n)) ∧
    (let rec_ := H.getX w.vc
     let dot (A B : List Byte) (m n : Nat) : Int := ((List.range K).map (fun k =>
       (operandInt 0 (operandElem A 0 K m k)).1 * (operandInt 14 (operandElem B 14 K n k)).1)).sum
     ∀ (L : Nat → Leaf) (c key : Nat), Claim.AtOnce s → Memory.wf s.mem = true →
       Claim.Reaches s .write 4 (fun k => rec_ + BitVec.ofNat 64 (4 * k)) (fun k => k < 1168) L (fun k => c + 4 * k) →
       (∀ k < 1168, (L k).key = key) → recordCheck rec_ s.openGroup s = .ok ((), s.openGroup) s →
       let word (t : State) (k : Nat) : Nat := natOf (t.bytesUnder (c + 4 * k) key 4)
       (∀ A B, Claim.Issues s .msound w → Claim.Entry s w.va.toNat (operandBytes 0 M K) A →
         Claim.Entry s w.vb.toNat (operandBytes 14 N K) B →
         let threshold := signedNat 32 (H.csr.soundt.toNat % 2 ^ 32)
         let active := (List.range N).filter (fun n => (List.range M).any (fun m =>
           decide (threshold < signedNat 32 (dot A B m n % 2 ^ 32).toNat)))
         ∃ t, exec (.msound w) s = .next t ∧ Claim.Retired s t ∧ t.me.x = H.x ∧
           popped t w.va (w.sel.getLsbD 9) ∧ popped t w.vb (w.sel.getLsbD 8) ∧
           (∀ m n, inRegion m n → t.me.acc m n = (dot A B m n % 2 ^ 32).toNat) ∧
           word t 0 = active.length ∧ word t 1 = 0 ∧ word t 2 = M + 65536 * N ∧
           (∀ m < M, word t (16 + m) = ((List.range K).map (fun k =>
             (operandInt 0 (operandElem A 0 K m k)).1.natAbs)).sum) ∧
           (∀ k n, active[k]? = some n → word t (144 + k) = n)) ∧
       (∀ (T : Nat → Leaf) (ct : Nat), Claim.Issues s .mcheck w → (H.getX w.va).toNat % 64 = 0 →
         Claim.Reaches s .read 4 (fun k => rec_ + BitVec.ofNat 64 (4 * k)) (fun k => k < 1168) L (fun k => c + 4 * k) →
         (∀ k < 1168, s.poisoned (L k).pa 4 = false) →
         Claim.Reaches s .read 4 (fun k => H.getX w.va + BitVec.ofNat 64 (4 * k)) (fun k => k < 16 + 4 * N) T
           (fun k => ct + 4 * k) →
         (∀ k < 16 + 4 * N, s.poisoned (T k).pa 4 = false) → word s 2 = M + 65536 * N →
         let f (k : Nat) : FVal := fmtF32.decode false (natOf (s.bytesUnder (ct + 4 * k) (T k).key 4))
         let limit := fmtF32.decode false (H.csr.sounde.toNat % 2 ^ 32)
         let active := (List.range (min (word s 0) N)).map (fun k => word s (144 + k))
         (limit.finite = true ∧ limit.below0 = false ∧ (f 0).finite = true ∧ (f 0).below0 = false ∧
           ∀ n < N, (f (16 + 4 * n)).finite = true ∧ (f (17 + 4 * n)).finite = true ∧ (f (17 + 4 * n)).below0 = false ∧
             (f (18 + 4 * n)).finite = true ∧ (f (18 + 4 * n)).below0 = false) →
         let replay := (List.range N).filter (fun n => !active.contains n && (List.range M).any (fun m =>
           limit.cmp (soundBound (f 0) (f (16 + 4 * n)) (f (17 + 4 * n)) (f (18 + 4 * n)) (H.acc m n) (word s (16 + m))) ==
             some .lt))
         ∃ t, exec (.mcheck w) s = .next t ∧ Claim.Retired s t ∧ t.me.v = H.v ∧ t.me.x = H.x ∧ t.me.csr = H.csr ∧
           word t 1 = replay.length ∧ (∀ k n, replay[k]? = some n → word t (656 + k) = n)))

/-- R324, R328 to R332: `fload` stages a page set whose images pass the checks and traps with the page and reason of
the first that fails; `fgo` makes the staged set active, and waits for the region to be quiescent; `fdrain` waits
likewise and moves the region's flags to FSTAT; `fstat` replies with the status, and `frel` discards the sets, where there
is one. That QUIET is 0 without an active set is the model's reading (log 18). -/
def Obligations.FabricForms : Prop :=
    ∀ (s : State) (w : VFields),
    let H := s.me
    let va := H.getX w.vc
    let gone : Word := s.pc + 12
    (∀ (L : Nat → Leaf) (C : Nat → Nat) (n : Nat), Claim.Issues s .fload w → Claim.NoneKept s → va.toNat % 4096 = 0 → 1 ≤ n → n ≤ 16 →
      Claim.Reaches s .read 8 (fun k => va + BitVec.ofNat 64 (8 * k)) (fun k => k < 512 * n) L C →
      (∀ k < 512 * n, s.poisoned (L k).pa 8 = false) →
      let image (p : Nat) : List Byte := (List.range 512).flatMap (fun k =>
        bytesOf 8 (Claim.vseen s (L (512 * p + k)) (C (512 * p + k)) 8))
      leAt (image 0) 3 1 = n →
      let images := (List.range n).map image
      (pageFault images = none → ∃ t, exec (.fload w) s = .next t ∧ Claim.Like ((s.updMe (fun H => { H with
        fabric := { H.fabric with staged := some (pageSetOf images) } })).goTo gone) t) ∧
      (∀ r p, pageFault images = some (r, p) → ∃ t, exec (.fload w) s = .next t ∧ t.me.csr.tcause = 0x21 ∧
        t.me.csr.tval = BitVec.ofNat 64 (p * 256 + r) ∧ t.me.fabric = H.fabric)) ∧
    (Claim.Issues s .fload w → va.toNat % 4096 ≠ 0 → ∃ t, exec (.fload w) s = .next t ∧ t.me.csr.tcause = 6 ∧
      t.me.csr.tval = va ∧ t.me.fabric = H.fabric) ∧
    (Claim.Issues s .fgo w → H.fabric.staged = none → ∃ t, exec (.fgo w) s = .next t ∧ t.me.csr.tcause = 0x22 ∧
      t.me.fabric = H.fabric) ∧
    (∀ P, Claim.Issues s .fgo w → H.fabric.staged = some P →
      let fits := 16 * P.pages.length ≤ H.lanes ∧ P.qin &&& ~~~H.fabric.inMask = 0 ∧ P.qout &&& ~~~H.fabric.outMask = 0
      (fits → H.quiet = true → ∃ t a, exec (.fgo w) s = .next t ∧ Claim.Retired s t ∧ t.me.x = H.x ∧
        t.mem = (s.release s.cur false H.vscope).mem ∧ t.me.fabric.staged = none ∧ t.me.fabric.active = some a ∧ a.set = P ∧
        a.startPc = s.pc ∧ a.chain = 0 ∧ a.stage = .start ∧ a.unitPos = [] ∧ (∀ g ∈ t.me.fabric.heldTokens, g ≠ P.tag)) ∧
      (fits → H.quiet = false → exec (.fgo w) s = .next (s.waitIn .other)) ∧
      (¬ fits → ∃ t, exec (.fgo w) s = .next t ∧ t.me.csr.tcause = 0x21 ∧ t.me.csr.tval = 0xFF0B ∧
        t.me.fabric = H.fabric)) ∧
    (Claim.Issues s .fgoResume w → exec (.fgoResume w) s = .next ((s.updMe (fun H => { H with
      fabric := { H.fabric with fault := false } })).goTo gone)) ∧
    (Claim.Issues s .fdrain w →
      (H.quiet = true → H.fabric.fault = false → exec (.fdrain w) s = .next ((s.updMe (fun H =>
        { H.raise H.fabric.flags with fabric := { H.fabric with flags := 0 } })).goTo gone)) ∧
      ((H.quiet = false ∨ H.fabric.fault = true) → exec (.fdrain w) s = .next (s.waitIn .other))) ∧
    (Claim.Issues s .fstat w → ∃ v : Word, Claim.Replies (.fstat w) s w.vd v ∧
      v.getLsbD 3 = (H.fabric.active.isSome && H.quiet) ∧ v.getLsbD 4 = H.fabric.active.isSome ∧ v.getLsbD 5 = H.fabric.staged.isSome ∧
      v.getLsbD 6 = H.fabric.fault ∧ v.getLsbD 7 = decide (H.fabric.heldTokens ≠ []) ∧ v.getLsbD 8 = H.fabric.stale ∧
      fld v 9 7 = H.fabric.flags ∧ fld v 0 3 = 0 ∧ fld v 40 24 = 0 ∧
      (∀ a, H.fabric.active = some a → a.ifc < 65536 → (fld v 24 16).toNat = a.ifc)) ∧
    (Claim.Issues s .frel w →
      (H.fabric.staged = none → H.fabric.active = none → exec (.frel w) s = .next (s.goTo gone)) ∧
      (H.fabric.fault = false → (∃ a, H.fabric.active = some a ∧ a.busy = true) →
        exec (.frel w) s = .next (s.waitIn .other))) ∧
    (Claim.Issues s .frel w → (H.fabric.staged ≠ none ∨ H.fabric.active ≠ none) →
      (H.fabric.fault = true ∨ ∀ a, H.fabric.active = some a → a.busy = false) → ∃ t, exec (.frel w) s = .next t ∧ Claim.Retired s t ∧ t.me.x = H.x ∧ t.me.v = H.v ∧
      t.mem = s.mem ∧ t.me.fabric.staged = none ∧ t.me.fabric.active = none ∧ t.me.fabric.heldTokens = [] ∧
      t.me.fabric.queues = H.fabric.queues ∧ t.me.fabric.flags = H.fabric.flags ∧ t.me.fabric.stale = false ∧
      ∀ G r, s.gangOf s.cur = some (G, r) → (t.gang? G.id).map (fun K => K.fc) = some (G.fc -
        (H.fabric.heldTokens.length + (match H.fabric.active with
          | some a => a.control.countP (fun b => b)
          | none => 0))))

/-- R309, R313 to R316: a unit whose next instruction has its tokens and room fires: it takes one token of each port
it reads and puts the result, in the width of the instruction, in its register or on its output, and goes on to its
next instruction. -/
def Obligations.UnitFirings : Prop :=
    ∀ (s : State) (a : ActiveSet) (u : UFields) (o : UOp),
    let page := s.focus.1
    let slot := s.focus.2
    let prog := (a.set.unit page slot).prog
    let pos := a.pos page slot
    let blk := (assoc a.blocks (page, slot, pos)).getD ⟨[], 0⟩
    let src (k : BitVec 5) : Word :=
      if k.toNat ≤ 7 then (a.tokens (endpoint 0 page slot k.toNat)).headD 0
      else if k.toNat ≤ 15 then s.me.kReg page slot (k.toNat - 8)
      else if k.toNat = 17 then (a.set.unit page slot).const else 0
    let n : Nat := 8 * 2 ^ u.w.toNat
    let x := (src u.a).toNat % 2 ^ n
    let y := (src u.b).toNat % 2 ^ n
    let z := (s.me.kReg page slot (u.d.toNat - 8)).toNat % 2 ^ n
    let sg (v : Nat) : Int := if u.fmt = 0 ∧ 2 ^ (n - 1) ≤ v then v - 2 ^ n else v
    let wrap (v : Int) : Nat := (v % 2 ^ n).toNat
    let one (p : Prop) [Decidable p] : Nat := if p then 1 else 0
    let F := fmtOfCode u.fmt.toNat
    let r := a.rmode u.rm
    let X := F.decode a.ftz x
    let Y := F.decode a.ftz y
    let rnd (v : FVal × Flags) : Nat := (F.round (.mode r) false a.ftz v.1).1
    let ints : List (Instr × UOp × Nat) := [
      (.unitMov u, .mov, x), (.unitAdd u, .add, wrap (x + y)), (.unitSub u, .sub, wrap (x - y)),
      (.unitMul u, .mul, wrap (x * y)), (.unitMin u, .min, wrap (min (sg x) (sg y))),
      (.unitMax u, .max, wrap (max (sg x) (sg y))), (.unitAnd u, .and, x &&& y), (.unitOr u, .or, x ||| y),
      (.unitXor u, .xor, x ^^^ y), (.unitShl u, .shl, wrap (x * 2 ^ (y % n))),
      (.unitShr u, .shr, wrap (sg x / 2 ^ (y % n))), (.unitSeq u, .seq, one (x = y)),
      (.unitSlt u, .slt, one (sg x < sg y)), (.unitSle u, .sle, one (sg x ≤ sg y))]
    let floats : List (Instr × UOp × Nat) := [
      (.unitFadd u, .fadd, rnd (X.add (r == .rdn) Y)), (.unitFsub u, .fsub, rnd (X.add (r == .rdn) Y.neg)),
      (.unitFmul u, .fmul, rnd (X.mul Y)), (.unitFmac u, .fmac, rnd (X.fma (r == .rdn) Y (F.decode a.ftz z))),
      (.unitFmin u, .fmin, (F.minmax a.ftz false x y).1), (.unitFmax u, .fmax, (F.minmax a.ftz true x y).1)]
    let full := blk.vals ++ [x]
    let quants : List (Instr × UOp × Nat) :=
      (if full.length = 32 then
        [(.unitBamax u, .bamax, (mxScaleOf u.fmt.toNat (full.map (fun v => fmtF32.decode a.ftz v))).1)] else []) ++
      (if blk.vals = [] ∧ (src u.b).toNat % 256 ≠ 255 then
        [(.unitQcvt u, .qcvt, (mxQuantise u.fmt.toNat ((src u.b).toNat % 256) (.mode r) (fmtF32.decode a.ftz x)).1)] else [])
    let takes := (unitInputs o u).map (fun p => endpoint 0 page slot p)
    let next (b : ActiveSet) : Prop := b.pos page slot = (pos + 1) % prog.length
    Claim.Still s a → o.fieldsOk u = true → prog[pos]? = some (encodeUnit o u) →
    (∀ e ∈ takes, a.tokens e ≠ []) →
    (∀ (i : Instr) (v : Nat), (i, o, v) ∈ ints ++ floats ++ quants →
      let value : Word := if o.kind = .int ∧ u.fmt = 0 then sextNat n v else BitVec.ofNat 64 v
      (u.d.toNat ≤ 7 → Claim.Free a (endpoint 0 page slot u.d.toNat) →
        Claim.Fires i s a takes (some (endpoint 0 page slot u.d.toNat, value)) (fun t b => next b ∧ t.mem = s.mem)) ∧
      (8 ≤ u.d.toNat → u.d.toNat ≤ 15 → page < 16 → slot < 16 → Claim.Fires i s a takes none (fun t b => next b ∧
        t.mem = s.mem ∧ t.me.kReg page slot (u.d.toNat - 8) = value ∧
        ∀ p q j, p < 16 → q < 16 → j < 8 → (p, q, j) ≠ (page, slot, u.d.toNat - 8) → t.me.kReg p q j = s.me.kReg p q j)) ∧
      (u.d = 31 → Claim.Fires i s a takes none (fun t b => next b ∧ t.mem = s.mem ∧ t.me.v = s.me.v))) ∧
    (o = .bamax → full.length < 32 → Claim.Fires (.unitBamax u) s a takes none (fun t b => next b ∧ t.me.v = s.me.v ∧
      assoc b.blocks (page, slot, pos) = some ⟨full, 0⟩))

/-- R317, R320, R321, R325, R326: each router operator passes on the token that its decider chooses; the memory chain
makes its next access when its tokens are there, and stops the region at one that faults; a halted hart's makes none
(R440). A control token that arrives enters the active set of its tag, and the link of the control port as one token of
value 1; it is held for the staged set of its tag, or discarded. A page moves to a free cluster. That a control token
without a link is consumed, and what a page move keeps (the name of the cluster, and the cluster left for the blocked
candidate), is the model's reading (log 18). -/
def Obligations.OperatorFirings : Prop :=
    ∀ (s : State) (a : ActiveSet) (page slot : Nat),
    let at_ (p : Nat) : BitVec 16 := endpoint 1 page slot p
    let loop := assoc a.loops (page, slot)
    Claim.Still s a →
    (∀ (x y z : Word), (a.tokens (at_ 0)).head? = some x →
      (a.set.operator page slot = 1 → (a.tokens (at_ 1)).head? = some y → Claim.Free a (at_ (if x ≠ 0 then 4 else 5)) →
        Claim.Fires (.steerFire page slot) s a [at_ 0, at_ 1] (some (at_ (if x ≠ 0 then 4 else 5), y)) (fun t _ => t.mem = s.mem)) ∧
      (a.set.operator page slot = 2 → loop.isSome = true → Claim.Free a (at_ 4) →
        (x ≠ 0 → (a.tokens (at_ 2)).head? = some z →
          Claim.Fires (.carryFire page slot) s a [at_ 0, at_ 2] (some (at_ 4, z)) (fun _ b => (assoc b.loops (page, slot)).isSome = true)) ∧
        (x = 0 → Claim.Fires (.carryFire page slot) s a [at_ 0] none (fun _ b => assoc b.loops (page, slot) = none))) ∧
      (a.set.operator page slot = 3 → ∀ v, loop = some (some v) → Claim.Free a (at_ 4) →
        (x ≠ 0 → Claim.Fires (.invariantFire page slot) s a [at_ 0] (some (at_ 4, v)) (fun _ b => assoc b.loops (page, slot) = some (some v))) ∧
        (x = 0 → Claim.Fires (.invariantFire page slot) s a [at_ 0] none (fun _ b => assoc b.loops (page, slot) = none))) ∧
      (a.set.operator page slot = 4 → Claim.Free a (at_ 4) →
        (x ≠ 0 → (a.tokens (at_ 1)).head? = some y →
          Claim.Fires (.mergeFire page slot) s a [at_ 0, at_ 1] (some (at_ 4, y)) (fun t _ => t.mem = s.mem)) ∧
        (x = 0 → (a.tokens (at_ 2)).head? = some z →
          Claim.Fires (.mergeFire page slot) s a [at_ 0, at_ 2] (some (at_ 4, z)) (fun t _ => t.mem = s.mem)))) ∧
    (∀ y, (a.tokens (at_ 1)).head? = some y → loop = none → Claim.Free a (at_ 4) →
      (a.set.operator page slot = 2 → Claim.Fires (.carryFire page slot) s a [at_ 1] (some (at_ 4, y)) (fun _ b => assoc b.loops (page, slot) = some none)) ∧
      (a.set.operator page slot = 3 → Claim.Fires (.invariantFire page slot) s a [at_ 1] (some (at_ 4, y)) (fun _ b => assoc b.loops (page, slot) = some (some y)))) ∧
    (s.me.run = .halted → exec .fabricLoad s = .next s ∧ exec .fabricStore s = .next s) ∧
    (∀ (m : MemOp) (va x : Word), a.nextOp = some (page, slot, m) → a.stage = .start → s.me.run ≠ .halted →
      let port (p : Nat) : BitVec 16 := endpoint 3 page slot p
      let size : Nat := 2 ^ (m.sz.toNat % 4)
      let go := m.hasPred = false ∨ ∃ p, (a.tokens (port 0)).head? = some p ∧ p ≠ 0
      let pre := if m.hasPred then [port 0] else []
      let step (b : ActiveSet) : Prop := b.chain = (a.chain + 1) % max 1 a.set.chain.length
      (m.hasPred = true → (a.tokens (port 0)).head? = some 0 →
        (m.kind = 1 → Claim.Fires .fabricLoad s a [port 0] none (fun t b => t.mem = s.mem ∧ step b)) ∧
        (m.kind = 2 → Claim.Fires .fabricStore s a [port 0] none (fun t b => t.mem = s.mem ∧ step b))) ∧
      (go → (a.tokens (port 1)).head? = some va → ∀ (l : Leaf) (c : Nat), va.toNat % size = 0 →
        let met (write : Bool) : Prop := s.peerWaits l.pa = false ∧ s.dirAt (l.pa / 128) = none ∧
          s.meetInTurn (.region s.cur) (.hart s.cur) [l.pa / 128] l.key write = (s, .served)
        (m.kind = 1 → Claim.Free a (port 4) → s.reach s.cur a.sup .read va.toNat = .to l c → met false →
          s.poisoned l.pa size = false →
          let v := Claim.vseen s l c size
          Claim.Fires .fabricLoad s a (pre ++ [port 1]) (some (port 4,
            if m.sz.getLsbD 2 then sextNat (8 * size) v else BitVec.ofNat 64 v)) (fun t b => t.mem = s.mem ∧ step b)) ∧
        (m.kind = 2 → (a.tokens (port 2)).head? = some x → s.reach s.cur a.sup .write va.toNat = .to l c → met true →
          Claim.AtOnce s → Claim.Fires .fabricStore s a (pre ++ [port 1, port 2]) none (fun t b =>
            t.mem = (s.putBytes c l.key (bytesOf size x.toNat)).mem ∧ step b)) ∧
        (∀ f, (m.kind = 1 ∨ m.kind = 2 ∧ (a.tokens (port 2)).head? = some x) →
          s.reach s.cur a.sup (if m.kind = 2 then .write else .read) va.toNat = .fault f →
          Claim.Fires (if m.kind = 2 then .fabricStore else .fabricLoad) s a
            (pre ++ (if m.kind = 2 then [port 1, port 2] else [port 1])) none (fun t b =>
              b.stage = .issued va (if m.kind = 2 then x else 0) ∧ b.chain = a.chain ∧ t.me.fabric.fault = true ∧
              t.mem = s.mem ∧ t.me.fq.waiting.length = s.me.fq.waiting.length + 1)))) ∧
    (∀ (k : Nat) (t : Token) (m : Member), s.tokens[k]? = some t → t.ch = 15 → s.tokenFirst k t = true →
      (s.gang? t.gang).bind (fun G => G.member? t.dst) = some m → m.saved = none → m.done = false → m.ctx = s.cur →
      s.me.gang = some (t.gang, t.dst) → s.me.mode = 2 →
      ∀ G, s.gang? t.gang = some G →
      (a.set.tag = t.tag → a.set.linkFrom (endpoint 4 0 0 0) = none → ∃ u b, exec (.controlTokenArrival k) s = .next u ∧
        u.tokens = s.tokens.eraseIdx k ∧ u.me.fabric.active = some b ∧ b.control = [] ∧
        (u.gang? t.gang).map (fun K => K.fc) = some (G.fc - 1)) ∧
      (∀ l, a.set.tag = t.tag → a.set.linkFrom (endpoint 4 0 0 0) = some l →
        (∀ p ∈ a.set.linksOf, epKind p.2.src = 4 → p.2 = l) → Claim.Free a (endpoint 4 0 0 0) →
        ∃ u b, exec (.controlTokenArrival k) s = .next u ∧ u.tokens = s.tokens.eraseIdx k ∧ u.mem = s.mem ∧
          u.me.fabric.active = some b ∧ b.set = a.set ∧ b.control = [] ∧
          (∀ e, b.tokens e = a.tokens e ++ (if e ∈ l.dsts then [1] else [])) ∧
          (u.gang? t.gang).map (fun K => K.fc) = some (G.fc - 1)) ∧
      (∀ P, a.set.tag ≠ t.tag → s.me.fabric.staged = some P → P.tag = t.tag → s.me.fabric.heldTokens.length < 64 →
        ∃ u, exec (.controlTokenArrival k) s = .next u ∧ u.tokens = s.tokens.eraseIdx k ∧
          u.me.fabric.heldTokens = s.me.fabric.heldTokens ++ [t.tag] ∧ u.gangs = s.gangs) ∧
      (a.set.tag ≠ t.tag → (∀ P, s.me.fabric.staged = some P → P.tag ≠ t.tag) →
        ∃ u, exec (.controlTokenArrival k) s = .next u ∧ u.tokens = s.tokens.eraseIdx k ∧
          u.me.fabric.stale = true ∧ (u.gang? t.gang).map (fun K => K.fc) = some (G.fc - 1))) ∧
    (∀ cluster old, a.clusters[page]? = some old → cluster < 16 → (a.busy = true → ∀ o, a.nextOp = some o → o.1 ≠ page) →
      (s.heldClusters (tileOf s.cur)).getLsbD cluster = false → (s.freedFor (tileOf s.cur)).getLsbD cluster = false →
      ∃ t name, exec (.pageMove page cluster) s = .next t ∧ t.me.own = s.me.own ∧ t.me.grant = s.me.grant ∧
        t.pc = s.pc ∧ t.me.v = s.me.v ∧ t.mem = s.mem ∧
        ((name, old) ∈ s.me.relocs ∨ name = old) ∧ assoc t.me.relocs name = some cluster ∧
        t.me.fabric.active = some { a with clusters := listUpd a.clusters page (fun _ => cluster) } ∧
        ((s.die (dieOf (tileOf s.cur))).blocked ≠ [] → ((tileOf s.cur).val, old) ∈ (t.die (dieOf (tileOf s.cur))).freed))

/-! ### Events -/

/-- R124, R125, R127, R128, R142, R173, R177, R343: the engine of a configured stream of a hart that is not halted
registers the next extent with an entry where the address is homed, once the stores accepted there are performed, or
runs it in line mode, and no owned copy of its lines is left; what the home delivers of the next strip fills the window, the strip goes on to the strip buffer,
and extents that are passed are given up; a write stream's elements are written home in order, and a scratchpad word
goes full with its last byte. A circuit that opens or not is told in the status (R146).

R185, R433, R434: an element whose translation faults stops its stream there: FAULTED is set, its entries go
FAULTED, and a record waits in the tile. The oldest waiting record is written where the fault queue of the hart has
room, and TAIL advances; where the write faults, the record waits on and the Watershed logs it. R181, R182, R184: a copy whose last element is produced releases both streams, the source
first; a release of which nothing is left frees its entries and its bank and steps its counter. -/
def Obligations.StreamEvents : Prop :=
  (∀ (s : State) (h : HartId) (n : BitVec 4),
     let H := s.hart h
     let t := H.stream n.toNat
     let va (j : Nat) : Nat := (t.desc.base + BitVec.ofNat 64 j * t.desc.stride).toNat
     let esize := t.desc.esize
     let stripEnd (j : Nat) : Nat := min t.desc.count ((j / t.strip + 1) * t.strip)
     let of (u : State) : Stream := (u.hart h).stream n.toNat
     t.cfg = true →
     (∀ (l : Leaf) (c hi code : Nat), H.run ≠ .halted → t.desc.idx = 0 → t.stopAt = none →
       t.reached < t.desc.count → t.extents.length < 5 → t.granules ≠ [] →
       s.reach h t.sup (if t.desc.dir then .write else .read) (va t.reached) = .to l c →
       (l.size, code) ∈ [(0x1000, 0), (0x10000, 1), (0x200000, 2), (0x40000000, 3)] →
       let st := t.desc.stride.toInt
       let page := l.pa / l.size * l.size
       let at_ (j : Nat) : Int := (va t.reached % l.size : Int) + (j - t.reached : Int) * st
       let ext (line : Bool) (dies : List (Nat × Nat)) : Extent :=
         ⟨t.reached, hi, page, va t.reached / l.size * l.size, l.size, l.key, line, dies, none, false⟩
       st < 2 ^ 31 → -(2 ^ 31) ≤ st → t.reached < hi → hi ≤ t.desc.count →
       (∀ j, t.reached ≤ j → j < hi → 0 ≤ at_ j ∧ at_ j < l.size) →
       (hi = t.desc.count ∨ at_ hi < 0 ∨ l.size ≤ at_ hi) →
       (t.noMore = true → ∃ u, exec (.extentRegister h n) s = .next u ∧ u.landings = s.landings ∧ u.mem = s.mem ∧
         (of u).reached = hi ∧ (of u).status.getLsbD 2 = true ∧ (of u).extents = t.extents ++ [ext true []]) ∧
       (t.noMore = false → regionOf l.pa = .hbm →
         let ds : List (Fin 8) := if code = 0 then [homeOf s.mgmt.level l.pa] else if s.mgmt.level = 1 then [0, 1]
           else [0, 1, 2, 3, 4, 5, 6, 7];
         (∀ d ∈ ds, (∃ i < 2048, ∀ e ∈ (s.landing d).entries, e.1 ≠ i) ∧ ∀ e ∈ (s.landing d).entries,
           (t.desc.dir = false ∧ e.2.dir = false) ∨ ∀ x, page ≤ x * 128 → x * 128 < page + l.size → e.2.covers x = false) →
         Claim.HostAway s page l.size →
         ∃ (u : State) (K : Fin 8 → Nat) (R : Fin 8 → Rsv), exec (.extentRegister h n) s = .next u ∧ u.mem = (s.drain (fun e => e.meets page l.size)).mem ∧
           (of u).reached = hi ∧ (of u).extents = t.extents ++ [ext false (ds.map (fun d => (d.val, K d)))] ∧
           (∀ e ∈ u.dir, page ≤ e.line * 128 → e.line * 128 < page + l.size → e.owner = none) ∧
           (∀ d, d ∉ ds → (u.landing d).entries = (s.landing d).entries) ∧
           ∀ d ∈ ds, let r : Rsv := R d;
             (u.landing d).entries = (s.landing d).entries ++ [(K d, r)] ∧ (∀ e ∈ (s.landing d).entries, e.1 ≠ K d) ∧
             r.dir = t.desc.dir ∧ r.mode = t.desc.mode ∧ r.state = 0 ∧ r.remote = false ∧ r.tile = h.val / 4 ∧
             r.hart = h.val % 4 ∧ r.stream = t.num ∧ r.base = page / 4096 ∧ r.first = l.pa % l.size ∧ r.stride = st ∧
             r.count = hi - t.reached ∧ r.whole = false ∧ r.key = l.key ∧ 2 ^ r.esize = esize ∧ r.extsize = code ∧
             r.pos ≤ r.count ∧ (code = 0 → r.pos = 0) ∧ (code ≠ 0 →
               (∀ j < r.pos, homeOf s.mgmt.level (l.pa + j * st).toNat ≠ d) ∧
               (r.pos < r.count → homeOf s.mgmt.level (l.pa + r.pos * st).toNat = d)))) ∧
     (∀ (L : Nat → Leaf) (C : Nat → Nat), H.run ≠ .halted → t.desc.idx = 0 → t.stopAt = none → t.desc.dir = false →
       let k := min (stripEnd t.home - t.home) (t.windowRoom - t.win.length)
       0 < k → t.home + k ≤ t.reached → (∀ e ∈ t.extents, e.peer = none ∧ e.lost = false) →
       (∀ j, t.home ≤ j → j < t.home + k → s.inHeld h t j = true ∧ s.reach h t.sup .read (va j) = .to (L j) (C j) ∧
         s.poisoned (L j).pa esize = false ∧ Claim.HostAway s (L j).pa esize) →
       ∃ u, exec (.stripFetch h n) s = .next u ∧ u.mem = s.mem ∧ (of u).home = t.home + k ∧ (of u).pos = t.pos ∧
         (of u).buf = t.buf ∧ (of u).stopAt = none ∧ (of u).extents = t.extents.filter (fun e => decide (t.home + k < e.hi)) ∧
         (of u).win = t.win ++
           (List.range' t.home k).map (fun j => natOf (s.read (.engine h) (C j) (L j).key esize))) ∧
     (H.run ≠ .halted → t.stopAt = none → t.desc.dir = false → t.copy = none →
       let a := t.pos + t.buf.length
       let k := stripEnd a - a
       (k ≤ t.win.length → a / t.strip - t.pos / t.strip < 65536 / t.stripBytes → exec (.stripArrival h n) s =
         .next (s.putStream h n.toNat { t with buf := t.buf ++ t.win.take k, win := t.win.drop k })) ∧
       (t.win.length < k → exec (.stripArrival h n) s = .next (s.putStream h n.toNat t))) ∧
     (∀ (L : Nat → Leaf) (C : Nat → Nat) (S : Nat → State), H.run ≠ .halted → t.desc.idx = 0 → t.stopAt = none →
       t.desc.dir = true → t.copy = none →
       let k := min t.sent (stripEnd t.home - t.home)
       let v (i : Nat) : Nat := t.made.getD i 0
       0 < k → k ≤ t.made.length → t.home + k ≤ t.reached → (∀ e ∈ t.extents, e.peer = none ∧ e.lost = false) →
       S 0 = s → (∀ i, S (i + 1) = (S i).write (.engine h) (C i) (L i).key (bytesOf esize (v i))) →
       (∀ i < k, s.inHeld h t (t.home + i) = true ∧ (S i).reach h t.sup .write (va (t.home + i)) = .to (L i) (C i) ∧
         Claim.HostAway s (L i).pa esize) →
       ((∀ i < k, regionOf (L i).pa ≠ .spad) ∨ (k = 1 ∧ regionOf (L 0).pa = .spad ∧ esize = 8 ∧ C 0 % 8 = 0 ∧
         va t.home % 8 = 0 ∧ t.desc.stride = 8 ∧ t.part = [] ∧ va t.home + 8 * (t.desc.count - t.home) < 2 ^ 64)) →
       ∃ u, exec (.writeStripAccept h n) s = .next u ∧ (of u).home = t.home + k ∧ (of u).made = t.made.drop k ∧
         (of u).pos = t.pos ∧ (of u).stopAt = none ∧ u.mem = (S k).mem ∧
         (regionOf (L 0).pa = .spad → u.isFull (C 0) = true)) ∧
     (∀ granted, t.asking = true →
       (granted = true → s.trackFree (tileOf h) t = true → exec (.circuitOpen h n granted) s =
         .next (s.putStream h n.toNat (({ t with circuit := true, asking := false } : Stream).mark 4 false))) ∧
       (granted = false ∨ s.trackFree (tileOf h) t = false → exec (.circuitOpen h n granted) s =
         .next (s.putStream h n.toNat (({ t with circuit := false, asking := false } : Stream).mark 4 true))))) ∧
  (∀ (s : State) (h : HartId) (n : BitVec 4),
     let H := s.hart h
     let t := H.stream n.toNat
     let of (u : State) : Stream := (u.hart h).stream n.toNat
     (∀ (c : Cause), t.cfg = true → H.run ≠ .halted → t.desc.idx = 0 → t.stopAt = none → t.home < t.desc.count →
       (t.desc.dir = true → t.sent ≠ 0 ∧ t.made ≠ []) → s.hostIf.failed = [] →
       let va := (t.desc.base + BitVec.ofNat 64 t.home * t.desc.stride).toNat
       s.reach h t.sup (if t.desc.dir then .write else .read) va = .fault c →
       ∃ u r, exec (.streamFault h n) s = .next u ∧ u.mem = s.mem ∧ (of u).stopAt = some (t.home, c.code, BitVec.ofNat 64 va) ∧
         (of u).status.getLsbD 5 = true ∧ (of u).cfg = true ∧ (of u).pos = t.pos ∧ (of u).buf = t.buf ∧
         (u.hart h).fq.waiting = H.fq.waiting ++ [r] ∧ r.length = 32 ∧ leAt r 0 8 = va ∧
         leAt r 8 8 = t.home % 2 ^ 64 ∧ leAt r 24 1 = c.code ∧ leAt r 26 1 = n.toNat ∧ leAt r 28 2 = h.val / 4 ∧
         leAt r 30 1 = (if t.desc.dir then 1 else 0) ∧ leAt r 31 1 = H.fq.seq % 256 ∧
         ∀ (d : Fin 8) (k : Nat), (d.val, k) ∈ t.entryRefs → ∀ e ∈ (u.landing d).entries, e.1 = k → e.2.state = 2) ∧
     (∀ (r : Record) (rest : List Record) (c : Nat),
       let q := H.fq
       let addr := (fld q.base 6 46).toNat * 64
       let key := (fld q.base 52 9).toNat
       q.waiting = r :: rest → addr ≠ 0 → (q.tail + 65536 - q.head) % 65536 < q.size →
       s.place 0 (addr + 32 * (q.tail % q.size)) = .cell c → s.keyInvalid key = false →
       ∃ u, exec (.faultRecordWrite h) s = .next u ∧ u.mem = (s.putBytes c key r).mem ∧ (u.hart h).fq.waiting = rest ∧
         (u.hart h).fq.tail = (q.tail + 1) % 65536 ∧ (u.hart h).fq.head = q.head ∧ (u.hart h).fq.size = q.size ∧
         (u.hart h).x = H.x ∧ (u.hart h).pc = H.pc) ∧
     (∀ (r : Record) (rest : List Record),
       let q := H.fq
       let addr := (fld q.base 6 46).toNat * 64
       q.waiting = r :: rest → addr ≠ 0 → (q.tail + 65536 - q.head) % 65536 < q.size →
       ((∀ c, s.place 0 (addr + 32 * (q.tail % q.size)) ≠ .cell c) ∨ s.keyInvalid (fld q.base 52 9).toNat = true) →
       ∃ u w, exec (.faultRecordWrite h) s = .next u ∧ u.mem = s.mem ∧ u.harts = s.harts ∧
         u.mgmt.log.getLast? = some w ∧ w.seq = s.mgmt.logSeq ∧ w.claimed = false ∧ w.detail.length = 40 ∧
         u.mgmt.logSeq = s.mgmt.logSeq + 1) ∧
     (H.run = .halted → ∀ k, exec (.releaseComplete h k) s = .next s) ∧
     (∀ (k i : Nat) (r : Stream), H.releasers[k]? = some (i, r) → H.run ≠ .halted → r.made = [] → r.part = [] →
       r.owed = [] → (∀ e ∈ r.extents, e.peer = none) →
       ∃ u, exec (.releaseComplete h k) s = .next u ∧ u.mem = s.mem ∧ (u.hart h).releasing = H.releasing.eraseIdx i ∧
         (r.desc.cen = false → (u.hart h).ctr = H.ctr) ∧
         (r.desc.cen = true → ∀ v, H.ctr[r.desc.counter]? = some v → (u.hart h).ctr[r.desc.counter]? = some (v + 1)) ∧
         (∀ (d : Fin 8) (k : Nat), (d.val, k) ∈ r.entryRefs → ∀ e ∈ (u.landing d).entries, e.1 ≠ k) ∧
         ∀ b, (u.tile (tileOf h)).banks[r.bank]? = some b → b.claimed = false) ∧
     (∀ (c : CopyState), t.copy = some c → t.desc.dir = true → c.other ≠ n.toNat → H.copyRuns c.other n.toNat = true →
       H.run ≠ .halted → t.pos = t.desc.count →
       ∃ u a b, exec (.copyComplete h n) s = .next u ∧ (of u).cfg = false ∧ ((u.hart h).stream c.other).cfg = false ∧
         (u.hart h).releasing = H.releasing ++ [a, b] ∧ a.desc = (H.stream c.other).desc ∧ b.desc = t.desc ∧
         a.copy = none ∧ b.copy = none ∧ (u.hart h).x = H.x ∧ (u.hart h).pc = H.pc))

/-- R48, R113, R118, R120, R132, R133, R134, R138, R444: a request of the host never parks, and is served once the splits
that it makes are made; a request of a peer in its turn is served where nothing conflicts, parks at a wait-mode entry, and
takes no effect at a trap-mode one of a stream that is active; a request under an INVALID key slot does nothing, and the
home has the lines of one that is served. The hart that waits for an access which met a trap-mode entry at a peer takes the
trap, and VSTART names the slot and element of a convoy's; a `vldff` sets VL and goes on instead (R267). That this event is
the answer to the waiting access is the model's reading (log 24), and key slot 0 for requests of the host its choice
(log 22). A tag that fires lets its waiting harts run again. A sector that a scrub finds uncorrectable is poisoned (R111),
and a unit given to windows takes part in placement once it is reclaimed (R139, R140).

R133: what a conflicting request meets, by the entry's MODE and STATE and by who makes it. That everything waits at the cut
entry of a peer's write stream until the peer frees it is the model's reading (log 24).

R132, R136, R137, R186, R343: a request of a peer for an extent here is registered once the stores accepted there are
performed, or refused where it clashes, and the answer is sent; the entries of a peer's extent change STATE and are freed
as it says; an extent that a peer registers sets REMOTE; one that it refuses, or does not answer, runs in line mode; one
that was split there runs in line mode without entries to come, its elements below POS being home (the model's reading of
RSVCUT, log 24); a request for an extent of which the host owns a line is taken up again after a snoop (its choice,
log 24); and a port that goes down takes with it the entries and the parked requests of the modules lost, and stops the
streams and releases with extents there, whose extents one that has stopped already keeps as lost. -/
def Obligations.ReservationEvents : Prop :=
  (∀ (s : State) (req : MemReq) (module : Nat) (agent : Option PeerAgent),
     let write := req.data.isSome
     let line := req.pa / 128
     let who : Requester := match agent with
       | some a => .lefahel module a
       | none => .cxl
     let first : Prop := ∀ l ∈ reqLines req, s.waitsBehind (.peer module agent) l = false
     (∃ u, exec (.hostSnoop req) s = .next u ∧ (∀ d, (u.landing d).parked = (s.landing d).parked) ∧
       (∀ h, (u.hart h).run = (s.hart h).run ∧ (u.hart h).pc = (s.hart h).pc ∧ (u.hart h).x = (s.hart h).x)) ∧
     (s.mgmt.level ≠ 0 → s.homed req = true → s.keyInvalid 0 = false → s.noWindows = true →
       (∀ l ∈ reqLines req, s.conflicts .external l write = []) →
       ∃ u, exec (.hostSnoop req) s = .next u ∧ (req.data = none → u.mem = s.mem) ∧
         (∀ bs, req.data = some bs → u.mem = (s.putBytes req.pa 0 (bs.take req.size)).mem) ∧
         ∀ e ∈ u.dir, e.line ∈ reqLines req → e.owner = none ∧ (write = true → e.tiles = [] ∧ e.dies = [])) ∧
     ((s.mgmt.level = 0 ∨ s.homed req = false ∨ s.keyInvalid 0 = true) → exec (.hostSnoop req) s = .next s) ∧
     ((s.mgmt.level ≠ 2 ∨ s.homed req = false ∨ s.keyInvalid s.inboundKey = true) →
       exec (.peerMemRequest module agent req) s = .next s) ∧
     (s.mgmt.level = 2 → s.homed req = true → s.keyInvalid s.inboundKey = false → first →
       (s.noWindows = true → Claim.HostAway s req.pa (max 1 req.size) → (∀ l ∈ reqLines req, s.conflicts who l write = []) →
         ∃ u, exec (.peerMemRequest module agent req) s = .next u ∧ (req.data = none → u.mem = s.mem) ∧
           (∀ bs, req.data = some bs → u.mem = (s.write .peer req.pa s.inboundKey (bs.take req.size)).mem) ∧
           ∀ d, ∀ p ∈ (u.landing d).parked, p.who = .peer module agent → p.line ∉ reqLines req) ∧
       (∀ (d : Fin 8) (k : Nat) (r : Rsv), reqLines req = [line] → s.conflicts who line write = [(d, k, r)] →
         r.state = 0 → r.coming = 0 →
         (r.mode = 0 → exec (.peerMemRequest module agent req) s = .next (s.park (.peer module agent) d k line)) ∧
         (agent ≠ none → r.mode = 2 → exec (.peerMemRequest module agent req) s = .next s))) ∧
     (∀ (h : HartId) (va : Word),
       (∀ place i, i < 65535 → (s.hart h).run = .waiting → (s.hart h).wait = .peer va place (some (i + 1)) →
         ∃ u, exec (.peerConflictCompletion h va) s = .next u ∧ (u.hart h).vl = i + 1 ∧ (u.hart h).run = .running ∧
           (u.hart h).pc = (s.hart h).pc ∧ u.mem = s.mem ∧ ∀ k, k ≠ h → u.hart k = s.hart k) ∧
       (∀ place trim, (s.hart h).run = .waiting → (s.hart h).wait = .peer va place trim → (trim = none ∨ trim = some 0) →
         ∃ u, exec (.peerConflictCompletion h va) s = .next u ∧ (u.hart h).csr.tcause = 0xE ∧ (u.hart h).csr.tval = va ∧
           (u.hart h).csr.tepc = (s.hart h).pc &&& ~~~3#64 ∧ (u.hart h).pc = (s.hart h).csr.tvec &&& ~~~3#64 ∧
           (u.hart h).sup = true ∧ (u.hart h).run = .running ∧ (u.hart h).x = (s.hart h).x ∧
           u.mem = s.mem ∧ (∀ k, k ≠ h → u.hart k = s.hart k) ∧
           (place = none → (u.hart h).csr.vstart = (s.hart h).csr.vstart) ∧
           ∀ slot elem, place = some (slot, elem) → slot < 4 → elem < 65536 → let v := (u.hart h).csr.vstart
             (fld v 0 16).toNat = elem ∧ (fld v 16 2).toNat = slot ∧ v.getLsbD 18 = true ∧ fld v 19 45 = 0) ∧
       ((s.hart h).run ≠ .waiting → exec (.peerConflictCompletion h va) s = .next s)) ∧
     (∀ (d : Fin 8) (entry : Nat), ∃ u, exec (.replayWake d entry) s = .next u ∧ u.mem = s.mem ∧ u.landings = s.landings ∧
       ∀ h, (∀ p ∈ (s.landing d).parked, p.entry = entry → p.who = .hart h → (s.hart h).run = .waiting →
           (s.hart h).wait = .parked d.val entry p.line → (u.hart h).run = .running ∧ (u.hart h).pc = (s.hart h).pc) ∧
         ((∀ p ∈ (s.landing d).parked, p.entry = entry → p.who ≠ .hart h) → u.hart h = s.hart h)) ∧
     (∀ (d : Fin 8) (bad : List Nat), ∃ u, exec (.scrub d bad) s = .next u ∧ u.mem = s.mem ∧ u.harts = s.harts ∧
       ∀ q, q ∈ u.poison ↔ q ∈ s.poison ∨
         (q ∈ bad ∧ regionOf (q * 32) = .hbm ∧ homeOf s.mgmt.level (q * 32) = d)) ∧
     (∀ (die : Fin 4) (k : BitVec 3) (v : Word) (unit : BitVec 5) (l : Slice), (s.die die).slices[k.toNat]? = some l →
       (24 < (fld v 0 6).toNat → exec (.slcfgWrite die k v) s = .next s) ∧
       ((fld v 0 6).toNat ≤ 24 → ∃ u l', exec (.slcfgWrite die k v) s = .next u ∧ (u.die die).slices[k.toNat]? = some l' ∧
         l'.winunits = fld v 0 6 ∧ l'.taken = l.taken ∧
         (∀ j, l.winunits.toNat ≤ j → j < (fld v 0 6).toNat → (∀ g ∈ l.taken, g.1 ≠ j) → j ∈ l'.pending)) ∧
       (∃ u l', exec (.windowUnitReclaim die k unit) s = .next u ∧ (u.die die).slices[k.toNat]? = some l' ∧
         l'.winunits = l.winunits ∧ l'.taken = l.taken ∧ (∀ j, j ∈ l'.pending ↔ j ∈ l.pending ∧ j ≠ unit.toNat) ∧
         (unit.toNat < l.winunits.toNat → ∀ x ∈ l'.lines, x.unit ≠ unit.toNat)))) ∧
  (∀ (r : Rsv) (who : Requester), r.coming ≠ 0 → r.verdict who = .wait) ∧
  (∀ (r : Rsv), r.mode < 3 → r.state < 4 → r.coming = 0 →
     (∀ who : Requester, ((∃ h, who = .hart h) ∨ ∃ m a, who = .lefahel m a) →
       (r.verdict who = .trap ↔ r.mode = 2 ∧ r.state ≠ 3) ∧
       (r.verdict who = .split ↔ r.state ≠ 3 ∧ (r.mode = 1 ∨ (r.mode = 0 ∧ r.state = 1))) ∧
       (r.verdict who = .wait ↔ r.state = 3 ∨ (r.mode = 0 ∧ r.state ≠ 1))) ∧
     (r.verdict .cxl = .wait ↔ r.state = 3 ∨ (r.mode = 0 ∧ r.state = 0)) ∧ r.verdict .cxl ≠ .trap ∧
     (r.verdict .external = .early ↔ r.state = 3) ∧ (r.verdict .external = .split ↔ r.state ≠ 3)) ∧
  (∀ (s : State) (seq : BitVec 16) (module : Nat),
     (∀ (m : RsvMsg), s.mgmt.level = 2 → m.extSize = 0 →
       let d := homeOf 2 (m.extBase * 4096)
       (∀ e, s.dirAt e.line = some e → m.extBase * 4096 ≤ e.line * 128 → e.line * 128 < m.extBase * 4096 + 4096 →
         e.host = some true → ∃ u e', exec (.rsvreq m) s = .next u ∧ u.agenda = s.agenda ++ [.askAgain m] ∧ u.mem = s.mem ∧
           u.outbox = s.outbox ∧ u.dirAt e.line = some e' ∧ e'.snoop = true) ∧
       (Claim.HostAway s (m.extBase * 4096) 4096 → (s.landing d).entries = [] → ∃ u r, exec (.rsvreq m) s = .next u ∧ (u.landing d).entries = [(0, r)] ∧
         (∀ e, e ≠ d → (u.landing e).entries = (s.landing e).entries) ∧ assoc u.rsvIn (m.module, m.seq) = some [(d.val, 0)] ∧
         u.outbox = s.outbox ++ [⟨m.module, m.seq, .ack⟩] ∧
         u.mem = (s.drain (fun e => e.meets (m.extBase * 4096) 4096)).mem ∧
         r.remote = true ∧ r.origin = m.module ∧ r.dir = m.dir ∧ r.mode = m.mode.toNat ∧ r.state = 0 ∧
         r.base = m.extBase ∧ r.first = m.first ∧ r.stride = m.stride ∧ r.count = m.count ∧ r.pos = 0) ∧
       (Claim.HostAway s (m.extBase * 4096) 4096 → ∀ e ∈ (s.landing d).entries, rsvClash 2 d (peerEntry m) e.2 = true →
         exec (.rsvreq m) s = .next { s with outbox := s.outbox ++ [⟨m.module, m.seq, .nak⟩] })) ∧
     (∃ u, exec (.rsvdone seq) s = .next u ∧ u.harts = s.harts ∧ u.mem = s.mem ∧
       ∀ r, r ∈ u.rsvOut ↔ r ∈ s.rsvOut ∧ ¬ (r.seq = seq ∧ r.releasing = true)) ∧
     ((∀ r ∈ s.rsvOut, ¬ (r.seq = seq ∧ r.releasing = false)) →
       ∀ i ∈ [Instr.rsvack seq, .rsvnak seq, .rsvreqTimeout seq], exec i s = .next s) ∧
     (∀ (p : StreamAt) (t : Stream), s.peerStream seq = some (p, t) →
       ((∃ r ∈ s.rsvOut, r.seq = seq ∧ r.releasing = false) →
         (∃ u, exec (.rsvack seq) s = .next u ∧ u.mem = s.mem ∧ u.streamAt p = some (t.mark 9 true) ∧
           ∀ r, r ∈ u.rsvOut ↔ r ∈ s.rsvOut ∧ ¬ (r.seq = seq ∧ r.releasing = false)) ∧
         ∀ i ∈ [Instr.rsvnak seq, .rsvreqTimeout seq], ∃ u, exec i s = .next u ∧ u.mem = s.mem ∧
           u.streamAt p = some (Stream.mark { t with extents := t.extents.map (fun e =>
             if e.peer = some seq then { e with line := true, peer := none } else e) } 2 true) ∧
           ∀ r, r ∈ u.rsvOut ↔ r ∈ s.rsvOut ∧ ¬ (r.seq = seq ∧ r.releasing = false)) ∧
       (∀ pos, t.desc.dir = false ∨ t.made = [] → ∃ u t', exec (.rsvcut seq pos) s = .next u ∧ u.mem = s.mem ∧
         u.streamAt p = some t' ∧ t'.noMore = true ∧ t'.status.getLsbD 2 = true ∧ t'.status.getLsbD 3 = true ∧
         (∀ e ∈ t'.extents, e.line = true) ∧ t'.pos = t.pos ∧ t'.made = t.made) ∧
       (∀ pos e, t.desc.dir = true → t.desc.idx = 0 → t.extents.find? (fun x => x.peer == some seq) = some e →
         t.made.length ≤ e.lo + pos - t.home → ∃ u t', exec (.rsvcut seq pos) s = .next u ∧ u.mem = s.mem ∧
         u.streamAt p = some t' ∧ t'.noMore = true ∧ t'.made = [] ∧ t'.home = t.home + t.made.length)) ∧
     (∀ (refs : List (Nat × Nat)) (st : BitVec 2), assoc s.rsvIn (module, seq) = some refs →
       (∃ u, exec (.rsvstate module seq st) s = .next u ∧ u.harts = s.harts ∧ ∀ (d : Fin 8),
         (u.landing d).entries = (s.landing d).entries.map (fun e =>
           if (d.val, e.1) ∈ refs then (e.1, { e.2 with state := st.toNat }) else e)) ∧
       (∃ u, exec (.rsvrel module seq) s = .next u ∧ u.harts = s.harts ∧ assoc u.rsvIn (module, seq) = none ∧
         u.outbox = s.outbox ++ [⟨module, seq, .done⟩] ∧
         ∀ (d : Fin 8) e, e ∈ (u.landing d).entries ↔ e ∈ (s.landing d).entries ∧ (d.val, e.1) ∉ refs)) ∧
     (∀ (port : Fin 16) (lost : List Nat), ∃ u, exec (.portDown port lost) s = .next u ∧ u.mem = s.mem ∧
       (∀ k < 16, u.portsUp.getLsbD k = (s.portsUp.getLsbD k && decide (k ≠ port.val))) ∧
       (∀ r ∈ u.rsvOut, r.module ∉ lost) ∧
       (∀ (d : Fin 8) e, e ∈ (u.landing d).entries → e.2.remote = true → e.2.origin ∉ lost) ∧
       (∀ (d : Fin 8), ∀ p ∈ (u.landing d).parked, ∀ m a, p.who = .peer m a → m ∉ lost) ∧
       (∀ (h : HartId) (n : Nat), n < 16 → ((s.hart h).stream n).cfg = true → ((s.hart h).stream n).stopAt = none →
         (∃ e ∈ ((s.hart h).stream n).extents, s.atPeer lost e = true) →
         ∃ f va, ((u.hart h).stream n).stopAt = some (f, 0x30, va) ∧ ((u.hart h).stream n).status.getLsbD 5 = true) ∧
       (∀ (h : HartId) (n : Nat), n < 16 → ((s.hart h).stream n).cfg = true → ((s.hart h).stream n).stopAt ≠ none →
         (∃ e ∈ ((s.hart h).stream n).extents, s.atPeer lost e = true) →
         ((u.hart h).stream n).stopAt = ((s.hart h).stream n).stopAt ∧
         ((u.hart h).stream n).extents = ((s.hart h).stream n).extents.map (fun e =>
           if s.atPeer lost e then { e with line := true, peer := none, lost := true } else e)) ∧
       ∀ (h : HartId) (k : Nat) (t : Stream), (s.hart h).releasing[k]? = some t → t.stopAt = none →
         ((∃ e ∈ t.extents, s.atPeer lost e = true) ∨
           (t.release = .write ∧ ∃ q ∈ t.owed, ∃ r ∈ s.rsvOut, r.seq = q ∧ r.module ∈ lost)) →
         ∃ t' f va, (u.hart h).releasing[k]? = some t' ∧ t'.stopAt = some (f, 0x30, va) ∧ t'.status.getLsbD 5 = true))

/-- R150, R377, R378, R397, R399, R401: a token that is first of its channel from its sender enters the count of the
channel; a gang with no token or capsule in flight whose harts have all ended or wait for one terminates, and the
waits answer 0; a capsule that arrives enters the ring of its landing where there is room and nothing is parked, and
is parked otherwise; a parked one enters when there is room; the oldest item on its way to a port enters its buffer.

Pre-emption saves a gang and places its candidate in one act, at the places that State.spots names, and argument images are
read through the ASID table of a die: the model's choices (log 22).

R361, R366, R368 to R371, R373, R374, R437, R438: the scheduler places the next instance of the chosen record, each
hart at the entry at user level with the words of its argument image; a ready head that waits rises in priority up to
its CEIL; a candidate that has waited long enough takes the place of a gang that is saved whole and goes back to its
queue, on the contexts and resources that the scheduler gives it; a saved gang that is chosen goes on with the registers of its images.

R64, R71: an object that fails a check is refused with the first reason in their order, and none of it is loaded;
one that passes is placed, and recorded, section by section at the addresses of the job. That ALIGN is an exponent, and
which sections are placed, is the model's reading (log 26). -/
def Obligations.ArrivalAndSchedulingEvents : Prop :=
  (∀ (s : State) (k : Nat),
     (∀ (t : Token) (G : Gang) (m : Member), s.tokens[k]? = some t → t.ch < 15 →
       s.gang? t.gang = some G → G.member? t.dst = some m → m.saved = none →
       ((∀ j < k, ∀ u, s.tokens[j]? = some u → ¬ (u.gang = t.gang ∧ u.src = t.src ∧ u.dst = t.dst ∧ u.ch = t.ch)) →
         (s.hart m.ctx).tokens t.ch < 0xFFFFFFFF →
         ∃ u, exec (.tokenDelivery k) s = .next u ∧ u.tokens = s.tokens.eraseIdx k ∧ u.gangs = s.gangs ∧
           (u.hart m.ctx).tokens t.ch = (s.hart m.ctx).tokens t.ch + 1 ∧
           (∀ c, c ≠ t.ch → (u.hart m.ctx).tokens c = (s.hart m.ctx).tokens c) ∧ ∀ h, h ≠ m.ctx → u.hart h = s.hart h) ∧
       (∀ j < k, ∀ u, s.tokens[j]? = some u → u.gang = t.gang → u.src = t.src → u.dst = t.dst → u.ch = t.ch →
         exec (.tokenDelivery k) s = .next s)) ∧
     (∀ (G : Gang), s.gang? k = some G →
       (G.fc = 0 → G.running = true → (∀ m ∈ G.members, m.done = true ∨ ((s.hart m.ctx).run = .waiting ∧
           ∃ d, (s.hart m.ctx).wait = .tok d ∨ ((s.hart m.ctx).wait = .cap d ∧ (s.hart m.ctx).cap.ring = [] ∧
             (s.hart m.ctx).cap.parked = []))) →
         ∃ u, exec (.gangTermination k) s = .next u ∧ u.mem = s.mem ∧ u.gangs = s.gangs ∧
           ∀ m ∈ G.members, m.done = false → ∀ d, ((s.hart m.ctx).wait = .tok d ∨ (s.hart m.ctx).wait = .cap d) →
             (u.hart m.ctx).run = .running ∧ (u.hart m.ctx).pc = (s.hart m.ctx).pc + 4 ∧ (u.hart m.ctx).getX d = 0 ∧
             ∀ r, r ≠ d → (u.hart m.ctx).getX r = (s.hart m.ctx).getX r) ∧
       (G.fc ≠ 0 → exec (.gangTermination k) s = .next s)) ∧
     (∀ (t : Transit) (G : Gang) (m : Member), s.capsules[k]? = some t → s.gang? t.cap.gang = some G →
       G.member? t.dst = some m → m.saved = none → G.running = true →
       (∀ j < k, ∀ u, s.capsules[j]? = some u → ¬ (u.cap.gang = t.cap.gang ∧ u.src = t.src ∧ u.dst = t.dst)) →
       let p := (s.hart m.ctx).cap
       let room := p.hold = false ∧ (p.ring.map Capsule.room).sum + (64 + roundup t.cap.payload.length 64) ≤ 65536
       p.land = true →
       (p.parked = [] → room → ∃ u, exec (.capsuleArrival k) s = .next u ∧ u.capsules = s.capsules.eraseIdx k ∧
         u.mem = s.mem ∧ (u.hart m.ctx).cap = { p with ring := p.ring ++ [t.cap] }) ∧
       ((p.parked ≠ [] ∨ ¬ room) → ∃ u, exec (.capsuleArrival k) s = .next u ∧ u.capsules = s.capsules.eraseIdx k ∧
         (u.hart m.ctx).cap = { p with parked := p.parked ++ [t.cap] })) ∧
     (∀ (h : HartId) (c : Capsule) (rest : List Capsule), let p := (s.hart h).cap
       p.parked = c :: rest → p.land = true → p.hold = false →
       (p.ring.map Capsule.room).sum + (64 + roundup c.payload.length 64) ≤ 65536 →
       exec (.parkedCapsuleEnter h) s = .next (s.updHart h (fun H => { H with cap :=
         { H.cap with ring := p.ring ++ [c], parked := rest } }))) ∧
     (∀ (h : HartId) (port : BitVec 2) (p : Port) (it : Item) (rest : List Item),
       (s.hart h).ports[port.toNat]? = some p → p.flight = it :: rest →
       ∃ u, exec (.crossingGroupArrival h port) s = .next u ∧ u.mem = s.mem ∧
         (u.hart h).ports[port.toNat]? = some { p with items := p.items ++ [it], flight := rest } ∧
         (∀ j < 4, j ≠ port.toNat → (u.hart h).ports[j]? = (s.hart h).ports[j]?) ∧
         (u.hart h).pc = (s.hart h).pc ∧ ∀ g, g ≠ h → u.hart g = s.hart g)) ∧
  (∀ (s : State) (die : Fin 4) (ps : List Place) (q : Nat) (Q : Queue),
     (∀ (l : Launch) (rest : List QEntry), s.chosen die = some (q, Q) → Q.entries = .record l :: rest →
       s.placesOk l.needs ps = true → s.admits die (l.needs.map (fun n => n.die)) Q.prio = true →
       (∀ e ∈ rest, e.key ≠ (false, l.id)) → ∃ u G, exec (.placeGang die ps) s = .next u ∧ u.gangs = s.gangs ++ [G] ∧ u.nextId = s.nextId + 1 ∧ u.mem = s.mem ∧
         G.id = s.nextId ∧ G.launch = l ∧ G.inst = l.next ∧ G.fc = 0 ∧ G.running = true ∧
         G.members = ps.mapIdx (fun r p => ⟨r, hartAt p.tile p.ctx, false, none⟩) ∧
         (u.queue die q).entries =
           (if l.inst ≤ l.next + 1 then rest else .record { l with next := l.next + 1 } :: rest) ∧
         ∀ (r : Nat) (p : Place), ps[r]? = some p →
           let K := u.hart (hartAt p.tile p.ctx)
           K.run = .running ∧ K.pc = l.entry ∧ K.sup = false ∧ K.gang = some (s.nextId, r) ∧ K.banks = p.banks ∧
           (fld K.csr.lpart 16 16 : BitVec 16) = p.clusters ∧
           (fld K.csr.lpart 0 16 : BitVec 16) = (if l.lanes then p.clusters else 0) ∧
           K.csr.asid = l.asid.setWidth 64 ∧ K.csr.sstat = 0 ∧ K.getX 0 = 0 ∧
           ∀ (x : Reg), x ≠ 0 → ∀ bs, s.spaceBytes (dieOf p.tile) l.asid (l.argsAt l.next r + 8 * x.toNat) 8 = some bs →
             K.getX x = BitVec.ofNat 64 (natOf bs)) ∧
     (∀ (k : BitVec 5) (l : Launch) (rest : List QEntry), let W := s.queue die k.toNat
       W.entries = .record l :: rest → s.predsMet l = true → (s.die die).agePeriod ≠ 0 →
       (s.die die).agePeriod ≤ W.age → W.prio < l.ceil →
       ∃ u, exec (.agingStep die k) s = .next u ∧ u.harts = s.harts ∧ u.mem = s.mem ∧
         u.queue die k.toNat = { W with prio := W.prio + 1, age := W.age - (s.die die).agePeriod }) ∧
     (∀ (e : QEntry) (rest : List QEntry) (G : Gang), s.chosen die = some (q, Q) → Q.entries = e :: rest →
       let limit := (s.die die).preempt
       let dies := (s.needs e).map (fun n => n.die)
       limit ≠ 0 → limit ≤ Q.readyFor → s.canPlace (s.needs e) = false → s.admits die dies Q.prio = true →
       s.gangs.filter (s.victim dies Q.prio) = [G] → s.slotsFor G = true → G.launch.queue < 32 → e.key ≠ (true, G.id) →
       (s.saveGang G).canPlace (s.needs e) = true → (s.saveGang G).placesOk (s.needs e) s.spots = true →
       ∃ u, exec (.preemption die) s = .next u ∧ (∀ K, u.gang? G.id = some K → K.running = false) ∧
         .resume G.id ∈ (u.queue ⟨G.launch.die % 4, Nat.mod_lt _ (by decide)⟩ G.launch.queue).entries ∧
         (∀ l, e = .record l → ∃ K ∈ u.gangs, K.running = true ∧ K.launch = l ∧ K.inst = l.next) ∧
         ∀ g, e = .resume g → (u.gang? g).map (fun K => K.running) = some true) ∧
     (∀ (g : Nat) (rest : List QEntry) (G : Gang) (m : Member) (v : Saved) (p : Place), s.chosen die = some (q, Q) →
       Q.entries = .resume g :: rest → s.gang? g = some G → G.members = [m] → m.saved = some v → m.done = false →
       s.placesOk G.needs [p] = true → s.admits die (G.needs.map (fun n => n.die)) Q.prio = true →
       (∀ e ∈ rest, e.key ≠ (true, g)) →
       let h := hartAt p.tile p.ctx
       let img (off n : Nat) : Nat := s.img (s.imageBase v) (s.imageKey v.die) off n
       ∃ u, exec (.resumeGang die [p]) s = .next u ∧ (u.queue die q).entries = rest ∧
         (u.gang? g).map (fun K => (K.running, K.members)) = some (true, [{ m with ctx := h, saved := none }]) ∧
         (u.hart h).run = .running ∧ (u.hart h).gang = some (G.id, m.rank) ∧ (u.hart h).banks = p.banks ∧
         (u.hart h).pc = BitVec.ofNat 64 (img 0 8) &&& ~~~3#64 ∧ (u.hart h).sup = decide (img 8 8 % 2 = 1) ∧
         (∀ r : Reg, r ≠ 0 → (u.hart h).getX r = BitVec.ofNat 64 (img (0x40 + 8 * r.toNat) 8)) ∧
         (∀ r : Reg, (u.hart h).getF r = BitVec.ofNat 64 (img (0x140 + 8 * r.toNat) 8)))) ∧
  (∀ (s : State) (job : LoadJob), s.mgmt.level ≠ 0 →
     (job.object.take 4 ≠ [0x41, 0x4C, 0x46, 0x01] → exec (.loadObject job) s = .next { s with loadReport := 1 }) ∧
     (∀ r, checkObject job = .error r → exec (.loadObject job) s = .next { s with loadReport := r } ∧ 1 ≤ r ∧ r ≤ 7) ∧
     (∀ (e : AlfSection) (base : Nat) (bs : List Byte) (v : State), checkObject job = .ok [(e, base, bs)] →
       base % 2 ^ e.align = 0 → e.kind ≠ 9 →
       (e.placed = true → s.spacePutAll job.asid base bs = some v → ∃ u L, exec (.loadObject job) s = .next u ∧
         u.mem = v.mem ∧ u.loadReport = 0 ∧ u.loaded = L :: s.loaded ∧ L.object = job.object ∧ L.asid = job.asid ∧
         L.vlbytes = job.vlbytes ∧ L.sections = [(e.kind, base, e.size)]) ∧
       (e.placed = false → ∃ u L, exec (.loadObject job) s = .next u ∧ u.mem = s.mem ∧ u.loadReport = 0 ∧
         u.loaded = L :: s.loaded ∧ L.object = job.object)))

/-- R445, R459, R464: an event is logged, kept unacknowledged where harts are to see it, and written as a record of 32
bytes to the host event queue of its route, whose vector is signalled unless the event is claimed by the device; a
full or disabled queue loses it and says so with the next one. An acknowledgement clears it.

R457, R458, R460: doorbells of an enabled pair move its tail and its completion head, mark an error for a value
beyond the ring, and are latched during a handover; a pair is enabled afresh; the next entry of a pair with room for
its completion is taken, posted where it is sound and accepted, and answered with its code.

R431: a translation that the host grants serves the access that waits for it; one that it denies fails that access
where page requests are off, and makes a page request where they are on; one of the 32 outstanding ones that fails or
times out fails the access, and after a success the translation is asked for again; translations that the host takes
back are dropped, once the stores that used them are performed.

The model's readings and choices (log 24): code 2 for an OP other than 1, for a reserved field that is not zero and for a
misaligned RECORD; and what is dropped or waits at the limits of 1,024 translations and 32 groups. -/
def Obligations.HostEvents : Prop :=
  (∀ (s : State) (src : Nat) (detail : List Byte), Memory.wf s.mem = true →
     let r := s.routeOf src
     let den := r.route.getLsbD 10
     let hen := r.route.getLsbD 11
     let q : Nat := (fld r.route 12 6).toNat
     let Q := s.evq q
     let n := (fld Q.cfg 0 12).toNat + 1
     let room := Q.cfg.getLsbD 31 = true ∧ (Q.tail + 65536 - Q.head) % 65536 ≠ n
     let seq := s.mgmt.logSeq
     (s.mgmt.level ≠ 0 → ∃ u, exec (.deviceEvent src detail) s = .next u ∧ u.mgmt.logSeq = seq + 1 ∧ u.harts = s.harts ∧
       (∃ e, u.mgmt.log.getLast? = some e ∧ e.seq = seq ∧ e.source = src ∧ e.claimed = (den && hen) ∧ e.detail = detail ∧
         e.read = false) ∧
       (u.routeOf src).pending = (den || r.pending) ∧
       (hen = false → u.mem = s.mem ∧ u.mgmt.interrupts = s.mgmt.interrupts) ∧
       (hen = true → room →
         let at_ := Q.base.toNat + 32 * (Q.tail % n)
         u.hostGet at_ 8 = bytesOf 8 seq ∧ u.hostGet (at_ + 8) 2 = bytesOf 2 src ∧
         u.hostGet (at_ + 10) 1 = [BitVec.ofNat 8 ((if Q.phase then 1 else 0) + (if den then 2 else 0) +
           (if Q.lost then 4 else 0))] ∧
         u.hostGet (at_ + 16) 16 = (detail ++ List.replicate 16 0).take 16 ∧
         (u.evq q).tail = (Q.tail + 1) % 65536 ∧ (u.evq q).lost = false ∧
         u.mgmt.interrupts = (if den then s.mgmt.interrupts else s.mgmt.interrupts ++ [(fld Q.cfg 16 11).toNat])) ∧
       (hen = true → ¬ room → u.mem = s.mem ∧ (u.evq q).lost = true ∧ (u.evq q).tail = Q.tail)) ∧
     (∃ u, exec (.eventAck src) s = .next u ∧ u.mem = s.mem ∧ (u.routeOf src).pending = false ∧
       (u.routeOf src).route = r.route ∧ ∀ e, e ≠ src → u.routeOf e = s.routeOf e) ∧
     (∀ (e : BitVec 6) (v : Word), s.mgmt.level ≠ 0 → let W := s.evq e.toNat
       (W.cfg.getLsbD 31 = false → v.getLsbD 31 = true → ∃ u, exec (.eqcfgEnable e v) s = .next u ∧ u.mem = s.mem ∧
         u.evq e.toNat = { W with cfg := v &&& 0x87FF0FFF#64, tail := 0, phase := true }) ∧
       (W.cfg.getLsbD 31 = true → v.getLsbD 31 = true → exec (.eqcfgEnable e v) s = .next s) ∧
       (v.getLsbD 31 = false → ∃ u, exec (.eqcfgEnable e v) s = .next u ∧
         u.evq e.toNat = { W with cfg := v &&& 0x87FF0FFF#64 }))) ∧
  (∀ (s : State) (pair : BitVec 6) (v : Word), s.mgmt.level ≠ 0 → Memory.wf s.mem = true →
     let P := s.pair pair.toNat
     let n := (fld P.cfg 0 12).toNat + 1
     let on := P.cfg.getLsbD 31
     let k := v.toNat % 65536
     let handing := s.mgmt.wshand.getLsbD 0
     let becomes (i : Instr) (R : Pair) : Prop := exec i s = .next { s with pairs := s.pairs.setIfInBounds pair.toNat R }
     (on = true → handing = false → k < n → becomes (.sqdb pair v) { P with tail := k } ∧ becomes (.cqdb pair v) { P with cqHead := k }) ∧
     (on = true → handing = false → n ≤ k → ∀ i ∈ [Instr.sqdb pair v, .cqdb pair v], becomes i { P with error := true }) ∧
     (on = true → handing = true → becomes (.sqdb pair v) { P with latched := P.latched ++ [(true, v)] } ∧
       becomes (.cqdb pair v) { P with latched := P.latched ++ [(false, v)] }) ∧
     (on = false → ∀ i ∈ [Instr.sqdb pair v, .cqdb pair v], exec i s = .next s) ∧
     (on = false → v.getLsbD 31 = true → becomes (.qcfgEnable pair v) { P with
       cfg := v &&& 0x87FF0FFF#64, head := 0, tail := 0, cqTail := 0, cqHead := 0, phase := true, error := false,
       latched := [] }) ∧
     (on = true → v.getLsbD 31 = true → exec (.qcfgEnable pair v) s = .next s) ∧
     (v.getLsbD 31 = false → becomes (.qcfgEnable pair v) { P with cfg := v &&& 0x87FF0FFF#64 }) ∧
     (on = true → handing = false → P.error = false → P.head ≠ P.tail → (P.cqTail + 1) % n ≠ P.cqHead →
       let e := s.hostGet (P.sqBase.toNat + 32 * P.head) 32
       let head := (P.head + 1) % n
       let done (u : State) (code : Nat) : Prop := exec (.hostSubmission pair) s = .next u ∧ u.harts = s.harts ∧
         u.hostGet (P.cqBase.toNat + 16 * P.cqTail) 16 = e.take 2 ++ [BitVec.ofNat 8 code, if P.phase then 1 else 0] ++
           bytesOf 2 head ++ bytesOf 10 0 ∧
         (u.pair pair.toNat).head = head ∧ (u.pair pair.toNat).cqTail = (P.cqTail + 1) % n ∧
         u.mgmt.interrupts = s.mgmt.interrupts ++ [(fld P.cfg 16 11).toNat]
       let target := leAt e 3 1
       let sound := leAt e 2 1 = 1 ∧ target < 128 ∧ leAt e 8 8 % 64 = 0 ∧ (∀ b ∈ (e.drop 6).take 2, b = 0) ∧
         ∀ b ∈ e.drop 16, b = 0
       (¬ sound → ∃ u, done u 2 ∧ u.dies = s.dies) ∧
       (∀ d : Fin 4, sound → d.val = target / 32 → s.mgmt.level = 1 → d ≠ 0 → ∃ u, done u 4 ∧ u.dies = s.dies) ∧
       (∀ d : Fin 4, sound → d.val = target / 32 → (s.mgmt.level = 1 → d = 0) → s.hostParts d (BitVec.ofNat 16 (leAt e 4 2)) (leAt e 8 8) = none →
         ∃ u, done u 6 ∧ u.dies = s.dies) ∧
       (∀ (d : Fin 4) (p : Parts) (l : Launch), sound → d.val = target / 32 → (s.mgmt.level = 1 → d = 0) →
         s.hostParts d (BitVec.ofNat 16 (leAt e 4 2)) (leAt e 8 8) = some p →
         s.checkLaunch false true (BitVec.ofNat 16 p.asid) d.val (target % 32) p = .ok l →
         ∃ u, done u 0 ∧ u.nextId = s.nextId + 1 ∧
           (u.queue d (target % 32)).entries = (s.queue d (target % 32)).entries ++ [.record l]))) ∧
  (∀ (s : State) (asid : BitVec 16) (page : Nat),
     let r : PageReq := ⟨asid, page⟩
     let failed (i : Instr) : Prop := ∃ u, exec i s = .next u ∧ r ∈ u.hostIf.failed ∧ r ∉ u.hostIf.asked ∧
       u.hostIf.atc = s.hostIf.atc ∧ u.mem = s.mem ∧ u.harts = s.harts
     (r ∈ s.hostIf.asked → r ∉ s.hostIf.pri →
       (∀ p, ∃ u, exec (.atsTranslationCompletion asid page (some p)) s = .next u ∧ r ∉ u.hostIf.asked ∧
         ((asid, page), p) ∈ u.hostIf.atc ∧ u.hostIf.failed = s.hostIf.failed ∧ u.hostIf.atc.length ≤ 1024 ∧
         u.mem = s.mem ∧ u.harts = s.harts) ∧
       (s.hostIf.prien = false → failed (.atsTranslationCompletion asid page none)) ∧
       (s.hostIf.prien = true → exec (.atsTranslationCompletion asid page none) s =
         .next { s with hostIf := { s.hostIf with pri := s.hostIf.pri ++ [r] } })) ∧
     (r ∉ s.hostIf.asked ∨ r ∈ s.hostIf.pri → ∀ g, exec (.atsTranslationCompletion asid page g) s = .next s) ∧
     (r ∈ s.hostIf.pri.take 32 →
       (r ∈ s.hostIf.asked → failed (.priResponse asid page false) ∧ failed (.priTimeout asid page)) ∧
       ∃ u, exec (.priResponse asid page true) s = .next u ∧ r ∉ u.hostIf.pri ∧ u.hostIf.asked = s.hostIf.asked ∧
         u.hostIf.failed = s.hostIf.failed ∧ u.mem = s.mem ∧ u.harts = s.harts) ∧
     (r ∉ s.hostIf.pri.take 32 → (∀ ok, exec (.priResponse asid page ok) s = .next s) ∧
       exec (.priTimeout asid page) s = .next s) ∧
     (∀ count, ∃ u, exec (.atsInvalidate asid page count) s = .next u ∧ u.harts = s.harts ∧
       (∀ e, e ∈ u.hostIf.atc ↔ e ∈ s.hostIf.atc ∧ ¬ (e.1.1 = asid ∧ page ≤ e.1.2 ∧ e.1.2 < page + count)) ∧
       (∀ d ∈ u.delayed, d ∈ s.delayed ∧ (s.hart d.hart).space ≠ asid) ∧ (s.delayed = [] → u.mem = s.mem)))

/-- R453, R455, R456, R460, R464: the commands of the mailbox answer with a RESULT and a DETAIL: an image is begun,
filled, judged by the checks in their order, booted, or abandoned, and the log is read; while RESULT is busy a command
does nothing.

R115, R117, R454, R465: the key commands load, generate and clear a slot other than 0, from level 1 on, and free
the reservations under it; the attestation record starts with the caller's nonce and carries a signature of all that
comes before.

R452, R456, R457, R460, R451, R453, R458: power-on leaves the module at level 0 with every hart idle and its memory
gone, and keeps the fuses and what is outside it; training brings level 2 or its failure is told; a handover ends with
the new slot active, or with the old one when it takes too long, and the latched doorbells take effect; a register
write reaches the register that stands at its offset. At level 0 nothing but the mailbox answers a read, and the
configuration space gives device ID 0x0224.

The model's readings and choices: the width of KEYID and LENGTH, the state that a failed VERIFY leaves, a VERIFY straight
after BEGIN, the answers of BOOT and BEGIN outside their order, and the Watershed flags (log 25); the offsets of the register
spaces (log 13).

R418, R462, R463: a placed hart whose watchdog has run to its limit is told first; then its gang is saved, or
ended where no image fits; when its limit passes again the tile is set aside; then the island is reset with what runs
there; the die where that has not helped within a millisecond; and the host is asked for a reset while a die that was
reset does not train again. A sample above 105 degrees lowers the island's clock, to a frequency that the model leaves free (log 10);
one above 115 resets the die. -/
def Obligations.ManagementEvents : Prop :=
  (∀ (s : State) (arg : BitVec 32),
     let m := s.mgmt
     let k : Nat := if m.active = some 0 then 1 else 0
     let img := (m.slot k).image
     let answers (i : Instr) (r d : Nat) (Q : State → Prop) : Prop := ∃ u, exec i s = .next u ∧ u.harts = s.harts ∧
       u.mem = s.mem ∧ (fld u.mgmt.mbstat 8 8).toNat = r ∧ (fld u.mgmt.mbstat 16 16).toNat = d ∧ Q u
     (fld m.mbstat 8 8 = 1 → ∀ i ∈ [Instr.mbBegin arg, .mbChunk arg, .mbVerify arg, .mbBoot arg, .mbAbort arg, .mbLog arg,
       .keyload arg, .keygen arg, .keyclear arg, .attest arg], exec i s = .next s) ∧
     (fld m.mbstat 8 8 ≠ 1 →
       (m.stage = .idle → answers (.mbBegin arg) 0 0 (fun u => u.mgmt.stage = .loading (arg.toNat * 4096) ∧
           (u.mgmt.slot k).image = List.replicate (arg.toNat * 4096) 0 ∧ u.mgmt.slot (1 - k) = m.slot (1 - k)) ∧
         ∀ i ∈ [Instr.mbChunk arg, .mbVerify arg, .mbBoot arg, .mbAbort arg],
           answers i 2 0 (fun u => u.mgmt.slots = m.slots ∧ u.mgmt.level = m.level)) ∧
       (∀ n, m.stage = .loading n →
         let len := m.mblen.toNat % 2 ^ 32
         let off := arg.toNat * 4096
         answers (.mbBegin arg) 2 0 (fun u => u.mgmt.slots = m.slots) ∧
         (len ≤ 61440 → off + len ≤ n → answers (.mbChunk arg) 0 0 (fun u => u.mgmt.stage = .loading n ∧
           (u.mgmt.slot k).image = img.take off ++ memBytes m.window 0 len ++ img.drop (off + len))) ∧
         (61440 < len ∨ n < off + len → answers (.mbChunk arg) 3 0 (fun u => u.mgmt.slots = m.slots)) ∧
         (let keyid := leAt img 16 1
          let size := leAt img 8 8
          let sound := img.take 4 = [0x43, 0x46, 0x57, 0x01] ∧ (∀ b ∈ (img.drop 17).take 47, b = 0) ∧
            (∀ b ∈ (img.drop 160).take 96, b = 0) ∧ 256 ≤ size ∧ roundup size 4096 = n
          let known := keyid ≤ 3 ∧ m.revoked.getLsbD keyid = false
          let recent := m.svnmin ≤ leAt img 4 4
          let signed := (img.drop 64).take 32 = Config.sm3 ((img.drop 256).take (size - 256)) ∧
            Config.sm2Verify keyid (img.take 96) ((img.drop 96).take 64) = true
          let kept (u : State) : Prop := u.mgmt.stage = .loading n ∧ u.mgmt.slots = m.slots
          (sound → known → recent → signed → answers (.mbVerify arg) 0 0 (fun u => u.mgmt.stage = .verified ∧
            u.mgmt.slot k = ⟨img, true⟩)) ∧
          (¬ sound → answers (.mbVerify arg) 3 0 kept) ∧ (sound → ¬ known → answers (.mbVerify arg) 6 0 kept) ∧
          (sound → known → ¬ recent → answers (.mbVerify arg) 5 0 kept) ∧
          (sound → known → recent → ¬ signed → answers (.mbVerify arg) 4 0 kept)) ∧
         answers (.mbAbort arg) 0 0 (fun u => u.mgmt.stage = .idle ∧ (u.mgmt.slot k).image = [])) ∧
       (m.stage = .verified →
         (m.level = 0 → answers (.mbBoot arg) 0 0 (fun u => u.mgmt.level = 1 ∧ u.mgmt.active = some k ∧
           u.mgmt.stage = .idle ∧ (fld u.mgmt.mbstat 0 8).toNat = 1)) ∧
         (m.level = 1 → answers (.mbBoot arg) 9 0 (fun u => u.mgmt.level = 1 ∧ u.mgmt.stage = .verified)) ∧
         (m.level = 2 → answers (.mbBoot arg) 1 0 (fun u => u.mgmt.level = 2 ∧ u.mgmt.wshand.getLsbD 0 = true ∧
           u.mgmt.active = m.active))) ∧
       (Memory.wf m.window = true →
         let rs := (m.log.filter (fun r => !r.read)).take 960
         answers (.mbLog arg) 0 rs.length (fun u => memBytes u.mgmt.window 0 (64 * rs.length) = rs.flatMap LogRec.bytes ∧
           (∀ r ∈ u.mgmt.log, r.read = false → r ∉ rs) ∧ u.mgmt.log.length = m.log.length)))) ∧
  (∀ (s : State) (arg : BitVec 32), fld s.mgmt.mbstat 8 8 ≠ 1 →
     let m := s.mgmt
     let slot := arg.toNat % 512
     let type := arg.toNat / 512 % 4
     let len := m.mblen.toNat % 2 ^ 32
     let answers (i : Instr) (r : Nat) (Q : State → Prop) : Prop := ∃ u, exec i s = .next u ∧
       (fld u.mgmt.mbstat 8 8).toNat = r ∧ Q u
     let changed (K : KeySlot) (u : State) : Prop := u.key slot = K ∧ (∀ k, k ≠ slot → u.key k = s.key k) ∧
       ∀ (d : Fin 8), ∀ e ∈ (u.landing d).entries, e.2.key ≠ slot
     let same (u : State) : Prop := u.keys = s.keys ∧ u.mem = s.mem
     (m.level = 0 → ∀ i ∈ [Instr.keyload arg, .keygen arg, .keyclear arg], answers i 9 same) ∧
     (m.level ≠ 0 → len = 0 → (slot = 0 ∨ 2048 ≤ arg.toNat) → ∀ i ∈ [Instr.keygen arg, .keyclear arg], answers i 8 same) ∧
     (m.level ≠ 0 → slot ≠ 0 → arg.toNat < 2048 →
       (len = 0 → (type = 1 ∨ type = 2) → answers (.keygen arg) 0 (changed ⟨type, .fresh s.fresh⟩)) ∧
       (len = 0 → (type = 0 ∨ type = 3) → answers (.keyclear arg) 0 (changed ⟨type, .none⟩)) ∧
       ((type = 1 ∧ len = 129) ∨ (type = 2 ∧ len = 161) →
         let wrapped := memBytes m.window 0 len
         (Config.sm2Match wrapped = true →
           answers (.keyload arg) 0 (changed ⟨type, .loaded (Config.sm2Decrypt wrapped)⟩)) ∧
         (Config.sm2Match wrapped = false → answers (.keyload arg) 8 same)) ∧
       (type = 1 → len ≠ 129 → answers (.keyload arg) 3 same)) ∧
     (len ≠ 32 → answers (.attest arg) 3 same) ∧
     (len = 32 → arg ≠ 0 → answers (.attest arg) 8 same) ∧
     (len = 32 → arg = 0 → Memory.wf m.window = true → answers (.attest arg) 0 (fun u => same u ∧ u.mgmt.mblen = 256 ∧
       memBytes u.mgmt.window 0 32 = memBytes m.window 0 32 ∧
       ∃ body, body.length = 192 ∧ memBytes u.mgmt.window 0 256 =
         body ++ (Config.sm2Sign body ++ List.replicate 64 0).take 64))) ∧
  (∀ (s : State),
     let m := s.mgmt
     (Memory.wf s.mem = true → ∃ u, exec .powerOn s = .next u ∧ u.mgmt.level = 0 ∧ (∀ h, u.hart h = Hart.reset) ∧
       (∀ a, memByte u.mem a = if 2 ^ 60 ≤ a then memByte s.mem a else 0) ∧ (u.key 0).state = 2 ∧
       (∀ k, k ≠ 0 → (u.key k).state = 0) ∧ u.gangs = [] ∧ u.mgmt.svnmin = m.svnmin ∧ u.mgmt.revoked = m.revoked) ∧
     (∀ part : BitVec 16, m.level = 1 →
       (∃ u, exec (.trainingComplete true part) s = .next u ∧ u.mgmt.level = 2 ∧ u.portsUp = 0xFFFF#16 ∧ u.harts = s.harts) ∧
       (∃ u, exec (.trainingComplete false part) s = .next u ∧ u.mgmt.level = 1 ∧ (fld u.mgmt.mbstat 8 8).toNat = 7 ∧
         (fld u.mgmt.mbstat 16 16).toNat = part.toNat ∧ u.mgmt.logSeq = m.logSeq + 1 ∧ u.harts = s.harts)) ∧
     (∀ part : BitVec 16, m.level = 2 → exec (.trainingComplete false part) s = .next s ∧
       ∃ u, exec (.trainingComplete true part) s = .next u ∧ u.harts = s.harts ∧ u.mgmt = m ∧
         ∀ d, u.die d = { s.die d with retraining := false }) ∧
     (∀ off : Nat, (s.cfgRead 0).toNat / 65536 = 0x0224 ∧ (m.level = 0 → off < 2 ^ 44 ∨ 2 ^ 44 + 0x10000 ≤ off →
       s.hostRead off = none)) ∧
     (m.wshand.getLsbD 0 = true →
       (∃ u, exec .handoverReady s = .next u ∧ u.mgmt.active = some (if m.active = some 0 then 1 else 0) ∧
         u.mgmt.wshand.getLsbD 0 = false ∧ u.mgmt.wshand.getLsbD 2 = true ∧ (fld u.mgmt.mbstat 8 8).toNat = 0 ∧
         (∀ q, (u.pair q).latched = []) ∧ u.harts = s.harts) ∧
       (∃ u, exec .handoverTimeout s = .next u ∧ u.mgmt.active = m.active ∧ u.mgmt.wshand.getLsbD 0 = false ∧
         (fld u.mgmt.mbstat 8 8).toNat = 7 ∧ (∀ q, (u.pair q).latched = []) ∧ u.harts = s.harts)) ∧
     (m.wshand.getLsbD 0 = false → exec .handoverReady s = .next s ∧ exec .handoverTimeout s = .next s) ∧
     (∀ core : Fin 4, exec (.wskick core) s = .next { s with mgmt := { m with wskick := m.wskick.set core.val true } } ∧
       exec (.watershedWatchdogExpiry core) s = .next { s with mgmt := { m with wskick := m.wskick.set core.val false } }) ∧
     (∀ v : Word, exec (.registerWrite (2 ^ 44 + 0x10) v) s = .next { s with mgmt := { m with mblen := v &&& 0xFFFFFFFF#64 } } ∧
       (fld v 0 8 = 1 → exec (.registerWrite (2 ^ 44) v) s = exec (.mbBegin (fld v 8 32)) s) ∧
       (m.level = 0 → ∀ off, off < 2 ^ 44 ∨ 2 ^ 44 + 0x10000 ≤ off → exec (.registerWrite off v) s = .next s) ∧
       (m.level ≠ 0 →
         exec (.registerWrite 0 v) s = .next { s with mgmt := { m with modid := v } } ∧
         (∀ e < 4096, ∃ u, exec (.registerWrite (0x30000 + 16 * e) v) s = .next u ∧
           (u.routeOf e).route = v &&& 0x3FFFF#64 ∧ (u.routeOf e).pending = (s.routeOf e).pending ∧
           ∀ k, k ≠ e → u.routeOf k = s.routeOf k) ∧
         (∀ p : BitVec 6, exec (.registerWrite (2 ^ 45 + 0x1000 + 32 * p.toNat) v) s = exec (.sqdb p v) s ∧
           exec (.registerWrite (2 ^ 45 + 0x4000 + 64 * p.toNat + 16) v) s = exec (.qcfgEnable p v) s)))) ∧
  (∀ (s : State) (h : HartId) (t : Fin 224) (d : Fin 4),
     let H := s.hart h
     let lim (k : HartId) : Nat := (fld (s.die (dieOf (tileOf k))).wdcfg 0 48).toNat
     let past (k : HartId) (n : Nat) : Prop := lim k ≠ 0 ∧ (s.hart k).run ≠ .idle ∧ lim k + n ≤ (s.hart k).watchdog
     let due := past h 0
     let unsaved (k : HartId) : Prop := past k (lim k) ∧ (s.hart k).ladder = 1
     let stuck (k : HartId) (n : Nat) : Prop := past k n ∧ (s.hart k).ladder = 3
     let ms (k : HartId) : Nat := 1000 * s.mgmt.islands[(tileOf k).val]?.getD 450
     (due → H.ladder = 0 → ∃ u, exec (.watchdogNotice h) s = .next u ∧ u.mem = s.mem ∧ u.mgmt.logSeq = s.mgmt.logSeq + 1 ∧
       u.hart h = { H with watchdog := 0, ladder := 1, csr := { H.csr with sstat := setBit H.csr.sstat 27 true } } ∧
       ∀ k, k ≠ h → u.hart k = s.hart k) ∧
     (¬ due → exec (.watchdogNotice h) s = .next s ∧ exec (.watchdogSave h) s = .next s) ∧
     (∀ (G : Gang) (r : Nat), due → H.ladder = 1 → s.gangOf h = some (G, r) →
       (s.slotsFor G = true → ∃ u, exec (.watchdogSave h) s = .next u ∧
         (∀ K, u.gang? G.id = some K → K.running = false) ∧ u.mgmt.logSeq = s.mgmt.logSeq + 1) ∧
       (s.slotsFor G = false → ∃ u, exec (.watchdogSave h) s = .next u ∧ u.gang? G.id = none ∧
         s.mgmt.logSeq < u.mgmt.logSeq)) ∧
     ((∃ k, tileOf k = t ∧ unsaved k) →
       ∃ u, exec (.tileQuarantine t) s = .next u ∧ u.tile t = { s.tile t with quarantined := true } ∧
       (∀ k, k ≠ t → u.tile k = s.tile k) ∧ u.mgmt.logSeq = s.mgmt.logSeq + 1 ∧
       (∀ k, tileOf k = t → unsaved k → u.hart k = { s.hart k with watchdog := 0, ladder := 3 }) ∧
       ∀ k, ¬ (tileOf k = t ∧ unsaved k) → u.hart k = s.hart k) ∧
     ((∀ k, tileOf k = t → ¬ unsaved k) → exec (.tileQuarantine t) s = .next s) ∧
     (∃ u, exec (.tileReturn t) s = .next u ∧ u.tile t = { s.tile t with quarantined := false } ∧
       (∀ k, k ≠ t → u.tile k = s.tile k) ∧ u.harts = s.harts) ∧
     ((∀ k, tileOf k = t → ¬ stuck k 0) → exec (.islandReset t) s = .next s) ∧
     ((∃ k, tileOf k = t ∧ stuck k 0) →
       ∃ u, exec (.islandReset t) s = .next u ∧ (∀ k, tileOf k = t → u.hart k = Hart.reset) ∧
       u.tile t = { Tile.reset with quarantined := (s.tile t).quarantined } ∧
       (∀ G ∈ s.gangs, (∃ m ∈ G.members, m.saved = none ∧ tileOf m.ctx = t) → ∀ K ∈ u.gangs, K.id ≠ G.id)) ∧
     ((∀ k, dieOf (tileOf k) = d → ¬ stuck k (min (ms k) (lim k))) → exec (.dieReset d) s = .next s) ∧
     ((∃ k, dieOf (tileOf k) = d ∧ stuck k (min (ms k) (lim k))) →
       ∃ u, exec (.dieReset d) s = .next u ∧ (∀ k, dieOf (tileOf k) = d → u.hart k = Hart.reset) ∧
       u.die d = { Die.reset with retraining := true } ∧
       (∀ G ∈ s.gangs, (∃ m ∈ G.members, m.saved = none ∧ dieOf (tileOf m.ctx) = d) → ∀ K ∈ u.gangs, K.id ≠ G.id) ∧
       ∀ (l : Fin 8), ∀ e ∈ (u.landing l).entries, e.2.remote = false → e.2.tile / 56 ≠ d.val) ∧
     ((s.die d).retraining = false → exec (.resetRequest d) s = .next s) ∧
     ((s.die d).retraining = true → ∃ u, exec (.resetRequest d) s = .next u ∧ u.harts = s.harts ∧ u.tiles = s.tiles ∧ u.dies = s.dies ∧
       u.mgmt.logSeq = s.mgmt.logSeq + 1) ∧
     (∀ x : Sample, s.mgmt.level ≠ 0 →
       let i := x.island.val
       let f := s.mgmt.islands[i]?.getD 450
       ∃ u, exec (.telemetrySample [x]) s = .next u ∧ u.mgmt.temps[i]? = some x.celsius ∧ u.mgmt.sensed[i]? = some x.mv ∧
         (x.celsius ≤ 105 → u.mgmt.islands = s.mgmt.islands ∧ u.harts = s.harts) ∧
         (105 < x.celsius → 500 ≤ f → ∃ g, u.mgmt.islands[i]? = some g ∧ 450 ≤ g ∧ g < f ∧ g % 50 = 0) ∧
         (x.celsius ≤ 115 → u.harts = s.harts) ∧
         (115 < x.celsius → islandDie i = some d → ∀ k, dieOf (tileOf k) = d → u.hart k = Hart.reset)))

/-- R196, R218, R296, R383, R384: the island cycle in which a timer steps from 1 to 0 makes its interrupt pending; a waiting hart runs its
instruction again, at once or when the limit of its wait has passed; an `mpair` that finds no match in time answers
3.

R440, R441, R442: a halt is asked of a placed hart and acknowledged at its boundary, where its stream entries go
SUSPENDED and DBGPC takes its PC; a resume runs it at DBGPC; and the commands of the debug module on a halted hart
read and write a register, and save and restore its image. A command on a hart that is not halted answers 2. That a
restored image also sets PC, the privilege level and DBGPC, and that an image range which cannot be reached gives result 3, is
the model's reading (log 23). -/
def Obligations.WaitAndDebugEvents : Prop :=
  (∀ (s : State) (h : HartId),
     let H := s.hart h
     let again (u : State) : Prop := u = { s.updHart h (fun H => { H with run := .running }) with cur := h }
     (H.csr.timer = 1 → H.run ≠ .halted → ∃ u, exec (.timerExpiry h) s = .next u ∧ u.mem = s.mem ∧
       (u.hart h).csr = { H.csr with timer := 0, sstat := setBit H.csr.sstat 24 true, cycle := H.csr.cycle + 1 } ∧
       (u.hart h).x = H.x ∧ (u.hart h).pc = H.pc ∧ (u.hart h).run = H.run ∧
       (∀ k, tileOf k = tileOf h → (u.hart k).csr.cycle = (s.hart k).csr.cycle + 1) ∧
       ∀ k, tileOf k ≠ tileOf h → u.hart k = s.hart k) ∧
     (H.csr.timer ≠ 1 → exec (.timerExpiry h) s = .next s) ∧
     (H.run = .waiting → ∃ u, exec (.waitResume h) s = .next u ∧ again u) ∧
     (H.run ≠ .waiting → ∀ i ∈ [Instr.waitResume h, .barWaitRecheck h, .vwaitRecheck h, .vwaitTimeout h],
       exec i s = .next s) ∧
     (∀ a, H.run = .waiting → H.wait = .bar a → ∃ u, exec (.barWaitRecheck h) s = .next u ∧ again u) ∧
     (∀ limit, H.run = .waiting → H.wait = .vwait limit →
       (∃ u, exec (.vwaitRecheck h) s = .next u ∧ again u) ∧
       (limit ≠ 0 → limit.toNat ≤ H.waited → ∃ u, exec (.vwaitTimeout h) s = .next u ∧ again u) ∧
       (limit = 0 ∨ H.waited < limit.toNat → exec (.vwaitTimeout h) s = .next s)) ∧
     (∀ d a, H.run = .waiting → H.wait = .mpair d a →
       (1048576 ≤ H.waited → ∃ u, exec (.mpairTimeout h) s = .next u ∧ (u.hart h).pc = H.pc + 4 ∧
         (u.hart h).run = .running ∧ (u.hart h).getX d = (if d = 0 then 0 else 3) ∧
         (∀ r, r ≠ d → (u.hart h).getX r = H.getX r) ∧ (u.hart h).csr = H.csr ∧ (∀ k, k ≠ h → u.hart k = s.hart k) ∧
         u.mem = s.mem) ∧
       (H.waited < 1048576 → exec (.mpairTimeout h) s = .next s))) ∧
  (∀ (s : State) (h : HartId) (n : BitVec 16),
     let H := s.hart h
     let halted := H.run = .halted ∧ H.dbg.stat.getLsbD 0 = true
     let result (u : State) (r : Nat) : Prop := (fld (u.hart h).dbg.cmd 20 2).toNat = r ∧ ∀ k, k ≠ h → u.hart k = s.hart k
     (H.run = .running ∨ H.run = .waiting →
       exec (.haltreq h) s = .next (s.updHart h (fun H => { H with dbg := { H.dbg with haltReq := true } })) ∧
       (H.dbg.haltReq = true → ∃ u, exec (.haltAck h) s = .next u ∧ (u.hart h).run = .halted ∧ (u.hart h).dbg.pc = H.pc ∧
         (u.hart h).pc = H.pc ∧ (u.hart h).dbg.haltReq = false ∧ (u.hart h).dbg.stat.getLsbD 0 = true ∧
         (fld (u.hart h).dbg.stat 2 2).toNat = 0 ∧ (u.hart h).x = H.x ∧ u.mem = s.mem ∧
         (∀ k < 16, (H.stream k).cfg = true → (H.stream k).stopAt = none → ∀ (d : Fin 8) (e : Nat × Rsv),
           (d.val, e.1) ∈ (H.stream k).entryRefs → e ∈ (u.landing d).entries → e.2.state = 1) ∧
         ∀ k, k ≠ h → u.hart k = s.hart k)) ∧
     (H.run = .idle → exec (.haltreq h) s = .next s ∧ exec (.haltAck h) s = .next s ∧
       exec (.dbgcmdRead h n) s = .next s ∧ exec (.dbgcmdWrite h n) s = .next s) ∧
     (halted → ∃ u, exec (.resumereq h) s = .next u ∧ (u.hart h).run = .running ∧ (u.hart h).dbg.stat = 0 ∧
       (u.hart h).pc = (if (fld H.dbg.stat 2 2).toNat = 1 ∧ H.dbg.pc = H.pc then H.dbg.pc + 4 else H.dbg.pc) ∧
       (u.hart h).dbg.stepping = H.dbg.ctl.getLsbD 4 ∧ (u.hart h).x = H.x ∧ u.mem = s.mem ∧ ∀ k, k ≠ h → u.hart k = s.hart k) ∧
     (halted →
       (∀ r : Reg, n.toNat = r.toNat →
         (∃ u, exec (.dbgcmdRead h n) s = .next u ∧ result u 0 ∧ (u.hart h).dbg.data = H.getX r ∧ (u.hart h).x = H.x) ∧
         (∃ u, exec (.dbgcmdWrite h n) s = .next u ∧ result u 0 ∧ (u.hart h).getX r = (if r = 0 then 0 else H.dbg.data) ∧
           ∀ q, q ≠ r → (u.hart h).getX q = H.getX q)) ∧
       (∀ r : Reg, n.toNat = 32 + r.toNat →
         (∃ u, exec (.dbgcmdRead h n) s = .next u ∧ result u 0 ∧ (u.hart h).dbg.data = H.getF r) ∧
         (∃ u, exec (.dbgcmdWrite h n) s = .next u ∧ result u 0 ∧ (u.hart h).getF r = H.dbg.data)) ∧
       (∀ c, n.toNat = 0x1000 + c → csrLegal true c false = true →
         ∃ u, exec (.dbgcmdRead h n) s = .next u ∧ result u 0 ∧ (u.hart h).dbg.data = s.csrRead h c) ∧
       (64 ≤ n.toNat → n.toNat < 0x1000 → ∀ i ∈ [Instr.dbgcmdRead h n, .dbgcmdWrite h n], ∃ u, exec i s = .next u ∧
         result u 3 ∧ (u.hart h).x = H.x)) ∧
     (H.run = .running ∨ H.run = .waiting → ∀ i ∈ [Instr.dbgcmdRead h n, .dbgcmdWrite h n], ∃ u, exec i s = .next u ∧
       result u 2 ∧ (u.hart h).x = H.x) ∧
     (halted → (fld H.dbg.cmd 20 2).toNat = 1 → H.banks = 0 → Memory.wf s.mem = true →
       (∀ k < 4, (H.port k).items = [] ∧ (H.port k).flight = []) →
       let base := H.dbg.data.toNat
       let key := (s.die (dieOf (tileOf h))).poolKey.toNat
       s.imageOk base 540672 key = true →
       ((fld H.dbg.cmd 0 4).toNat = 3 → ∃ u, exec (.dbgcmdSaveImage h) s = .next u ∧ result u 0 ∧
         natOf (u.bytesUnder base key 8) = H.pc.toNat ∧
         (∀ r : Reg, r ≠ 0 → natOf (u.bytesUnder (base + 0x40 + 8 * r.toNat) key 8) = (H.getX r).toNat) ∧
         (∀ a, a + 32 ≤ base ∨ base + 540672 ≤ a → u.byteUnder a key = s.byteUnder a key) ∧ (u.hart h).x = H.x) ∧
       ((fld H.dbg.cmd 0 4).toNat = 4 → s.poisoned base 540672 = false → ∃ u, exec (.dbgcmdRestoreImage h) s = .next u ∧
         result u 0 ∧ u.mem = s.mem ∧ (u.hart h).pc = BitVec.ofNat 64 (natOf (s.bytesUnder base key 8)) &&& ~~~3#64 ∧
         (u.hart h).dbg.pc = (u.hart h).pc ∧
         ∀ r : Reg, r ≠ 0 → (u.hart h).getX r = BitVec.ofNat 64 (natOf (s.bytesUnder (base + 0x40 + 8 * r.toNat) key 8)))) ∧
     (halted → (fld H.dbg.cmd 20 2).toNat = 1 → H.banks = 0 →
       s.imageOk H.dbg.data.toNat 540672 ((s.die (dieOf (tileOf h))).poolKey.toNat) = false →
       ((fld H.dbg.cmd 0 4).toNat = 3 → ∃ u, exec (.dbgcmdSaveImage h) s = .next u ∧ result u 3 ∧ u.mem = s.mem) ∧
       ((fld H.dbg.cmd 0 4).toNat = 4 → ∃ u, exec (.dbgcmdRestoreImage h) s = .next u ∧ result u 3 ∧ u.mem = s.mem)))
end

