-- ==== Sys2Proof/Laws/State.lean ====
section
/-!
SUPPORT. One lemma for each field and each update of the state and of a hart, and what reading a hart or a
register after an update gives.
-/

namespace Sys2Proof.Machine

/-! ### A hart, a tile, a die or a landing die after an update -/

@[simp] theorem hart_updHart_same (s : State) (h : HartId) (f : Hart → Hart) :
    (s.updHart h f).hart h = f (s.hart h) := by
  simp [State.hart, State.updHart]

theorem hart_updHart_ne (s : State) (h k : HartId) (f : Hart → Hart) (hk : k ≠ h) :
    (s.updHart h f).hart k = s.hart k := by
  have : h.val ≠ k.val := fun e => hk (Fin.ext e.symm)
  simp [State.hart, State.updHart, this]

@[simp] theorem me_updMe (s : State) (f : Hart → Hart) : (s.updMe f).me = f s.me :=
  hart_updHart_same s s.cur f

theorem hart_updMe_ne (s : State) (k : HartId) (f : Hart → Hart) (hk : k ≠ s.cur) :
    (s.updMe f).hart k = s.hart k := hart_updHart_ne s s.cur k f hk

@[simp] theorem tile_updTile_same (s : State) (t : Fin 224) (f : Tile → Tile) :
    (s.updTile t f).tile t = f (s.tile t) := by
  simp [State.tile, State.updTile]

theorem tile_updTile_ne (s : State) (t u : Fin 224) (f : Tile → Tile) (hu : u ≠ t) :
    (s.updTile t f).tile u = s.tile u := by
  have : t.val ≠ u.val := fun e => hu (Fin.ext e.symm)
  simp [State.tile, State.updTile, this]

@[simp] theorem die_updDie_same (s : State) (d : Fin 4) (f : Die → Die) :
    (s.updDie d f).die d = f (s.die d) := by
  simp [State.die, State.updDie]

@[simp] theorem landing_updLanding_same (s : State) (d : Fin 8) (f : Landing → Landing) :
    (s.updLanding d f).landing d = f (s.landing d) := by
  simp [State.landing, State.updLanding]

/-! ### Registers -/

@[simp] theorem getX_zero (H : Hart) : H.getX 0 = 0 := rfl

theorem getX_setX_same (H : Hart) (r : Reg) (w : Word) (hr : r ≠ 0) : (H.setX r w).getX r = w := by
  unfold Hart.getX Hart.setX
  rw [if_neg hr, if_neg hr]
  simp

theorem getX_setX_ne (H : Hart) (r q : Reg) (w : Word) (hq : q ≠ r) : (H.setX r w).getX q = H.getX q := by
  have : r.toNat ≠ q.toNat := fun e => hq (BitVec.eq_of_toNat_eq e.symm)
  unfold Hart.getX Hart.setX
  split
  · rfl
  · split
    · rfl
    · simp [this]

@[simp] theorem setX_zero (H : Hart) (w : Word) : H.setX 0 w = H := rfl

@[simp] theorem getF_setF_same (H : Hart) (r : Reg) (w : Word) : (H.setF r w).getF r = w := by
  simp [Hart.getF, Hart.setF]

theorem getF_setF_ne (H : Hart) (r q : Reg) (w : Word) (hq : q ≠ r) : (H.setF r w).getF q = H.getF q := by
  have : r.toNat ≠ q.toNat := fun e => hq (BitVec.eq_of_toNat_eq e.symm)
  simp [Hart.getF, Hart.setF, this]

/-! ### A hart replaced -/

@[simp] theorem updHart_cur (s : State) (h : HartId) (f : Hart → Hart) :
    (s.updHart h f).cur = s.cur := rfl
@[simp] theorem updHart_agenda (s : State) (h : HartId) (f : Hart → Hart) :
    (s.updHart h f).agenda = s.agenda := rfl
@[simp] theorem updHart_fresh (s : State) (h : HartId) (f : Hart → Hart) :
    (s.updHart h f).fresh = s.fresh := rfl
@[simp] theorem updHart_focus (s : State) (h : HartId) (f : Hart → Hart) :
    (s.updHart h f).focus = s.focus := rfl
@[simp] theorem updHart_spots (s : State) (h : HartId) (f : Hart → Hart) :
    (s.updHart h f).spots = s.spots := rfl
@[simp] theorem updHart_mem (s : State) (h : HartId) (f : Hart → Hart) :
    (s.updHart h f).mem = s.mem := rfl
@[simp] theorem updHart_sectorKey (s : State) (h : HartId) (f : Hart → Hart) :
    (s.updHart h f).sectorKey = s.sectorKey := rfl
@[simp] theorem updHart_delayed (s : State) (h : HartId) (f : Hart → Hart) :
    (s.updHart h f).delayed = s.delayed := rfl
@[simp] theorem updHart_early (s : State) (h : HartId) (f : Hart → Hart) :
    (s.updHart h f).early = s.early := rfl
@[simp] theorem updHart_rels (s : State) (h : HartId) (f : Hart → Hart) :
    (s.updHart h f).rels = s.rels := rfl
@[simp] theorem updHart_poison (s : State) (h : HartId) (f : Hart → Hart) :
    (s.updHart h f).poison = s.poison := rfl
@[simp] theorem updHart_full (s : State) (h : HartId) (f : Hart → Hart) :
    (s.updHart h f).full = s.full := rfl
@[simp] theorem updHart_tierGiB (s : State) (h : HartId) (f : Hart → Hart) :
    (s.updHart h f).tierGiB = s.tierGiB := rfl
@[simp] theorem updHart_hdmWays (s : State) (h : HartId) (f : Hart → Hart) :
    (s.updHart h f).hdmWays = s.hdmWays := rfl
@[simp] theorem updHart_hostBytes (s : State) (h : HartId) (f : Hart → Hart) :
    (s.updHart h f).hostBytes = s.hostBytes := rfl
@[simp] theorem updHart_peerWin (s : State) (h : HartId) (f : Hart → Hart) :
    (s.updHart h f).peerWin = s.peerWin := rfl
@[simp] theorem updHart_inboundKey (s : State) (h : HartId) (f : Hart → Hart) :
    (s.updHart h f).inboundKey = s.inboundKey := rfl
@[simp] theorem updHart_keys (s : State) (h : HartId) (f : Hart → Hart) :
    (s.updHart h f).keys = s.keys := rfl
@[simp] theorem updHart_hostIf (s : State) (h : HartId) (f : Hart → Hart) :
    (s.updHart h f).hostIf = s.hostIf := rfl
@[simp] theorem updHart_tiles (s : State) (h : HartId) (f : Hart → Hart) :
    (s.updHart h f).tiles = s.tiles := rfl
@[simp] theorem updHart_dies (s : State) (h : HartId) (f : Hart → Hart) :
    (s.updHart h f).dies = s.dies := rfl
@[simp] theorem updHart_landings (s : State) (h : HartId) (f : Hart → Hart) :
    (s.updHart h f).landings = s.landings := rfl
@[simp] theorem updHart_dir (s : State) (h : HartId) (f : Hart → Hart) :
    (s.updHart h f).dir = s.dir := rfl
@[simp] theorem updHart_gangs (s : State) (h : HartId) (f : Hart → Hart) :
    (s.updHart h f).gangs = s.gangs := rfl
@[simp] theorem updHart_records (s : State) (h : HartId) (f : Hart → Hart) :
    (s.updHart h f).records = s.records := rfl
@[simp] theorem updHart_nextId (s : State) (h : HartId) (f : Hart → Hart) :
    (s.updHart h f).nextId = s.nextId := rfl
@[simp] theorem updHart_tokens (s : State) (h : HartId) (f : Hart → Hart) :
    (s.updHart h f).tokens = s.tokens := rfl
@[simp] theorem updHart_capsules (s : State) (h : HartId) (f : Hart → Hart) :
    (s.updHart h f).capsules = s.capsules := rfl
@[simp] theorem updHart_rsvOut (s : State) (h : HartId) (f : Hart → Hart) :
    (s.updHart h f).rsvOut = s.rsvOut := rfl
@[simp] theorem updHart_rsvSeq (s : State) (h : HartId) (f : Hart → Hart) :
    (s.updHart h f).rsvSeq = s.rsvSeq := rfl
@[simp] theorem updHart_rsvIn (s : State) (h : HartId) (f : Hart → Hart) :
    (s.updHart h f).rsvIn = s.rsvIn := rfl
@[simp] theorem updHart_outbox (s : State) (h : HartId) (f : Hart → Hart) :
    (s.updHart h f).outbox = s.outbox := rfl
@[simp] theorem updHart_peerHeld (s : State) (h : HartId) (f : Hart → Hart) :
    (s.updHart h f).peerHeld = s.peerHeld := rfl
@[simp] theorem updHart_mgmt (s : State) (h : HartId) (f : Hart → Hart) :
    (s.updHart h f).mgmt = s.mgmt := rfl
@[simp] theorem updHart_pairs (s : State) (h : HartId) (f : Hart → Hart) :
    (s.updHart h f).pairs = s.pairs := rfl
@[simp] theorem updHart_evqs (s : State) (h : HartId) (f : Hart → Hart) :
    (s.updHart h f).evqs = s.evqs := rfl
@[simp] theorem updHart_routes (s : State) (h : HartId) (f : Hart → Hart) :
    (s.updHart h f).routes = s.routes := rfl
@[simp] theorem updHart_portsUp (s : State) (h : HartId) (f : Hart → Hart) :
    (s.updHart h f).portsUp = s.portsUp := rfl
@[simp] theorem updHart_loaded (s : State) (h : HartId) (f : Hart → Hart) :
    (s.updHart h f).loaded = s.loaded := rfl
@[simp] theorem updHart_loadReport (s : State) (h : HartId) (f : Hart → Hart) :
    (s.updHart h f).loadReport = s.loadReport := rfl

/-! ### The hart whose turn it is replaced -/

@[simp] theorem updMe_cur (s : State) (f : Hart → Hart) :
    (s.updMe f).cur = s.cur := rfl
@[simp] theorem updMe_agenda (s : State) (f : Hart → Hart) :
    (s.updMe f).agenda = s.agenda := rfl
@[simp] theorem updMe_fresh (s : State) (f : Hart → Hart) :
    (s.updMe f).fresh = s.fresh := rfl
@[simp] theorem updMe_focus (s : State) (f : Hart → Hart) :
    (s.updMe f).focus = s.focus := rfl
@[simp] theorem updMe_spots (s : State) (f : Hart → Hart) :
    (s.updMe f).spots = s.spots := rfl
@[simp] theorem updMe_mem (s : State) (f : Hart → Hart) :
    (s.updMe f).mem = s.mem := rfl
@[simp] theorem updMe_sectorKey (s : State) (f : Hart → Hart) :
    (s.updMe f).sectorKey = s.sectorKey := rfl
@[simp] theorem updMe_delayed (s : State) (f : Hart → Hart) :
    (s.updMe f).delayed = s.delayed := rfl
@[simp] theorem updMe_early (s : State) (f : Hart → Hart) :
    (s.updMe f).early = s.early := rfl
@[simp] theorem updMe_rels (s : State) (f : Hart → Hart) :
    (s.updMe f).rels = s.rels := rfl
@[simp] theorem updMe_poison (s : State) (f : Hart → Hart) :
    (s.updMe f).poison = s.poison := rfl
@[simp] theorem updMe_full (s : State) (f : Hart → Hart) :
    (s.updMe f).full = s.full := rfl
@[simp] theorem updMe_tierGiB (s : State) (f : Hart → Hart) :
    (s.updMe f).tierGiB = s.tierGiB := rfl
@[simp] theorem updMe_hdmWays (s : State) (f : Hart → Hart) :
    (s.updMe f).hdmWays = s.hdmWays := rfl
@[simp] theorem updMe_hostBytes (s : State) (f : Hart → Hart) :
    (s.updMe f).hostBytes = s.hostBytes := rfl
@[simp] theorem updMe_peerWin (s : State) (f : Hart → Hart) :
    (s.updMe f).peerWin = s.peerWin := rfl
@[simp] theorem updMe_inboundKey (s : State) (f : Hart → Hart) :
    (s.updMe f).inboundKey = s.inboundKey := rfl
@[simp] theorem updMe_keys (s : State) (f : Hart → Hart) :
    (s.updMe f).keys = s.keys := rfl
@[simp] theorem updMe_hostIf (s : State) (f : Hart → Hart) :
    (s.updMe f).hostIf = s.hostIf := rfl
@[simp] theorem updMe_tiles (s : State) (f : Hart → Hart) :
    (s.updMe f).tiles = s.tiles := rfl
@[simp] theorem updMe_dies (s : State) (f : Hart → Hart) :
    (s.updMe f).dies = s.dies := rfl
@[simp] theorem updMe_landings (s : State) (f : Hart → Hart) :
    (s.updMe f).landings = s.landings := rfl
@[simp] theorem updMe_dir (s : State) (f : Hart → Hart) :
    (s.updMe f).dir = s.dir := rfl
@[simp] theorem updMe_gangs (s : State) (f : Hart → Hart) :
    (s.updMe f).gangs = s.gangs := rfl
@[simp] theorem updMe_records (s : State) (f : Hart → Hart) :
    (s.updMe f).records = s.records := rfl
@[simp] theorem updMe_nextId (s : State) (f : Hart → Hart) :
    (s.updMe f).nextId = s.nextId := rfl
@[simp] theorem updMe_tokens (s : State) (f : Hart → Hart) :
    (s.updMe f).tokens = s.tokens := rfl
@[simp] theorem updMe_capsules (s : State) (f : Hart → Hart) :
    (s.updMe f).capsules = s.capsules := rfl
@[simp] theorem updMe_rsvOut (s : State) (f : Hart → Hart) :
    (s.updMe f).rsvOut = s.rsvOut := rfl
@[simp] theorem updMe_rsvSeq (s : State) (f : Hart → Hart) :
    (s.updMe f).rsvSeq = s.rsvSeq := rfl
@[simp] theorem updMe_rsvIn (s : State) (f : Hart → Hart) :
    (s.updMe f).rsvIn = s.rsvIn := rfl
@[simp] theorem updMe_outbox (s : State) (f : Hart → Hart) :
    (s.updMe f).outbox = s.outbox := rfl
@[simp] theorem updMe_peerHeld (s : State) (f : Hart → Hart) :
    (s.updMe f).peerHeld = s.peerHeld := rfl
@[simp] theorem updMe_mgmt (s : State) (f : Hart → Hart) :
    (s.updMe f).mgmt = s.mgmt := rfl
@[simp] theorem updMe_pairs (s : State) (f : Hart → Hart) :
    (s.updMe f).pairs = s.pairs := rfl
@[simp] theorem updMe_evqs (s : State) (f : Hart → Hart) :
    (s.updMe f).evqs = s.evqs := rfl
@[simp] theorem updMe_routes (s : State) (f : Hart → Hart) :
    (s.updMe f).routes = s.routes := rfl
@[simp] theorem updMe_portsUp (s : State) (f : Hart → Hart) :
    (s.updMe f).portsUp = s.portsUp := rfl
@[simp] theorem updMe_loaded (s : State) (f : Hart → Hart) :
    (s.updMe f).loaded = s.loaded := rfl
@[simp] theorem updMe_loadReport (s : State) (f : Hart → Hart) :
    (s.updMe f).loadReport = s.loadReport := rfl

/-! ### An integer register written -/

@[simp] theorem setX_cur (s : State) (r : Reg) (w : Word) :
    (s.setX r w).cur = s.cur := rfl
@[simp] theorem setX_agenda (s : State) (r : Reg) (w : Word) :
    (s.setX r w).agenda = s.agenda := rfl
@[simp] theorem setX_fresh (s : State) (r : Reg) (w : Word) :
    (s.setX r w).fresh = s.fresh := rfl
@[simp] theorem setX_focus (s : State) (r : Reg) (w : Word) :
    (s.setX r w).focus = s.focus := rfl
@[simp] theorem setX_spots (s : State) (r : Reg) (w : Word) :
    (s.setX r w).spots = s.spots := rfl
@[simp] theorem setX_mem (s : State) (r : Reg) (w : Word) :
    (s.setX r w).mem = s.mem := rfl
@[simp] theorem setX_sectorKey (s : State) (r : Reg) (w : Word) :
    (s.setX r w).sectorKey = s.sectorKey := rfl
@[simp] theorem setX_delayed (s : State) (r : Reg) (w : Word) :
    (s.setX r w).delayed = s.delayed := rfl
@[simp] theorem setX_early (s : State) (r : Reg) (w : Word) :
    (s.setX r w).early = s.early := rfl
@[simp] theorem setX_rels (s : State) (r : Reg) (w : Word) :
    (s.setX r w).rels = s.rels := rfl
@[simp] theorem setX_poison (s : State) (r : Reg) (w : Word) :
    (s.setX r w).poison = s.poison := rfl
@[simp] theorem setX_full (s : State) (r : Reg) (w : Word) :
    (s.setX r w).full = s.full := rfl
@[simp] theorem setX_tierGiB (s : State) (r : Reg) (w : Word) :
    (s.setX r w).tierGiB = s.tierGiB := rfl
@[simp] theorem setX_hdmWays (s : State) (r : Reg) (w : Word) :
    (s.setX r w).hdmWays = s.hdmWays := rfl
@[simp] theorem setX_hostBytes (s : State) (r : Reg) (w : Word) :
    (s.setX r w).hostBytes = s.hostBytes := rfl
@[simp] theorem setX_peerWin (s : State) (r : Reg) (w : Word) :
    (s.setX r w).peerWin = s.peerWin := rfl
@[simp] theorem setX_inboundKey (s : State) (r : Reg) (w : Word) :
    (s.setX r w).inboundKey = s.inboundKey := rfl
@[simp] theorem setX_keys (s : State) (r : Reg) (w : Word) :
    (s.setX r w).keys = s.keys := rfl
@[simp] theorem setX_hostIf (s : State) (r : Reg) (w : Word) :
    (s.setX r w).hostIf = s.hostIf := rfl
@[simp] theorem setX_tiles (s : State) (r : Reg) (w : Word) :
    (s.setX r w).tiles = s.tiles := rfl
@[simp] theorem setX_dies (s : State) (r : Reg) (w : Word) :
    (s.setX r w).dies = s.dies := rfl
@[simp] theorem setX_landings (s : State) (r : Reg) (w : Word) :
    (s.setX r w).landings = s.landings := rfl
@[simp] theorem setX_dir (s : State) (r : Reg) (w : Word) :
    (s.setX r w).dir = s.dir := rfl
@[simp] theorem setX_gangs (s : State) (r : Reg) (w : Word) :
    (s.setX r w).gangs = s.gangs := rfl
@[simp] theorem setX_records (s : State) (r : Reg) (w : Word) :
    (s.setX r w).records = s.records := rfl
@[simp] theorem setX_nextId (s : State) (r : Reg) (w : Word) :
    (s.setX r w).nextId = s.nextId := rfl
@[simp] theorem setX_tokens (s : State) (r : Reg) (w : Word) :
    (s.setX r w).tokens = s.tokens := rfl
@[simp] theorem setX_capsules (s : State) (r : Reg) (w : Word) :
    (s.setX r w).capsules = s.capsules := rfl
@[simp] theorem setX_rsvOut (s : State) (r : Reg) (w : Word) :
    (s.setX r w).rsvOut = s.rsvOut := rfl
@[simp] theorem setX_rsvSeq (s : State) (r : Reg) (w : Word) :
    (s.setX r w).rsvSeq = s.rsvSeq := rfl
@[simp] theorem setX_rsvIn (s : State) (r : Reg) (w : Word) :
    (s.setX r w).rsvIn = s.rsvIn := rfl
@[simp] theorem setX_outbox (s : State) (r : Reg) (w : Word) :
    (s.setX r w).outbox = s.outbox := rfl
@[simp] theorem setX_peerHeld (s : State) (r : Reg) (w : Word) :
    (s.setX r w).peerHeld = s.peerHeld := rfl
@[simp] theorem setX_mgmt (s : State) (r : Reg) (w : Word) :
    (s.setX r w).mgmt = s.mgmt := rfl
@[simp] theorem setX_pairs (s : State) (r : Reg) (w : Word) :
    (s.setX r w).pairs = s.pairs := rfl
@[simp] theorem setX_evqs (s : State) (r : Reg) (w : Word) :
    (s.setX r w).evqs = s.evqs := rfl
@[simp] theorem setX_routes (s : State) (r : Reg) (w : Word) :
    (s.setX r w).routes = s.routes := rfl
@[simp] theorem setX_portsUp (s : State) (r : Reg) (w : Word) :
    (s.setX r w).portsUp = s.portsUp := rfl
@[simp] theorem setX_loaded (s : State) (r : Reg) (w : Word) :
    (s.setX r w).loaded = s.loaded := rfl
@[simp] theorem setX_loadReport (s : State) (r : Reg) (w : Word) :
    (s.setX r w).loadReport = s.loadReport := rfl

/-! ### A floating-point register written -/

@[simp] theorem setF_cur (s : State) (r : Reg) (w : Word) :
    (s.setF r w).cur = s.cur := rfl
@[simp] theorem setF_agenda (s : State) (r : Reg) (w : Word) :
    (s.setF r w).agenda = s.agenda := rfl
@[simp] theorem setF_fresh (s : State) (r : Reg) (w : Word) :
    (s.setF r w).fresh = s.fresh := rfl
@[simp] theorem setF_focus (s : State) (r : Reg) (w : Word) :
    (s.setF r w).focus = s.focus := rfl
@[simp] theorem setF_spots (s : State) (r : Reg) (w : Word) :
    (s.setF r w).spots = s.spots := rfl
@[simp] theorem setF_mem (s : State) (r : Reg) (w : Word) :
    (s.setF r w).mem = s.mem := rfl
@[simp] theorem setF_sectorKey (s : State) (r : Reg) (w : Word) :
    (s.setF r w).sectorKey = s.sectorKey := rfl
@[simp] theorem setF_delayed (s : State) (r : Reg) (w : Word) :
    (s.setF r w).delayed = s.delayed := rfl
@[simp] theorem setF_early (s : State) (r : Reg) (w : Word) :
    (s.setF r w).early = s.early := rfl
@[simp] theorem setF_rels (s : State) (r : Reg) (w : Word) :
    (s.setF r w).rels = s.rels := rfl
@[simp] theorem setF_poison (s : State) (r : Reg) (w : Word) :
    (s.setF r w).poison = s.poison := rfl
@[simp] theorem setF_full (s : State) (r : Reg) (w : Word) :
    (s.setF r w).full = s.full := rfl
@[simp] theorem setF_tierGiB (s : State) (r : Reg) (w : Word) :
    (s.setF r w).tierGiB = s.tierGiB := rfl
@[simp] theorem setF_hdmWays (s : State) (r : Reg) (w : Word) :
    (s.setF r w).hdmWays = s.hdmWays := rfl
@[simp] theorem setF_hostBytes (s : State) (r : Reg) (w : Word) :
    (s.setF r w).hostBytes = s.hostBytes := rfl
@[simp] theorem setF_peerWin (s : State) (r : Reg) (w : Word) :
    (s.setF r w).peerWin = s.peerWin := rfl
@[simp] theorem setF_inboundKey (s : State) (r : Reg) (w : Word) :
    (s.setF r w).inboundKey = s.inboundKey := rfl
@[simp] theorem setF_keys (s : State) (r : Reg) (w : Word) :
    (s.setF r w).keys = s.keys := rfl
@[simp] theorem setF_hostIf (s : State) (r : Reg) (w : Word) :
    (s.setF r w).hostIf = s.hostIf := rfl
@[simp] theorem setF_tiles (s : State) (r : Reg) (w : Word) :
    (s.setF r w).tiles = s.tiles := rfl
@[simp] theorem setF_dies (s : State) (r : Reg) (w : Word) :
    (s.setF r w).dies = s.dies := rfl
@[simp] theorem setF_landings (s : State) (r : Reg) (w : Word) :
    (s.setF r w).landings = s.landings := rfl
@[simp] theorem setF_dir (s : State) (r : Reg) (w : Word) :
    (s.setF r w).dir = s.dir := rfl
@[simp] theorem setF_gangs (s : State) (r : Reg) (w : Word) :
    (s.setF r w).gangs = s.gangs := rfl
@[simp] theorem setF_records (s : State) (r : Reg) (w : Word) :
    (s.setF r w).records = s.records := rfl
@[simp] theorem setF_nextId (s : State) (r : Reg) (w : Word) :
    (s.setF r w).nextId = s.nextId := rfl
@[simp] theorem setF_tokens (s : State) (r : Reg) (w : Word) :
    (s.setF r w).tokens = s.tokens := rfl
@[simp] theorem setF_capsules (s : State) (r : Reg) (w : Word) :
    (s.setF r w).capsules = s.capsules := rfl
@[simp] theorem setF_rsvOut (s : State) (r : Reg) (w : Word) :
    (s.setF r w).rsvOut = s.rsvOut := rfl
@[simp] theorem setF_rsvSeq (s : State) (r : Reg) (w : Word) :
    (s.setF r w).rsvSeq = s.rsvSeq := rfl
@[simp] theorem setF_rsvIn (s : State) (r : Reg) (w : Word) :
    (s.setF r w).rsvIn = s.rsvIn := rfl
@[simp] theorem setF_outbox (s : State) (r : Reg) (w : Word) :
    (s.setF r w).outbox = s.outbox := rfl
@[simp] theorem setF_peerHeld (s : State) (r : Reg) (w : Word) :
    (s.setF r w).peerHeld = s.peerHeld := rfl
@[simp] theorem setF_mgmt (s : State) (r : Reg) (w : Word) :
    (s.setF r w).mgmt = s.mgmt := rfl
@[simp] theorem setF_pairs (s : State) (r : Reg) (w : Word) :
    (s.setF r w).pairs = s.pairs := rfl
@[simp] theorem setF_evqs (s : State) (r : Reg) (w : Word) :
    (s.setF r w).evqs = s.evqs := rfl
@[simp] theorem setF_routes (s : State) (r : Reg) (w : Word) :
    (s.setF r w).routes = s.routes := rfl
@[simp] theorem setF_portsUp (s : State) (r : Reg) (w : Word) :
    (s.setF r w).portsUp = s.portsUp := rfl
@[simp] theorem setF_loaded (s : State) (r : Reg) (w : Word) :
    (s.setF r w).loaded = s.loaded := rfl
@[simp] theorem setF_loadReport (s : State) (r : Reg) (w : Word) :
    (s.setF r w).loadReport = s.loadReport := rfl

/-! ### The program counter moved -/

@[simp] theorem goTo_cur (s : State) (w : Word) :
    (s.goTo w).cur = s.cur := rfl
@[simp] theorem goTo_agenda (s : State) (w : Word) :
    (s.goTo w).agenda = s.agenda := rfl
@[simp] theorem goTo_fresh (s : State) (w : Word) :
    (s.goTo w).fresh = s.fresh := rfl
@[simp] theorem goTo_focus (s : State) (w : Word) :
    (s.goTo w).focus = s.focus := rfl
@[simp] theorem goTo_spots (s : State) (w : Word) :
    (s.goTo w).spots = s.spots := rfl
@[simp] theorem goTo_mem (s : State) (w : Word) :
    (s.goTo w).mem = s.mem := rfl
@[simp] theorem goTo_sectorKey (s : State) (w : Word) :
    (s.goTo w).sectorKey = s.sectorKey := rfl
@[simp] theorem goTo_delayed (s : State) (w : Word) :
    (s.goTo w).delayed = s.delayed := rfl
@[simp] theorem goTo_early (s : State) (w : Word) :
    (s.goTo w).early = s.early := rfl
@[simp] theorem goTo_rels (s : State) (w : Word) :
    (s.goTo w).rels = s.rels := rfl
@[simp] theorem goTo_poison (s : State) (w : Word) :
    (s.goTo w).poison = s.poison := rfl
@[simp] theorem goTo_full (s : State) (w : Word) :
    (s.goTo w).full = s.full := rfl
@[simp] theorem goTo_tierGiB (s : State) (w : Word) :
    (s.goTo w).tierGiB = s.tierGiB := rfl
@[simp] theorem goTo_hdmWays (s : State) (w : Word) :
    (s.goTo w).hdmWays = s.hdmWays := rfl
@[simp] theorem goTo_hostBytes (s : State) (w : Word) :
    (s.goTo w).hostBytes = s.hostBytes := rfl
@[simp] theorem goTo_peerWin (s : State) (w : Word) :
    (s.goTo w).peerWin = s.peerWin := rfl
@[simp] theorem goTo_inboundKey (s : State) (w : Word) :
    (s.goTo w).inboundKey = s.inboundKey := rfl
@[simp] theorem goTo_keys (s : State) (w : Word) :
    (s.goTo w).keys = s.keys := rfl
@[simp] theorem goTo_hostIf (s : State) (w : Word) :
    (s.goTo w).hostIf = s.hostIf := rfl
@[simp] theorem goTo_tiles (s : State) (w : Word) :
    (s.goTo w).tiles = s.tiles := rfl
@[simp] theorem goTo_dies (s : State) (w : Word) :
    (s.goTo w).dies = s.dies := rfl
@[simp] theorem goTo_landings (s : State) (w : Word) :
    (s.goTo w).landings = s.landings := rfl
@[simp] theorem goTo_dir (s : State) (w : Word) :
    (s.goTo w).dir = s.dir := rfl
@[simp] theorem goTo_gangs (s : State) (w : Word) :
    (s.goTo w).gangs = s.gangs := rfl
@[simp] theorem goTo_records (s : State) (w : Word) :
    (s.goTo w).records = s.records := rfl
@[simp] theorem goTo_nextId (s : State) (w : Word) :
    (s.goTo w).nextId = s.nextId := rfl
@[simp] theorem goTo_tokens (s : State) (w : Word) :
    (s.goTo w).tokens = s.tokens := rfl
@[simp] theorem goTo_capsules (s : State) (w : Word) :
    (s.goTo w).capsules = s.capsules := rfl
@[simp] theorem goTo_rsvOut (s : State) (w : Word) :
    (s.goTo w).rsvOut = s.rsvOut := rfl
@[simp] theorem goTo_rsvSeq (s : State) (w : Word) :
    (s.goTo w).rsvSeq = s.rsvSeq := rfl
@[simp] theorem goTo_rsvIn (s : State) (w : Word) :
    (s.goTo w).rsvIn = s.rsvIn := rfl
@[simp] theorem goTo_outbox (s : State) (w : Word) :
    (s.goTo w).outbox = s.outbox := rfl
@[simp] theorem goTo_peerHeld (s : State) (w : Word) :
    (s.goTo w).peerHeld = s.peerHeld := rfl
@[simp] theorem goTo_mgmt (s : State) (w : Word) :
    (s.goTo w).mgmt = s.mgmt := rfl
@[simp] theorem goTo_pairs (s : State) (w : Word) :
    (s.goTo w).pairs = s.pairs := rfl
@[simp] theorem goTo_evqs (s : State) (w : Word) :
    (s.goTo w).evqs = s.evqs := rfl
@[simp] theorem goTo_routes (s : State) (w : Word) :
    (s.goTo w).routes = s.routes := rfl
@[simp] theorem goTo_portsUp (s : State) (w : Word) :
    (s.goTo w).portsUp = s.portsUp := rfl
@[simp] theorem goTo_loaded (s : State) (w : Word) :
    (s.goTo w).loaded = s.loaded := rfl
@[simp] theorem goTo_loadReport (s : State) (w : Word) :
    (s.goTo w).loadReport = s.loadReport := rfl

/-! ### A scalar word retired -/

@[simp] theorem advance_cur (s : State) :
    (s.advance).cur = s.cur := rfl
@[simp] theorem advance_agenda (s : State) :
    (s.advance).agenda = s.agenda := rfl
@[simp] theorem advance_fresh (s : State) :
    (s.advance).fresh = s.fresh := rfl
@[simp] theorem advance_focus (s : State) :
    (s.advance).focus = s.focus := rfl
@[simp] theorem advance_spots (s : State) :
    (s.advance).spots = s.spots := rfl
@[simp] theorem advance_mem (s : State) :
    (s.advance).mem = s.mem := rfl
@[simp] theorem advance_sectorKey (s : State) :
    (s.advance).sectorKey = s.sectorKey := rfl
@[simp] theorem advance_delayed (s : State) :
    (s.advance).delayed = s.delayed := rfl
@[simp] theorem advance_early (s : State) :
    (s.advance).early = s.early := rfl
@[simp] theorem advance_rels (s : State) :
    (s.advance).rels = s.rels := rfl
@[simp] theorem advance_poison (s : State) :
    (s.advance).poison = s.poison := rfl
@[simp] theorem advance_full (s : State) :
    (s.advance).full = s.full := rfl
@[simp] theorem advance_tierGiB (s : State) :
    (s.advance).tierGiB = s.tierGiB := rfl
@[simp] theorem advance_hdmWays (s : State) :
    (s.advance).hdmWays = s.hdmWays := rfl
@[simp] theorem advance_hostBytes (s : State) :
    (s.advance).hostBytes = s.hostBytes := rfl
@[simp] theorem advance_peerWin (s : State) :
    (s.advance).peerWin = s.peerWin := rfl
@[simp] theorem advance_inboundKey (s : State) :
    (s.advance).inboundKey = s.inboundKey := rfl
@[simp] theorem advance_keys (s : State) :
    (s.advance).keys = s.keys := rfl
@[simp] theorem advance_hostIf (s : State) :
    (s.advance).hostIf = s.hostIf := rfl
@[simp] theorem advance_tiles (s : State) :
    (s.advance).tiles = s.tiles := rfl
@[simp] theorem advance_dies (s : State) :
    (s.advance).dies = s.dies := rfl
@[simp] theorem advance_landings (s : State) :
    (s.advance).landings = s.landings := rfl
@[simp] theorem advance_dir (s : State) :
    (s.advance).dir = s.dir := rfl
@[simp] theorem advance_gangs (s : State) :
    (s.advance).gangs = s.gangs := rfl
@[simp] theorem advance_records (s : State) :
    (s.advance).records = s.records := rfl
@[simp] theorem advance_nextId (s : State) :
    (s.advance).nextId = s.nextId := rfl
@[simp] theorem advance_tokens (s : State) :
    (s.advance).tokens = s.tokens := rfl
@[simp] theorem advance_capsules (s : State) :
    (s.advance).capsules = s.capsules := rfl
@[simp] theorem advance_rsvOut (s : State) :
    (s.advance).rsvOut = s.rsvOut := rfl
@[simp] theorem advance_rsvSeq (s : State) :
    (s.advance).rsvSeq = s.rsvSeq := rfl
@[simp] theorem advance_rsvIn (s : State) :
    (s.advance).rsvIn = s.rsvIn := rfl
@[simp] theorem advance_outbox (s : State) :
    (s.advance).outbox = s.outbox := rfl
@[simp] theorem advance_peerHeld (s : State) :
    (s.advance).peerHeld = s.peerHeld := rfl
@[simp] theorem advance_mgmt (s : State) :
    (s.advance).mgmt = s.mgmt := rfl
@[simp] theorem advance_pairs (s : State) :
    (s.advance).pairs = s.pairs := rfl
@[simp] theorem advance_evqs (s : State) :
    (s.advance).evqs = s.evqs := rfl
@[simp] theorem advance_routes (s : State) :
    (s.advance).routes = s.routes := rfl
@[simp] theorem advance_portsUp (s : State) :
    (s.advance).portsUp = s.portsUp := rfl
@[simp] theorem advance_loaded (s : State) :
    (s.advance).loaded = s.loaded := rfl
@[simp] theorem advance_loadReport (s : State) :
    (s.advance).loadReport = s.loadReport := rfl

/-! ### A wait -/

@[simp] theorem waitIn_cur (s : State) (w : Wait) :
    (s.waitIn w).cur = s.cur := rfl
@[simp] theorem waitIn_agenda (s : State) (w : Wait) :
    (s.waitIn w).agenda = s.agenda := rfl
@[simp] theorem waitIn_fresh (s : State) (w : Wait) :
    (s.waitIn w).fresh = s.fresh := rfl
@[simp] theorem waitIn_focus (s : State) (w : Wait) :
    (s.waitIn w).focus = s.focus := rfl
@[simp] theorem waitIn_spots (s : State) (w : Wait) :
    (s.waitIn w).spots = s.spots := rfl
@[simp] theorem waitIn_mem (s : State) (w : Wait) :
    (s.waitIn w).mem = s.mem := rfl
@[simp] theorem waitIn_sectorKey (s : State) (w : Wait) :
    (s.waitIn w).sectorKey = s.sectorKey := rfl
@[simp] theorem waitIn_delayed (s : State) (w : Wait) :
    (s.waitIn w).delayed = s.delayed := rfl
@[simp] theorem waitIn_early (s : State) (w : Wait) :
    (s.waitIn w).early = s.early := rfl
@[simp] theorem waitIn_rels (s : State) (w : Wait) :
    (s.waitIn w).rels = s.rels := rfl
@[simp] theorem waitIn_poison (s : State) (w : Wait) :
    (s.waitIn w).poison = s.poison := rfl
@[simp] theorem waitIn_full (s : State) (w : Wait) :
    (s.waitIn w).full = s.full := rfl
@[simp] theorem waitIn_tierGiB (s : State) (w : Wait) :
    (s.waitIn w).tierGiB = s.tierGiB := rfl
@[simp] theorem waitIn_hdmWays (s : State) (w : Wait) :
    (s.waitIn w).hdmWays = s.hdmWays := rfl
@[simp] theorem waitIn_hostBytes (s : State) (w : Wait) :
    (s.waitIn w).hostBytes = s.hostBytes := rfl
@[simp] theorem waitIn_peerWin (s : State) (w : Wait) :
    (s.waitIn w).peerWin = s.peerWin := rfl
@[simp] theorem waitIn_inboundKey (s : State) (w : Wait) :
    (s.waitIn w).inboundKey = s.inboundKey := rfl
@[simp] theorem waitIn_keys (s : State) (w : Wait) :
    (s.waitIn w).keys = s.keys := rfl
@[simp] theorem waitIn_hostIf (s : State) (w : Wait) :
    (s.waitIn w).hostIf = s.hostIf := rfl
@[simp] theorem waitIn_tiles (s : State) (w : Wait) :
    (s.waitIn w).tiles = s.tiles := rfl
@[simp] theorem waitIn_dies (s : State) (w : Wait) :
    (s.waitIn w).dies = s.dies := rfl
@[simp] theorem waitIn_landings (s : State) (w : Wait) :
    (s.waitIn w).landings = s.landings := rfl
@[simp] theorem waitIn_dir (s : State) (w : Wait) :
    (s.waitIn w).dir = s.dir := rfl
@[simp] theorem waitIn_gangs (s : State) (w : Wait) :
    (s.waitIn w).gangs = s.gangs := rfl
@[simp] theorem waitIn_records (s : State) (w : Wait) :
    (s.waitIn w).records = s.records := rfl
@[simp] theorem waitIn_nextId (s : State) (w : Wait) :
    (s.waitIn w).nextId = s.nextId := rfl
@[simp] theorem waitIn_tokens (s : State) (w : Wait) :
    (s.waitIn w).tokens = s.tokens := rfl
@[simp] theorem waitIn_capsules (s : State) (w : Wait) :
    (s.waitIn w).capsules = s.capsules := rfl
@[simp] theorem waitIn_rsvOut (s : State) (w : Wait) :
    (s.waitIn w).rsvOut = s.rsvOut := rfl
@[simp] theorem waitIn_rsvSeq (s : State) (w : Wait) :
    (s.waitIn w).rsvSeq = s.rsvSeq := rfl
@[simp] theorem waitIn_rsvIn (s : State) (w : Wait) :
    (s.waitIn w).rsvIn = s.rsvIn := rfl
@[simp] theorem waitIn_outbox (s : State) (w : Wait) :
    (s.waitIn w).outbox = s.outbox := rfl
@[simp] theorem waitIn_peerHeld (s : State) (w : Wait) :
    (s.waitIn w).peerHeld = s.peerHeld := rfl
@[simp] theorem waitIn_mgmt (s : State) (w : Wait) :
    (s.waitIn w).mgmt = s.mgmt := rfl
@[simp] theorem waitIn_pairs (s : State) (w : Wait) :
    (s.waitIn w).pairs = s.pairs := rfl
@[simp] theorem waitIn_evqs (s : State) (w : Wait) :
    (s.waitIn w).evqs = s.evqs := rfl
@[simp] theorem waitIn_routes (s : State) (w : Wait) :
    (s.waitIn w).routes = s.routes := rfl
@[simp] theorem waitIn_portsUp (s : State) (w : Wait) :
    (s.waitIn w).portsUp = s.portsUp := rfl
@[simp] theorem waitIn_loaded (s : State) (w : Wait) :
    (s.waitIn w).loaded = s.loaded := rfl
@[simp] theorem waitIn_loadReport (s : State) (w : Wait) :
    (s.waitIn w).loadReport = s.loadReport := rfl

/-! ### A trap taken -/

@[simp] theorem trap_cur (s : State) (c : Cause) (w : Word) :
    (s.trap c w).cur = s.cur := rfl
@[simp] theorem trap_agenda (s : State) (c : Cause) (w : Word) :
    (s.trap c w).agenda = s.agenda := rfl
@[simp] theorem trap_fresh (s : State) (c : Cause) (w : Word) :
    (s.trap c w).fresh = s.fresh := rfl
@[simp] theorem trap_focus (s : State) (c : Cause) (w : Word) :
    (s.trap c w).focus = s.focus := rfl
@[simp] theorem trap_spots (s : State) (c : Cause) (w : Word) :
    (s.trap c w).spots = s.spots := rfl
@[simp] theorem trap_mem (s : State) (c : Cause) (w : Word) :
    (s.trap c w).mem = s.mem := rfl
@[simp] theorem trap_sectorKey (s : State) (c : Cause) (w : Word) :
    (s.trap c w).sectorKey = s.sectorKey := rfl
@[simp] theorem trap_delayed (s : State) (c : Cause) (w : Word) :
    (s.trap c w).delayed = s.delayed := rfl
@[simp] theorem trap_early (s : State) (c : Cause) (w : Word) :
    (s.trap c w).early = s.early := rfl
@[simp] theorem trap_rels (s : State) (c : Cause) (w : Word) :
    (s.trap c w).rels = s.rels := rfl
@[simp] theorem trap_poison (s : State) (c : Cause) (w : Word) :
    (s.trap c w).poison = s.poison := rfl
@[simp] theorem trap_full (s : State) (c : Cause) (w : Word) :
    (s.trap c w).full = s.full := rfl
@[simp] theorem trap_tierGiB (s : State) (c : Cause) (w : Word) :
    (s.trap c w).tierGiB = s.tierGiB := rfl
@[simp] theorem trap_hdmWays (s : State) (c : Cause) (w : Word) :
    (s.trap c w).hdmWays = s.hdmWays := rfl
@[simp] theorem trap_hostBytes (s : State) (c : Cause) (w : Word) :
    (s.trap c w).hostBytes = s.hostBytes := rfl
@[simp] theorem trap_peerWin (s : State) (c : Cause) (w : Word) :
    (s.trap c w).peerWin = s.peerWin := rfl
@[simp] theorem trap_inboundKey (s : State) (c : Cause) (w : Word) :
    (s.trap c w).inboundKey = s.inboundKey := rfl
@[simp] theorem trap_keys (s : State) (c : Cause) (w : Word) :
    (s.trap c w).keys = s.keys := rfl
@[simp] theorem trap_hostIf (s : State) (c : Cause) (w : Word) :
    (s.trap c w).hostIf = s.hostIf := rfl
@[simp] theorem trap_tiles (s : State) (c : Cause) (w : Word) :
    (s.trap c w).tiles = s.tiles := rfl
@[simp] theorem trap_dies (s : State) (c : Cause) (w : Word) :
    (s.trap c w).dies = s.dies := rfl
@[simp] theorem trap_landings (s : State) (c : Cause) (w : Word) :
    (s.trap c w).landings = s.landings := rfl
@[simp] theorem trap_dir (s : State) (c : Cause) (w : Word) :
    (s.trap c w).dir = s.dir := rfl
@[simp] theorem trap_gangs (s : State) (c : Cause) (w : Word) :
    (s.trap c w).gangs = s.gangs := rfl
@[simp] theorem trap_records (s : State) (c : Cause) (w : Word) :
    (s.trap c w).records = s.records := rfl
@[simp] theorem trap_nextId (s : State) (c : Cause) (w : Word) :
    (s.trap c w).nextId = s.nextId := rfl
@[simp] theorem trap_tokens (s : State) (c : Cause) (w : Word) :
    (s.trap c w).tokens = s.tokens := rfl
@[simp] theorem trap_capsules (s : State) (c : Cause) (w : Word) :
    (s.trap c w).capsules = s.capsules := rfl
@[simp] theorem trap_rsvOut (s : State) (c : Cause) (w : Word) :
    (s.trap c w).rsvOut = s.rsvOut := rfl
@[simp] theorem trap_rsvSeq (s : State) (c : Cause) (w : Word) :
    (s.trap c w).rsvSeq = s.rsvSeq := rfl
@[simp] theorem trap_rsvIn (s : State) (c : Cause) (w : Word) :
    (s.trap c w).rsvIn = s.rsvIn := rfl
@[simp] theorem trap_outbox (s : State) (c : Cause) (w : Word) :
    (s.trap c w).outbox = s.outbox := rfl
@[simp] theorem trap_peerHeld (s : State) (c : Cause) (w : Word) :
    (s.trap c w).peerHeld = s.peerHeld := rfl
@[simp] theorem trap_mgmt (s : State) (c : Cause) (w : Word) :
    (s.trap c w).mgmt = s.mgmt := rfl
@[simp] theorem trap_pairs (s : State) (c : Cause) (w : Word) :
    (s.trap c w).pairs = s.pairs := rfl
@[simp] theorem trap_evqs (s : State) (c : Cause) (w : Word) :
    (s.trap c w).evqs = s.evqs := rfl
@[simp] theorem trap_routes (s : State) (c : Cause) (w : Word) :
    (s.trap c w).routes = s.routes := rfl
@[simp] theorem trap_portsUp (s : State) (c : Cause) (w : Word) :
    (s.trap c w).portsUp = s.portsUp := rfl
@[simp] theorem trap_loaded (s : State) (c : Cause) (w : Word) :
    (s.trap c w).loaded = s.loaded := rfl
@[simp] theorem trap_loadReport (s : State) (c : Cause) (w : Word) :
    (s.trap c w).loadReport = s.loadReport := rfl

/-! ### A tile replaced -/

@[simp] theorem updTile_cur (s : State) (t : Fin 224) (f : Tile → Tile) :
    (s.updTile t f).cur = s.cur := rfl
@[simp] theorem updTile_agenda (s : State) (t : Fin 224) (f : Tile → Tile) :
    (s.updTile t f).agenda = s.agenda := rfl
@[simp] theorem updTile_fresh (s : State) (t : Fin 224) (f : Tile → Tile) :
    (s.updTile t f).fresh = s.fresh := rfl
@[simp] theorem updTile_focus (s : State) (t : Fin 224) (f : Tile → Tile) :
    (s.updTile t f).focus = s.focus := rfl
@[simp] theorem updTile_spots (s : State) (t : Fin 224) (f : Tile → Tile) :
    (s.updTile t f).spots = s.spots := rfl
@[simp] theorem updTile_mem (s : State) (t : Fin 224) (f : Tile → Tile) :
    (s.updTile t f).mem = s.mem := rfl
@[simp] theorem updTile_sectorKey (s : State) (t : Fin 224) (f : Tile → Tile) :
    (s.updTile t f).sectorKey = s.sectorKey := rfl
@[simp] theorem updTile_delayed (s : State) (t : Fin 224) (f : Tile → Tile) :
    (s.updTile t f).delayed = s.delayed := rfl
@[simp] theorem updTile_early (s : State) (t : Fin 224) (f : Tile → Tile) :
    (s.updTile t f).early = s.early := rfl
@[simp] theorem updTile_rels (s : State) (t : Fin 224) (f : Tile → Tile) :
    (s.updTile t f).rels = s.rels := rfl
@[simp] theorem updTile_poison (s : State) (t : Fin 224) (f : Tile → Tile) :
    (s.updTile t f).poison = s.poison := rfl
@[simp] theorem updTile_full (s : State) (t : Fin 224) (f : Tile → Tile) :
    (s.updTile t f).full = s.full := rfl
@[simp] theorem updTile_tierGiB (s : State) (t : Fin 224) (f : Tile → Tile) :
    (s.updTile t f).tierGiB = s.tierGiB := rfl
@[simp] theorem updTile_hdmWays (s : State) (t : Fin 224) (f : Tile → Tile) :
    (s.updTile t f).hdmWays = s.hdmWays := rfl
@[simp] theorem updTile_hostBytes (s : State) (t : Fin 224) (f : Tile → Tile) :
    (s.updTile t f).hostBytes = s.hostBytes := rfl
@[simp] theorem updTile_peerWin (s : State) (t : Fin 224) (f : Tile → Tile) :
    (s.updTile t f).peerWin = s.peerWin := rfl
@[simp] theorem updTile_inboundKey (s : State) (t : Fin 224) (f : Tile → Tile) :
    (s.updTile t f).inboundKey = s.inboundKey := rfl
@[simp] theorem updTile_keys (s : State) (t : Fin 224) (f : Tile → Tile) :
    (s.updTile t f).keys = s.keys := rfl
@[simp] theorem updTile_hostIf (s : State) (t : Fin 224) (f : Tile → Tile) :
    (s.updTile t f).hostIf = s.hostIf := rfl
@[simp] theorem updTile_harts (s : State) (t : Fin 224) (f : Tile → Tile) :
    (s.updTile t f).harts = s.harts := rfl
@[simp] theorem updTile_dies (s : State) (t : Fin 224) (f : Tile → Tile) :
    (s.updTile t f).dies = s.dies := rfl
@[simp] theorem updTile_landings (s : State) (t : Fin 224) (f : Tile → Tile) :
    (s.updTile t f).landings = s.landings := rfl
@[simp] theorem updTile_dir (s : State) (t : Fin 224) (f : Tile → Tile) :
    (s.updTile t f).dir = s.dir := rfl
@[simp] theorem updTile_gangs (s : State) (t : Fin 224) (f : Tile → Tile) :
    (s.updTile t f).gangs = s.gangs := rfl
@[simp] theorem updTile_records (s : State) (t : Fin 224) (f : Tile → Tile) :
    (s.updTile t f).records = s.records := rfl
@[simp] theorem updTile_nextId (s : State) (t : Fin 224) (f : Tile → Tile) :
    (s.updTile t f).nextId = s.nextId := rfl
@[simp] theorem updTile_tokens (s : State) (t : Fin 224) (f : Tile → Tile) :
    (s.updTile t f).tokens = s.tokens := rfl
@[simp] theorem updTile_capsules (s : State) (t : Fin 224) (f : Tile → Tile) :
    (s.updTile t f).capsules = s.capsules := rfl
@[simp] theorem updTile_rsvOut (s : State) (t : Fin 224) (f : Tile → Tile) :
    (s.updTile t f).rsvOut = s.rsvOut := rfl
@[simp] theorem updTile_rsvSeq (s : State) (t : Fin 224) (f : Tile → Tile) :
    (s.updTile t f).rsvSeq = s.rsvSeq := rfl
@[simp] theorem updTile_rsvIn (s : State) (t : Fin 224) (f : Tile → Tile) :
    (s.updTile t f).rsvIn = s.rsvIn := rfl
@[simp] theorem updTile_outbox (s : State) (t : Fin 224) (f : Tile → Tile) :
    (s.updTile t f).outbox = s.outbox := rfl
@[simp] theorem updTile_peerHeld (s : State) (t : Fin 224) (f : Tile → Tile) :
    (s.updTile t f).peerHeld = s.peerHeld := rfl
@[simp] theorem updTile_mgmt (s : State) (t : Fin 224) (f : Tile → Tile) :
    (s.updTile t f).mgmt = s.mgmt := rfl
@[simp] theorem updTile_pairs (s : State) (t : Fin 224) (f : Tile → Tile) :
    (s.updTile t f).pairs = s.pairs := rfl
@[simp] theorem updTile_evqs (s : State) (t : Fin 224) (f : Tile → Tile) :
    (s.updTile t f).evqs = s.evqs := rfl
@[simp] theorem updTile_routes (s : State) (t : Fin 224) (f : Tile → Tile) :
    (s.updTile t f).routes = s.routes := rfl
@[simp] theorem updTile_portsUp (s : State) (t : Fin 224) (f : Tile → Tile) :
    (s.updTile t f).portsUp = s.portsUp := rfl
@[simp] theorem updTile_loaded (s : State) (t : Fin 224) (f : Tile → Tile) :
    (s.updTile t f).loaded = s.loaded := rfl
@[simp] theorem updTile_loadReport (s : State) (t : Fin 224) (f : Tile → Tile) :
    (s.updTile t f).loadReport = s.loadReport := rfl

/-! ### A die replaced -/

@[simp] theorem updDie_cur (s : State) (d : Fin 4) (f : Die → Die) :
    (s.updDie d f).cur = s.cur := rfl
@[simp] theorem updDie_agenda (s : State) (d : Fin 4) (f : Die → Die) :
    (s.updDie d f).agenda = s.agenda := rfl
@[simp] theorem updDie_fresh (s : State) (d : Fin 4) (f : Die → Die) :
    (s.updDie d f).fresh = s.fresh := rfl
@[simp] theorem updDie_focus (s : State) (d : Fin 4) (f : Die → Die) :
    (s.updDie d f).focus = s.focus := rfl
@[simp] theorem updDie_spots (s : State) (d : Fin 4) (f : Die → Die) :
    (s.updDie d f).spots = s.spots := rfl
@[simp] theorem updDie_mem (s : State) (d : Fin 4) (f : Die → Die) :
    (s.updDie d f).mem = s.mem := rfl
@[simp] theorem updDie_sectorKey (s : State) (d : Fin 4) (f : Die → Die) :
    (s.updDie d f).sectorKey = s.sectorKey := rfl
@[simp] theorem updDie_delayed (s : State) (d : Fin 4) (f : Die → Die) :
    (s.updDie d f).delayed = s.delayed := rfl
@[simp] theorem updDie_early (s : State) (d : Fin 4) (f : Die → Die) :
    (s.updDie d f).early = s.early := rfl
@[simp] theorem updDie_rels (s : State) (d : Fin 4) (f : Die → Die) :
    (s.updDie d f).rels = s.rels := rfl
@[simp] theorem updDie_poison (s : State) (d : Fin 4) (f : Die → Die) :
    (s.updDie d f).poison = s.poison := rfl
@[simp] theorem updDie_full (s : State) (d : Fin 4) (f : Die → Die) :
    (s.updDie d f).full = s.full := rfl
@[simp] theorem updDie_tierGiB (s : State) (d : Fin 4) (f : Die → Die) :
    (s.updDie d f).tierGiB = s.tierGiB := rfl
@[simp] theorem updDie_hdmWays (s : State) (d : Fin 4) (f : Die → Die) :
    (s.updDie d f).hdmWays = s.hdmWays := rfl
@[simp] theorem updDie_hostBytes (s : State) (d : Fin 4) (f : Die → Die) :
    (s.updDie d f).hostBytes = s.hostBytes := rfl
@[simp] theorem updDie_peerWin (s : State) (d : Fin 4) (f : Die → Die) :
    (s.updDie d f).peerWin = s.peerWin := rfl
@[simp] theorem updDie_inboundKey (s : State) (d : Fin 4) (f : Die → Die) :
    (s.updDie d f).inboundKey = s.inboundKey := rfl
@[simp] theorem updDie_keys (s : State) (d : Fin 4) (f : Die → Die) :
    (s.updDie d f).keys = s.keys := rfl
@[simp] theorem updDie_hostIf (s : State) (d : Fin 4) (f : Die → Die) :
    (s.updDie d f).hostIf = s.hostIf := rfl
@[simp] theorem updDie_harts (s : State) (d : Fin 4) (f : Die → Die) :
    (s.updDie d f).harts = s.harts := rfl
@[simp] theorem updDie_tiles (s : State) (d : Fin 4) (f : Die → Die) :
    (s.updDie d f).tiles = s.tiles := rfl
@[simp] theorem updDie_landings (s : State) (d : Fin 4) (f : Die → Die) :
    (s.updDie d f).landings = s.landings := rfl
@[simp] theorem updDie_dir (s : State) (d : Fin 4) (f : Die → Die) :
    (s.updDie d f).dir = s.dir := rfl
@[simp] theorem updDie_gangs (s : State) (d : Fin 4) (f : Die → Die) :
    (s.updDie d f).gangs = s.gangs := rfl
@[simp] theorem updDie_records (s : State) (d : Fin 4) (f : Die → Die) :
    (s.updDie d f).records = s.records := rfl
@[simp] theorem updDie_nextId (s : State) (d : Fin 4) (f : Die → Die) :
    (s.updDie d f).nextId = s.nextId := rfl
@[simp] theorem updDie_tokens (s : State) (d : Fin 4) (f : Die → Die) :
    (s.updDie d f).tokens = s.tokens := rfl
@[simp] theorem updDie_capsules (s : State) (d : Fin 4) (f : Die → Die) :
    (s.updDie d f).capsules = s.capsules := rfl
@[simp] theorem updDie_rsvOut (s : State) (d : Fin 4) (f : Die → Die) :
    (s.updDie d f).rsvOut = s.rsvOut := rfl
@[simp] theorem updDie_rsvSeq (s : State) (d : Fin 4) (f : Die → Die) :
    (s.updDie d f).rsvSeq = s.rsvSeq := rfl
@[simp] theorem updDie_rsvIn (s : State) (d : Fin 4) (f : Die → Die) :
    (s.updDie d f).rsvIn = s.rsvIn := rfl
@[simp] theorem updDie_outbox (s : State) (d : Fin 4) (f : Die → Die) :
    (s.updDie d f).outbox = s.outbox := rfl
@[simp] theorem updDie_peerHeld (s : State) (d : Fin 4) (f : Die → Die) :
    (s.updDie d f).peerHeld = s.peerHeld := rfl
@[simp] theorem updDie_mgmt (s : State) (d : Fin 4) (f : Die → Die) :
    (s.updDie d f).mgmt = s.mgmt := rfl
@[simp] theorem updDie_pairs (s : State) (d : Fin 4) (f : Die → Die) :
    (s.updDie d f).pairs = s.pairs := rfl
@[simp] theorem updDie_evqs (s : State) (d : Fin 4) (f : Die → Die) :
    (s.updDie d f).evqs = s.evqs := rfl
@[simp] theorem updDie_routes (s : State) (d : Fin 4) (f : Die → Die) :
    (s.updDie d f).routes = s.routes := rfl
@[simp] theorem updDie_portsUp (s : State) (d : Fin 4) (f : Die → Die) :
    (s.updDie d f).portsUp = s.portsUp := rfl
@[simp] theorem updDie_loaded (s : State) (d : Fin 4) (f : Die → Die) :
    (s.updDie d f).loaded = s.loaded := rfl
@[simp] theorem updDie_loadReport (s : State) (d : Fin 4) (f : Die → Die) :
    (s.updDie d f).loadReport = s.loadReport := rfl

/-! ### A landing die replaced -/

@[simp] theorem updLanding_cur (s : State) (d : Fin 8) (f : Landing → Landing) :
    (s.updLanding d f).cur = s.cur := rfl
@[simp] theorem updLanding_agenda (s : State) (d : Fin 8) (f : Landing → Landing) :
    (s.updLanding d f).agenda = s.agenda := rfl
@[simp] theorem updLanding_fresh (s : State) (d : Fin 8) (f : Landing → Landing) :
    (s.updLanding d f).fresh = s.fresh := rfl
@[simp] theorem updLanding_focus (s : State) (d : Fin 8) (f : Landing → Landing) :
    (s.updLanding d f).focus = s.focus := rfl
@[simp] theorem updLanding_spots (s : State) (d : Fin 8) (f : Landing → Landing) :
    (s.updLanding d f).spots = s.spots := rfl
@[simp] theorem updLanding_mem (s : State) (d : Fin 8) (f : Landing → Landing) :
    (s.updLanding d f).mem = s.mem := rfl
@[simp] theorem updLanding_sectorKey (s : State) (d : Fin 8) (f : Landing → Landing) :
    (s.updLanding d f).sectorKey = s.sectorKey := rfl
@[simp] theorem updLanding_delayed (s : State) (d : Fin 8) (f : Landing → Landing) :
    (s.updLanding d f).delayed = s.delayed := rfl
@[simp] theorem updLanding_early (s : State) (d : Fin 8) (f : Landing → Landing) :
    (s.updLanding d f).early = s.early := rfl
@[simp] theorem updLanding_rels (s : State) (d : Fin 8) (f : Landing → Landing) :
    (s.updLanding d f).rels = s.rels := rfl
@[simp] theorem updLanding_poison (s : State) (d : Fin 8) (f : Landing → Landing) :
    (s.updLanding d f).poison = s.poison := rfl
@[simp] theorem updLanding_full (s : State) (d : Fin 8) (f : Landing → Landing) :
    (s.updLanding d f).full = s.full := rfl
@[simp] theorem updLanding_tierGiB (s : State) (d : Fin 8) (f : Landing → Landing) :
    (s.updLanding d f).tierGiB = s.tierGiB := rfl
@[simp] theorem updLanding_hdmWays (s : State) (d : Fin 8) (f : Landing → Landing) :
    (s.updLanding d f).hdmWays = s.hdmWays := rfl
@[simp] theorem updLanding_hostBytes (s : State) (d : Fin 8) (f : Landing → Landing) :
    (s.updLanding d f).hostBytes = s.hostBytes := rfl
@[simp] theorem updLanding_peerWin (s : State) (d : Fin 8) (f : Landing → Landing) :
    (s.updLanding d f).peerWin = s.peerWin := rfl
@[simp] theorem updLanding_inboundKey (s : State) (d : Fin 8) (f : Landing → Landing) :
    (s.updLanding d f).inboundKey = s.inboundKey := rfl
@[simp] theorem updLanding_keys (s : State) (d : Fin 8) (f : Landing → Landing) :
    (s.updLanding d f).keys = s.keys := rfl
@[simp] theorem updLanding_hostIf (s : State) (d : Fin 8) (f : Landing → Landing) :
    (s.updLanding d f).hostIf = s.hostIf := rfl
@[simp] theorem updLanding_harts (s : State) (d : Fin 8) (f : Landing → Landing) :
    (s.updLanding d f).harts = s.harts := rfl
@[simp] theorem updLanding_tiles (s : State) (d : Fin 8) (f : Landing → Landing) :
    (s.updLanding d f).tiles = s.tiles := rfl
@[simp] theorem updLanding_dies (s : State) (d : Fin 8) (f : Landing → Landing) :
    (s.updLanding d f).dies = s.dies := rfl
@[simp] theorem updLanding_dir (s : State) (d : Fin 8) (f : Landing → Landing) :
    (s.updLanding d f).dir = s.dir := rfl
@[simp] theorem updLanding_gangs (s : State) (d : Fin 8) (f : Landing → Landing) :
    (s.updLanding d f).gangs = s.gangs := rfl
@[simp] theorem updLanding_records (s : State) (d : Fin 8) (f : Landing → Landing) :
    (s.updLanding d f).records = s.records := rfl
@[simp] theorem updLanding_nextId (s : State) (d : Fin 8) (f : Landing → Landing) :
    (s.updLanding d f).nextId = s.nextId := rfl
@[simp] theorem updLanding_tokens (s : State) (d : Fin 8) (f : Landing → Landing) :
    (s.updLanding d f).tokens = s.tokens := rfl
@[simp] theorem updLanding_capsules (s : State) (d : Fin 8) (f : Landing → Landing) :
    (s.updLanding d f).capsules = s.capsules := rfl
@[simp] theorem updLanding_rsvOut (s : State) (d : Fin 8) (f : Landing → Landing) :
    (s.updLanding d f).rsvOut = s.rsvOut := rfl
@[simp] theorem updLanding_rsvSeq (s : State) (d : Fin 8) (f : Landing → Landing) :
    (s.updLanding d f).rsvSeq = s.rsvSeq := rfl
@[simp] theorem updLanding_rsvIn (s : State) (d : Fin 8) (f : Landing → Landing) :
    (s.updLanding d f).rsvIn = s.rsvIn := rfl
@[simp] theorem updLanding_outbox (s : State) (d : Fin 8) (f : Landing → Landing) :
    (s.updLanding d f).outbox = s.outbox := rfl
@[simp] theorem updLanding_peerHeld (s : State) (d : Fin 8) (f : Landing → Landing) :
    (s.updLanding d f).peerHeld = s.peerHeld := rfl
@[simp] theorem updLanding_mgmt (s : State) (d : Fin 8) (f : Landing → Landing) :
    (s.updLanding d f).mgmt = s.mgmt := rfl
@[simp] theorem updLanding_pairs (s : State) (d : Fin 8) (f : Landing → Landing) :
    (s.updLanding d f).pairs = s.pairs := rfl
@[simp] theorem updLanding_evqs (s : State) (d : Fin 8) (f : Landing → Landing) :
    (s.updLanding d f).evqs = s.evqs := rfl
@[simp] theorem updLanding_routes (s : State) (d : Fin 8) (f : Landing → Landing) :
    (s.updLanding d f).routes = s.routes := rfl
@[simp] theorem updLanding_portsUp (s : State) (d : Fin 8) (f : Landing → Landing) :
    (s.updLanding d f).portsUp = s.portsUp := rfl
@[simp] theorem updLanding_loaded (s : State) (d : Fin 8) (f : Landing → Landing) :
    (s.updLanding d f).loaded = s.loaded := rfl
@[simp] theorem updLanding_loadReport (s : State) (d : Fin 8) (f : Landing → Landing) :
    (s.updLanding d f).loadReport = s.loadReport := rfl

/-! ### A full/empty bit written -/

@[simp] theorem setFull_cur (s : State) (a : Nat) (b : Bool) :
    (s.setFull a b).cur = s.cur := rfl
@[simp] theorem setFull_agenda (s : State) (a : Nat) (b : Bool) :
    (s.setFull a b).agenda = s.agenda := rfl
@[simp] theorem setFull_fresh (s : State) (a : Nat) (b : Bool) :
    (s.setFull a b).fresh = s.fresh := rfl
@[simp] theorem setFull_focus (s : State) (a : Nat) (b : Bool) :
    (s.setFull a b).focus = s.focus := rfl
@[simp] theorem setFull_spots (s : State) (a : Nat) (b : Bool) :
    (s.setFull a b).spots = s.spots := rfl
@[simp] theorem setFull_mem (s : State) (a : Nat) (b : Bool) :
    (s.setFull a b).mem = s.mem := rfl
@[simp] theorem setFull_sectorKey (s : State) (a : Nat) (b : Bool) :
    (s.setFull a b).sectorKey = s.sectorKey := rfl
@[simp] theorem setFull_delayed (s : State) (a : Nat) (b : Bool) :
    (s.setFull a b).delayed = s.delayed := rfl
@[simp] theorem setFull_early (s : State) (a : Nat) (b : Bool) :
    (s.setFull a b).early = s.early := rfl
@[simp] theorem setFull_rels (s : State) (a : Nat) (b : Bool) :
    (s.setFull a b).rels = s.rels := rfl
@[simp] theorem setFull_poison (s : State) (a : Nat) (b : Bool) :
    (s.setFull a b).poison = s.poison := rfl
@[simp] theorem setFull_tierGiB (s : State) (a : Nat) (b : Bool) :
    (s.setFull a b).tierGiB = s.tierGiB := rfl
@[simp] theorem setFull_hdmWays (s : State) (a : Nat) (b : Bool) :
    (s.setFull a b).hdmWays = s.hdmWays := rfl
@[simp] theorem setFull_hostBytes (s : State) (a : Nat) (b : Bool) :
    (s.setFull a b).hostBytes = s.hostBytes := rfl
@[simp] theorem setFull_peerWin (s : State) (a : Nat) (b : Bool) :
    (s.setFull a b).peerWin = s.peerWin := rfl
@[simp] theorem setFull_inboundKey (s : State) (a : Nat) (b : Bool) :
    (s.setFull a b).inboundKey = s.inboundKey := rfl
@[simp] theorem setFull_keys (s : State) (a : Nat) (b : Bool) :
    (s.setFull a b).keys = s.keys := rfl
@[simp] theorem setFull_hostIf (s : State) (a : Nat) (b : Bool) :
    (s.setFull a b).hostIf = s.hostIf := rfl
@[simp] theorem setFull_harts (s : State) (a : Nat) (b : Bool) :
    (s.setFull a b).harts = s.harts := rfl
@[simp] theorem setFull_tiles (s : State) (a : Nat) (b : Bool) :
    (s.setFull a b).tiles = s.tiles := rfl
@[simp] theorem setFull_dies (s : State) (a : Nat) (b : Bool) :
    (s.setFull a b).dies = s.dies := rfl
@[simp] theorem setFull_landings (s : State) (a : Nat) (b : Bool) :
    (s.setFull a b).landings = s.landings := rfl
@[simp] theorem setFull_dir (s : State) (a : Nat) (b : Bool) :
    (s.setFull a b).dir = s.dir := rfl
@[simp] theorem setFull_gangs (s : State) (a : Nat) (b : Bool) :
    (s.setFull a b).gangs = s.gangs := rfl
@[simp] theorem setFull_records (s : State) (a : Nat) (b : Bool) :
    (s.setFull a b).records = s.records := rfl
@[simp] theorem setFull_nextId (s : State) (a : Nat) (b : Bool) :
    (s.setFull a b).nextId = s.nextId := rfl
@[simp] theorem setFull_tokens (s : State) (a : Nat) (b : Bool) :
    (s.setFull a b).tokens = s.tokens := rfl
@[simp] theorem setFull_capsules (s : State) (a : Nat) (b : Bool) :
    (s.setFull a b).capsules = s.capsules := rfl
@[simp] theorem setFull_rsvOut (s : State) (a : Nat) (b : Bool) :
    (s.setFull a b).rsvOut = s.rsvOut := rfl
@[simp] theorem setFull_rsvSeq (s : State) (a : Nat) (b : Bool) :
    (s.setFull a b).rsvSeq = s.rsvSeq := rfl
@[simp] theorem setFull_rsvIn (s : State) (a : Nat) (b : Bool) :
    (s.setFull a b).rsvIn = s.rsvIn := rfl
@[simp] theorem setFull_outbox (s : State) (a : Nat) (b : Bool) :
    (s.setFull a b).outbox = s.outbox := rfl
@[simp] theorem setFull_peerHeld (s : State) (a : Nat) (b : Bool) :
    (s.setFull a b).peerHeld = s.peerHeld := rfl
@[simp] theorem setFull_mgmt (s : State) (a : Nat) (b : Bool) :
    (s.setFull a b).mgmt = s.mgmt := rfl
@[simp] theorem setFull_pairs (s : State) (a : Nat) (b : Bool) :
    (s.setFull a b).pairs = s.pairs := rfl
@[simp] theorem setFull_evqs (s : State) (a : Nat) (b : Bool) :
    (s.setFull a b).evqs = s.evqs := rfl
@[simp] theorem setFull_routes (s : State) (a : Nat) (b : Bool) :
    (s.setFull a b).routes = s.routes := rfl
@[simp] theorem setFull_portsUp (s : State) (a : Nat) (b : Bool) :
    (s.setFull a b).portsUp = s.portsUp := rfl
@[simp] theorem setFull_loaded (s : State) (a : Nat) (b : Bool) :
    (s.setFull a b).loaded = s.loaded := rfl
@[simp] theorem setFull_loadReport (s : State) (a : Nat) (b : Bool) :
    (s.setFull a b).loadReport = s.loadReport := rfl

/-! ### An integer register of a hart written -/

@[simp] theorem hartSetX_run (H : Hart) (r : Reg) (w : Word) :
    (H.setX r w).run = H.run := by
  unfold Hart.setX; split <;> rfl
@[simp] theorem hartSetX_wait (H : Hart) (r : Reg) (w : Word) :
    (H.setX r w).wait = H.wait := by
  unfold Hart.setX; split <;> rfl
@[simp] theorem hartSetX_waited (H : Hart) (r : Reg) (w : Word) :
    (H.setX r w).waited = H.waited := by
  unfold Hart.setX; split <;> rfl
@[simp] theorem hartSetX_sup (H : Hart) (r : Reg) (w : Word) :
    (H.setX r w).sup = H.sup := by
  unfold Hart.setX; split <;> rfl
@[simp] theorem hartSetX_pc (H : Hart) (r : Reg) (w : Word) :
    (H.setX r w).pc = H.pc := by
  unfold Hart.setX; split <;> rfl
@[simp] theorem hartSetX_f (H : Hart) (r : Reg) (w : Word) :
    (H.setX r w).f = H.f := by
  unfold Hart.setX; split <;> rfl
@[simp] theorem hartSetX_v (H : Hart) (r : Reg) (w : Word) :
    (H.setX r w).v = H.v := by
  unfold Hart.setX; split <;> rfl
@[simp] theorem hartSetX_m (H : Hart) (r : Reg) (w : Word) :
    (H.setX r w).m = H.m := by
  unfold Hart.setX; split <;> rfl
@[simp] theorem hartSetX_csr (H : Hart) (r : Reg) (w : Word) :
    (H.setX r w).csr = H.csr := by
  unfold Hart.setX; split <;> rfl
@[simp] theorem hartSetX_vdirty (H : Hart) (r : Reg) (w : Word) :
    (H.setX r w).vdirty = H.vdirty := by
  unfold Hart.setX; split <;> rfl
@[simp] theorem hartSetX_ras (H : Hart) (r : Reg) (w : Word) :
    (H.setX r w).ras = H.ras := by
  unfold Hart.setX; split <;> rfl
@[simp] theorem hartSetX_loops (H : Hart) (r : Reg) (w : Word) :
    (H.setX r w).loops = H.loops := by
  unfold Hart.setX; split <;> rfl
@[simp] theorem hartSetX_ctr (H : Hart) (r : Reg) (w : Word) :
    (H.setX r w).ctr = H.ctr := by
  unfold Hart.setX; split <;> rfl
@[simp] theorem hartSetX_tok (H : Hart) (r : Reg) (w : Word) :
    (H.setX r w).tok = H.tok := by
  unfold Hart.setX; split <;> rfl
@[simp] theorem hartSetX_branchQ (H : Hart) (r : Reg) (w : Word) :
    (H.setX r w).branchQ = H.branchQ := by
  unfold Hart.setX; split <;> rfl
@[simp] theorem hartSetX_rings (H : Hart) (r : Reg) (w : Word) :
    (H.setX r w).rings = H.rings := by
  unfold Hart.setX; split <;> rfl
@[simp] theorem hartSetX_wins (H : Hart) (r : Reg) (w : Word) :
    (H.setX r w).wins = H.wins := by
  unfold Hart.setX; split <;> rfl
@[simp] theorem hartSetX_streams (H : Hart) (r : Reg) (w : Word) :
    (H.setX r w).streams = H.streams := by
  unfold Hart.setX; split <;> rfl
@[simp] theorem hartSetX_releasing (H : Hart) (r : Reg) (w : Word) :
    (H.setX r w).releasing = H.releasing := by
  unfold Hart.setX; split <;> rfl
@[simp] theorem hartSetX_ports (H : Hart) (r : Reg) (w : Word) :
    (H.setX r w).ports = H.ports := by
  unfold Hart.setX; split <;> rfl
@[simp] theorem hartSetX_fabric (H : Hart) (r : Reg) (w : Word) :
    (H.setX r w).fabric = H.fabric := by
  unfold Hart.setX; split <;> rfl
@[simp] theorem hartSetX_cap (H : Hart) (r : Reg) (w : Word) :
    (H.setX r w).cap = H.cap := by
  unfold Hart.setX; split <;> rfl
@[simp] theorem hartSetX_gang (H : Hart) (r : Reg) (w : Word) :
    (H.setX r w).gang = H.gang := by
  unfold Hart.setX; split <;> rfl
@[simp] theorem hartSetX_banks (H : Hart) (r : Reg) (w : Word) :
    (H.setX r w).banks = H.banks := by
  unfold Hart.setX; split <;> rfl
@[simp] theorem hartSetX_fq (H : Hart) (r : Reg) (w : Word) :
    (H.setX r w).fq = H.fq := by
  unfold Hart.setX; split <;> rfl
@[simp] theorem hartSetX_dbg (H : Hart) (r : Reg) (w : Word) :
    (H.setX r w).dbg = H.dbg := by
  unfold Hart.setX; split <;> rfl
@[simp] theorem hartSetX_watchdog (H : Hart) (r : Reg) (w : Word) :
    (H.setX r w).watchdog = H.watchdog := by
  unfold Hart.setX; split <;> rfl
@[simp] theorem hartSetX_ladder (H : Hart) (r : Reg) (w : Word) :
    (H.setX r w).ladder = H.ladder := by
  unfold Hart.setX; split <;> rfl
@[simp] theorem hartSetX_moved (H : Hart) (r : Reg) (w : Word) :
    (H.setX r w).moved = H.moved := by
  unfold Hart.setX; split <;> rfl
@[simp] theorem hartSetX_relocs (H : Hart) (r : Reg) (w : Word) :
    (H.setX r w).relocs = H.relocs := by
  unfold Hart.setX; split <;> rfl
@[simp] theorem hartSetX_delays (H : Hart) (r : Reg) (w : Word) :
    (H.setX r w).delays = H.delays := by
  unfold Hart.setX; split <;> rfl
@[simp] theorem hartSetX_vq (H : Hart) (r : Reg) (w : Word) :
    (H.setX r w).vq = H.vq := by
  unfold Hart.setX; split <;> rfl
@[simp] theorem hartSetX_lag (H : Hart) (r : Reg) (w : Word) :
    (H.setX r w).lag = H.lag := by
  unfold Hart.setX; split <;> rfl
@[simp] theorem hartSetX_cut (H : Hart) (r : Reg) (w : Word) :
    (H.setX r w).cut = H.cut := by
  unfold Hart.setX; split <;> rfl
@[simp] theorem hartSetX_ctrRel (H : Hart) (r : Reg) (w : Word) :
    (H.setX r w).ctrRel = H.ctrRel := by
  unfold Hart.setX; split <;> rfl
@[simp] theorem hartSetX_tokRel (H : Hart) (r : Reg) (w : Word) :
    (H.setX r w).tokRel = H.tokRel := by
  unfold Hart.setX; split <;> rfl

/-! ### A floating-point register of a hart written -/

@[simp] theorem hartSetF_run (H : Hart) (r : Reg) (w : Word) :
    (H.setF r w).run = H.run := rfl
@[simp] theorem hartSetF_wait (H : Hart) (r : Reg) (w : Word) :
    (H.setF r w).wait = H.wait := rfl
@[simp] theorem hartSetF_waited (H : Hart) (r : Reg) (w : Word) :
    (H.setF r w).waited = H.waited := rfl
@[simp] theorem hartSetF_sup (H : Hart) (r : Reg) (w : Word) :
    (H.setF r w).sup = H.sup := rfl
@[simp] theorem hartSetF_pc (H : Hart) (r : Reg) (w : Word) :
    (H.setF r w).pc = H.pc := rfl
@[simp] theorem hartSetF_x (H : Hart) (r : Reg) (w : Word) :
    (H.setF r w).x = H.x := rfl
@[simp] theorem hartSetF_v (H : Hart) (r : Reg) (w : Word) :
    (H.setF r w).v = H.v := rfl
@[simp] theorem hartSetF_m (H : Hart) (r : Reg) (w : Word) :
    (H.setF r w).m = H.m := rfl
@[simp] theorem hartSetF_csr (H : Hart) (r : Reg) (w : Word) :
    (H.setF r w).csr = H.csr := rfl
@[simp] theorem hartSetF_vdirty (H : Hart) (r : Reg) (w : Word) :
    (H.setF r w).vdirty = H.vdirty := rfl
@[simp] theorem hartSetF_ras (H : Hart) (r : Reg) (w : Word) :
    (H.setF r w).ras = H.ras := rfl
@[simp] theorem hartSetF_loops (H : Hart) (r : Reg) (w : Word) :
    (H.setF r w).loops = H.loops := rfl
@[simp] theorem hartSetF_ctr (H : Hart) (r : Reg) (w : Word) :
    (H.setF r w).ctr = H.ctr := rfl
@[simp] theorem hartSetF_tok (H : Hart) (r : Reg) (w : Word) :
    (H.setF r w).tok = H.tok := rfl
@[simp] theorem hartSetF_branchQ (H : Hart) (r : Reg) (w : Word) :
    (H.setF r w).branchQ = H.branchQ := rfl
@[simp] theorem hartSetF_rings (H : Hart) (r : Reg) (w : Word) :
    (H.setF r w).rings = H.rings := rfl
@[simp] theorem hartSetF_wins (H : Hart) (r : Reg) (w : Word) :
    (H.setF r w).wins = H.wins := rfl
@[simp] theorem hartSetF_streams (H : Hart) (r : Reg) (w : Word) :
    (H.setF r w).streams = H.streams := rfl
@[simp] theorem hartSetF_releasing (H : Hart) (r : Reg) (w : Word) :
    (H.setF r w).releasing = H.releasing := rfl
@[simp] theorem hartSetF_ports (H : Hart) (r : Reg) (w : Word) :
    (H.setF r w).ports = H.ports := rfl
@[simp] theorem hartSetF_fabric (H : Hart) (r : Reg) (w : Word) :
    (H.setF r w).fabric = H.fabric := rfl
@[simp] theorem hartSetF_cap (H : Hart) (r : Reg) (w : Word) :
    (H.setF r w).cap = H.cap := rfl
@[simp] theorem hartSetF_gang (H : Hart) (r : Reg) (w : Word) :
    (H.setF r w).gang = H.gang := rfl
@[simp] theorem hartSetF_banks (H : Hart) (r : Reg) (w : Word) :
    (H.setF r w).banks = H.banks := rfl
@[simp] theorem hartSetF_fq (H : Hart) (r : Reg) (w : Word) :
    (H.setF r w).fq = H.fq := rfl
@[simp] theorem hartSetF_dbg (H : Hart) (r : Reg) (w : Word) :
    (H.setF r w).dbg = H.dbg := rfl
@[simp] theorem hartSetF_watchdog (H : Hart) (r : Reg) (w : Word) :
    (H.setF r w).watchdog = H.watchdog := rfl
@[simp] theorem hartSetF_ladder (H : Hart) (r : Reg) (w : Word) :
    (H.setF r w).ladder = H.ladder := rfl
@[simp] theorem hartSetF_moved (H : Hart) (r : Reg) (w : Word) :
    (H.setF r w).moved = H.moved := rfl
@[simp] theorem hartSetF_relocs (H : Hart) (r : Reg) (w : Word) :
    (H.setF r w).relocs = H.relocs := rfl
@[simp] theorem hartSetF_delays (H : Hart) (r : Reg) (w : Word) :
    (H.setF r w).delays = H.delays := rfl
@[simp] theorem hartSetF_vq (H : Hart) (r : Reg) (w : Word) :
    (H.setF r w).vq = H.vq := rfl
@[simp] theorem hartSetF_lag (H : Hart) (r : Reg) (w : Word) :
    (H.setF r w).lag = H.lag := rfl
@[simp] theorem hartSetF_cut (H : Hart) (r : Reg) (w : Word) :
    (H.setF r w).cut = H.cut := rfl
@[simp] theorem hartSetF_ctrRel (H : Hart) (r : Reg) (w : Word) :
    (H.setF r w).ctrRel = H.ctrRel := rfl
@[simp] theorem hartSetF_tokRel (H : Hart) (r : Reg) (w : Word) :
    (H.setF r w).tokRel = H.tokRel := rfl

/-! ### VL of a hart written -/

@[simp] theorem setVl_run (H : Hart) (n : Nat) :
    (H.setVl n).run = H.run := rfl
@[simp] theorem setVl_wait (H : Hart) (n : Nat) :
    (H.setVl n).wait = H.wait := rfl
@[simp] theorem setVl_waited (H : Hart) (n : Nat) :
    (H.setVl n).waited = H.waited := rfl
@[simp] theorem setVl_sup (H : Hart) (n : Nat) :
    (H.setVl n).sup = H.sup := rfl
@[simp] theorem setVl_pc (H : Hart) (n : Nat) :
    (H.setVl n).pc = H.pc := rfl
@[simp] theorem setVl_x (H : Hart) (n : Nat) :
    (H.setVl n).x = H.x := rfl
@[simp] theorem setVl_f (H : Hart) (n : Nat) :
    (H.setVl n).f = H.f := rfl
@[simp] theorem setVl_v (H : Hart) (n : Nat) :
    (H.setVl n).v = H.v := rfl
@[simp] theorem setVl_m (H : Hart) (n : Nat) :
    (H.setVl n).m = H.m := rfl
@[simp] theorem setVl_vdirty (H : Hart) (n : Nat) :
    (H.setVl n).vdirty = H.vdirty := rfl
@[simp] theorem setVl_ras (H : Hart) (n : Nat) :
    (H.setVl n).ras = H.ras := rfl
@[simp] theorem setVl_loops (H : Hart) (n : Nat) :
    (H.setVl n).loops = H.loops := rfl
@[simp] theorem setVl_ctr (H : Hart) (n : Nat) :
    (H.setVl n).ctr = H.ctr := rfl
@[simp] theorem setVl_tok (H : Hart) (n : Nat) :
    (H.setVl n).tok = H.tok := rfl
@[simp] theorem setVl_branchQ (H : Hart) (n : Nat) :
    (H.setVl n).branchQ = H.branchQ := rfl
@[simp] theorem setVl_rings (H : Hart) (n : Nat) :
    (H.setVl n).rings = H.rings := rfl
@[simp] theorem setVl_wins (H : Hart) (n : Nat) :
    (H.setVl n).wins = H.wins := rfl
@[simp] theorem setVl_streams (H : Hart) (n : Nat) :
    (H.setVl n).streams = H.streams := rfl
@[simp] theorem setVl_releasing (H : Hart) (n : Nat) :
    (H.setVl n).releasing = H.releasing := rfl
@[simp] theorem setVl_ports (H : Hart) (n : Nat) :
    (H.setVl n).ports = H.ports := rfl
@[simp] theorem setVl_fabric (H : Hart) (n : Nat) :
    (H.setVl n).fabric = H.fabric := rfl
@[simp] theorem setVl_cap (H : Hart) (n : Nat) :
    (H.setVl n).cap = H.cap := rfl
@[simp] theorem setVl_gang (H : Hart) (n : Nat) :
    (H.setVl n).gang = H.gang := rfl
@[simp] theorem setVl_banks (H : Hart) (n : Nat) :
    (H.setVl n).banks = H.banks := rfl
@[simp] theorem setVl_fq (H : Hart) (n : Nat) :
    (H.setVl n).fq = H.fq := rfl
@[simp] theorem setVl_dbg (H : Hart) (n : Nat) :
    (H.setVl n).dbg = H.dbg := rfl
@[simp] theorem setVl_watchdog (H : Hart) (n : Nat) :
    (H.setVl n).watchdog = H.watchdog := rfl
@[simp] theorem setVl_ladder (H : Hart) (n : Nat) :
    (H.setVl n).ladder = H.ladder := rfl
@[simp] theorem setVl_moved (H : Hart) (n : Nat) :
    (H.setVl n).moved = H.moved := rfl
@[simp] theorem setVl_relocs (H : Hart) (n : Nat) :
    (H.setVl n).relocs = H.relocs := rfl
@[simp] theorem setVl_delays (H : Hart) (n : Nat) :
    (H.setVl n).delays = H.delays := rfl
@[simp] theorem setVl_vq (H : Hart) (n : Nat) :
    (H.setVl n).vq = H.vq := rfl
@[simp] theorem setVl_lag (H : Hart) (n : Nat) :
    (H.setVl n).lag = H.lag := rfl
@[simp] theorem setVl_cut (H : Hart) (n : Nat) :
    (H.setVl n).cut = H.cut := rfl
@[simp] theorem setVl_ctrRel (H : Hart) (n : Nat) :
    (H.setVl n).ctrRel = H.ctrRel := rfl
@[simp] theorem setVl_tokRel (H : Hart) (n : Nat) :
    (H.setVl n).tokRel = H.tokRel := rfl

/-! ### The lane mode of a hart written -/

@[simp] theorem setMode_run (H : Hart) (n : Nat) :
    (H.setMode n).run = H.run := rfl
@[simp] theorem setMode_wait (H : Hart) (n : Nat) :
    (H.setMode n).wait = H.wait := rfl
@[simp] theorem setMode_waited (H : Hart) (n : Nat) :
    (H.setMode n).waited = H.waited := rfl
@[simp] theorem setMode_sup (H : Hart) (n : Nat) :
    (H.setMode n).sup = H.sup := rfl
@[simp] theorem setMode_pc (H : Hart) (n : Nat) :
    (H.setMode n).pc = H.pc := rfl
@[simp] theorem setMode_x (H : Hart) (n : Nat) :
    (H.setMode n).x = H.x := rfl
@[simp] theorem setMode_f (H : Hart) (n : Nat) :
    (H.setMode n).f = H.f := rfl
@[simp] theorem setMode_v (H : Hart) (n : Nat) :
    (H.setMode n).v = H.v := rfl
@[simp] theorem setMode_m (H : Hart) (n : Nat) :
    (H.setMode n).m = H.m := rfl
@[simp] theorem setMode_vdirty (H : Hart) (n : Nat) :
    (H.setMode n).vdirty = H.vdirty := rfl
@[simp] theorem setMode_ras (H : Hart) (n : Nat) :
    (H.setMode n).ras = H.ras := rfl
@[simp] theorem setMode_loops (H : Hart) (n : Nat) :
    (H.setMode n).loops = H.loops := rfl
@[simp] theorem setMode_ctr (H : Hart) (n : Nat) :
    (H.setMode n).ctr = H.ctr := rfl
@[simp] theorem setMode_tok (H : Hart) (n : Nat) :
    (H.setMode n).tok = H.tok := rfl
@[simp] theorem setMode_branchQ (H : Hart) (n : Nat) :
    (H.setMode n).branchQ = H.branchQ := rfl
@[simp] theorem setMode_rings (H : Hart) (n : Nat) :
    (H.setMode n).rings = H.rings := rfl
@[simp] theorem setMode_wins (H : Hart) (n : Nat) :
    (H.setMode n).wins = H.wins := rfl
@[simp] theorem setMode_streams (H : Hart) (n : Nat) :
    (H.setMode n).streams = H.streams := rfl
@[simp] theorem setMode_releasing (H : Hart) (n : Nat) :
    (H.setMode n).releasing = H.releasing := rfl
@[simp] theorem setMode_ports (H : Hart) (n : Nat) :
    (H.setMode n).ports = H.ports := rfl
@[simp] theorem setMode_fabric (H : Hart) (n : Nat) :
    (H.setMode n).fabric = H.fabric := rfl
@[simp] theorem setMode_cap (H : Hart) (n : Nat) :
    (H.setMode n).cap = H.cap := rfl
@[simp] theorem setMode_gang (H : Hart) (n : Nat) :
    (H.setMode n).gang = H.gang := rfl
@[simp] theorem setMode_banks (H : Hart) (n : Nat) :
    (H.setMode n).banks = H.banks := rfl
@[simp] theorem setMode_fq (H : Hart) (n : Nat) :
    (H.setMode n).fq = H.fq := rfl
@[simp] theorem setMode_dbg (H : Hart) (n : Nat) :
    (H.setMode n).dbg = H.dbg := rfl
@[simp] theorem setMode_watchdog (H : Hart) (n : Nat) :
    (H.setMode n).watchdog = H.watchdog := rfl
@[simp] theorem setMode_ladder (H : Hart) (n : Nat) :
    (H.setMode n).ladder = H.ladder := rfl
@[simp] theorem setMode_moved (H : Hart) (n : Nat) :
    (H.setMode n).moved = H.moved := rfl
@[simp] theorem setMode_relocs (H : Hart) (n : Nat) :
    (H.setMode n).relocs = H.relocs := rfl
@[simp] theorem setMode_delays (H : Hart) (n : Nat) :
    (H.setMode n).delays = H.delays := rfl
@[simp] theorem setMode_vq (H : Hart) (n : Nat) :
    (H.setMode n).vq = H.vq := rfl
@[simp] theorem setMode_lag (H : Hart) (n : Nat) :
    (H.setMode n).lag = H.lag := rfl
@[simp] theorem setMode_cut (H : Hart) (n : Nat) :
    (H.setMode n).cut = H.cut := rfl
@[simp] theorem setMode_ctrRel (H : Hart) (n : Nat) :
    (H.setMode n).ctrRel = H.ctrRel := rfl
@[simp] theorem setMode_tokRel (H : Hart) (n : Nat) :
    (H.setMode n).tokRel = H.tokRel := rfl

/-! ### VSTART of a hart written -/

@[simp] theorem setVstart_run (H : Hart) (w : Word) :
    (H.setVstart w).run = H.run := rfl
@[simp] theorem setVstart_wait (H : Hart) (w : Word) :
    (H.setVstart w).wait = H.wait := rfl
@[simp] theorem setVstart_waited (H : Hart) (w : Word) :
    (H.setVstart w).waited = H.waited := rfl
@[simp] theorem setVstart_sup (H : Hart) (w : Word) :
    (H.setVstart w).sup = H.sup := rfl
@[simp] theorem setVstart_pc (H : Hart) (w : Word) :
    (H.setVstart w).pc = H.pc := rfl
@[simp] theorem setVstart_x (H : Hart) (w : Word) :
    (H.setVstart w).x = H.x := rfl
@[simp] theorem setVstart_f (H : Hart) (w : Word) :
    (H.setVstart w).f = H.f := rfl
@[simp] theorem setVstart_v (H : Hart) (w : Word) :
    (H.setVstart w).v = H.v := rfl
@[simp] theorem setVstart_m (H : Hart) (w : Word) :
    (H.setVstart w).m = H.m := rfl
@[simp] theorem setVstart_vdirty (H : Hart) (w : Word) :
    (H.setVstart w).vdirty = H.vdirty := rfl
@[simp] theorem setVstart_ras (H : Hart) (w : Word) :
    (H.setVstart w).ras = H.ras := rfl
@[simp] theorem setVstart_loops (H : Hart) (w : Word) :
    (H.setVstart w).loops = H.loops := rfl
@[simp] theorem setVstart_ctr (H : Hart) (w : Word) :
    (H.setVstart w).ctr = H.ctr := rfl
@[simp] theorem setVstart_tok (H : Hart) (w : Word) :
    (H.setVstart w).tok = H.tok := rfl
@[simp] theorem setVstart_branchQ (H : Hart) (w : Word) :
    (H.setVstart w).branchQ = H.branchQ := rfl
@[simp] theorem setVstart_rings (H : Hart) (w : Word) :
    (H.setVstart w).rings = H.rings := rfl
@[simp] theorem setVstart_wins (H : Hart) (w : Word) :
    (H.setVstart w).wins = H.wins := rfl
@[simp] theorem setVstart_streams (H : Hart) (w : Word) :
    (H.setVstart w).streams = H.streams := rfl
@[simp] theorem setVstart_releasing (H : Hart) (w : Word) :
    (H.setVstart w).releasing = H.releasing := rfl
@[simp] theorem setVstart_ports (H : Hart) (w : Word) :
    (H.setVstart w).ports = H.ports := rfl
@[simp] theorem setVstart_fabric (H : Hart) (w : Word) :
    (H.setVstart w).fabric = H.fabric := rfl
@[simp] theorem setVstart_cap (H : Hart) (w : Word) :
    (H.setVstart w).cap = H.cap := rfl
@[simp] theorem setVstart_gang (H : Hart) (w : Word) :
    (H.setVstart w).gang = H.gang := rfl
@[simp] theorem setVstart_banks (H : Hart) (w : Word) :
    (H.setVstart w).banks = H.banks := rfl
@[simp] theorem setVstart_fq (H : Hart) (w : Word) :
    (H.setVstart w).fq = H.fq := rfl
@[simp] theorem setVstart_dbg (H : Hart) (w : Word) :
    (H.setVstart w).dbg = H.dbg := rfl
@[simp] theorem setVstart_watchdog (H : Hart) (w : Word) :
    (H.setVstart w).watchdog = H.watchdog := rfl
@[simp] theorem setVstart_ladder (H : Hart) (w : Word) :
    (H.setVstart w).ladder = H.ladder := rfl
@[simp] theorem setVstart_moved (H : Hart) (w : Word) :
    (H.setVstart w).moved = H.moved := rfl
@[simp] theorem setVstart_relocs (H : Hart) (w : Word) :
    (H.setVstart w).relocs = H.relocs := rfl
@[simp] theorem setVstart_delays (H : Hart) (w : Word) :
    (H.setVstart w).delays = H.delays := rfl
@[simp] theorem setVstart_vq (H : Hart) (w : Word) :
    (H.setVstart w).vq = H.vq := rfl
@[simp] theorem setVstart_lag (H : Hart) (w : Word) :
    (H.setVstart w).lag = H.lag := rfl
@[simp] theorem setVstart_cut (H : Hart) (w : Word) :
    (H.setVstart w).cut = H.cut := rfl
@[simp] theorem setVstart_ctrRel (H : Hart) (w : Word) :
    (H.setVstart w).ctrRel = H.ctrRel := rfl
@[simp] theorem setVstart_tokRel (H : Hart) (w : Word) :
    (H.setVstart w).tokRel = H.tokRel := rfl

/-! ### A trap entered by a hart -/

@[simp] theorem enterTrap_x (H : Hart) (i : Bool) (c : Nat) (v e : Word) :
    (H.enterTrap i c v e).x = H.x := rfl
@[simp] theorem enterTrap_f (H : Hart) (i : Bool) (c : Nat) (v e : Word) :
    (H.enterTrap i c v e).f = H.f := rfl
@[simp] theorem enterTrap_v (H : Hart) (i : Bool) (c : Nat) (v e : Word) :
    (H.enterTrap i c v e).v = H.v := rfl
@[simp] theorem enterTrap_m (H : Hart) (i : Bool) (c : Nat) (v e : Word) :
    (H.enterTrap i c v e).m = H.m := rfl
@[simp] theorem enterTrap_vdirty (H : Hart) (i : Bool) (c : Nat) (v e : Word) :
    (H.enterTrap i c v e).vdirty = H.vdirty := rfl
@[simp] theorem enterTrap_ras (H : Hart) (i : Bool) (c : Nat) (v e : Word) :
    (H.enterTrap i c v e).ras = H.ras := rfl
@[simp] theorem enterTrap_loops (H : Hart) (i : Bool) (c : Nat) (v e : Word) :
    (H.enterTrap i c v e).loops = H.loops := rfl
@[simp] theorem enterTrap_ctr (H : Hart) (i : Bool) (c : Nat) (v e : Word) :
    (H.enterTrap i c v e).ctr = H.ctr := rfl
@[simp] theorem enterTrap_tok (H : Hart) (i : Bool) (c : Nat) (v e : Word) :
    (H.enterTrap i c v e).tok = H.tok := rfl
@[simp] theorem enterTrap_branchQ (H : Hart) (i : Bool) (c : Nat) (v e : Word) :
    (H.enterTrap i c v e).branchQ = H.branchQ := rfl
@[simp] theorem enterTrap_rings (H : Hart) (i : Bool) (c : Nat) (v e : Word) :
    (H.enterTrap i c v e).rings = H.rings := rfl
@[simp] theorem enterTrap_wins (H : Hart) (i : Bool) (c : Nat) (v e : Word) :
    (H.enterTrap i c v e).wins = H.wins := rfl
@[simp] theorem enterTrap_streams (H : Hart) (i : Bool) (c : Nat) (v e : Word) :
    (H.enterTrap i c v e).streams = H.streams := rfl
@[simp] theorem enterTrap_releasing (H : Hart) (i : Bool) (c : Nat) (v e : Word) :
    (H.enterTrap i c v e).releasing = H.releasing := rfl
@[simp] theorem enterTrap_ports (H : Hart) (i : Bool) (c : Nat) (v e : Word) :
    (H.enterTrap i c v e).ports = H.ports := rfl
@[simp] theorem enterTrap_fabric (H : Hart) (i : Bool) (c : Nat) (v e : Word) :
    (H.enterTrap i c v e).fabric = H.fabric := rfl
@[simp] theorem enterTrap_cap (H : Hart) (i : Bool) (c : Nat) (v e : Word) :
    (H.enterTrap i c v e).cap = H.cap := rfl
@[simp] theorem enterTrap_gang (H : Hart) (i : Bool) (c : Nat) (v e : Word) :
    (H.enterTrap i c v e).gang = H.gang := rfl
@[simp] theorem enterTrap_banks (H : Hart) (i : Bool) (c : Nat) (v e : Word) :
    (H.enterTrap i c v e).banks = H.banks := rfl
@[simp] theorem enterTrap_fq (H : Hart) (i : Bool) (c : Nat) (v e : Word) :
    (H.enterTrap i c v e).fq = H.fq := rfl
@[simp] theorem enterTrap_dbg (H : Hart) (i : Bool) (c : Nat) (v e : Word) :
    (H.enterTrap i c v e).dbg = H.dbg := rfl
@[simp] theorem enterTrap_watchdog (H : Hart) (i : Bool) (c : Nat) (v e : Word) :
    (H.enterTrap i c v e).watchdog = H.watchdog := rfl
@[simp] theorem enterTrap_ladder (H : Hart) (i : Bool) (c : Nat) (v e : Word) :
    (H.enterTrap i c v e).ladder = H.ladder := rfl
@[simp] theorem enterTrap_moved (H : Hart) (i : Bool) (c : Nat) (v e : Word) :
    (H.enterTrap i c v e).moved = H.moved := rfl
@[simp] theorem enterTrap_relocs (H : Hart) (i : Bool) (c : Nat) (v e : Word) :
    (H.enterTrap i c v e).relocs = H.relocs := rfl
@[simp] theorem enterTrap_delays (H : Hart) (i : Bool) (c : Nat) (v e : Word) :
    (H.enterTrap i c v e).delays = H.delays := rfl
@[simp] theorem enterTrap_vq (H : Hart) (i : Bool) (c : Nat) (v e : Word) :
    (H.enterTrap i c v e).vq = H.vq := rfl
@[simp] theorem enterTrap_lag (H : Hart) (i : Bool) (c : Nat) (v e : Word) :
    (H.enterTrap i c v e).lag = H.lag := rfl
@[simp] theorem enterTrap_cut (H : Hart) (i : Bool) (c : Nat) (v e : Word) :
    (H.enterTrap i c v e).cut = H.cut := rfl
@[simp] theorem enterTrap_ctrRel (H : Hart) (i : Bool) (c : Nat) (v e : Word) :
    (H.enterTrap i c v e).ctrRel = H.ctrRel := rfl
@[simp] theorem enterTrap_tokRel (H : Hart) (i : Bool) (c : Nat) (v e : Word) :
    (H.enterTrap i c v e).tokRel = H.tokRel := rfl

/-! ### A return from a trap -/

@[simp] theorem leaveTrap_x (H : Hart) :
    (H.leaveTrap).x = H.x := rfl
@[simp] theorem leaveTrap_f (H : Hart) :
    (H.leaveTrap).f = H.f := rfl
@[simp] theorem leaveTrap_v (H : Hart) :
    (H.leaveTrap).v = H.v := rfl
@[simp] theorem leaveTrap_m (H : Hart) :
    (H.leaveTrap).m = H.m := rfl
@[simp] theorem leaveTrap_vdirty (H : Hart) :
    (H.leaveTrap).vdirty = H.vdirty := rfl
@[simp] theorem leaveTrap_ras (H : Hart) :
    (H.leaveTrap).ras = H.ras := rfl
@[simp] theorem leaveTrap_loops (H : Hart) :
    (H.leaveTrap).loops = H.loops := rfl
@[simp] theorem leaveTrap_ctr (H : Hart) :
    (H.leaveTrap).ctr = H.ctr := rfl
@[simp] theorem leaveTrap_tok (H : Hart) :
    (H.leaveTrap).tok = H.tok := rfl
@[simp] theorem leaveTrap_branchQ (H : Hart) :
    (H.leaveTrap).branchQ = H.branchQ := rfl
@[simp] theorem leaveTrap_rings (H : Hart) :
    (H.leaveTrap).rings = H.rings := rfl
@[simp] theorem leaveTrap_wins (H : Hart) :
    (H.leaveTrap).wins = H.wins := rfl
@[simp] theorem leaveTrap_streams (H : Hart) :
    (H.leaveTrap).streams = H.streams := rfl
@[simp] theorem leaveTrap_releasing (H : Hart) :
    (H.leaveTrap).releasing = H.releasing := rfl
@[simp] theorem leaveTrap_ports (H : Hart) :
    (H.leaveTrap).ports = H.ports := rfl
@[simp] theorem leaveTrap_fabric (H : Hart) :
    (H.leaveTrap).fabric = H.fabric := rfl
@[simp] theorem leaveTrap_cap (H : Hart) :
    (H.leaveTrap).cap = H.cap := rfl
@[simp] theorem leaveTrap_gang (H : Hart) :
    (H.leaveTrap).gang = H.gang := rfl
@[simp] theorem leaveTrap_banks (H : Hart) :
    (H.leaveTrap).banks = H.banks := rfl
@[simp] theorem leaveTrap_fq (H : Hart) :
    (H.leaveTrap).fq = H.fq := rfl
@[simp] theorem leaveTrap_dbg (H : Hart) :
    (H.leaveTrap).dbg = H.dbg := rfl
@[simp] theorem leaveTrap_moved (H : Hart) :
    (H.leaveTrap).moved = H.moved := rfl
@[simp] theorem leaveTrap_relocs (H : Hart) :
    (H.leaveTrap).relocs = H.relocs := rfl
@[simp] theorem leaveTrap_delays (H : Hart) :
    (H.leaveTrap).delays = H.delays := rfl
@[simp] theorem leaveTrap_vq (H : Hart) :
    (H.leaveTrap).vq = H.vq := rfl
@[simp] theorem leaveTrap_lag (H : Hart) :
    (H.leaveTrap).lag = H.lag := rfl
@[simp] theorem leaveTrap_cut (H : Hart) :
    (H.leaveTrap).cut = H.cut := rfl
@[simp] theorem leaveTrap_ctrRel (H : Hart) :
    (H.leaveTrap).ctrRel = H.ctrRel := rfl
@[simp] theorem leaveTrap_tokRel (H : Hart) :
    (H.leaveTrap).tokRel = H.tokRel := rfl

/-! ### Flags raised by a hart -/

@[simp] theorem raise_run (H : Hart) (fl : Flags) :
    (H.raise fl).run = H.run := rfl
@[simp] theorem raise_wait (H : Hart) (fl : Flags) :
    (H.raise fl).wait = H.wait := rfl
@[simp] theorem raise_waited (H : Hart) (fl : Flags) :
    (H.raise fl).waited = H.waited := rfl
@[simp] theorem raise_sup (H : Hart) (fl : Flags) :
    (H.raise fl).sup = H.sup := rfl
@[simp] theorem raise_pc (H : Hart) (fl : Flags) :
    (H.raise fl).pc = H.pc := rfl
@[simp] theorem raise_x (H : Hart) (fl : Flags) :
    (H.raise fl).x = H.x := rfl
@[simp] theorem raise_f (H : Hart) (fl : Flags) :
    (H.raise fl).f = H.f := rfl
@[simp] theorem raise_v (H : Hart) (fl : Flags) :
    (H.raise fl).v = H.v := rfl
@[simp] theorem raise_m (H : Hart) (fl : Flags) :
    (H.raise fl).m = H.m := rfl
@[simp] theorem raise_vdirty (H : Hart) (fl : Flags) :
    (H.raise fl).vdirty = H.vdirty := rfl
@[simp] theorem raise_ras (H : Hart) (fl : Flags) :
    (H.raise fl).ras = H.ras := rfl
@[simp] theorem raise_loops (H : Hart) (fl : Flags) :
    (H.raise fl).loops = H.loops := rfl
@[simp] theorem raise_ctr (H : Hart) (fl : Flags) :
    (H.raise fl).ctr = H.ctr := rfl
@[simp] theorem raise_tok (H : Hart) (fl : Flags) :
    (H.raise fl).tok = H.tok := rfl
@[simp] theorem raise_branchQ (H : Hart) (fl : Flags) :
    (H.raise fl).branchQ = H.branchQ := rfl
@[simp] theorem raise_rings (H : Hart) (fl : Flags) :
    (H.raise fl).rings = H.rings := rfl
@[simp] theorem raise_wins (H : Hart) (fl : Flags) :
    (H.raise fl).wins = H.wins := rfl
@[simp] theorem raise_streams (H : Hart) (fl : Flags) :
    (H.raise fl).streams = H.streams := rfl
@[simp] theorem raise_releasing (H : Hart) (fl : Flags) :
    (H.raise fl).releasing = H.releasing := rfl
@[simp] theorem raise_ports (H : Hart) (fl : Flags) :
    (H.raise fl).ports = H.ports := rfl
@[simp] theorem raise_fabric (H : Hart) (fl : Flags) :
    (H.raise fl).fabric = H.fabric := rfl
@[simp] theorem raise_cap (H : Hart) (fl : Flags) :
    (H.raise fl).cap = H.cap := rfl
@[simp] theorem raise_gang (H : Hart) (fl : Flags) :
    (H.raise fl).gang = H.gang := rfl
@[simp] theorem raise_banks (H : Hart) (fl : Flags) :
    (H.raise fl).banks = H.banks := rfl
@[simp] theorem raise_fq (H : Hart) (fl : Flags) :
    (H.raise fl).fq = H.fq := rfl
@[simp] theorem raise_dbg (H : Hart) (fl : Flags) :
    (H.raise fl).dbg = H.dbg := rfl
@[simp] theorem raise_watchdog (H : Hart) (fl : Flags) :
    (H.raise fl).watchdog = H.watchdog := rfl
@[simp] theorem raise_ladder (H : Hart) (fl : Flags) :
    (H.raise fl).ladder = H.ladder := rfl
@[simp] theorem raise_moved (H : Hart) (fl : Flags) :
    (H.raise fl).moved = H.moved := rfl
@[simp] theorem raise_relocs (H : Hart) (fl : Flags) :
    (H.raise fl).relocs = H.relocs := rfl
@[simp] theorem raise_delays (H : Hart) (fl : Flags) :
    (H.raise fl).delays = H.delays := rfl
@[simp] theorem raise_vq (H : Hart) (fl : Flags) :
    (H.raise fl).vq = H.vq := rfl
@[simp] theorem raise_lag (H : Hart) (fl : Flags) :
    (H.raise fl).lag = H.lag := rfl
@[simp] theorem raise_cut (H : Hart) (fl : Flags) :
    (H.raise fl).cut = H.cut := rfl
@[simp] theorem raise_ctrRel (H : Hart) (fl : Flags) :
    (H.raise fl).ctrRel = H.ctrRel := rfl
@[simp] theorem raise_tokRel (H : Hart) (fl : Flags) :
    (H.raise fl).tokRel = H.tokRel := rfl

/-! ### A stream register of a hart replaced -/

@[simp] theorem setStream_run (H : Hart) (n : Nat) (t : Stream) :
    (H.setStream n t).run = H.run := rfl
@[simp] theorem setStream_wait (H : Hart) (n : Nat) (t : Stream) :
    (H.setStream n t).wait = H.wait := rfl
@[simp] theorem setStream_waited (H : Hart) (n : Nat) (t : Stream) :
    (H.setStream n t).waited = H.waited := rfl
@[simp] theorem setStream_sup (H : Hart) (n : Nat) (t : Stream) :
    (H.setStream n t).sup = H.sup := rfl
@[simp] theorem setStream_pc (H : Hart) (n : Nat) (t : Stream) :
    (H.setStream n t).pc = H.pc := rfl
@[simp] theorem setStream_x (H : Hart) (n : Nat) (t : Stream) :
    (H.setStream n t).x = H.x := rfl
@[simp] theorem setStream_f (H : Hart) (n : Nat) (t : Stream) :
    (H.setStream n t).f = H.f := rfl
@[simp] theorem setStream_v (H : Hart) (n : Nat) (t : Stream) :
    (H.setStream n t).v = H.v := rfl
@[simp] theorem setStream_m (H : Hart) (n : Nat) (t : Stream) :
    (H.setStream n t).m = H.m := rfl
@[simp] theorem setStream_csr (H : Hart) (n : Nat) (t : Stream) :
    (H.setStream n t).csr = H.csr := rfl
@[simp] theorem setStream_vdirty (H : Hart) (n : Nat) (t : Stream) :
    (H.setStream n t).vdirty = H.vdirty := rfl
@[simp] theorem setStream_ras (H : Hart) (n : Nat) (t : Stream) :
    (H.setStream n t).ras = H.ras := rfl
@[simp] theorem setStream_loops (H : Hart) (n : Nat) (t : Stream) :
    (H.setStream n t).loops = H.loops := rfl
@[simp] theorem setStream_ctr (H : Hart) (n : Nat) (t : Stream) :
    (H.setStream n t).ctr = H.ctr := rfl
@[simp] theorem setStream_tok (H : Hart) (n : Nat) (t : Stream) :
    (H.setStream n t).tok = H.tok := rfl
@[simp] theorem setStream_branchQ (H : Hart) (n : Nat) (t : Stream) :
    (H.setStream n t).branchQ = H.branchQ := rfl
@[simp] theorem setStream_rings (H : Hart) (n : Nat) (t : Stream) :
    (H.setStream n t).rings = H.rings := rfl
@[simp] theorem setStream_wins (H : Hart) (n : Nat) (t : Stream) :
    (H.setStream n t).wins = H.wins := rfl
@[simp] theorem setStream_releasing (H : Hart) (n : Nat) (t : Stream) :
    (H.setStream n t).releasing = H.releasing := rfl
@[simp] theorem setStream_ports (H : Hart) (n : Nat) (t : Stream) :
    (H.setStream n t).ports = H.ports := rfl
@[simp] theorem setStream_fabric (H : Hart) (n : Nat) (t : Stream) :
    (H.setStream n t).fabric = H.fabric := rfl
@[simp] theorem setStream_cap (H : Hart) (n : Nat) (t : Stream) :
    (H.setStream n t).cap = H.cap := rfl
@[simp] theorem setStream_gang (H : Hart) (n : Nat) (t : Stream) :
    (H.setStream n t).gang = H.gang := rfl
@[simp] theorem setStream_banks (H : Hart) (n : Nat) (t : Stream) :
    (H.setStream n t).banks = H.banks := rfl
@[simp] theorem setStream_fq (H : Hart) (n : Nat) (t : Stream) :
    (H.setStream n t).fq = H.fq := rfl
@[simp] theorem setStream_dbg (H : Hart) (n : Nat) (t : Stream) :
    (H.setStream n t).dbg = H.dbg := rfl
@[simp] theorem setStream_watchdog (H : Hart) (n : Nat) (t : Stream) :
    (H.setStream n t).watchdog = H.watchdog := rfl
@[simp] theorem setStream_ladder (H : Hart) (n : Nat) (t : Stream) :
    (H.setStream n t).ladder = H.ladder := rfl
@[simp] theorem setStream_moved (H : Hart) (n : Nat) (t : Stream) :
    (H.setStream n t).moved = H.moved := rfl
@[simp] theorem setStream_relocs (H : Hart) (n : Nat) (t : Stream) :
    (H.setStream n t).relocs = H.relocs := rfl
@[simp] theorem setStream_delays (H : Hart) (n : Nat) (t : Stream) :
    (H.setStream n t).delays = H.delays := rfl
@[simp] theorem setStream_vq (H : Hart) (n : Nat) (t : Stream) :
    (H.setStream n t).vq = H.vq := rfl
@[simp] theorem setStream_lag (H : Hart) (n : Nat) (t : Stream) :
    (H.setStream n t).lag = H.lag := rfl
@[simp] theorem setStream_cut (H : Hart) (n : Nat) (t : Stream) :
    (H.setStream n t).cut = H.cut := rfl
@[simp] theorem setStream_ctrRel (H : Hart) (n : Nat) (t : Stream) :
    (H.setStream n t).ctrRel = H.ctrRel := rfl
@[simp] theorem setStream_tokRel (H : Hart) (n : Nat) (t : Stream) :
    (H.setStream n t).tokRel = H.tokRel := rfl

end Sys2Proof.Machine
end

