-- ==== Sys2Proof/Laws/Memory.lean ====
section
/-!
SUPPORT. Memory as a list of cells: every memory operation keeps the canonical form, a read after a write gives
the value written, a write leaves every other cell alone, and equal reads make equal memories.
-/

namespace Sys2Proof.Machine

/-! ### The canonical form -/

theorem memWfFrom_mono {m : List Host.Cell} {lo lo' : Nat} (h : memWfFrom lo m = true) (hl : lo' ≤ lo) :
    memWfFrom lo' m = true := by
  cases m with
  | nil => rfl
  | cons c t =>
    obtain ⟨k, b⟩ := c
    simp only [memWfFrom, Bool.and_eq_true, decide_eq_true_eq] at h ⊢
    exact ⟨⟨by omega, h.1.2⟩, h.2⟩

/-- The cells of a canonical list, one by one. -/
theorem memWfFrom_cons {lo k : Nat} {b : Byte} {t : List Host.Cell} :
    memWfFrom lo ((k, b) :: t) = true ↔ lo ≤ k ∧ b ≠ unlisted ∧ memWfFrom (k + 1) t = true := by
  simp [memWfFrom, and_assoc]

theorem memPut_wfFrom (m : List Host.Cell) (a : Nat) (b : Byte) :
    ∀ lo, lo ≤ a → memWfFrom lo m = true → memWfFrom lo (memPut m a b) = true := by
  induction m with
  | nil =>
    intro lo hl _
    unfold memPut
    split
    · rfl
    · exact memWfFrom_cons.2 ⟨hl, ‹_›, rfl⟩
  | cons c t ih =>
    obtain ⟨k, x⟩ := c
    intro lo hl h
    obtain ⟨h1, h2, h3⟩ := memWfFrom_cons.1 h
    simp only [memPut]
    split
    · split
      · exact memWfFrom_cons.2 ⟨h1, h2, h3⟩
      · exact memWfFrom_cons.2 ⟨hl, ‹_›, memWfFrom_cons.2 ⟨by omega, h2, h3⟩⟩
    · split
      · subst_vars
        split
        · exact memWfFrom_mono h3 (by omega)
        · exact memWfFrom_cons.2 ⟨hl, ‹_›, h3⟩
      · exact memWfFrom_cons.2 ⟨h1, h2, ih (k + 1) (by omega) h3⟩

/-- A byte written keeps the canonical form. -/
theorem memPut_wf {m : List Host.Cell} (h : Memory.wf m = true) (a : Nat) (b : Byte) :
    Memory.wf (memPut m a b) = true := memPut_wfFrom m a b 0 (Nat.zero_le a) h

/-- Bytes written keep the canonical form. -/
theorem memPutAll_wf {m : List Host.Cell} (h : Memory.wf m = true) (a : Nat) (bs : List Byte) :
    Memory.wf (memPutAll m a bs) = true := by
  induction bs generalizing m a with
  | nil => exact h
  | cons b t ih => exact ih (memPut_wf h a b) (a + 1)

theorem filter_wfFrom (p : Host.Cell → Bool) (m : List Host.Cell) :
    ∀ lo, memWfFrom lo m = true → memWfFrom lo (m.filter p) = true := by
  induction m with
  | nil => intro lo _; rfl
  | cons c t ih =>
    obtain ⟨k, x⟩ := c
    intro lo h
    obtain ⟨h1, h2, h3⟩ := memWfFrom_cons.1 h
    rw [List.filter_cons]
    split
    · exact memWfFrom_cons.2 ⟨h1, h2, ih _ h3⟩
    · exact memWfFrom_mono (ih _ h3) (by omega)

/-- Cells dropped keep the canonical form. -/
theorem filter_wf {m : List Host.Cell} (h : Memory.wf m = true) (p : Host.Cell → Bool) :
    Memory.wf (m.filter p) = true := filter_wfFrom p m 0 h

/-! ### Reads after writes -/

/-- Below its first cell, canonical memory reads as unlisted. -/
theorem memByte_below {m : List Host.Cell} {lo a : Nat} (h : memWfFrom lo m = true) (ha : a < lo) :
    memByte m a = unlisted := by
  cases m with
  | nil => rfl
  | cons c t =>
    obtain ⟨k, x⟩ := c
    obtain ⟨h1, -, -⟩ := memWfFrom_cons.1 h
    have hk : k ≠ a := by omega
    have hk' : a < k := by omega
    simp [memByte, hk, hk']

theorem memByte_memPut_sameFrom (m : List Host.Cell) (a : Nat) (b : Byte) :
    ∀ lo, memWfFrom lo m = true → memByte (memPut m a b) a = b := by
  induction m with
  | nil =>
    intro lo _
    unfold memPut
    split
    · subst_vars; rfl
    · simp [memByte]
  | cons c t ih =>
    obtain ⟨k, x⟩ := c
    intro lo h
    obtain ⟨-, -, h3⟩ := memWfFrom_cons.1 h
    simp only [memPut]
    split
    · rename_i hak
      split
      · have hk : k ≠ a := by omega
        subst_vars
        simp [memByte, hk, hak]
      · simp [memByte]
    · split
      · subst_vars
        split
        · subst_vars
          exact memByte_below h3 (by omega)
        · simp [memByte]
      · rename_i h1 h2
        have hk : k ≠ a := fun e => h2 e.symm
        have := ih _ h3
        simp [memByte, hk, h1, this]

/-- A read after a write of the same cell gives the byte written. -/
theorem memByte_memPut_same {m : List Host.Cell} (h : Memory.wf m = true) (a : Nat) (b : Byte) :
    memByte (memPut m a b) a = b := memByte_memPut_sameFrom m a b 0 h

theorem memByte_memPut_neFrom (m : List Host.Cell) (a c : Nat) (b : Byte) (hc : c ≠ a) :
    ∀ lo, memWfFrom lo m = true → memByte (memPut m a b) c = memByte m c := by
  induction m with
  | nil =>
    intro lo _
    unfold memPut
    split
    · rfl
    · have : a ≠ c := fun e => hc e.symm
      simp [memByte, this]
  | cons d t ih =>
    obtain ⟨k, x⟩ := d
    intro lo h
    obtain ⟨-, -, h3⟩ := memWfFrom_cons.1 h
    have hac : a ≠ c := fun e => hc e.symm
    simp only [memPut]
    split
    · rename_i hak
      split
      · rfl
      · by_cases hca : c < a
        · have h1 : k ≠ c := by omega
          have h2 : c < k := by omega
          simp [memByte, hac, hca, h1, h2]
        · simp [memByte, hac, hca]
    · split
      · subst_vars
        split
        · by_cases hck : c < k
          · rw [memByte_below h3 (by omega)]
            simp [memByte, hac, hck]
          · simp [memByte, hac, hck]
        · simp [memByte, hac]
      · have := ih _ h3
        simp [memByte, this]

/-- A write leaves every other cell alone. -/
theorem memByte_memPut_ne {m : List Host.Cell} (h : Memory.wf m = true) (a c : Nat) (b : Byte) (hc : c ≠ a) :
    memByte (memPut m a b) c = memByte m c := memByte_memPut_neFrom m a c b hc 0 h

/-- Outside the cells written, memory reads as before. -/
theorem memByte_memPutAll_ne {m : List Host.Cell} (h : Memory.wf m = true) (a c : Nat) (bs : List Byte)
    (hc : c < a ∨ a + bs.length ≤ c) : memByte (memPutAll m a bs) c = memByte m c := by
  induction bs generalizing m a with
  | nil => rfl
  | cons b t ih =>
    rw [List.length_cons] at hc
    have := ih (memPut_wf h a b) (a + 1) (by omega)
    rw [memPutAll, this]
    exact memByte_memPut_ne h a c b (by omega)

/-- The bytes written are read back. -/
theorem memBytes_memPutAll {m : List Host.Cell} (h : Memory.wf m = true) (a : Nat) (bs : List Byte) :
    memBytes (memPutAll m a bs) a bs.length = bs := by
  induction bs generalizing m a with
  | nil => rfl
  | cons b t ih =>
    rw [List.length_cons, memBytes, memPutAll, ih (memPut_wf h a b),
      memByte_memPutAll_ne (memPut_wf h a b) (a + 1) a t (by omega), memByte_memPut_same h]

/-- A dropped cell reads as unlisted and a kept one as before. -/
theorem memByte_filterFrom (p : Nat → Bool) (m : List Host.Cell) (a : Nat) :
    ∀ lo, memWfFrom lo m = true →
      memByte (m.filter (fun c => p c.1)) a = if p a then memByte m a else unlisted := by
  induction m with
  | nil => intro lo _; simp [memByte]
  | cons c t ih =>
    obtain ⟨k, x⟩ := c
    intro lo h
    obtain ⟨-, -, h3⟩ := memWfFrom_cons.1 h
    rw [List.filter_cons]
    by_cases hka : k = a
    · subst hka
      by_cases hp : p k
      · simp [hp, memByte]
      · rw [if_neg (by simpa using hp), ih _ h3]
        simp [hp]
    · split
      · by_cases hak : a < k
        · simp [memByte, hka, hak]
        · simp only [memByte, hka, hak, if_false, ih _ h3]
      · rw [ih _ h3]
        by_cases hak : a < k
        · rw [memByte_below h3 (by omega)]
          simp [memByte, hka, hak]
        · simp [memByte, hka, hak]

theorem memByte_filter {m : List Host.Cell} (h : Memory.wf m = true) (p : Nat → Bool) (a : Nat) :
    memByte (m.filter (fun c => p c.1)) a = if p a then memByte m a else unlisted :=
  memByte_filterFrom p m a 0 h

/-! ### Equal reads make equal memories -/

theorem mem_extFrom (m : List Host.Cell) :
    ∀ (m' : List Host.Cell) (lo : Nat), memWfFrom lo m = true → memWfFrom lo m' = true →
      (∀ a, memByte m a = memByte m' a) → m = m' := by
  induction m with
  | nil =>
    intro m' lo _ h' he
    cases m' with
    | nil => rfl
    | cons c t =>
      obtain ⟨k, x⟩ := c
      obtain ⟨-, h2, -⟩ := memWfFrom_cons.1 h'
      have := he k
      simp [memByte] at this
      exact absurd this.symm h2
  | cons c t ih =>
    obtain ⟨k, x⟩ := c
    intro m' lo h h' he
    obtain ⟨h1, h2, h3⟩ := memWfFrom_cons.1 h
    cases m' with
    | nil =>
      have := he k
      simp [memByte] at this
      exact absurd this h2
    | cons c' t' =>
      obtain ⟨k', x'⟩ := c'
      obtain ⟨h1', h2', h3'⟩ := memWfFrom_cons.1 h'
      have hkk : k = k' := by
        rcases Nat.lt_trichotomy k k' with hl | he' | hl
        · have e := he k
          have hne : k' ≠ k := by omega
          simp [memByte, hne, hl] at e
          exact absurd e h2
        · exact he'
        · have e := he k'
          have hne : k ≠ k' := by omega
          simp [memByte, hne, hl] at e
          exact absurd e.symm h2'
      subst hkk
      have hx : x = x' := by
        have e := he k
        simpa [memByte] using e
      subst hx
      congr 1
      refine ih t' (k + 1) h3 h3' (fun a => ?_)
      by_cases hak : a < k + 1
      · rw [memByte_below h3 hak, memByte_below h3' hak]
      · have e := he a
        have hne : k ≠ a := by omega
        have hnl : ¬ a < k := by omega
        simpa [memByte, hne, hnl] using e

/-- Canonical memories that read alike are equal. -/
theorem mem_ext {m m' : List Host.Cell} (h : Memory.wf m = true) (h' : Memory.wf m' = true)
    (he : ∀ a, memByte m a = memByte m' a) : m = m' := mem_extFrom m m' 0 h h' he

end Sys2Proof.Machine
end

