-- ==== Sys2Proof/Laws/Ops.lean ====
section
/-!
SUPPORT. What each shared operation does, said once: how an operation of a hart ends, where an access goes and
what it reads and leaves, and that every operation that writes memory keeps its canonical form.
-/

namespace Sys2Proof.Machine

/-! ### How an operation ends -/

/-- An operation of the hart always answers a next state: its own, or a trap or a wait after it. -/
theorem runOp_next (op : Op Unit) (s : State) : ∃ t, runOp op s = .next t := by
  unfold runOp
  split <;> exact ⟨_, rfl⟩

/-- The next state of an operation is the one that it leaves, or the trap or the wait that it ends in. -/
theorem runOp_cases {op : Op Unit} {s t : State} (h : runOp op s = .next t) :
    op s = .ok () t ∨ (∃ c v u, op s = .error (.trap c v) u ∧ t = u.trap c v) ∨
      ∃ w u, op s = .error (.wait w) u ∧ t = u.waitIn w := by
  unfold runOp at h
  split at h
  · rename_i e; cases h; exact .inl e
  · rename_i e; cases h; exact .inr (.inl ⟨_, _, _, e, rfl⟩)
  · rename_i e; cases h; exact .inr (.inr ⟨_, _, e, rfl⟩)

theorem runOp_ok {op : Op Unit} {s t : State} (h : op s = .ok () t) : runOp op s = .next t := by
  simp only [runOp, h]

theorem runOp_trap {op : Op Unit} {s u : State} {c : Cause} {v : Word} (h : op s = .error (.trap c v) u) :
    runOp op s = .next (u.trap c v) := by
  simp only [runOp, h]

theorem runOp_wait {op : Op Unit} {s u : State} {w : Wait} (h : op s = .error (.wait w) u) :
    runOp op s = .next (u.waitIn w) := by
  simp only [runOp, h]

/-- An operation after one that answers. -/
theorem op_bind_ok {α β : Type} {x : Op α} {f : α → Op β} {s u : State} {a : α} (h : x s = .ok a u) :
    (x >>= f) s = f a u := by
  simp only [bind, EStateM.bind, h]

/-- An operation that ends early ends what follows it. -/
theorem op_bind_error {α β : Type} {x : Op α} {f : α → Op β} {s u : State} {e : Stop} (h : x s = .error e u) :
    (x >>= f) s = .error e u := by
  simp only [bind, EStateM.bind, h]

theorem check_true (c : Cause) (v : Word) (s : State) : check true c v s = .ok () s := rfl

theorem check_false (c : Cause) (v : Word) (s : State) : check false c v s = .error (.trap c v) s := rfl

/-! ### Accesses -/

/-- A misaligned access traps with its address, and nothing is done (R205). -/
theorem reachOp_misaligned {kind : Kind} {va : Word} {size : Nat} {s : State} (h : va.toNat % size ≠ 0) :
    reachOp kind va size s = .error (.trap .misaligned va) s := by
  unfold reachOp
  rw [op_bind_ok (rfl : (get : Op State) s = .ok s s)]
  unfold reachAs
  rw [decide_eq_false h]
  exact op_bind_error (check_false _ _ _)

/-- An aligned access goes where the translation takes it (R422). -/
theorem reachOp_to {kind : Kind} {va : Word} {size : Nat} {s : State} {l : Leaf} {c : Nat}
    (ha : va.toNat % size = 0) (h : s.reach s.cur s.me.sup kind va.toNat = .to l c) :
    reachOp kind va size s = .ok (l, c) s := by
  unfold reachOp
  rw [op_bind_ok (rfl : (get : Op State) s = .ok s s)]
  unfold reachAs
  rw [decide_eq_true ha, op_bind_ok (check_true _ _ _), op_bind_ok (rfl : (get : Op State) s = .ok s s)]
  simp only [h]
  rfl

/-- An aligned access whose translation faults traps with its address (R422). -/
theorem reachOp_fault {kind : Kind} {va : Word} {size : Nat} {s : State} {c : Cause}
    (ha : va.toNat % size = 0) (h : s.reach s.cur s.me.sup kind va.toNat = .fault c) :
    reachOp kind va size s = .error (.trap c va) (s.endFailed s.cur va.toNat) := by
  unfold reachOp
  rw [op_bind_ok (rfl : (get : Op State) s = .ok s s)]
  unfold reachAs
  rw [decide_eq_true ha, op_bind_ok (check_true _ _ _), op_bind_ok (rfl : (get : Op State) s = .ok s s)]
  simp only [h]
  rfl

/-- A request that conflicts with no entry is served, and nothing is done (R129). -/
theorem meetAll_free {s : State} {who : Requester} {lines : List Nat} {key : Nat} {write : Bool}
    (h : s.clashes who lines write = []) : s.meetAll who lines key write =
      (s.flushWindows (fun l => lines.contains (l.pa / 128) && l.key != key), .served) := by
  simp [State.meetAll, h]

/-- Where no slice has placed a window, none is flushed (R117). -/
theorem flushWindows_none {s : State} (h : s.noWindows = true) (hit : Leaf → Bool) : s.flushWindows hit = s := by
  simp only [State.flushWindows, h, if_true]

/-- A request that conflicts with no entry, behind nobody, is served, and is parked no longer (R129, R134). -/
theorem meetInTurn_free {s : State} {p : Parker} {who : Requester} {lines : List Nat} {key : Nat} {write : Bool}
    (hb : lines.any (s.waitsBehind p) = false) (h : s.clashes who lines write = []) (hw : s.noWindows = true) :
    s.meetInTurn p who lines key write = (s.unparkAt p lines, .served) := by
  simp only [State.meetInTurn, hb, meetAll_free h, flushWindows_none hw, Bool.false_eq_true, if_false]

/-- An access that nothing stops goes on, and its line's directory entry follows it (R120, R129, R132). -/
theorem checkLine_served {pa key : Nat} {va : Word} {write : Bool} {s u : State} (hp : s.peerWaits pa = false)
    (h : s.meetInTurn (.hart s.cur) (.hart s.cur) [pa / 128] key write = (u, .served))
    (hh : u.hostHolds (pa / 128) key write = false) :
    checkLine pa key va write s = .ok () (u.touchLine (tileOf u.cur) pa key write) := by
  unfold checkLine
  rw [op_bind_ok (rfl : (get : Op State) s = .ok s s)]
  simp only [hp, Bool.false_eq_true, if_false, h, takeLine, hh]
  rfl

/-- An access that meets a trap-mode entry traps with its address, and nothing is done (R132, R133). -/
theorem checkLine_trap {pa key : Nat} {va : Word} {write : Bool} {s u : State} (hp : s.peerWaits pa = false)
    (h : s.meetInTurn (.hart s.cur) (.hart s.cur) [pa / 128] key write = (u, .trap)) :
    checkLine pa key va write s = .error (.trap .reservation va) s := by
  unfold checkLine
  rw [op_bind_ok (rfl : (get : Op State) s = .ok s s)]
  simp only [hp, Bool.false_eq_true, if_false, h]
  rfl

/-- An access that meets a wait-mode entry parks there and waits (R134). -/
theorem checkLine_park {pa key : Nat} {va : Word} {write : Bool} {s u : State} {d : Fin 8} {e l : Nat}
    (hp : s.peerWaits pa = false)
    (h : s.meetInTurn (.hart s.cur) (.hart s.cur) [pa / 128] key write = (u, .park d e l)) :
    checkLine pa key va write s =
      .error (.wait (if u.isParked (.hart u.cur) then .parked d.val e l else .other)) u := by
  unfold checkLine
  rw [op_bind_ok (rfl : (get : Op State) s = .ok s s)]
  simp only [hp, Bool.false_eq_true, if_false, h]
  rfl

/-- An access to memory of a peer that holds it waits (R138, R350). -/
theorem checkLine_peer {pa key : Nat} {va : Word} {write : Bool} {s : State} (hp : s.peerWaits pa = true) :
    checkLine pa key va write s = .error (.wait (.peer va none none)) s := by
  unfold checkLine
  rw [op_bind_ok (rfl : (get : Op State) s = .ok s s)]
  simp only [hp, if_true]
  rfl

/-- Nothing is given up where no load has been performed early. -/
theorem forgetWhere_none {s : State} (h : s.early = []) (p : Early → Bool) : s.forgetWhere p = s := by
  simp [State.forgetWhere, h]

/-- Nothing is performed where no store is outstanding. -/
theorem drain_none {s : State} (h : s.delayed = []) (p : Delayed → Bool) : s.drain p = s := by
  simp [State.drain, h]

/-- Where no store is outstanding, every viewer reads what memory holds. -/
theorem read_plain {s : State} (h : s.delayed = []) (v : Viewer) (c key n : Nat) :
    s.read v c key n = s.bytesUnder c key n := by
  simp [State.read, State.seen, h]

/-- A scalar load that reaches plain memory, with no load performed early, answers the bytes that the side sees. -/
theorem loadScalar_plain {va : Word} {size : Nat} {s u : State} {l : Leaf} {c : Nat}
    (hd : s.deviceAt .read va size = none) (ha : va.toNat % size = 0)
    (hr : s.reach s.cur s.me.sup .read va.toNat = .to l c) (he : s.early = [])
    (hc : checkLine l.pa l.key va false s = .ok () u) (hu : u.early = []) (hp : u.poisoned l.pa size = false) :
    loadScalar va size false none s = .ok (natOf (u.read (.side u.cur true) c l.key size)) u := by
  have ht : s.takeEarly s.cur true c l.key size = none := by simp [State.takeEarly, he, takeFirst]
  unfold loadScalar
  rw [op_bind_ok (rfl : (get : Op State) s = .ok s s)]
  simp only [Bool.false_eq_true, if_false, hd]
  rw [op_bind_ok (reachOp_to ha hr)]
  simp only
  rw [op_bind_ok (rfl : check (!false || s.atomicOk l.pa) .atomic va s = .ok () s)]
  unfold readScalar
  rw [op_bind_ok (rfl : (get : Op State) s = .ok s s)]
  simp only [Option.isSome_none, Bool.false_eq_true, if_false, ht]
  rw [op_bind_ok hc, op_bind_ok (rfl : (get : Op State) u = .ok u u), hp,
    op_bind_ok (rfl : check (!false) .memoryError va u = .ok () u)]
  simp only [State.forgetAt, forgetWhere_none hu]
  rfl

/-- A scalar store that reaches plain memory is made by `State.store`, after what its release orders before it. -/
theorem storeScalar_plain {va : Word} {size v : Nat} {rel : Option Nat} {s u : State} {l : Leaf} {c : Nat}
    (hd : s.deviceAt .write va size = none) (ha : va.toNat % size = 0)
    (hr : s.reach s.cur s.me.sup .write va.toNat = .to l c) (hc : checkLine l.pa l.key va true s = .ok () u) :
    storeScalar va size v rel s = .ok ()
      ((u.releaseAt rel).store u.cur true c l.key ((bytesOf size v).map some) rel) := by
  unfold storeScalar
  rw [op_bind_ok (rfl : (get : Op State) s = .ok s s)]
  simp only [hd]
  rw [op_bind_ok (reachOp_to ha hr)]
  simp only
  rw [op_bind_ok hc]
  rfl

/-! ### The canonical form of memory -/

theorem rekey_wf {s : State} (h : Memory.wf s.mem = true) (sector key : Nat) :
    Memory.wf (s.rekey sector key).mem = true := by
  unfold State.rekey
  split
  · split
    · exact h
    · dsimp only
      exact memPutAll_wf h _ _
  · exact h

theorem putByte_wf {s : State} (h : Memory.wf s.mem = true) (cell key : Nat) (b : Byte) :
    Memory.wf (s.putByte cell key b).mem = true := by
  unfold State.putByte
  split
  · exact memPut_wf (rekey_wf h _ _) _ _
  · exact memPut_wf h _ _

theorem putBytes_wf {s : State} (h : Memory.wf s.mem = true) (cell key : Nat) (bs : List Byte) :
    Memory.wf (s.putBytes cell key bs).mem = true := by
  induction bs generalizing s cell with
  | nil => exact h
  | cons b t ih => exact ih (putByte_wf h _ _ _) _

theorem putSome_wf {s : State} (h : Memory.wf s.mem = true) (cell key : Nat) (bs : List (Option Byte)) :
    Memory.wf (s.putSome cell key bs).mem = true := by
  induction bs generalizing s cell with
  | nil => exact h
  | cons b t ih =>
    cases b with
    | none => exact ih h _
    | some b => exact ih (putByte_wf h _ _ _) _

theorem noteWrite_mem (s : State) (cell n : Nat) : (s.noteWrite cell n).mem = s.mem := by
  unfold State.noteWrite
  split <;> rfl

theorem noteWrites_mem (s : State) (rs : List (Nat × Nat)) :
    (rs.foldl (fun s r => s.noteWrite r.1 r.2) s).mem = s.mem := by
  induction rs generalizing s with
  | nil => rfl
  | cons r t ih => exact (ih _).trans (noteWrite_mem _ _ _)

theorem noteReleases_mem (s : State) (who : Agent) (scope : Nat) (rs : List (Nat × Nat)) :
    (rs.foldl (fun s r => s.noteRelease who scope r.1 r.2) s).mem = s.mem := by
  induction rs generalizing s with
  | nil => rfl
  | cons r t ih => exact ih _

theorem performStore_wf {s : State} (h : Memory.wf s.mem = true) (d : Delayed) :
    Memory.wf (s.performStore d).mem = true := by
  have hw := putSome_wf (s := d.runs.foldl (fun s r => s.noteWrite r.1 r.2) s) (by rw [noteWrites_mem]; exact h)
    d.pa d.key d.bytes
  unfold State.performStore
  dsimp only
  split
  · rw [noteReleases_mem]; exact hw
  · exact hw

theorem performStores_wf {s : State} (h : Memory.wf s.mem = true) (ds : List Delayed) :
    Memory.wf (ds.foldl State.performStore s).mem = true := by
  induction ds generalizing s with
  | nil => exact h
  | cons d t ih => exact ih (performStore_wf h d)

theorem drain_wf {s : State} (h : Memory.wf s.mem = true) (p : Delayed → Bool) :
    Memory.wf (s.drain p).mem = true := by
  unfold State.drain
  split
  · exact h
  · exact performStores_wf h _

theorem raise_wf {s : State} (h : Memory.wf s.mem = true) (p : Delayed → Bool) (scope : Nat) :
    Memory.wf (s.raise p scope).mem = true := by
  unfold State.raise
  split
  · exact h
  · split
    · exact drain_wf h p
    · exact h

theorem write_wf {s : State} (h : Memory.wf s.mem = true) (v : Viewer) (cell key : Nat) (bs : List Byte) :
    Memory.wf (s.write v cell key bs).mem = true :=
  putBytes_wf (by rw [noteWrite_mem]; exact drain_wf h _) _ _ _

theorem writeSome_wf {s : State} (h : Memory.wf s.mem = true) (v : Viewer) (cell key : Nat)
    (bs : List (Option Byte)) : Memory.wf (s.writeSome v cell key bs).mem = true :=
  putSome_wf (by rw [noteWrite_mem]; exact drain_wf h _) _ _ _

theorem forgetWhere_mem (s : State) (p : Early → Bool) : (s.forgetWhere p).mem = s.mem := by
  unfold State.forgetWhere
  split <;> rfl

theorem store_wf {s : State} (h : Memory.wf s.mem = true) (k : HartId) (scalar : Bool) (cell key : Nat)
    (bs : List (Option Byte)) (rel : Option Nat) : Memory.wf (s.store k scalar cell key bs rel).mem = true := by
  have hf : Memory.wf (s.forgetAt k scalar cell bs.length).mem = true := by
    unfold State.forgetAt; rw [forgetWhere_mem]; exact h
  unfold State.store
  dsimp only
  split
  · exact hf
  · exact performStore_wf (drain_wf (by exact hf) _) _

theorem update_wf {s : State} (h : Memory.wf s.mem = true) (k : HartId) (scalar : Bool) (cell key size : Nat)
    (f : Nat → Nat) (rel : Option Nat) : Memory.wf (s.update k scalar cell key size f rel).2.mem = true := by
  have hf : Memory.wf (s.forgetAt k scalar cell size).mem = true := by
    unfold State.forgetAt; rw [forgetWhere_mem]; exact h
  unfold State.update
  dsimp only
  split
  · exact putBytes_wf (drain_wf hf _) _ _ _
  · exact putBytes_wf (drain_wf hf _) _ _ _

theorem clearRange_wf {s : State} (h : Memory.wf s.mem = true) (a n : Nat) :
    Memory.wf (s.clearRange a n).mem = true := filter_wf h _

theorem wipe_wf {s : State} (h : Memory.wf s.mem = true) (a n key : Nat) :
    Memory.wf (s.wipe a n key).mem = true := filter_wf h _

theorem hostPut_wf {s : State} (h : Memory.wf s.mem = true) (a : Nat) (bs : List Byte) :
    Memory.wf (s.hostPut a bs).mem = true := memPutAll_wf h _ _

theorem outside_wf {m : List Host.Cell} (h : Memory.wf m = true) : Memory.wf (outside m) = true := filter_wf h _

/-- Memory after reset is empty, so canonical. -/
theorem reset_mem : State.reset.mem = [] := rfl

/-! ### What a write of one cell leaves -/

/-- A cell that is not encrypted and a byte written: that byte, and every other byte as before (R105, R117). -/
theorem byteUnder_putByte_plain {s : State} (h : Memory.wf s.mem = true) {cell : Nat} (key : Nat) (b : Byte)
    (he : encrypted cell = false) (a k : Nat) (ha : encrypted a = false) :
    (s.putByte cell key b).byteUnder a k = if a = cell then b else s.byteUnder a k := by
  unfold State.byteUnder State.putByte
  rw [he, ha]
  simp only [Bool.false_eq_true, if_false]
  split
  · subst_vars; exact memByte_memPut_same h _ _
  · exact memByte_memPut_ne h _ _ _ ‹_›

/-! ### Taking a trap, waiting and retiring -/

/-- A trap changes the hart whose turn it is, as R420 says, and nothing else. -/
theorem trap_eq (s : State) (c : Cause) (v : Word) :
    s.trap c v = s.updMe (fun _ => s.me.enterTrap false c.code v s.me.pc) := rfl

@[simp] theorem trap_me (s : State) (c : Cause) (v : Word) :
    (s.trap c v).me = s.me.enterTrap false c.code v s.me.pc := by
  unfold State.trap
  rw [me_updMe]

@[simp] theorem waitIn_me (s : State) (w : Wait) :
    (s.waitIn w).me = { s.me with run := .waiting, wait := w } := by
  unfold State.waitIn
  rw [me_updMe]

theorem advance_me (s : State) :
    s.advance.me = { s.me with
      pc := s.pc + 4, run := .running, wait := .none, waited := 0, watchdog := 0, ladder := 0 } := by
  unfold State.advance State.goTo
  rw [me_updMe]

/-! ### Where an address is (R108) -/

/-- The lines of an aligned 4 KiB unit fall on different channels (R108). -/
theorem channelOf_line {level u i j : Nat} (hi : i < 32) (hj : j < 32)
    (h : channelOf level (u * 4096 + i * 128) = channelOf level (u * 4096 + j * 128)) : i = j := by
  have key : ∃ c, ∀ k < 32, channelOf level (u * 4096 + k * 128) = k ^^^ c := by
    refine ⟨u % 2 ^ 40 / (if level = 1 then 2 else 8) % 32, fun k hk => ?_⟩
    have h1 : stackOffset level (u * 4096 + k * 128) =
        u % 2 ^ 40 / (if level = 1 then 2 else 8) * 4096 + k * 128 := by
      unfold stackOffset; split <;> omega
    unfold channelOf
    rw [h1]
    generalize u % 2 ^ 40 / (if level = 1 then 2 else 8) = n
    congr 1 <;> omega
  obtain ⟨c, key⟩ := key
  rw [key i hi, key j hj] at h
  exact Nat.xor_left_inj.mp h

end Sys2Proof.Machine
end

