-- ==== Sys2Proof/Laws/PerInstr.lean ====
section
/-!
SUPPORT. Facts about every instruction, proved constructor by constructor. Family `Words`: an instruction is
of exactly one kind: a scalar word, a vector word, a unit word, a convoy, or an event of the table.
-/

namespace Sys2Proof.Laws.Words

open Sys2Proof Sys2Proof.Machine

/-- The instruction is a convoy (R34). -/
def isConvoy (i : Instr) : Bool :=
  match i with
  | .convoy _ _ => true
  | _ => false

/-- The instruction is of exactly one kind (R28, R34, R314). -/
def Statement (i : Instr) : Prop :=
  [(encodeScalar i).isSome, i.vector?.isSome, i.unit?.isSome, isConvoy i, isEvent i].count true = 1

theorem add : ∀ x0 x1 x2, Statement (.add x0 x1 x2) := fun _ _ _ => rfl
theorem sub : ∀ x0 x1 x2, Statement (.sub x0 x1 x2) := fun _ _ _ => rfl
theorem and : ∀ x0 x1 x2, Statement (.and x0 x1 x2) := fun _ _ _ => rfl
theorem or : ∀ x0 x1 x2, Statement (.or x0 x1 x2) := fun _ _ _ => rfl
theorem xor : ∀ x0 x1 x2, Statement (.xor x0 x1 x2) := fun _ _ _ => rfl
theorem andn : ∀ x0 x1 x2, Statement (.andn x0 x1 x2) := fun _ _ _ => rfl
theorem sll : ∀ x0 x1 x2, Statement (.sll x0 x1 x2) := fun _ _ _ => rfl
theorem srl : ∀ x0 x1 x2, Statement (.srl x0 x1 x2) := fun _ _ _ => rfl
theorem sra : ∀ x0 x1 x2, Statement (.sra x0 x1 x2) := fun _ _ _ => rfl
theorem slt : ∀ x0 x1 x2, Statement (.slt x0 x1 x2) := fun _ _ _ => rfl
theorem sltu : ∀ x0 x1 x2, Statement (.sltu x0 x1 x2) := fun _ _ _ => rfl
theorem min : ∀ x0 x1 x2, Statement (.min x0 x1 x2) := fun _ _ _ => rfl
theorem max : ∀ x0 x1 x2, Statement (.max x0 x1 x2) := fun _ _ _ => rfl
theorem minu : ∀ x0 x1 x2, Statement (.minu x0 x1 x2) := fun _ _ _ => rfl
theorem maxu : ∀ x0 x1 x2, Statement (.maxu x0 x1 x2) := fun _ _ _ => rfl
theorem addw : ∀ x0 x1 x2, Statement (.addw x0 x1 x2) := fun _ _ _ => rfl
theorem subw : ∀ x0 x1 x2, Statement (.subw x0 x1 x2) := fun _ _ _ => rfl
theorem sh1add : ∀ x0 x1 x2, Statement (.sh1add x0 x1 x2) := fun _ _ _ => rfl
theorem sh2add : ∀ x0 x1 x2, Statement (.sh2add x0 x1 x2) := fun _ _ _ => rfl
theorem sh3add : ∀ x0 x1 x2, Statement (.sh3add x0 x1 x2) := fun _ _ _ => rfl
theorem clz : ∀ x0 x1, Statement (.clz x0 x1) := fun _ _ => rfl
theorem ctz : ∀ x0 x1, Statement (.ctz x0 x1) := fun _ _ => rfl
theorem cpop : ∀ x0 x1, Statement (.cpop x0 x1) := fun _ _ => rfl
theorem slli : ∀ x0 x1 x2, Statement (.slli x0 x1 x2) := fun _ _ _ => rfl
theorem srli : ∀ x0 x1 x2, Statement (.srli x0 x1 x2) := fun _ _ _ => rfl
theorem srai : ∀ x0 x1 x2, Statement (.srai x0 x1 x2) := fun _ _ _ => rfl
theorem sextB : ∀ x0 x1, Statement (.sextB x0 x1) := fun _ _ => rfl
theorem sextH : ∀ x0 x1, Statement (.sextH x0 x1) := fun _ _ => rfl
theorem sextW : ∀ x0 x1, Statement (.sextW x0 x1) := fun _ _ => rfl
theorem zextB : ∀ x0 x1, Statement (.zextB x0 x1) := fun _ _ => rfl
theorem zextH : ∀ x0 x1, Statement (.zextH x0 x1) := fun _ _ => rfl
theorem zextW : ∀ x0 x1, Statement (.zextW x0 x1) := fun _ _ => rfl
theorem addi : ∀ x0 x1 x2, Statement (.addi x0 x1 x2) := fun _ _ _ => rfl
theorem lik : ∀ x0 x1, Statement (.lik x0 x1) := fun _ _ => rfl
theorem pcrel : ∀ x0 x1, Statement (.pcrel x0 x1) := fun _ _ => rfl
theorem mul : ∀ x0 x1 x2, Statement (.mul x0 x1 x2) := fun _ _ _ => rfl
theorem mulh : ∀ x0 x1 x2, Statement (.mulh x0 x1 x2) := fun _ _ _ => rfl
theorem mulhu : ∀ x0 x1 x2, Statement (.mulhu x0 x1 x2) := fun _ _ _ => rfl
theorem mulhsu : ∀ x0 x1 x2, Statement (.mulhsu x0 x1 x2) := fun _ _ _ => rfl
theorem div : ∀ x0 x1 x2, Statement (.div x0 x1 x2) := fun _ _ _ => rfl
theorem divu : ∀ x0 x1 x2, Statement (.divu x0 x1 x2) := fun _ _ _ => rfl
theorem rem : ∀ x0 x1 x2, Statement (.rem x0 x1 x2) := fun _ _ _ => rfl
theorem remu : ∀ x0 x1 x2, Statement (.remu x0 x1 x2) := fun _ _ _ => rfl
theorem mulw : ∀ x0 x1 x2, Statement (.mulw x0 x1 x2) := fun _ _ _ => rfl
theorem divw : ∀ x0 x1 x2, Statement (.divw x0 x1 x2) := fun _ _ _ => rfl
theorem remw : ∀ x0 x1 x2, Statement (.remw x0 x1 x2) := fun _ _ _ => rfl
theorem ldI8 : ∀ x0 x1 x2, Statement (.ldI8 x0 x1 x2) := fun _ _ _ => rfl
theorem ldI16 : ∀ x0 x1 x2, Statement (.ldI16 x0 x1 x2) := fun _ _ _ => rfl
theorem ldI32 : ∀ x0 x1 x2, Statement (.ldI32 x0 x1 x2) := fun _ _ _ => rfl
theorem ldI64 : ∀ x0 x1 x2, Statement (.ldI64 x0 x1 x2) := fun _ _ _ => rfl
theorem ldN8 : ∀ x0 x1 x2, Statement (.ldN8 x0 x1 x2) := fun _ _ _ => rfl
theorem ldN16 : ∀ x0 x1 x2, Statement (.ldN16 x0 x1 x2) := fun _ _ _ => rfl
theorem ldN32 : ∀ x0 x1 x2, Statement (.ldN32 x0 x1 x2) := fun _ _ _ => rfl
theorem ldF16 : ∀ x0 x1 x2, Statement (.ldF16 x0 x1 x2) := fun _ _ _ => rfl
theorem ldF32 : ∀ x0 x1 x2, Statement (.ldF32 x0 x1 x2) := fun _ _ _ => rfl
theorem ldF64 : ∀ x0 x1 x2, Statement (.ldF64 x0 x1 x2) := fun _ _ _ => rfl
theorem stI8 : ∀ x0 x1 x2, Statement (.stI8 x0 x1 x2) := fun _ _ _ => rfl
theorem stI16 : ∀ x0 x1 x2, Statement (.stI16 x0 x1 x2) := fun _ _ _ => rfl
theorem stI32 : ∀ x0 x1 x2, Statement (.stI32 x0 x1 x2) := fun _ _ _ => rfl
theorem stI64 : ∀ x0 x1 x2, Statement (.stI64 x0 x1 x2) := fun _ _ _ => rfl
theorem stF16 : ∀ x0 x1 x2, Statement (.stF16 x0 x1 x2) := fun _ _ _ => rfl
theorem stF32 : ∀ x0 x1 x2, Statement (.stF32 x0 x1 x2) := fun _ _ _ => rfl
theorem stF64 : ∀ x0 x1 x2, Statement (.stF64 x0 x1 x2) := fun _ _ _ => rfl
theorem amoswap : ∀ x0 x1 x2 x3 x4 x5 x6, Statement (.amoswap x0 x1 x2 x3 x4 x5 x6) := fun _ _ _ _ _ _ _ => rfl
theorem amoadd : ∀ x0 x1 x2 x3 x4 x5 x6, Statement (.amoadd x0 x1 x2 x3 x4 x5 x6) := fun _ _ _ _ _ _ _ => rfl
theorem amoand : ∀ x0 x1 x2 x3 x4 x5 x6, Statement (.amoand x0 x1 x2 x3 x4 x5 x6) := fun _ _ _ _ _ _ _ => rfl
theorem amoor : ∀ x0 x1 x2 x3 x4 x5 x6, Statement (.amoor x0 x1 x2 x3 x4 x5 x6) := fun _ _ _ _ _ _ _ => rfl
theorem amoxor : ∀ x0 x1 x2 x3 x4 x5 x6, Statement (.amoxor x0 x1 x2 x3 x4 x5 x6) := fun _ _ _ _ _ _ _ => rfl
theorem amomin : ∀ x0 x1 x2 x3 x4 x5 x6, Statement (.amomin x0 x1 x2 x3 x4 x5 x6) := fun _ _ _ _ _ _ _ => rfl
theorem amomax : ∀ x0 x1 x2 x3 x4 x5 x6, Statement (.amomax x0 x1 x2 x3 x4 x5 x6) := fun _ _ _ _ _ _ _ => rfl
theorem amominu : ∀ x0 x1 x2 x3 x4 x5 x6, Statement (.amominu x0 x1 x2 x3 x4 x5 x6) := fun _ _ _ _ _ _ _ => rfl
theorem amomaxu : ∀ x0 x1 x2 x3 x4 x5 x6, Statement (.amomaxu x0 x1 x2 x3 x4 x5 x6) := fun _ _ _ _ _ _ _ => rfl
theorem amocas : ∀ x0 x1 x2 x3 x4 x5 x6, Statement (.amocas x0 x1 x2 x3 x4 x5 x6) := fun _ _ _ _ _ _ _ => rfl
theorem beq : ∀ x0 x1 x2, Statement (.beq x0 x1 x2) := fun _ _ _ => rfl
theorem bne : ∀ x0 x1 x2, Statement (.bne x0 x1 x2) := fun _ _ _ => rfl
theorem blt : ∀ x0 x1 x2, Statement (.blt x0 x1 x2) := fun _ _ _ => rfl
theorem bge : ∀ x0 x1 x2, Statement (.bge x0 x1 x2) := fun _ _ _ => rfl
theorem bltu : ∀ x0 x1 x2, Statement (.bltu x0 x1 x2) := fun _ _ _ => rfl
theorem bgeu : ∀ x0 x1 x2, Statement (.bgeu x0 x1 x2) := fun _ _ _ => rfl
theorem beqz : ∀ x0 x1, Statement (.beqz x0 x1) := fun _ _ => rfl
theorem bnez : ∀ x0 x1, Statement (.bnez x0 x1) := fun _ _ => rfl
theorem bltz : ∀ x0 x1, Statement (.bltz x0 x1) := fun _ _ => rfl
theorem bgez : ∀ x0 x1, Statement (.bgez x0 x1) := fun _ _ => rfl
theorem blez : ∀ x0 x1, Statement (.blez x0 x1) := fun _ _ => rfl
theorem bgtz : ∀ x0 x1, Statement (.bgtz x0 x1) := fun _ _ => rfl
theorem bqt : ∀ x0, Statement (.bqt x0) := fun _ => rfl
theorem bqf : ∀ x0, Statement (.bqf x0) := fun _ => rfl
theorem j : ∀ x0, Statement (.j x0) := fun _ => rfl
theorem call : ∀ x0, Statement (.call x0) := fun _ => rfl
theorem jr : ∀ x0 x1, Statement (.jr x0 x1) := fun _ _ => rfl
theorem callr : ∀ x0 x1, Statement (.callr x0 x1) := fun _ _ => rfl
theorem ret : Statement (.ret) := rfl
theorem rasSpill : ∀ x0 x1, Statement (.rasSpill x0 x1) := fun _ _ => rfl
theorem rasFill : ∀ x0 x1, Statement (.rasFill x0 x1) := fun _ _ => rfl
theorem rasDrop : ∀ x0, Statement (.rasDrop x0) := fun _ => rfl
theorem fadd : ∀ x0 x1 x2 x3 x4, Statement (.fadd x0 x1 x2 x3 x4) := fun _ _ _ _ _ => rfl
theorem fsub : ∀ x0 x1 x2 x3 x4, Statement (.fsub x0 x1 x2 x3 x4) := fun _ _ _ _ _ => rfl
theorem fmul : ∀ x0 x1 x2 x3 x4, Statement (.fmul x0 x1 x2 x3 x4) := fun _ _ _ _ _ => rfl
theorem fdiv : ∀ x0 x1 x2 x3 x4, Statement (.fdiv x0 x1 x2 x3 x4) := fun _ _ _ _ _ => rfl
theorem fsqrt : ∀ x0 x1 x2 x3, Statement (.fsqrt x0 x1 x2 x3) := fun _ _ _ _ => rfl
theorem fmin : ∀ x0 x1 x2 x3, Statement (.fmin x0 x1 x2 x3) := fun _ _ _ _ => rfl
theorem fmax : ∀ x0 x1 x2 x3, Statement (.fmax x0 x1 x2 x3) := fun _ _ _ _ => rfl
theorem fsgnj : ∀ x0 x1 x2 x3, Statement (.fsgnj x0 x1 x2 x3) := fun _ _ _ _ => rfl
theorem fsgnjn : ∀ x0 x1 x2 x3, Statement (.fsgnjn x0 x1 x2 x3) := fun _ _ _ _ => rfl
theorem fsgnjx : ∀ x0 x1 x2 x3, Statement (.fsgnjx x0 x1 x2 x3) := fun _ _ _ _ => rfl
theorem feq : ∀ x0 x1 x2 x3, Statement (.feq x0 x1 x2 x3) := fun _ _ _ _ => rfl
theorem flt : ∀ x0 x1 x2 x3, Statement (.flt x0 x1 x2 x3) := fun _ _ _ _ => rfl
theorem fle : ∀ x0 x1 x2 x3, Statement (.fle x0 x1 x2 x3) := fun _ _ _ _ => rfl
theorem fclass : ∀ x0 x1 x2, Statement (.fclass x0 x1 x2) := fun _ _ _ => rfl
theorem fcvtToInt : ∀ x0 x1 x2 x3 x4, Statement (.fcvtToInt x0 x1 x2 x3 x4) := fun _ _ _ _ _ => rfl
theorem fcvtFromInt : ∀ x0 x1 x2 x3 x4, Statement (.fcvtFromInt x0 x1 x2 x3 x4) := fun _ _ _ _ _ => rfl
theorem fcvtFmt : ∀ x0 x1 x2 x3 x4, Statement (.fcvtFmt x0 x1 x2 x3 x4) := fun _ _ _ _ _ => rfl
theorem fmvX : ∀ x0 x1 x2, Statement (.fmvX x0 x1 x2) := fun _ _ _ => rfl
theorem fmvF : ∀ x0 x1 x2, Statement (.fmvF x0 x1 x2) := fun _ _ _ => rfl
theorem fmadd : ∀ x0 x1 x2 x3 x4 x5, Statement (.fmadd x0 x1 x2 x3 x4 x5) := fun _ _ _ _ _ _ => rfl
theorem fmsub : ∀ x0 x1 x2 x3 x4 x5, Statement (.fmsub x0 x1 x2 x3 x4 x5) := fun _ _ _ _ _ _ => rfl
theorem fnmadd : ∀ x0 x1 x2 x3 x4 x5, Statement (.fnmadd x0 x1 x2 x3 x4 x5) := fun _ _ _ _ _ _ => rfl
theorem fnmsub : ∀ x0 x1 x2 x3 x4 x5, Statement (.fnmsub x0 x1 x2 x3 x4 x5) := fun _ _ _ _ _ _ => rfl
theorem csrr : ∀ x0 x1, Statement (.csrr x0 x1) := fun _ _ => rfl
theorem csrw : ∀ x0 x1 x2, Statement (.csrw x0 x1 x2) := fun _ _ _ => rfl
theorem csrs : ∀ x0 x1 x2, Statement (.csrs x0 x1 x2) := fun _ _ _ => rfl
theorem csrc : ∀ x0 x1 x2, Statement (.csrc x0 x1 x2) := fun _ _ _ => rfl
theorem csrsi : ∀ x0 x1 x2, Statement (.csrsi x0 x1 x2) := fun _ _ _ => rfl
theorem csrci : ∀ x0 x1 x2, Statement (.csrci x0 x1 x2) := fun _ _ _ => rfl
theorem fence : ∀ x0, Statement (.fence x0) := fun _ => rfl
theorem fenceSv : ∀ x0, Statement (.fenceSv x0) := fun _ => rfl
theorem fenceVs : ∀ x0, Statement (.fenceVs x0) := fun _ => rfl
theorem lda : ∀ x0 x1 x2 x3 x4, Statement (.lda x0 x1 x2 x3 x4) := fun _ _ _ _ _ => rfl
theorem stl : ∀ x0 x1 x2 x3, Statement (.stl x0 x1 x2 x3) := fun _ _ _ _ => rfl
theorem fenceI : ∀ x0, Statement (.fenceI x0) := fun _ => rfl
theorem ecall : Statement (.ecall) := rfl
theorem ebreak : Statement (.ebreak) := rfl
theorem sret : Statement (.sret) := rfl
theorem wfi : Statement (.wfi) := rfl
theorem tlbInv : ∀ x0 x1 x2, Statement (.tlbInv x0 x1 x2) := fun _ _ _ => rfl
theorem strmCfg : ∀ x0 x1 x2, Statement (.strmCfg x0 x1 x2) := fun _ _ _ => rfl
theorem strmRel : ∀ x0, Statement (.strmRel x0) := fun _ => rfl
theorem strmRelWait : ∀ x0, Statement (.strmRelWait x0) := fun _ => rfl
theorem strmStat : ∀ x0 x1, Statement (.strmStat x0 x1) := fun _ _ => rfl
theorem strmStatPos : ∀ x0 x1, Statement (.strmStatPos x0 x1) := fun _ _ => rfl
theorem strmStatAvail : ∀ x0 x1, Statement (.strmStatAvail x0 x1) := fun _ _ => rfl
theorem strmPop : ∀ x0 x1, Statement (.strmPop x0 x1) := fun _ _ => rfl
theorem strmPush : ∀ x0 x1, Statement (.strmPush x0 x1) := fun _ _ => rfl
theorem strmCopy : ∀ x0 x1, Statement (.strmCopy x0 x1) := fun _ _ => rfl
theorem strmResume : ∀ x0 x1, Statement (.strmResume x0 x1) := fun _ _ => rfl
theorem strmSave : ∀ x0 x1 x2, Statement (.strmSave x0 x1 x2) := fun _ _ _ => rfl
theorem strmRest : ∀ x0 x1 x2, Statement (.strmRest x0 x1 x2) := fun _ _ _ => rfl
theorem bankCfgCache : ∀ x0 x1, Statement (.bankCfgCache x0 x1) := fun _ _ => rfl
theorem bankCfgSpad : ∀ x0 x1, Statement (.bankCfgSpad x0 x1) := fun _ _ => rfl
theorem bankCfgFifo : ∀ x0 x1, Statement (.bankCfgFifo x0 x1) := fun _ _ => rfl
theorem bankStat : ∀ x0 x1, Statement (.bankStat x0 x1) := fun _ _ => rfl
theorem feInitEmpty : ∀ x0 x1, Statement (.feInitEmpty x0 x1) := fun _ _ => rfl
theorem feInitFull : ∀ x0 x1, Statement (.feInitFull x0 x1) := fun _ _ => rfl
theorem ldf : ∀ x0 x1 x2, Statement (.ldf x0 x1 x2) := fun _ _ _ => rfl
theorem ldfClr : ∀ x0 x1 x2, Statement (.ldfClr x0 x1 x2) := fun _ _ _ => rfl
theorem stf : ∀ x0 x1 x2, Statement (.stf x0 x1 x2) := fun _ _ _ => rfl
theorem stfWait : ∀ x0 x1 x2, Statement (.stfWait x0 x1 x2) := fun _ _ _ => rfl
theorem ringCfg : ∀ x0 x1 x2, Statement (.ringCfg x0 x1 x2) := fun _ _ _ => rfl
theorem ringAdvTail : ∀ x0 x1 x2, Statement (.ringAdvTail x0 x1 x2) := fun _ _ _ => rfl
theorem ringAdvHead : ∀ x0 x1 x2, Statement (.ringAdvHead x0 x1 x2) := fun _ _ _ => rfl
theorem ringStat : ∀ x0 x1, Statement (.ringStat x0 x1) := fun _ _ => rfl
theorem ringStatWait : ∀ x0 x1 x2, Statement (.ringStatWait x0 x1 x2) := fun _ _ _ => rfl
theorem cwait : ∀ x0 x1 x2, Statement (.cwait x0 x1 x2) := fun _ _ _ => rfl
theorem cread : ∀ x0 x1, Statement (.cread x0 x1) := fun _ _ => rfl
theorem cadd : ∀ x0 x1 x2, Statement (.cadd x0 x1 x2) := fun _ _ _ => rfl
theorem tokSend : ∀ x0 x1 x2, Statement (.tokSend x0 x1 x2) := fun _ _ _ => rfl
theorem tokWait : ∀ x0 x1 x2, Statement (.tokWait x0 x1 x2) := fun _ _ _ => rfl
theorem tokStat : ∀ x0 x1, Statement (.tokStat x0 x1) := fun _ _ => rfl
theorem barArrive : ∀ x0 x1 x2, Statement (.barArrive x0 x1 x2) := fun _ _ _ => rfl
theorem barWait : ∀ x0 x1 x2, Statement (.barWait x0 x1 x2) := fun _ _ _ => rfl
theorem klaunch : ∀ x0 x1 x2, Statement (.klaunch x0 x1 x2) := fun _ _ _ => rfl
theorem kid : ∀ x0 x1 x2, Statement (.kid x0 x1 x2) := fun _ _ _ => rfl
theorem kyield : Statement (.kyield) := rfl
theorem kdone : Statement (.kdone) := rfl
theorem hloop : ∀ x0 x1, Statement (.hloop x0 x1) := fun _ _ => rfl
theorem hend : ∀ x0, Statement (.hend x0) := fun _ => rfl
theorem hendC : ∀ x0, Statement (.hendC x0) := fun _ => rfl
theorem hget : ∀ x0 x1 x2, Statement (.hget x0 x1 x2) := fun _ _ _ => rfl
theorem hset : ∀ x0 x1 x2, Statement (.hset x0 x1 x2) := fun _ _ _ => rfl
theorem capLandOff : ∀ x0, Statement (.capLandOff x0) := fun _ => rfl
theorem capLandSend : ∀ x0 x1, Statement (.capLandSend x0 x1) := fun _ _ => rfl
theorem capLandLand : ∀ x0 x1, Statement (.capLandLand x0 x1) := fun _ _ => rfl
theorem capSend : ∀ x0 x1 x2, Statement (.capSend x0 x1 x2) := fun _ _ _ => rfl
theorem capRecv : ∀ x0 x1, Statement (.capRecv x0 x1) := fun _ _ => rfl
theorem capFwd : ∀ x0, Statement (.capFwd x0) := fun _ => rfl
theorem capFwdStay : ∀ x0, Statement (.capFwdStay x0) := fun _ => rfl
theorem capFwdEnd : ∀ x0, Statement (.capFwdEnd x0) := fun _ => rfl
theorem capIns : ∀ x0 x1 x2, Statement (.capIns x0 x1 x2) := fun _ _ _ => rfl
theorem capDel : ∀ x0 x1, Statement (.capDel x0 x1) := fun _ _ => rfl
theorem capSwap : ∀ x0 x1 x2, Statement (.capSwap x0 x1 x2) := fun _ _ _ => rfl
theorem capPark : Statement (.capPark) := rfl
theorem capParkFlt : ∀ x0, Statement (.capParkFlt x0) := fun _ => rfl
theorem capParkRel : ∀ x0 x1, Statement (.capParkRel x0 x1) := fun _ _ => rfl
theorem vsetvl : ∀ x0 x1 x2 x3 x4 x5, Statement (.vsetvl x0 x1 x2 x3 x4 x5) := fun _ _ _ _ _ _ => rfl
theorem lpart : ∀ x0 x1, Statement (.lpart x0 x1) := fun _ _ => rfl
theorem tshape : ∀ x0 x1, Statement (.tshape x0 x1) := fun _ _ => rfl
theorem mmodeOn : Statement (.mmodeOn) := rfl
theorem mmodeOff : Statement (.mmodeOff) := rfl
theorem fmodeOn : ∀ x0 x1 x2, Statement (.fmodeOn x0 x1 x2) := fun _ _ _ => rfl
theorem fmodeOff : ∀ x0 x1, Statement (.fmodeOff x0 x1) := fun _ _ => rfl
theorem mpair : ∀ x0 x1, Statement (.mpair x0 x1) := fun _ _ => rfl
theorem mpairOff : Statement (.mpairOff) := rfl
theorem nop : ∀ x0, Statement (.nop x0) := fun _ => rfl
theorem prefetchRead : ∀ x0 x1, Statement (.prefetchRead x0 x1) := fun _ _ => rfl
theorem prefetchOwn : ∀ x0 x1, Statement (.prefetchOwn x0 x1) := fun _ _ => rfl
theorem issuePauseHint : ∀ x0, Statement (.issuePauseHint x0) := fun _ => rfl
theorem convoy : ∀ x0 x1, Statement (.convoy x0 x1) := fun _ _ => rfl
theorem unitMov : ∀ x0, Statement (.unitMov x0) := fun _ => rfl
theorem unitAdd : ∀ x0, Statement (.unitAdd x0) := fun _ => rfl
theorem unitSub : ∀ x0, Statement (.unitSub x0) := fun _ => rfl
theorem unitMul : ∀ x0, Statement (.unitMul x0) := fun _ => rfl
theorem unitMin : ∀ x0, Statement (.unitMin x0) := fun _ => rfl
theorem unitMax : ∀ x0, Statement (.unitMax x0) := fun _ => rfl
theorem unitAnd : ∀ x0, Statement (.unitAnd x0) := fun _ => rfl
theorem unitOr : ∀ x0, Statement (.unitOr x0) := fun _ => rfl
theorem unitXor : ∀ x0, Statement (.unitXor x0) := fun _ => rfl
theorem unitShl : ∀ x0, Statement (.unitShl x0) := fun _ => rfl
theorem unitShr : ∀ x0, Statement (.unitShr x0) := fun _ => rfl
theorem unitSeq : ∀ x0, Statement (.unitSeq x0) := fun _ => rfl
theorem unitSlt : ∀ x0, Statement (.unitSlt x0) := fun _ => rfl
theorem unitSle : ∀ x0, Statement (.unitSle x0) := fun _ => rfl
theorem unitFadd : ∀ x0, Statement (.unitFadd x0) := fun _ => rfl
theorem unitFsub : ∀ x0, Statement (.unitFsub x0) := fun _ => rfl
theorem unitFmul : ∀ x0, Statement (.unitFmul x0) := fun _ => rfl
theorem unitFmac : ∀ x0, Statement (.unitFmac x0) := fun _ => rfl
theorem unitFmin : ∀ x0, Statement (.unitFmin x0) := fun _ => rfl
theorem unitFmax : ∀ x0, Statement (.unitFmax x0) := fun _ => rfl
theorem unitBamax : ∀ x0, Statement (.unitBamax x0) := fun _ => rfl
theorem unitQcvt : ∀ x0, Statement (.unitQcvt x0) := fun _ => rfl
theorem illegalInstruction : ∀ x0, Statement (.illegalInstruction x0) := fun _ => rfl
theorem hint : ∀ x0 x1, Statement (.hint x0 x1) := fun _ _ => rfl
theorem vadd : ∀ x0, Statement (.vadd x0) := fun _ => rfl
theorem vsub : ∀ x0, Statement (.vsub x0) := fun _ => rfl
theorem vrsub : ∀ x0, Statement (.vrsub x0) := fun _ => rfl
theorem vmin : ∀ x0, Statement (.vmin x0) := fun _ => rfl
theorem vmax : ∀ x0, Statement (.vmax x0) := fun _ => rfl
theorem vmul : ∀ x0, Statement (.vmul x0) := fun _ => rfl
theorem vmulh : ∀ x0, Statement (.vmulh x0) := fun _ => rfl
theorem vmacc : ∀ x0, Statement (.vmacc x0) := fun _ => rfl
theorem vsadd : ∀ x0, Statement (.vsadd x0) := fun _ => rfl
theorem vssub : ∀ x0, Statement (.vssub x0) := fun _ => rfl
theorem vabsd : ∀ x0, Statement (.vabsd x0) := fun _ => rfl
theorem vdiv : ∀ x0, Statement (.vdiv x0) := fun _ => rfl
theorem vrem : ∀ x0, Statement (.vrem x0) := fun _ => rfl
theorem vand : ∀ x0, Statement (.vand x0) := fun _ => rfl
theorem vor : ∀ x0, Statement (.vor x0) := fun _ => rfl
theorem vxor : ∀ x0, Statement (.vxor x0) := fun _ => rfl
theorem vandn : ∀ x0, Statement (.vandn x0) := fun _ => rfl
theorem vsll : ∀ x0, Statement (.vsll x0) := fun _ => rfl
theorem vsrl : ∀ x0, Statement (.vsrl x0) := fun _ => rfl
theorem vsra : ∀ x0, Statement (.vsra x0) := fun _ => rfl
theorem vmv : ∀ x0, Statement (.vmv x0) := fun _ => rfl
theorem vnot : ∀ x0, Statement (.vnot x0) := fun _ => rfl
theorem vmseq : ∀ x0, Statement (.vmseq x0) := fun _ => rfl
theorem vmsne : ∀ x0, Statement (.vmsne x0) := fun _ => rfl
theorem vmslt : ∀ x0, Statement (.vmslt x0) := fun _ => rfl
theorem vmsle : ∀ x0, Statement (.vmsle x0) := fun _ => rfl
theorem vmsgt : ∀ x0, Statement (.vmsgt x0) := fun _ => rfl
theorem vmsge : ∀ x0, Statement (.vmsge x0) := fun _ => rfl
theorem vmand : ∀ x0, Statement (.vmand x0) := fun _ => rfl
theorem vmor : ∀ x0, Statement (.vmor x0) := fun _ => rfl
theorem vmxor : ∀ x0, Statement (.vmxor x0) := fun _ => rfl
theorem vmandn : ∀ x0, Statement (.vmandn x0) := fun _ => rfl
theorem vmnot : ∀ x0, Statement (.vmnot x0) := fun _ => rfl
theorem vmset : ∀ x0, Statement (.vmset x0) := fun _ => rfl
theorem vmclr : ∀ x0, Statement (.vmclr x0) := fun _ => rfl
theorem vmtov : ∀ x0, Statement (.vmtov x0) := fun _ => rfl
theorem vvtom : ∀ x0, Statement (.vvtom x0) := fun _ => rfl
theorem vpop : ∀ x0, Statement (.vpop x0) := fun _ => rfl
theorem vfirst : ∀ x0, Statement (.vfirst x0) := fun _ => rfl
theorem vbqAny : ∀ x0, Statement (.vbqAny x0) := fun _ => rfl
theorem vbqNone : ∀ x0, Statement (.vbqNone x0) := fun _ => rfl
theorem vfadd : ∀ x0, Statement (.vfadd x0) := fun _ => rfl
theorem vfsub : ∀ x0, Statement (.vfsub x0) := fun _ => rfl
theorem vfmul : ∀ x0, Statement (.vfmul x0) := fun _ => rfl
theorem vfdiv : ∀ x0, Statement (.vfdiv x0) := fun _ => rfl
theorem vfsqrt : ∀ x0, Statement (.vfsqrt x0) := fun _ => rfl
theorem vfmin : ∀ x0, Statement (.vfmin x0) := fun _ => rfl
theorem vfmax : ∀ x0, Statement (.vfmax x0) := fun _ => rfl
theorem vfsgnj : ∀ x0, Statement (.vfsgnj x0) := fun _ => rfl
theorem vfsgnjn : ∀ x0, Statement (.vfsgnjn x0) := fun _ => rfl
theorem vfsgnjx : ∀ x0, Statement (.vfsgnjx x0) := fun _ => rfl
theorem vfclass : ∀ x0, Statement (.vfclass x0) := fun _ => rfl
theorem vfmadd : ∀ x0, Statement (.vfmadd x0) := fun _ => rfl
theorem vfmsub : ∀ x0, Statement (.vfmsub x0) := fun _ => rfl
theorem vfnmadd : ∀ x0, Statement (.vfnmadd x0) := fun _ => rfl
theorem vfnmsub : ∀ x0, Statement (.vfnmsub x0) := fun _ => rfl
theorem vcvt : ∀ x0, Statement (.vcvt x0) := fun _ => rfl
theorem vcvtMx : ∀ x0, Statement (.vcvtMx x0) := fun _ => rfl
theorem vcvtDemx : ∀ x0, Statement (.vcvtDemx x0) := fun _ => rfl
theorem vslideup : ∀ x0, Statement (.vslideup x0) := fun _ => rfl
theorem vslidedown : ∀ x0, Statement (.vslidedown x0) := fun _ => rfl
theorem vperm : ∀ x0, Statement (.vperm x0) := fun _ => rfl
theorem vbcast : ∀ x0, Statement (.vbcast x0) := fun _ => rfl
theorem vsel : ∀ x0, Statement (.vsel x0) := fun _ => rfl
theorem vid : ∀ x0, Statement (.vid x0) := fun _ => rfl
theorem vcompress : ∀ x0, Statement (.vcompress x0) := fun _ => rfl
theorem vexpand : ∀ x0, Statement (.vexpand x0) := fun _ => rfl
theorem vredsum : ∀ x0, Statement (.vredsum x0) := fun _ => rfl
theorem vredmin : ∀ x0, Statement (.vredmin x0) := fun _ => rfl
theorem vredmax : ∀ x0, Statement (.vredmax x0) := fun _ => rfl
theorem vredand : ∀ x0, Statement (.vredand x0) := fun _ => rfl
theorem vredor : ∀ x0, Statement (.vredor x0) := fun _ => rfl
theorem vredxor : ∀ x0, Statement (.vredxor x0) := fun _ => rfl
theorem vscansum : ∀ x0, Statement (.vscansum x0) := fun _ => rfl
theorem vscanmin : ∀ x0, Statement (.vscanmin x0) := fun _ => rfl
theorem vscanmax : ∀ x0, Statement (.vscanmax x0) := fun _ => rfl
theorem vext : ∀ x0, Statement (.vext x0) := fun _ => rfl
theorem vins : ∀ x0, Statement (.vins x0) := fun _ => rfl
theorem vxsend : ∀ x0, Statement (.vxsend x0) := fun _ => rfl
theorem vxrecv : ∀ x0, Statement (.vxrecv x0) := fun _ => rfl
theorem vldStrm : ∀ x0, Statement (.vldStrm x0) := fun _ => rfl
theorem vstStrm : ∀ x0, Statement (.vstStrm x0) := fun _ => rfl
theorem vld : ∀ x0, Statement (.vld x0) := fun _ => rfl
theorem vlds : ∀ x0, Statement (.vlds x0) := fun _ => rfl
theorem vldff : ∀ x0, Statement (.vldff x0) := fun _ => rfl
theorem vldr : ∀ x0, Statement (.vldr x0) := fun _ => rfl
theorem vldm : ∀ x0, Statement (.vldm x0) := fun _ => rfl
theorem vst : ∀ x0, Statement (.vst x0) := fun _ => rfl
theorem vsts : ∀ x0, Statement (.vsts x0) := fun _ => rfl
theorem vstr : ∀ x0, Statement (.vstr x0) := fun _ => rfl
theorem vstm : ∀ x0, Statement (.vstm x0) := fun _ => rfl
theorem vgather : ∀ x0, Statement (.vgather x0) := fun _ => rfl
theorem vscatter : ∀ x0, Statement (.vscatter x0) := fun _ => rfl
theorem vsetlf : ∀ x0, Statement (.vsetlf x0) := fun _ => rfl
theorem vxint : ∀ x0, Statement (.vxint x0) := fun _ => rfl
theorem vxuni : ∀ x0, Statement (.vxuni x0) := fun _ => rfl
theorem vxmrg : ∀ x0, Statement (.vxmrg x0) := fun _ => rfl
theorem accwinSum : ∀ x0, Statement (.accwinSum x0) := fun _ => rfl
theorem accwinMin : ∀ x0, Statement (.accwinMin x0) := fun _ => rfl
theorem accwinMax : ∀ x0, Statement (.accwinMax x0) := fun _ => rfl
theorem vacc : ∀ x0, Statement (.vacc x0) := fun _ => rfl
theorem accmerge : ∀ x0, Statement (.accmerge x0) := fun _ => rfl
theorem vamoswap : ∀ x0, Statement (.vamoswap x0) := fun _ => rfl
theorem vamoadd : ∀ x0, Statement (.vamoadd x0) := fun _ => rfl
theorem vamoand : ∀ x0, Statement (.vamoand x0) := fun _ => rfl
theorem vamoor : ∀ x0, Statement (.vamoor x0) := fun _ => rfl
theorem vamoxor : ∀ x0, Statement (.vamoxor x0) := fun _ => rfl
theorem vamomin : ∀ x0, Statement (.vamomin x0) := fun _ => rfl
theorem vamomax : ∀ x0, Statement (.vamomax x0) := fun _ => rfl
theorem mma : ∀ x0, Statement (.mma x0) := fun _ => rfl
theorem mmaInt : ∀ x0, Statement (.mmaInt x0) := fun _ => rfl
theorem mtern : ∀ x0, Statement (.mtern x0) := fun _ => rfl
theorem msound : ∀ x0, Statement (.msound x0) := fun _ => rfl
theorem mcheck : ∀ x0, Statement (.mcheck x0) := fun _ => rfl
theorem mzero : ∀ x0, Statement (.mzero x0) := fun _ => rfl
theorem mst : ∀ x0, Statement (.mst x0) := fun _ => rfl
theorem mxchg : ∀ x0, Statement (.mxchg x0) := fun _ => rfl
theorem fload : ∀ x0, Statement (.fload x0) := fun _ => rfl
theorem fgo : ∀ x0, Statement (.fgo x0) := fun _ => rfl
theorem fgoResume : ∀ x0, Statement (.fgoResume x0) := fun _ => rfl
theorem fdrain : ∀ x0, Statement (.fdrain x0) := fun _ => rfl
theorem fstat : ∀ x0, Statement (.fstat x0) := fun _ => rfl
theorem frel : ∀ x0, Statement (.frel x0) := fun _ => rfl
theorem vwait : ∀ x0, Statement (.vwait x0) := fun _ => rfl
theorem steerFire : ∀ x0 x1, Statement (.steerFire x0 x1) := fun _ _ => rfl
theorem carryFire : ∀ x0 x1, Statement (.carryFire x0 x1) := fun _ _ => rfl
theorem invariantFire : ∀ x0 x1, Statement (.invariantFire x0 x1) := fun _ _ => rfl
theorem mergeFire : ∀ x0 x1, Statement (.mergeFire x0 x1) := fun _ _ => rfl
theorem fabricLoad : Statement (.fabricLoad) := rfl
theorem fabricStore : Statement (.fabricStore) := rfl
theorem controlTokenArrival : ∀ x0, Statement (.controlTokenArrival x0) := fun _ => rfl
theorem pageMove : ∀ x0 x1, Statement (.pageMove x0 x1) := fun _ _ => rfl
theorem tokenDelivery : ∀ x0, Statement (.tokenDelivery x0) := fun _ => rfl
theorem gangTermination : ∀ x0, Statement (.gangTermination x0) := fun _ => rfl
theorem interruptEntry : Statement (.interruptEntry) := rfl
theorem timerExpiry : ∀ x0, Statement (.timerExpiry x0) := fun _ => rfl
theorem waitResume : ∀ x0, Statement (.waitResume x0) := fun _ => rfl
theorem barWaitRecheck : ∀ x0, Statement (.barWaitRecheck x0) := fun _ => rfl
theorem vwaitTimeout : ∀ x0, Statement (.vwaitTimeout x0) := fun _ => rfl
theorem mpairTimeout : ∀ x0, Statement (.mpairTimeout x0) := fun _ => rfl
theorem extentRegister : ∀ x0 x1, Statement (.extentRegister x0 x1) := fun _ _ => rfl
theorem stripFetch : ∀ x0 x1, Statement (.stripFetch x0 x1) := fun _ _ => rfl
theorem stripArrival : ∀ x0 x1, Statement (.stripArrival x0 x1) := fun _ _ => rfl
theorem writeStripAccept : ∀ x0 x1, Statement (.writeStripAccept x0 x1) := fun _ _ => rfl
theorem streamFault : ∀ x0 x1, Statement (.streamFault x0 x1) := fun _ _ => rfl
theorem faultRecordWrite : ∀ x0, Statement (.faultRecordWrite x0) := fun _ => rfl
theorem releaseComplete : ∀ x0 x1, Statement (.releaseComplete x0 x1) := fun _ _ => rfl
theorem copyComplete : ∀ x0 x1, Statement (.copyComplete x0 x1) := fun _ _ => rfl
theorem replayWake : ∀ x0 x1, Statement (.replayWake x0 x1) := fun _ _ => rfl
theorem hostSnoop : ∀ x0, Statement (.hostSnoop x0) := fun _ => rfl
theorem peerMemRequest : ∀ x0 x1 x2, Statement (.peerMemRequest x0 x1 x2) := fun _ _ _ => rfl
theorem peerConflictCompletion : ∀ x0 x1, Statement (.peerConflictCompletion x0 x1) := fun _ _ => rfl
theorem rsvreq : ∀ x0, Statement (.rsvreq x0) := fun _ => rfl
theorem rsvack : ∀ x0, Statement (.rsvack x0) := fun _ => rfl
theorem rsvnak : ∀ x0, Statement (.rsvnak x0) := fun _ => rfl
theorem rsvreqTimeout : ∀ x0, Statement (.rsvreqTimeout x0) := fun _ => rfl
theorem rsvcut : ∀ x0 x1, Statement (.rsvcut x0 x1) := fun _ _ => rfl
theorem rsvstate : ∀ x0 x1 x2, Statement (.rsvstate x0 x1 x2) := fun _ _ _ => rfl
theorem rsvrel : ∀ x0 x1, Statement (.rsvrel x0 x1) := fun _ _ => rfl
theorem rsvdone : ∀ x0, Statement (.rsvdone x0) := fun _ => rfl
theorem portDown : ∀ x0 x1, Statement (.portDown x0 x1) := fun _ _ => rfl
theorem circuitOpen : ∀ x0 x1 x2, Statement (.circuitOpen x0 x1 x2) := fun _ _ _ => rfl
theorem crossingGroupArrival : ∀ x0 x1, Statement (.crossingGroupArrival x0 x1) := fun _ _ => rfl
theorem capsuleArrival : ∀ x0, Statement (.capsuleArrival x0) := fun _ => rfl
theorem parkedCapsuleEnter : ∀ x0, Statement (.parkedCapsuleEnter x0) := fun _ => rfl
theorem placeGang : ∀ x0 x1, Statement (.placeGang x0 x1) := fun _ _ => rfl
theorem agingStep : ∀ x0 x1, Statement (.agingStep x0 x1) := fun _ _ => rfl
theorem preemption : ∀ x0, Statement (.preemption x0) := fun _ => rfl
theorem resumeGang : ∀ x0 x1, Statement (.resumeGang x0 x1) := fun _ _ => rfl
theorem hostSubmission : ∀ x0, Statement (.hostSubmission x0) := fun _ => rfl
theorem sqdb : ∀ x0 x1, Statement (.sqdb x0 x1) := fun _ _ => rfl
theorem cqdb : ∀ x0 x1, Statement (.cqdb x0 x1) := fun _ _ => rfl
theorem qcfgEnable : ∀ x0 x1, Statement (.qcfgEnable x0 x1) := fun _ _ => rfl
theorem eqcfgEnable : ∀ x0 x1, Statement (.eqcfgEnable x0 x1) := fun _ _ => rfl
theorem deviceEvent : ∀ x0 x1, Statement (.deviceEvent x0 x1) := fun _ _ => rfl
theorem eventAck : ∀ x0, Statement (.eventAck x0) := fun _ => rfl
theorem atsTranslationCompletion : ∀ x0 x1 x2, Statement (.atsTranslationCompletion x0 x1 x2) := fun _ _ _ => rfl
theorem priResponse : ∀ x0 x1 x2, Statement (.priResponse x0 x1 x2) := fun _ _ _ => rfl
theorem priTimeout : ∀ x0 x1, Statement (.priTimeout x0 x1) := fun _ _ => rfl
theorem atsInvalidate : ∀ x0 x1 x2, Statement (.atsInvalidate x0 x1 x2) := fun _ _ _ => rfl
theorem scrub : ∀ x0 x1, Statement (.scrub x0 x1) := fun _ _ => rfl
theorem slcfgWrite : ∀ x0 x1 x2, Statement (.slcfgWrite x0 x1 x2) := fun _ _ _ => rfl
theorem windowUnitReclaim : ∀ x0 x1 x2, Statement (.windowUnitReclaim x0 x1 x2) := fun _ _ _ => rfl
theorem haltreq : ∀ x0, Statement (.haltreq x0) := fun _ => rfl
theorem haltAck : ∀ x0, Statement (.haltAck x0) := fun _ => rfl
theorem resumereq : ∀ x0, Statement (.resumereq x0) := fun _ => rfl
theorem dbgcmdRead : ∀ x0 x1, Statement (.dbgcmdRead x0 x1) := fun _ _ => rfl
theorem dbgcmdWrite : ∀ x0 x1, Statement (.dbgcmdWrite x0 x1) := fun _ _ => rfl
theorem dbgcmdSaveImage : ∀ x0, Statement (.dbgcmdSaveImage x0) := fun _ => rfl
theorem dbgcmdRestoreImage : ∀ x0, Statement (.dbgcmdRestoreImage x0) := fun _ => rfl
theorem powerOn : Statement (.powerOn) := rfl
theorem mbBegin : ∀ x0, Statement (.mbBegin x0) := fun _ => rfl
theorem mbChunk : ∀ x0, Statement (.mbChunk x0) := fun _ => rfl
theorem mbVerify : ∀ x0, Statement (.mbVerify x0) := fun _ => rfl
theorem mbBoot : ∀ x0, Statement (.mbBoot x0) := fun _ => rfl
theorem mbAbort : ∀ x0, Statement (.mbAbort x0) := fun _ => rfl
theorem mbLog : ∀ x0, Statement (.mbLog x0) := fun _ => rfl
theorem keyload : ∀ x0, Statement (.keyload x0) := fun _ => rfl
theorem keygen : ∀ x0, Statement (.keygen x0) := fun _ => rfl
theorem keyclear : ∀ x0, Statement (.keyclear x0) := fun _ => rfl
theorem attest : ∀ x0, Statement (.attest x0) := fun _ => rfl
theorem trainingComplete : ∀ x0 x1, Statement (.trainingComplete x0 x1) := fun _ _ => rfl
theorem handoverReady : Statement (.handoverReady) := rfl
theorem handoverTimeout : Statement (.handoverTimeout) := rfl
theorem wskick : ∀ x0, Statement (.wskick x0) := fun _ => rfl
theorem watchdogNotice : ∀ x0, Statement (.watchdogNotice x0) := fun _ => rfl
theorem watchdogSave : ∀ x0, Statement (.watchdogSave x0) := fun _ => rfl
theorem tileQuarantine : ∀ x0, Statement (.tileQuarantine x0) := fun _ => rfl
theorem islandReset : ∀ x0, Statement (.islandReset x0) := fun _ => rfl
theorem dieReset : ∀ x0, Statement (.dieReset x0) := fun _ => rfl
theorem resetRequest : ∀ x0, Statement (.resetRequest x0) := fun _ => rfl
theorem telemetrySample : ∀ x0, Statement (.telemetrySample x0) := fun _ => rfl
theorem loadObject : ∀ x0, Statement (.loadObject x0) := fun _ => rfl
theorem registerWrite : ∀ x0 x1, Statement (.registerWrite x0 x1) := fun _ _ => rfl
theorem vwaitRecheck : ∀ x0, Statement (.vwaitRecheck x0) := fun _ => rfl
theorem watershedWatchdogExpiry : ∀ x0, Statement (.watershedWatchdogExpiry x0) := fun _ => rfl
theorem tileReturn : ∀ x0, Statement (.tileReturn x0) := fun _ => rfl

end Sys2Proof.Laws.Words
end

