-- ==== Sys2Proof/Tests/States.lean ====
section
/-!
SUPPORT. The small states that the tests and the witnesses use, and how to check an access on one of them.
-/

namespace Sys2Proof.Tests

open Sys2Proof Sys2Proof.Machine

/-- A state with the translations of the supervisor's gigabyte and of the scratchpad windows cached (R427). -/
def hot (s : State) : State :=
  s.updTile 0 (fun T => { T with tlb := [⟨0, 0x40000000, 0x40000000, 0x4000000F⟩, ⟨0, 0x8000000000, 0x40000000, 0x800000001F⟩] })

/-- The hart 0 placed at 0x40000004 at supervisor level, with gigabytes mapped to the same physical address
(log 1): that at 0 for users, that at 0x40000000 for the supervisor, that at 0x80000000 as shadow stack, and the
first of the scratchpad windows. -/
def base : State :=
  hot (((((State.reset.placed []).putBytes 0x3000 0 (leBytes 8 0x00000017)).putBytes 0x3010 0
    (leBytes 8 0x80000087)).putBytes 0x2008 0 (leBytes 8 0x4001)).putBytes 0x4000 0 (leBytes 8 0x800000001F))

/-- The leaf of an address of one of those gigabytes. -/
def leafAt (pa : Nat) (pte : Word) : Leaf := ⟨pa, 0, pte, 0x40000000⟩

/-- The leaf of an address in the supervisor's gigabyte. -/
def leaf (pa : Nat) : Leaf := leafAt pa 0x4000000F

/-- The leaf of a scratchpad address. -/
def spadLeaf (pa : Nat) : Leaf := leafAt pa 0x800000001F

/-- The outcome is a next state. -/
def nexts (o : Host.Outcome State Fault Refusal) : Bool :=
  match o with
  | .next _ => true
  | _ => false

/-- The value is neither a NaN nor an infinity. -/
def isNum (v : FVal) : Bool :=
  match v with
  | .num _ _ _ => true
  | _ => false

theorem finite_of {v : FVal} (h : isNum v = true) : Claim.finite v := by
  cases v <;> simp_all [isNum, Claim.finite]

/-- The base state with its hart changed. -/
def hartWith (f : Hart → Hart) : State := base.updMe f

/-- The base state with an integer register set. -/
def withX (r : Reg) (w : Word) : State := base.setX r w

/-- The base state at user level. -/
def atUser : State := hartWith (fun H => { H with sup := false })

/-- The hart owns no bank that it may not give: every bank is granted to it, so none is left for a FIFO. -/
def granting : State := hartWith (fun H => { H with banks := BitVec.allOnes 64 })

/-- Bank 0 of the hart's tile is a scratchpad bank. -/
def scratch : State := base.updTile 0 (fun T => { T with banks := T.banks.set 0 ⟨.spad, false, false⟩ })

/-- Bank 1 of the hart's tile is a FIFO bank, free or claimed. -/
def fifo : State := base.updTile 0 (fun T => { T with banks := T.banks.set 1 ⟨.fifo, false, false⟩ })
def claimed : State := base.updTile 0 (fun T => { T with banks := T.banks.set 1 ⟨.fifo, true, true⟩ })

/-- A launch of one instance of two harts. -/
def launch : Launch :=
  { id := 7, entry := 0x40000004, args := 0, inst := 1, prio := 1, ceil := 3, clus := 1, banks := 0, lanes := false
    astep := 0, asid := 0, done := .none, preds := [], levels := [⟨1, 2⟩], rings := [], xings := [], pages := none
    die := 0, queue := 0, next := 0 }

/-- The gang of harts 0 and 1, by ranks 0 and 1. -/
def gang : Gang :=
  { id := 5, launch := launch, inst := 0, members := [⟨0, 0, false, none⟩, ⟨1, 1, false, none⟩], fc := 0
    running := true, since := 0, yielded := false, prio := 1 }

/-- A state with that gang running on harts 0 and 1. -/
def gangIn (s : State) : State :=
  (({ s with gangs := [gang] } : State).updHart 0 (fun H => { H with gang := some (5, 0) })).updHart 1
    (fun H => { H with run := .running, gang := some (5, 1) })

def ganged : State := gangIn base

/-- The word of the scalar instruction that a fetch finds. -/
def fetchedWord (f : Fetched Instr) : Option (BitVec 32) :=
  match f with
  | .got i => encodeScalar i
  | _ => none

theorem got_of {f : Fetched Instr} {w : BitVec 32} (h : fetchedWord f = some w) : ∃ i, f = .got i := by
  cases f with
  | got i => exact ⟨i, rfl⟩
  | trap c v => cases h
  | askHost p => cases h

/-- An operation answers, and what it answers meets a test. -/
def answers {α : Type} (op : Op α) (s : State) (test : α → State → Bool) : Bool :=
  match op s with
  | .ok a u => test a u
  | .error _ _ => false

theorem answers_of {α : Type} {op : Op α} {s : State} {test : α → State → Bool} (h : answers op s test = true) :
    ∃ a u, op s = .ok a u ∧ test a u = true := by
  unfold answers at h
  split at h
  · exact ⟨_, _, ‹_›, h⟩
  · cases h

/-- What the hart meets at a line. -/
def met (s : State) (l : Leaf) (write : Bool) : State × Conflict :=
  s.meetInTurn (.hart s.cur) (.hart s.cur) [l.pa / 128] l.key write

/-- The state that an access leaves, served at once. -/
def metState (s : State) (l : Leaf) (write : Bool) : State :=
  (met s l write).1.touchLine (tileOf (met s l write).1.cur) l.pa l.key write

/-- An access is served at once, checked by evaluation. -/
theorem meets_of {s : State} {l : Leaf} {write : Bool}
    (h : s.peerWaits l.pa = false ∧ (met s l write).2 = .served ∧
      (met s l write).1.hostHolds (l.pa / 128) l.key write = false) :
    Claim.Meets s l write (metState s l write) :=
  ⟨h.1, _, Prod.ext rfl h.2.1, h.2.2, rfl⟩

/-- An access of the hart whose turn it is that is served, checked by evaluation. -/
theorem access_of {s : State} {kind : Kind} {write : Bool} {va : Word} {size : Nat} (l : Leaf) (c : Nat)
    (h : va.toNat % size = 0 ∧ s.deviceAt kind va size = none ∧
      s.reach s.cur s.me.sup kind va.toNat = .to l c ∧ s.peerWaits l.pa = false ∧
      (met s l write).2 = .served ∧ (met s l write).1.hostHolds (l.pa / 128) l.key write = false) :
    Claim.Access s kind write va size l c (metState s l write) :=
  ⟨h.1, h.2.1, h.2.2.1, meets_of h.2.2.2⟩

/-- The value and the state of a plain load that is served at once. -/
def readValue (s : State) (l : Leaf) (c size : Nat) : Nat := Claim.seen (metState s l false) l c size
def readState (s : State) (l : Leaf) (c size : Nat) : State := (metState s l false).forgetAt s.cur true c size

/-- A plain load of what has not been read early, checked by evaluation. -/
theorem reads_at {s : State} {kind : Kind} {va : Word} {size : Nat} (l : Leaf) (c : Nat)
    (h : va.toNat % size = 0 ∧ s.deviceAt kind va size = none ∧
      s.reach s.cur s.me.sup kind va.toNat = .to l c ∧ s.peerWaits l.pa = false ∧
      (met s l false).2 = .served ∧ (met s l false).1.hostHolds (l.pa / 128) l.key false = false)
    (he : (s.takeEarly s.cur true c l.key size).isNone = true)
    (hp : (metState s l false).poisoned l.pa size = false) :
    Claim.Reads s kind va size (readValue s l c size) (readState s l c size) :=
  ⟨h.1, h.2.1, l, c, h.2.2.1, .inr ⟨Option.isNone_iff_eq_none.mp he, _, meets_of h.2.2.2, hp, rfl, rfl⟩⟩

theorem reads_of {s : State} {kind : Kind} {va : Word} {size : Nat} (l : Leaf) (c : Nat)
    (h : va.toNat % size = 0 ∧ s.deviceAt kind va size = none ∧
      s.reach s.cur s.me.sup kind va.toNat = .to l c ∧ s.peerWaits l.pa = false ∧
      (met s l false).2 = .served ∧ (met s l false).1.hostHolds (l.pa / 128) l.key false = false)
    (he : s.takeEarly s.cur true c l.key size = none) (hp : (metState s l false).poisoned l.pa size = false) :
    ∃ v u, Claim.Reads s kind va size v u :=
  ⟨_, _, reads_at l c h (Option.isNone_iff_eq_none.mpr he) hp⟩

/-! ### Harts that are not placed -/

theorem putByte_harts (s : State) (c k : Nat) (b : Byte) : (s.putByte c k b).harts = s.harts := by
  unfold State.putByte State.rekey
  split
  · split
    · split <;> rfl
    · rfl
  · rfl

theorem putBytes_harts (s : State) (c k : Nat) (bs : List Byte) : (s.putBytes c k bs).harts = s.harts := by
  induction bs generalizing s c with
  | nil => rfl
  | cons b t ih => exact (ih _ _).trans (putByte_harts _ _ _ _)

/-- Every hart but the first is as reset leaves it in the base state. -/
theorem others_reset (h : HartId) (hh : h ≠ 0) : base.hart h = Hart.reset := by
  unfold base hot
  simp only [State.hart, State.updTile, putBytes_harts]
  unfold State.placed
  simp only [putBytes_harts]
  have : (0 : Nat) ≠ h.val := fun e => hh (Fin.ext e.symm)
  simp [State.updMe, State.updHart, State.updTile, State.reset, this]

theorem others_idle (h : HartId) (hh : h ≠ 0) : (base.hart h).run = .idle := by
  rw [others_reset h hh]
  rfl

/-! ### Accesses of vector forms -/

/-- Nobody waits for a line, or woken in its slice, no entry conflicts with a request for it, and no window is placed. -/
def quietAt (s : State) (p : Parker) (who : Requester) (line : Nat) (write : Bool) : Bool :=
  (s.parkedAt line).isEmpty && (s.conflicts who line write).isEmpty && !s.isParked p && s.noWindows &&
    !(match p.tile with
      | some t => s.wokenAt t line
      | none => false)

theorem meetInTurn_quiet {s : State} {p : Parker} {who : Requester} {line key : Nat} {write : Bool}
    (h : quietAt s p who line write = true) : s.meetInTurn p who [line] key write = (s, .served) := by
  simp only [quietAt, Bool.and_eq_true, List.isEmpty_iff, Bool.not_eq_true'] at h
  obtain ⟨⟨⟨⟨a, b⟩, c⟩, d⟩, e⟩ := h
  have hb : [line].any (s.waitsBehind p) = false := by
    simp only [State.waitsBehind, a, List.any_cons, List.find?_nil, List.any_nil, Bool.false_or, Bool.or_false]
    exact e
  rw [meetInTurn_free hb (by simp [State.clashes, b]) d]
  simp [State.unparkAt, c]

/-- Nothing is outstanding or kept, and the stores of the hart are performed at once. -/
def atOnceB (s : State) : Bool :=
  s.delayed.isEmpty && s.me.delays.all (fun b => !b) && s.early.isEmpty &&
    (List.finRange 8).all (fun d => (s.landing d).frames.isEmpty)

theorem atOnce_of {s : State} (h : atOnceB s = true) : Claim.AtOnce s := by
  simp only [atOnceB, Bool.and_eq_true, List.isEmpty_iff, List.all_eq_true, Bool.not_eq_true', List.mem_finRange,
    forall_const] at h
  exact ⟨h.1.1.1, h.1.1.2, h.1.2, h.2⟩

/-- Nothing stands in the way of an access to a line, checked by evaluation. -/
theorem lineFree_of {s : State} {l : Leaf} {write : Bool}
    (h : s.peerWaits l.pa = false ∧ (s.dirAt (l.pa / 128)).isNone = true ∧
      quietAt s (.hart s.cur) (.hart s.cur) (l.pa / 128) write = true) : Claim.LineFree s l write :=
  ⟨h.1, meetInTurn_quiet h.2.2, Option.isNone_iff_eq_none.mp h.2.1⟩

/-- Every element below `n` is aligned, reaches its leaf and cell, and meets nothing that stops it. -/
def reachesB (s : State) (kind : Kind) (size : Nat) (addr : Nat → Word) (n : Nat) (L : Nat → Leaf)
    (C : Nat → Nat) : Bool :=
  (List.range n).all (fun k => decide ((addr k).toNat % size = 0) &&
    decide (s.reach s.cur s.me.sup kind (addr k).toNat = .to (L k) (C k)) && !s.peerWaits (L k).pa &&
    (s.dirAt ((L k).pa / 128)).isNone &&
    quietAt s (.hart s.cur) (.hart s.cur) ((L k).pa / 128) (kind == .write))

theorem reaches_of {s : State} {kind : Kind} {size : Nat} {addr : Nat → Word} {n : Nat} {on : Nat → Prop}
    {L : Nat → Leaf} {C : Nat → Nat} (hon : ∀ k, on k → k < n) (h : reachesB s kind size addr n L C = true) :
    Claim.Reaches s kind size addr on L C := by
  simp only [reachesB, Bool.and_eq_true, List.all_eq_true, List.mem_range, decide_eq_true_eq,
    Option.isNone_iff_eq_none, Bool.not_eq_true'] at h
  exact ⟨fun k hk => (h k (hon k hk)).1.1.1.1, fun k hk => (h k (hon k hk)).1.1.1.2,
    fun k hk => ⟨(h k (hon k hk)).1.1.2, meetInTurn_quiet (h k (hon k hk)).2, (h k (hon k hk)).1.2⟩⟩

/-- The entry at the head of a ring, where its words are read. -/
theorem entry_of {s : State} {q need : Nat} (L : Nat → Leaf) (C : Nat → Nat)
    (h : let r := s.me.ring (BitVec.ofNat 3 q)
      (r.on && decide (need ≤ r.size ∧ r.occ ≠ 0 ∧ s.me.shapeM ≠ 0 ∧ s.me.shapeN ≠ 0 ∧ s.me.shapeK ≠ 0) &&
        reachesB s .read 4 (fun k => r.base + BitVec.ofNat 64 (r.head.toNat % r.entries * r.size) +
          BitVec.ofNat 64 (4 * k)) ((need + 3) / 4) L C &&
        (List.range ((need + 3) / 4)).all (fun k => !s.poisoned (L k).pa 4)) = true) :
    ∃ bs, Claim.Entry s q need bs := by
  simp only [Bool.and_eq_true, decide_eq_true_eq, List.all_eq_true, List.mem_range, Bool.not_eq_true'] at h
  obtain ⟨⟨⟨a, b, c, d, e, f⟩, g⟩, i⟩ := h
  exact ⟨_, a, b, c, d, e, f, L, C, reaches_of (fun _ hk => hk) g, i, rfl⟩

end Sys2Proof.Tests
end

