-- ==== Sys2Proof/Tests/Slice0.lean ====
section
/-!
SUPPORT. Tests of the model's own layers: ill-formed terms that WellFormed refuses, words written out from the
encodings of the manual that decode to the instruction they stand for, and single steps with results worked
out by hand from the manual's tables.
-/

namespace Sys2Proof.Tests

open Sys2Proof Sys2Proof.Machine

set_option maxRecDepth 100000
-- One kernel evaluation at a time, so that the check needs little memory.
set_option Elab.async false

/-! ### WellFormed: an ill-formed term for each check -/

/-- R32, R206: a reserved scope, and a scope on a plain atomic. -/
theorem test_illFormed_scopes :
    ([.amoswap 3 17 10 1 0 0 6,
      .amocas 3 17 10 1 1 0 7,
      .amoadd 3 17 10 0 0 0 1,
      .fence 6,
      .fenceSv 7,
      .fenceVs 6,
      .fenceI 6,
      .lda 3 17 0 2 6,
      .stl 17 10 0 6,
      .tlbInv 17 10 6,
      .ldf 3 17 6,
      .ldfClr 3 17 6,
      .stf 17 10 6,
      .stfWait 17 10 6,
      .ringAdvTail 17 0 6,
      .ringAdvHead 17 0 6,
      .cwait 17 2 6,
      .cadd 17 2 6,
      .tokSend 17 10 6,
      .tokWait 17 2 6,
      .barArrive 3 17 6,
      .barWait 17 10 6,
      .capSend 17 10 6,
      .capRecv 3 6,
      .capFwd 6,
      .capFwdStay 6,
      .capFwdEnd 6,
      .vsetvl 3 17 10 0 0 6] : List Instr).all (fun i => !i.wf) = true := by decide +kernel

/-- R220, R221: reserved formats and roundings, and a conversion to its own format. -/
theorem test_illFormed_floats :
    ([.fadd 3 17 10 5 0,
      .fsqrt 3 17 6 0,
      .fdiv 3 17 10 0 4,
      .fmin 3 17 10 4,
      .feq 3 17 10 4,
      .fclass 3 17 4,
      .fmvX 3 17 4,
      .fmvF 3 17 4,
      .fcvtToInt 3 17 0 5 0,
      .fcvtFromInt 3 17 0 0 4,
      .fcvtFmt 3 17 1 0 1,
      .fcvtFmt 3 17 0 6 1,
      .fmadd 3 17 10 9 0 5,
      .fnmsub 3 17 10 9 1 6] : List Instr).all (fun i => !i.wf) = true := by decide +kernel

/-- R34, R52, R222, R226, R228, R388: a zero-extended 64-bit `lda`, a field of `kid` that its selector leaves
  out, an unassigned loop field, an assigned hint, a word that no rule accepts, and convoys whose headers do not
  fit. -/
theorem test_illFormed_others :
    ([.lda 3 17 1 3 0,
      .kid 3 17 5,
      .hget 3 0 3,
      .hset 0 17 3,
      .hint 3 0,
      .illegalInstruction 0x04715000,
      .convoy 0xF8001000 [],
      .convoy 0xF9001000 [0],
      .convoy 0xF4001000 [0]] : List Instr).all (fun i => !i.wf) = true := by decide +kernel

/-- R244 to R248: formats, widths, rounding, second operands and mask registers of the integer forms. -/
theorem test_illFormed_vector_integer :
    ([.vadd ⟨3, 17, 0, 0, 5, 2, 2, 0, 0x28001⟩,
      .vadd ⟨3, 17, 0, 0, 5, 4, 1, 0, 0x28001⟩,
      .vmul ⟨3, 17, 10, 0, 5, 2, 1, 1, 0⟩,
      .vadd ⟨3, 17, 0, 0, 5, 2, 1, 0, 0x30000⟩,
      .vadd ⟨3, 17, 0, 1, 5, 2, 1, 0, 0⟩,
      .vadd ⟨3, 17, 1, 0, 5, 2, 1, 0, 0x10000⟩,
      .vadd ⟨3, 17, 1, 0, 5, 2, 1, 0, 0x20000⟩,
      .vmv ⟨3, 1, 10, 0, 5, 2, 1, 0, 0⟩,
      .vnot ⟨3, 17, 1, 0, 5, 2, 1, 0, 0⟩,
      .vmseq ⟨0, 17, 10, 0, 5, 2, 1, 0, 0⟩,
      .vmseq ⟨8, 17, 10, 0, 5, 2, 1, 0, 0⟩,
      .vmslt ⟨6, 17, 0, 0, 5, 2, 3, 0, 0x20000⟩,
      .vmseq ⟨6, 17, 10, 0, 5, 0, 8, 0, 0⟩] : List Instr).all (fun i => !i.wf) = true := by decide +kernel

/-- R250 to R255: roundings, formats and unused fields of the floating forms and conversions. -/
theorem test_illFormed_vector_float :
    ([.vfadd ⟨3, 17, 10, 0, 5, 2, 3, 5, 0⟩,
      .vfadd ⟨3, 17, 10, 0, 5, 0, 6, 2, 0⟩,
      .vfadd ⟨3, 17, 10, 0, 5, 3, 3, 2, 0⟩,
      .vfadd ⟨3, 17, 0, 0, 5, 2, 3, 2, 0x20000⟩,
      .vfsqrt ⟨3, 17, 1, 0, 5, 2, 3, 2, 0⟩,
      .vfmin ⟨3, 17, 10, 0, 5, 3, 2, 1, 0⟩,
      .vfclass ⟨3, 17, 0, 0, 5, 2, 3, 0, 1⟩,
      .vfmadd ⟨3, 17, 10, 29, 5, 1, 5, 3, 1⟩,
      .vcvt ⟨3, 17, 0, 0, 5, 0, 0, 6, 0x6a00⟩,
      .vcvt ⟨3, 17, 0, 12, 5, 0, 0, 0, 0x6a00⟩,
      .vcvt ⟨3, 17, 1, 12, 5, 0, 0, 5, 0x6a00⟩,
      .vcvt ⟨3, 17, 0, 12, 5, 0, 0, 5, 0⟩,
      .vcvtMx ⟨3, 17, 10, 0, 1, 0, 9, 2, 0x8400⟩,
      .vcvtMx ⟨3, 17, 10, 0, 0, 0, 7, 2, 0x8400⟩,
      .vcvtDemx ⟨3, 17, 10, 0, 0, 2, 3, 2, 0xe000⟩,
      .vcvtDemx ⟨3, 17, 10, 0, 1, 2, 3, 2, 0x14000⟩] : List Instr).all (fun i => !i.wf) = true := by decide +kernel

/-- R249, R256, R257, R273: the whole-vector and mask forms. -/
theorem test_illFormed_vector_whole :
    ([.vslideup ⟨3, 17, 1, 12, 5, 2, 1, 0, 0⟩,
      .vperm ⟨3, 17, 10, 1, 5, 2, 1, 0, 0⟩,
      .vsel ⟨3, 17, 10, 0, 0, 2, 1, 0, 0⟩,
      .vid ⟨3, 1, 0, 0, 5, 2, 1, 0, 0⟩,
      .vcompress ⟨3, 17, 0, 0, 0, 2, 1, 0, 0⟩,
      .vexpand ⟨3, 17, 0, 1, 5, 2, 1, 0, 0⟩,
      .vredsum ⟨3, 17, 10, 0, 5, 2, 3, 2, 0xc000⟩,
      .vredsum ⟨3, 17, 10, 0, 5, 2, 3, 2, 0x10000⟩,
      .vredsum ⟨3, 17, 10, 0, 5, 2, 1, 2, 0x3c000⟩,
      .vredmin ⟨3, 17, 10, 0, 5, 2, 3, 2, 0x1c000⟩,
      .vredand ⟨3, 17, 10, 0, 5, 2, 3, 0, 0⟩,
      .vscanmax ⟨3, 17, 10, 1, 5, 2, 3, 0, 0x1c000⟩,
      .vmand ⟨7, 6, 0, 0, 0, 0, 0, 0, 0⟩,
      .vmnot ⟨7, 6, 1, 0, 0, 0, 0, 0, 0⟩,
      .vmset ⟨7, 1, 0, 0, 0, 0, 0, 0, 0⟩,
      .vmtov ⟨3, 4, 0, 0, 0, 2, 1, 0, 0⟩,
      .vvtom ⟨9, 17, 0, 0, 0, 2, 0, 0, 0⟩,
      .vpop ⟨21, 0, 0, 0, 0, 0, 0, 0, 0⟩,
      .vfirst ⟨21, 4, 0, 0, 0, 1, 0, 0, 0⟩,
      .vbqAny ⟨1, 4, 0, 0, 0, 0, 0, 0, 0⟩,
      .vbqNone ⟨0, 8, 0, 0, 0, 0, 0, 0, 0⟩] : List Instr).all (fun i => !i.wf) = true := by decide +kernel

/-- R259, R261, R266, R274, R278, R281, R384: the memory, sparse, window and transfer forms. -/
theorem test_illFormed_vector_memory :
    ([.vld ⟨3, 1, 0, 22, 5, 2, 3, 0, 0x27ff0⟩,
      .vld ⟨3, 0, 0, 22, 5, 2, 3, 0, 0x10000⟩,
      .vldff ⟨3, 0, 0, 22, 5, 0, 8, 0, 0x27ff0⟩,
      .vlds ⟨3, 0, 10, 22, 5, 2, 1, 0, 0x10000⟩,
      .vldr ⟨3, 0, 0, 22, 1, 3, 0, 0, 0x20000⟩,
      .vldr ⟨3, 0, 0, 22, 0, 2, 0, 0, 0x20000⟩,
      .vldm ⟨0, 0, 0, 22, 0, 0, 0, 0, 0⟩,
      .vst ⟨0, 17, 0, 22, 5, 2, 3, 0, 0x20000⟩,
      .vsts ⟨1, 17, 10, 22, 5, 2, 1, 0, 0x10000⟩,
      .vstr ⟨0, 17, 0, 22, 0, 3, 0, 0, 1⟩,
      .vstm ⟨0, 8, 0, 22, 0, 0, 0, 0, 0⟩,
      .vgather ⟨3, 0, 10, 22, 5, 2, 1, 0, 0xe000⟩,
      .vgather ⟨3, 0, 10, 22, 5, 2, 1, 0, 0x200⟩,
      .vscatter ⟨1, 17, 10, 22, 5, 2, 1, 0, 0x16800⟩,
      .vscatter ⟨0, 17, 10, 22, 5, 2, 1, 0, 0x20000⟩,
      .vsetlf ⟨0, 17, 10, 22, 0, 2, 1, 0, 0x4c00⟩,
      .vxint ⟨3, 17, 10, 22, 0, 2, 0, 0, 0x30000⟩,
      .vxuni ⟨3, 17, 10, 22, 1, 2, 1, 0, 0x34c00⟩,
      .vxmrg ⟨3, 17, 10, 22, 0, 2, 1, 0, 0x30001⟩,
      .accwinSum ⟨1, 17, 10, 22, 0, 2, 1, 0, 0x400⟩,
      .accwinMin ⟨0, 17, 10, 22, 0, 2, 1, 1, 0x400⟩,
      .accwinMax ⟨0, 17, 10, 22, 0, 2, 1, 0, 0x1800⟩,
      .vacc ⟨0, 17, 10, 1, 5, 2, 3, 2, 0x1a00⟩,
      .accmerge ⟨0, 1, 0, 0, 0, 2, 3, 2, 0x10600⟩,
      .vamoadd ⟨3, 17, 10, 22, 5, 1, 1, 0, 0x35900⟩,
      .vamoadd ⟨3, 17, 10, 22, 5, 2, 3, 5, 0x35900⟩,
      .vamoadd ⟨3, 17, 10, 22, 5, 2, 1, 0, 0⟩,
      .vamomin ⟨3, 17, 10, 22, 5, 2, 3, 1, 0x35900⟩,
      .vamoswap ⟨3, 17, 10, 22, 5, 2, 3, 0, 0x35900⟩,
      .vext ⟨3, 17, 1, 22, 0, 2, 1, 0, 0⟩,
      .vins ⟨3, 17, 0, 22, 1, 2, 1, 0, 0⟩,
      .vxsend ⟨0, 17, 0, 0, 0, 2, 1, 0, 0x10000⟩,
      .vxrecv ⟨3, 0, 0, 0, 0, 2, 0, 0, 1⟩,
      .vldStrm ⟨3, 0, 0, 16, 5, 2, 1, 0, 0⟩,
      .vstStrm ⟨0, 17, 0, 11, 1, 2, 1, 0, 0⟩,
      .vwait ⟨2, 17, 10, 22, 5, 2, 1, 0, 0x30000⟩,
      .vwait ⟨0, 17, 10, 22, 5, 2, 1, 0, 0x10000⟩] : List Instr).all (fun i => !i.wf) = true := by decide +kernel

/-- R292 to R294, R298, R327: the matrix and fabric forms. -/
theorem test_illFormed_region :
    ([.mma ⟨0, 6, 6, 0, 0, 0, 8, 0, 0x12280⟩,
      .mma ⟨0, 8, 1, 0, 0, 0, 8, 0, 0x12280⟩,
      .mma ⟨0, 6, 1, 0, 0, 1, 4, 0, 0x12280⟩,
      .mma ⟨0, 6, 1, 1, 0, 0, 8, 0, 0x12280⟩,
      .mma ⟨0, 6, 1, 0, 0, 0, 8, 0, 0x12001⟩,
      .mmaInt ⟨0, 6, 1, 0, 0, 0, 16, 0, 0x100⟩,
      .mtern ⟨0, 6, 1, 0, 0, 0, 0, 0, 0x1a000⟩,
      .msound ⟨0, 6, 1, 22, 0, 0, 0, 0, 0x1c080⟩,
      .mcheck ⟨1, 21, 0, 22, 0, 0, 0, 0, 0⟩,
      .mzero ⟨0, 1, 0, 0, 0, 0, 0, 0, 0⟩,
      .mst ⟨0, 17, 10, 22, 0, 1, 4, 5, 0x200⟩,
      .mst ⟨0, 17, 10, 22, 0, 3, 2, 2, 0x200⟩,
      .mst ⟨0, 17, 10, 22, 0, 1, 4, 2, 0x400⟩,
      .mxchg ⟨0, 0, 0, 0, 0, 2, 1, 2, 0x100⟩,
      .mxchg ⟨0, 0, 0, 0, 0, 2, 3, 2, 0⟩,
      .fload ⟨0, 1, 0, 22, 0, 0, 0, 0, 0⟩,
      .fgo ⟨0, 0, 0, 0, 0, 0, 0, 0, 1⟩,
      .fgoResume ⟨0, 0, 0, 0, 0, 0, 0, 0, 0⟩,
      .fdrain ⟨1, 0, 0, 0, 0, 0, 0, 0, 0⟩,
      .fstat ⟨22, 1, 0, 0, 0, 0, 0, 0, 0⟩,
      .frel ⟨0, 0, 0, 0, 1, 0, 0, 0, 0⟩] : List Instr).all (fun i => !i.wf) = true := by decide +kernel

/-- R314, R315: formats, roundings, selectors and the destination of `fmac`. -/
theorem test_illFormed_units :
    ([.unitAdd ⟨2, 3, 0, 16, 9, 5⟩,
      .unitMov ⟨0, 0, 1, 16, 0, 5⟩,
      .unitMul ⟨0, 0, 0, 18, 0, 5⟩,
      .unitMin ⟨0, 0, 0, 0, 18, 5⟩,
      .unitMax ⟨0, 0, 0, 0, 0, 16⟩,
      .unitFadd ⟨1, 2, 0, 0, 0, 5⟩,
      .unitFmul ⟨3, 3, 0, 0, 0, 5⟩,
      .unitFsub ⟨3, 2, 5, 0, 0, 5⟩,
      .unitFmac ⟨3, 2, 0, 0, 0, 7⟩,
      .unitBamax ⟨7, 2, 0, 0, 0, 5⟩,
      .unitQcvt ⟨9, 1, 0, 0, 0, 5⟩] : List Instr).all (fun i => !i.wf) = true := by decide +kernel

/-- Terms next to those that are well formed. -/
theorem test_wellFormed :
    ([.amoswap 3 17 10 1 0 0 5,
      .amoadd 3 17 10 0 0 0 0,
      .fence 5,
      .lda 3 17 1 2 0,
      .fadd 3 17 10 7 3,
      .fcvtFmt 3 17 0 0 1,
      .kid 3 17 6,
      .kid 3 0 5,
      .hget 3 0 2,
      .hint 4 0,
      .convoy 0xF9001000 [0, 0],
      .vadd ⟨3, 17, 10, 0, 5, 2, 1, 0, 0⟩,
      .vfsqrt ⟨3, 17, 0, 0, 0, 2, 3, 7, 0⟩,
      .mzero ⟨0, 0, 0, 0, 0, 0, 0, 0, 0⟩,
      .unitFmac ⟨3, 2, 0, 0, 0, 8⟩] : List Instr).all (fun i => i.wf) = true := by decide +kernel

/-! ### Words of the scalar majors: the row's fixed bits with operands in its fields (R30, R52) -/

/-- The words of scalar major 0x01. -/
theorem test_decode_integer :
    [0x04715000#32, 0x04715040#32, 0x04715080#32, 0x047150C0#32, 0x04715100#32, 0x04715140#32, 0x04715180#32,
      0x047151C0#32, 0x04715200#32, 0x04715240#32, 0x04715280#32, 0x047152C0#32, 0x04715300#32, 0x04715340#32,
      0x04715380#32, 0x047153C0#32, 0x04715400#32, 0x04715440#32, 0x04715480#32, 0x047154C0#32, 0x04710500#32,
      0x04710540#32, 0x04710580#32, 0x047105C5#32, 0x04710605#32, 0x04710645#32, 0x04710680#32, 0x04710681#32,
      0x04710682#32, 0x047106C0#32, 0x047106C1#32, 0x047106C2#32].map decodeScalar =
    [.add 3 17 10, .sub 3 17 10, .and 3 17 10, .or 3 17 10, .xor 3 17 10, .andn 3 17 10, .sll 3 17 10, .srl 3 17
      10, .sra 3 17 10, .slt 3 17 10, .sltu 3 17 10, .min 3 17 10, .max 3 17 10, .minu 3 17 10, .maxu 3 17 10,
      .addw 3 17 10, .subw 3 17 10, .sh1add 3 17 10, .sh2add 3 17 10, .sh3add 3 17 10, .clz 3 17, .ctz 3 17,
      .cpop 3 17, .slli 3 17 5, .srli 3 17 5, .srai 3 17 5, .sextB 3 17, .sextH 3 17, .sextW 3 17, .zextB 3 17,
      .zextH 3 17, .zextW 3 17] := rfl

/-- The words of scalar major 0x02. -/
theorem test_decode_addi :
    [0x087109A3#32].map decodeScalar =
    [.addi 3 17 0x9a3] := rfl

/-- The words of scalar major 0x03. -/
theorem test_decode_multiply :
    [0x0C715000#32, 0x0C715040#32, 0x0C715080#32, 0x0C7150C0#32, 0x0C715100#32, 0x0C715140#32, 0x0C715180#32,
      0x0C7151C0#32, 0x0C715200#32, 0x0C715240#32, 0x0C715280#32].map decodeScalar =
    [.mul 3 17 10, .mulh 3 17 10, .mulhu 3 17 10, .mulhsu 3 17 10, .div 3 17 10, .divu 3 17 10, .rem 3 17 10,
      .remu 3 17 10, .mulw 3 17 10, .divw 3 17 10, .remw 3 17 10] := rfl

/-- The words of scalar major 0x04. -/
theorem test_decode_load :
    [0x107109A3#32, 0x107119A3#32, 0x107129A3#32, 0x107139A3#32, 0x107149A3#32, 0x107159A3#32, 0x107169A3#32,
      0x107179A3#32, 0x107189A3#32, 0x107199A3#32].map decodeScalar =
    [.ldI8 3 17 0x9a3, .ldI16 3 17 0x9a3, .ldI32 3 17 0x9a3, .ldI64 3 17 0x9a3, .ldN8 3 17 0x9a3, .ldN16 3 17
      0x9a3, .ldN32 3 17 0x9a3, .ldF16 3 17 0x9a3, .ldF32 3 17 0x9a3, .ldF64 3 17 0x9a3] := rfl

/-- The words of scalar major 0x05. -/
theorem test_decode_store :
    [0x14B109A3#32, 0x14B119A3#32, 0x14B129A3#32, 0x14B139A3#32, 0x14B179A3#32, 0x14B189A3#32,
      0x14B199A3#32].map decodeScalar =
    [.stI8 5 17 0x9a3, .stI16 5 17 0x9a3, .stI32 5 17 0x9a3, .stI64 5 17 0x9a3, .stF16 5 17 0x9a3, .stF32 5 17
      0x9a3, .stF64 5 17 0x9a3] := rfl

/-- The words of scalar major 0x06. -/
theorem test_decode_atomic :
    [0x1871502C#32, 0x1871506C#32, 0x187150AC#32, 0x187150EC#32, 0x1871512C#32, 0x1871516C#32, 0x187151AC#32,
      0x187151EC#32, 0x1871522C#32, 0x1871526C#32].map decodeScalar =
    [.amoswap 3 17 10 1 0 1 4, .amoadd 3 17 10 1 0 1 4, .amoand 3 17 10 1 0 1 4, .amoor 3 17 10 1 0 1 4, .amoxor
      3 17 10 1 0 1 4, .amomin 3 17 10 1 0 1 4, .amomax 3 17 10 1 0 1 4, .amominu 3 17 10 1 0 1 4, .amomaxu 3 17
      10 1 0 1 4, .amocas 3 17 10 1 0 1 4] := rfl

/-- The words of scalar major 0x07. -/
theorem test_decode_branch :
    [0x1C1152B7#32, 0x1C3152B7#32, 0x1C5152B7#32, 0x1C7152B7#32, 0x1C9152B7#32, 0x1CB152B7#32, 0x1E1102B7#32,
      0x1E3102B7#32, 0x1E5102B7#32, 0x1E7102B7#32, 0x1E9102B7#32, 0x1EB102B7#32, 0x1EC002B7#32,
      0x1EE002B7#32].map decodeScalar =
    [.beq 17 10 0x2b7, .bne 17 10 0x2b7, .blt 17 10 0x2b7, .bge 17 10 0x2b7, .bltu 17 10 0x2b7, .bgeu 17 10
      0x2b7, .beqz 17 0x2b7, .bnez 17 0x2b7, .bltz 17 0x2b7, .bgez 17 0x2b7, .blez 17 0x2b7, .bgtz 17 0x2b7,
      .bqt 0x2b7, .bqf 0x2b7] := rfl

/-- The words of scalar major 0x08. -/
theorem test_decode_jump :
    [0x200002B7#32, 0x210002B7#32, 0x221109A3#32, 0x223109A3#32, 0x22400000#32, 0x22710003#32, 0x22910003#32,
      0x22B10000#32].map decodeScalar =
    [.j 0x2b7, .call 0x2b7, .jr 17 0x9a3, .callr 17 0x9a3, .ret, .rasSpill 17 3, .rasFill 17 3, .rasDrop 17] := rfl

/-- The words of scalar major 0x09. -/
theorem test_decode_lik :
    [0x246009A3#32].map decodeScalar =
    [.lik 3 0x9a3] := rfl

/-- The words of scalar major 0x0A. -/
theorem test_decode_pcrel :
    [0x286009A3#32].map decodeScalar =
    [.pcrel 3 0x9a3] := rfl

/-- The words of scalar major 0x0B. -/
theorem test_decode_floating :
    [0x2C715012#32, 0x2C715052#32, 0x2C715092#32, 0x2C7150D2#32, 0x2C710112#32, 0x2C715142#32, 0x2C715182#32,
      0x2C7151C2#32, 0x2C715202#32, 0x2C715242#32, 0x2C715282#32, 0x2C7152C2#32, 0x2C715302#32, 0x2C710342#32,
      0x2C710B92#32, 0x2C710BD2#32, 0x2C710C12#32, 0x2C710442#32, 0x2C710482#32].map decodeScalar =
    [.fadd 3 17 10 2 2, .fsub 3 17 10 2 2, .fmul 3 17 10 2 2, .fdiv 3 17 10 2 2, .fsqrt 3 17 2 2, .fmin 3 17 10
      2, .fmax 3 17 10 2, .fsgnj 3 17 10 2, .fsgnjn 3 17 10 2, .fsgnjx 3 17 10 2, .feq 3 17 10 2, .flt 3 17 10
      2, .fle 3 17 10 2, .fclass 3 17 2, .fcvtToInt 3 17 1 2 2, .fcvtFromInt 3 17 1 2 2, .fcvtFmt 3 17 1 2 2,
      .fmvX 3 17 2, .fmvF 3 17 2] := rfl

/-- The words of scalar major 0x0C. -/
theorem test_decode_fused :
    [0x30715642#32, 0x30715652#32, 0x30715662#32, 0x30715672#32].map decodeScalar =
    [.fmadd 3 17 10 25 0 2, .fmsub 3 17 10 25 0 2, .fnmadd 3 17 10 25 0 2, .fnmsub 3 17 10 25 0 2] := rfl

/-- The words of scalar major 0x0D. -/
theorem test_decode_csr :
    [0x34600019#32, 0x34711019#32, 0x34712019#32, 0x34713019#32, 0x346D4019#32, 0x346D5019#32].map decodeScalar =
    [.csrr 3 25, .csrw 3 17 25, .csrs 3 17 25, .csrc 3 17 25, .csrsi 3 13 25, .csrci 3 13 25] := rfl

/-- The words of scalar major 0x0E. -/
theorem test_decode_ordering :
    [0x38000004#32, 0x38000044#32, 0x38000084#32, 0x387100F4#32, 0x3811510C#32, 0x38000144#32].map decodeScalar =
    [.fence 4, .fenceSv 4, .fenceVs 4, .lda 3 17 1 2 4, .stl 17 10 1 4, .fenceI 4] := rfl

/-- The words of scalar major 0x0F. -/
theorem test_decode_system :
    [0x3C000000#32, 0x3C000040#32, 0x3C000080#32, 0x3C0000C0#32, 0x3C115104#32].map decodeScalar =
    [.ecall, .ebreak, .sret, .wfi, .tlbInv 17 10 4] := rfl

/-- The words of scalar major 0x10. -/
theorem test_decode_stream :
    [0x40716800#32, 0x40006840#32, 0x40006848#32, 0x40606880#32, 0x40606888#32, 0x40606890#32, 0x406068C0#32,
      0x40116900#32, 0x40602940#32, 0x40116980#32, 0x40B169C0#32, 0x40B169C8#32].map decodeScalar =
    [.strmCfg 3 17 13, .strmRel 13, .strmRelWait 13, .strmStat 3 13, .strmStatPos 3 13, .strmStatAvail 3 13,
      .strmPop 3 13, .strmPush 17 13, .strmCopy 3 5, .strmResume 17 13, .strmSave 5 17 13, .strmRest 5 17 13] :=
      rfl

/-- The words of scalar major 0x11. -/
theorem test_decode_bank :
    [0x44710000#32, 0x44710008#32, 0x44710010#32, 0x44710040#32, 0x44115080#32, 0x44115088#32, 0x447100C4#32,
      0x447100CC#32, 0x44115104#32, 0x4411510C#32, 0x44315140#32, 0x44310184#32, 0x4431018C#32, 0x446101C0#32,
      0x446151C8#32].map decodeScalar =
    [.bankCfgCache 3 17, .bankCfgSpad 3 17, .bankCfgFifo 3 17, .bankStat 3 17, .feInitEmpty 17 10, .feInitFull
      17 10, .ldf 3 17 4, .ldfClr 3 17 4, .stf 17 10 4, .stfWait 17 10 4, .ringCfg 1 17 10, .ringAdvTail 1 17 4,
      .ringAdvHead 1 17 4, .ringStat 3 1, .ringStatWait 3 1 10] := rfl

/-- The words of scalar major 0x12. -/
theorem test_decode_sync :
    [0x48116804#32, 0x48606840#32, 0x48116884#32, 0x481150C4#32, 0x48710104#32, 0x48710140#32, 0x48710184#32,
      0x481151C4#32].map decodeScalar =
    [.cwait 17 13 4, .cread 3 13, .cadd 17 13 4, .tokSend 17 10 4, .tokWait 3 17 4, .tokStat 3 17, .barArrive 3
      17 4, .barWait 17 10 4] := rfl

/-- The words of scalar major 0x13. -/
theorem test_decode_kernel :
    [0x4C715000#32, 0x4C710078#32, 0x4C000080#32, 0x4C0000C0#32, 0x4C110600#32, 0x4C000640#32, 0x4C000648#32,
      0x4C600690#32, 0x4C1106D0#32].map decodeScalar =
    [.klaunch 3 17 10, .kid 3 17 7, .kyield, .kdone, .hloop 0 17, .hend 0, .hendC 0, .hget 3 0 2, .hset 0 17 2] := rfl

/-- The words of scalar major 0x14. -/
theorem test_decode_capsule :
    [0x50600000#32, 0x50710008#32, 0x50710010#32, 0x50710044#32, 0x50600084#32, 0x500000C4#32, 0x500000CC#32,
      0x500000D4#32, 0x50715100#32, 0x50710140#32, 0x50715180#32, 0x500001C0#32, 0x501101C8#32,
      0x507101D0#32].map decodeScalar =
    [.capLandOff 3, .capLandSend 3 17, .capLandLand 3 17, .capSend 3 17 4, .capRecv 3 4, .capFwd 4, .capFwdStay
      4, .capFwdEnd 4, .capIns 3 17 10, .capDel 3 17, .capSwap 3 17 10, .capPark, .capParkFlt 17, .capParkRel 3
      17] := rfl

/-- The words of scalar major 0x15. -/
theorem test_decode_config :
    [0x54715054#32, 0x54710100#32, 0x54710200#32, 0x54000301#32, 0x54000300#32, 0x54715401#32, 0x54710400#32,
      0x54710501#32, 0x54000500#32].map decodeScalar =
    [.vsetvl 3 17 10 1 1 4, .lpart 3 17, .tshape 3 17, .mmodeOn, .mmodeOff, .fmodeOn 3 17 10, .fmodeOff 3 17,
      .mpair 3 17, .mpairOff] := rfl

/-- The words of scalar major 0x3D. -/
theorem test_decode_hint :
    [0xF405A3C5#32, 0xF43109A3#32, 0xF45109A3#32, 0xF465A3C5#32, 0xF525A3C5#32].map decodeScalar =
    [.nop 0x5a3c5, .prefetchRead 17 0x9a3, .prefetchOwn 17 0x9a3, .issuePauseHint 0x5a3c5, .hint 9 0x5a3c5] := rfl

/-- Reserved words: major 0x00, an unassigned function, a set reserved bit, and an unassigned major (R52). -/
theorem test_decode_illegal :
    [0x00000000#32, 0x04715700#32, 0x04715020#32, 0x58000000#32, 0xFC000000#32].map decodeScalar =
    [.illegalInstruction 0x00000000, .illegalInstruction 0x04715700, .illegalInstruction 0x04715020,
      .illegalInstruction 0x58000000, .illegalInstruction 0xFC000000] := rfl

/-! ### Words of the vector majors: major, func and the fields of R242 -/

/-- Each word decodes to its form with its fields, and the fields keep the form's rules. -/
def vectorWords (l : List (BitVec 64 × VOp × VFields)) : Bool :=
  l.all (fun e => decide (decodeVector e.1 = some e.2) && e.2.1.fieldsOk e.2.2)

/-- The words of vector major 0x01. -/
theorem test_decode_vint : vectorWords
    [(0x0401C400A8228001#64, .vadd, ⟨3, 17, 0, 0, 5, 2, 1, 0, 0x28001⟩),
     (0x0411C409A8210000#64, .vsub, ⟨3, 17, 0, 9, 5, 2, 1, 0, 0x10000⟩),
     (0x0421C540A8200000#64, .vrsub, ⟨3, 17, 10, 0, 5, 2, 1, 0, 0⟩),
     (0x0431C540A8200000#64, .vmin, ⟨3, 17, 10, 0, 5, 2, 1, 0, 0⟩),
     (0x0441C540A8200000#64, .vmax, ⟨3, 17, 10, 0, 5, 2, 1, 0, 0⟩),
     (0x0451C540A8200000#64, .vmul, ⟨3, 17, 10, 0, 5, 2, 1, 0, 0⟩),
     (0x0461C540A8200000#64, .vmulh, ⟨3, 17, 10, 0, 5, 2, 1, 0, 0⟩),
     (0x0471C540A8200000#64, .vmacc, ⟨3, 17, 10, 0, 5, 2, 1, 0, 0⟩),
     (0x0481C540A8200000#64, .vsadd, ⟨3, 17, 10, 0, 5, 2, 1, 0, 0⟩),
     (0x0491C540A8200000#64, .vssub, ⟨3, 17, 10, 0, 5, 2, 1, 0, 0⟩),
     (0x04A1C540A8200000#64, .vabsd, ⟨3, 17, 10, 0, 5, 2, 1, 0, 0⟩),
     (0x04B1C540A8200000#64, .vdiv, ⟨3, 17, 10, 0, 5, 2, 1, 0, 0⟩),
     (0x04C1C540A8200000#64, .vrem, ⟨3, 17, 10, 0, 5, 2, 1, 0, 0⟩)] = true := by decide +kernel

/-- The words of vector major 0x02. -/
theorem test_decode_vlogic : vectorWords
    [(0x0801C540A8200000#64, .vand, ⟨3, 17, 10, 0, 5, 2, 1, 0, 0⟩),
     (0x0811C540A8200000#64, .vor, ⟨3, 17, 10, 0, 5, 2, 1, 0, 0⟩),
     (0x0821C540A8200000#64, .vxor, ⟨3, 17, 10, 0, 5, 2, 1, 0, 0⟩),
     (0x0831C540A8200000#64, .vandn, ⟨3, 17, 10, 0, 5, 2, 1, 0, 0⟩),
     (0x0841C540A8200000#64, .vsll, ⟨3, 17, 10, 0, 5, 2, 1, 0, 0⟩),
     (0x0851C540A8200000#64, .vsrl, ⟨3, 17, 10, 0, 5, 2, 1, 0, 0⟩),
     (0x0861C540A8200000#64, .vsra, ⟨3, 17, 10, 0, 5, 2, 1, 0, 0⟩),
     (0x08718140A8200000#64, .vmv, ⟨3, 0, 10, 0, 5, 2, 1, 0, 0⟩),
     (0x0881C400A8200000#64, .vnot, ⟨3, 17, 0, 0, 5, 2, 1, 0, 0⟩)] = true := by decide +kernel

/-- The words of vector major 0x03. -/
theorem test_decode_vcmp : vectorWords
    [(0x0C034540A8200000#64, .vmseq, ⟨6, 17, 10, 0, 5, 2, 1, 0, 0⟩),
     (0x0C134540A8200000#64, .vmsne, ⟨6, 17, 10, 0, 5, 2, 1, 0, 0⟩),
     (0x0C234540A8200000#64, .vmslt, ⟨6, 17, 10, 0, 5, 2, 1, 0, 0⟩),
     (0x0C334540A8200000#64, .vmsle, ⟨6, 17, 10, 0, 5, 2, 1, 0, 0⟩),
     (0x0C434540A8200000#64, .vmsgt, ⟨6, 17, 10, 0, 5, 2, 1, 0, 0⟩),
     (0x0C534540A8200000#64, .vmsge, ⟨6, 17, 10, 0, 5, 2, 1, 0, 0⟩)] = true := by decide +kernel

/-- The words of vector major 0x04. -/
theorem test_decode_vfp : vectorWords
    [(0x1001C540A8680000#64, .vfadd, ⟨3, 17, 10, 0, 5, 2, 3, 2, 0⟩),
     (0x1011C540A8680000#64, .vfsub, ⟨3, 17, 10, 0, 5, 2, 3, 2, 0⟩),
     (0x1021C540A8680000#64, .vfmul, ⟨3, 17, 10, 0, 5, 2, 3, 2, 0⟩),
     (0x1031C540A8680000#64, .vfdiv, ⟨3, 17, 10, 0, 5, 2, 3, 2, 0⟩),
     (0x1041C400A8680000#64, .vfsqrt, ⟨3, 17, 0, 0, 5, 2, 3, 2, 0⟩),
     (0x1051C540AC400000#64, .vfmin, ⟨3, 17, 10, 0, 5, 3, 2, 0, 0⟩),
     (0x1061C540AC400000#64, .vfmax, ⟨3, 17, 10, 0, 5, 3, 2, 0, 0⟩),
     (0x1071C540AC400000#64, .vfsgnj, ⟨3, 17, 10, 0, 5, 3, 2, 0, 0⟩),
     (0x1081C540AC400000#64, .vfsgnjn, ⟨3, 17, 10, 0, 5, 3, 2, 0, 0⟩),
     (0x1091C540AC400000#64, .vfsgnjx, ⟨3, 17, 10, 0, 5, 3, 2, 0, 0⟩),
     (0x10A1C400A8600000#64, .vfclass, ⟨3, 17, 0, 0, 5, 2, 3, 0, 0⟩)] = true := by decide +kernel

/-- The words of vector major 0x05. -/
theorem test_decode_vfma : vectorWords
    [(0x1401C55DA4AC0000#64, .vfmadd, ⟨3, 17, 10, 29, 5, 1, 5, 3, 0⟩),
     (0x1411C55DA4AC0000#64, .vfmsub, ⟨3, 17, 10, 29, 5, 1, 5, 3, 0⟩),
     (0x1421C55DA4AC0000#64, .vfnmadd, ⟨3, 17, 10, 29, 5, 1, 5, 3, 0⟩),
     (0x1431C55DA4AC0000#64, .vfnmsub, ⟨3, 17, 10, 29, 5, 1, 5, 3, 0⟩)] = true := by decide +kernel

/-- The words of vector major 0x06. -/
theorem test_decode_vcvt : vectorWords
    [(0x1801C40CA0146A00#64, .vcvt, ⟨3, 17, 0, 12, 5, 0, 0, 5, 0x6a00⟩),
     (0x1811C54001288400#64, .vcvtMx, ⟨3, 17, 10, 0, 0, 0, 9, 2, 0x8400⟩),
     (0x1821C54008694000#64, .vcvtDemx, ⟨3, 17, 10, 0, 0, 2, 3, 2, 0x14000⟩)] = true := by decide +kernel

/-- The words of vector major 0x07. -/
theorem test_decode_vperm : vectorWords
    [(0x1C01C40CA8200000#64, .vslideup, ⟨3, 17, 0, 12, 5, 2, 1, 0, 0⟩),
     (0x1C11C40CA8200000#64, .vslidedown, ⟨3, 17, 0, 12, 5, 2, 1, 0, 0⟩),
     (0x1C21C540A8200000#64, .vperm, ⟨3, 17, 10, 0, 5, 2, 1, 0, 0⟩),
     (0x1C31C40CA8200000#64, .vbcast, ⟨3, 17, 0, 12, 5, 2, 1, 0, 0⟩),
     (0x1C41C540A8200000#64, .vsel, ⟨3, 17, 10, 0, 5, 2, 1, 0, 0⟩),
     (0x1C518000A8200000#64, .vid, ⟨3, 0, 0, 0, 5, 2, 1, 0, 0⟩),
     (0x1C61C400A8200000#64, .vcompress, ⟨3, 17, 0, 0, 5, 2, 1, 0, 0⟩),
     (0x1C71C400A8200000#64, .vexpand, ⟨3, 17, 0, 0, 5, 2, 1, 0, 0⟩)] = true := by decide +kernel

/-- The words of vector major 0x08. -/
theorem test_decode_vred : vectorWords
    [(0x2001C540A86BC000#64, .vredsum, ⟨3, 17, 10, 0, 5, 2, 3, 2, 0x3c000⟩),
     (0x2011C540A861C000#64, .vredmin, ⟨3, 17, 10, 0, 5, 2, 3, 0, 0x1c000⟩),
     (0x2021C540A861C000#64, .vredmax, ⟨3, 17, 10, 0, 5, 2, 3, 0, 0x1c000⟩),
     (0x2031C540A8200000#64, .vredand, ⟨3, 17, 10, 0, 5, 2, 1, 0, 0⟩),
     (0x2041C540A8200000#64, .vredor, ⟨3, 17, 10, 0, 5, 2, 1, 0, 0⟩),
     (0x2051C540A8200000#64, .vredxor, ⟨3, 17, 10, 0, 5, 2, 1, 0, 0⟩),
     (0x2081C540A86BC000#64, .vscansum, ⟨3, 17, 10, 0, 5, 2, 3, 2, 0x3c000⟩),
     (0x2091C540A861C000#64, .vscanmin, ⟨3, 17, 10, 0, 5, 2, 3, 0, 0x1c000⟩),
     (0x20A1C540A861C000#64, .vscanmax, ⟨3, 17, 10, 0, 5, 2, 3, 0, 0x1c000⟩)] = true := by decide +kernel

/-- The words of vector major 0x09. -/
theorem test_decode_vmask : vectorWords
    [(0x2403982000000000#64, .vmand, ⟨7, 6, 1, 0, 0, 0, 0, 0, 0⟩),
     (0x2413982000000000#64, .vmor, ⟨7, 6, 1, 0, 0, 0, 0, 0, 0⟩),
     (0x2423982000000000#64, .vmxor, ⟨7, 6, 1, 0, 0, 0, 0, 0, 0⟩),
     (0x2433982000000000#64, .vmandn, ⟨7, 6, 1, 0, 0, 0, 0, 0, 0⟩),
     (0x2443980000000000#64, .vmnot, ⟨7, 6, 0, 0, 0, 0, 0, 0, 0⟩),
     (0x2453800000000000#64, .vmset, ⟨7, 0, 0, 0, 0, 0, 0, 0, 0⟩),
     (0x2463800000000000#64, .vmclr, ⟨7, 0, 0, 0, 0, 0, 0, 0, 0⟩),
     (0x2471900008000000#64, .vmtov, ⟨3, 4, 0, 0, 0, 2, 0, 0, 0⟩),
     (0x2482440008000000#64, .vvtom, ⟨4, 17, 0, 0, 0, 2, 0, 0, 0⟩),
     (0x249A900000000000#64, .vpop, ⟨21, 4, 0, 0, 0, 0, 0, 0, 0⟩),
     (0x24AA900000000000#64, .vfirst, ⟨21, 4, 0, 0, 0, 0, 0, 0, 0⟩),
     (0x24B0100000000000#64, .vbqAny, ⟨0, 4, 0, 0, 0, 0, 0, 0, 0⟩),
     (0x24C0100000000000#64, .vbqNone, ⟨0, 4, 0, 0, 0, 0, 0, 0, 0⟩)] = true := by decide +kernel

/-- The words of vector major 0x0A. -/
theorem test_decode_vload : vectorWords
    [(0x28018016A8627FF0#64, .vld, ⟨3, 0, 0, 22, 5, 2, 3, 0, 0x27ff0⟩),
     (0x28118156A8220000#64, .vlds, ⟨3, 0, 10, 22, 5, 2, 1, 0, 0x20000⟩),
     (0x28218016A8627FF0#64, .vldff, ⟨3, 0, 0, 22, 5, 2, 3, 0, 0x27ff0⟩),
     (0x283180160C020000#64, .vldr, ⟨3, 0, 0, 22, 0, 3, 0, 0, 0x20000⟩),
     (0x2842801600000000#64, .vldm, ⟨5, 0, 0, 22, 0, 0, 0, 0, 0⟩)] = true := by decide +kernel

/-- The words of vector major 0x0B. -/
theorem test_decode_vstore : vectorWords
    [(0x2C004416A8610010#64, .vst, ⟨0, 17, 0, 22, 5, 2, 3, 0, 0x10010⟩),
     (0x2C104556A8210000#64, .vsts, ⟨0, 17, 10, 22, 5, 2, 1, 0, 0x10000⟩),
     (0x2C2044160C010000#64, .vstr, ⟨0, 17, 0, 22, 0, 3, 0, 0, 0x10000⟩),
     (0x2C30141600000000#64, .vstm, ⟨0, 5, 0, 22, 0, 0, 0, 0, 0⟩)] = true := by decide +kernel

/-- The words of vector major 0x0C. -/
theorem test_decode_gather : vectorWords
    [(0x30018156A822B000#64, .vgather, ⟨3, 0, 10, 22, 5, 2, 1, 0, 0x2b000⟩),
     (0x30104556A8216800#64, .vscatter, ⟨0, 17, 10, 22, 5, 2, 1, 0, 0x16800⟩)] = true := by decide +kernel

/-- The words of vector major 0x0D. -/
theorem test_decode_vsparse : vectorWords
    [(0x3400455608234C00#64, .vsetlf, ⟨0, 17, 10, 22, 0, 2, 1, 0, 0x34c00⟩),
     (0x3411C55608230000#64, .vxint, ⟨3, 17, 10, 22, 0, 2, 1, 0, 0x30000⟩),
     (0x3421C55608234C00#64, .vxuni, ⟨3, 17, 10, 22, 0, 2, 1, 0, 0x34c00⟩),
     (0x3431C55608234C00#64, .vxmrg, ⟨3, 17, 10, 22, 0, 2, 1, 0, 0x34c00⟩)] = true := by decide +kernel

/-- The words of vector major 0x0E. -/
theorem test_decode_vacc : vectorWords
    [(0x3800455608200400#64, .accwinSum, ⟨0, 17, 10, 22, 0, 2, 1, 0, 0x400⟩),
     (0x3810455608200400#64, .accwinMin, ⟨0, 17, 10, 22, 0, 2, 1, 0, 0x400⟩),
     (0x3820455608200400#64, .accwinMax, ⟨0, 17, 10, 22, 0, 2, 1, 0, 0x400⟩),
     (0x38304540A8681A00#64, .vacc, ⟨0, 17, 10, 0, 5, 2, 3, 2, 0x1a00⟩),
     (0x3840000008690600#64, .accmerge, ⟨0, 0, 0, 0, 0, 2, 3, 2, 0x10600⟩),
     (0x3881C556A8235900#64, .vamoswap, ⟨3, 17, 10, 22, 5, 2, 1, 0, 0x35900⟩),
     (0x3891C556A8235900#64, .vamoadd, ⟨3, 17, 10, 22, 5, 2, 1, 0, 0x35900⟩),
     (0x38A1C556A8235900#64, .vamoand, ⟨3, 17, 10, 22, 5, 2, 1, 0, 0x35900⟩),
     (0x38B1C556A8235900#64, .vamoor, ⟨3, 17, 10, 22, 5, 2, 1, 0, 0x35900⟩),
     (0x38C1C556A8235900#64, .vamoxor, ⟨3, 17, 10, 22, 5, 2, 1, 0, 0x35900⟩),
     (0x38D1C556A8235900#64, .vamomin, ⟨3, 17, 10, 22, 5, 2, 1, 0, 0x35900⟩),
     (0x38E1C556A8235900#64, .vamomax, ⟨3, 17, 10, 22, 5, 2, 1, 0, 0x35900⟩)] = true := by decide +kernel

/-- The words of vector major 0x0F. -/
theorem test_decode_vxfer : vectorWords
    [(0x3C01C41608200000#64, .vext, ⟨3, 17, 0, 22, 0, 2, 1, 0, 0⟩),
     (0x3C11C41608200000#64, .vins, ⟨3, 17, 0, 22, 0, 2, 1, 0, 0⟩),
     (0x3C20440008010000#64, .vxsend, ⟨0, 17, 0, 0, 0, 2, 0, 0, 0x10000⟩),
     (0x3C31800008020000#64, .vxrecv, ⟨3, 0, 0, 0, 0, 2, 0, 0, 0x20000⟩),
     (0x3D01800BA8200000#64, .vldStrm, ⟨3, 0, 0, 11, 5, 2, 1, 0, 0⟩),
     (0x3D10440B08200000#64, .vstStrm, ⟨0, 17, 0, 11, 0, 2, 1, 0, 0⟩)] = true := by decide +kernel

/-- The words of vector major 0x10. -/
theorem test_decode_mma : vectorWords
    [(0x4000182001012280#64, .mma, ⟨0, 6, 1, 0, 0, 0, 8, 0, 0x12280⟩),
     (0x4010182000000100#64, .mmaInt, ⟨0, 6, 1, 0, 0, 0, 0, 0, 0x100⟩)] = true := by decide +kernel

/-- The words of vector major 0x11. -/
theorem test_decode_sounding : vectorWords
    [(0x440018200001C080#64, .mtern, ⟨0, 6, 1, 0, 0, 0, 0, 0, 0x1c080⟩),
     (0x441018360001C100#64, .msound, ⟨0, 6, 1, 22, 0, 0, 0, 0, 0x1c100⟩),
     (0x4420541600000000#64, .mcheck, ⟨0, 21, 0, 22, 0, 0, 0, 0, 0⟩)] = true := by decide +kernel

/-- The words of vector major 0x12. -/
theorem test_decode_mmove : vectorWords
    [(0x4800000000000000#64, .mzero, ⟨0, 0, 0, 0, 0, 0, 0, 0, 0⟩),
     (0x4810455604880200#64, .mst, ⟨0, 17, 10, 22, 0, 1, 4, 2, 0x200⟩),
     (0x4820000008680100#64, .mxchg, ⟨0, 0, 0, 0, 0, 2, 3, 2, 0x100⟩)] = true := by decide +kernel

/-- The words of vector major 0x13. -/
theorem test_decode_fabric : vectorWords
    [(0x4C00001600000000#64, .fload, ⟨0, 0, 0, 22, 0, 0, 0, 0, 0⟩),
     (0x4C10000000000000#64, .fgo, ⟨0, 0, 0, 0, 0, 0, 0, 0, 0⟩),
     (0x4C20000000000000#64, .fdrain, ⟨0, 0, 0, 0, 0, 0, 0, 0, 0⟩),
     (0x4C3B000000000000#64, .fstat, ⟨22, 0, 0, 0, 0, 0, 0, 0, 0⟩),
     (0x4C40000000000000#64, .frel, ⟨0, 0, 0, 0, 0, 0, 0, 0, 0⟩),
     (0x4C10000000020000#64, .fgoResume, ⟨0, 0, 0, 0, 0, 0, 0, 0, 0x20000⟩)] = true := by decide +kernel

/-- The words of vector major 0x14. -/
theorem test_decode_vwait : vectorWords
    [(0x50014556A8210000#64, .vwait, ⟨2, 17, 10, 22, 5, 2, 1, 0, 0x10000⟩)] = true := by decide +kernel

/-! ### Words of the fabric units (R314, R315) -/

/-- Each word decodes to its operation with its fields, and the fields keep the operation's rules. -/
def unitWords (l : List (BitVec 32 × UOp × UFields)) : Bool :=
  l.all (fun e => decide (decodeUnit e.1 = some e.2) && e.2.1.fieldsOk e.2.2)

theorem test_decode_unit : unitWords
    [(0x0038824A#32, .mov, ⟨1, 3, 0, 16, 9, 5⟩),
     (0x0438824A#32, .add, ⟨1, 3, 0, 16, 9, 5⟩),
     (0x0838824A#32, .sub, ⟨1, 3, 0, 16, 9, 5⟩),
     (0x0C38824A#32, .mul, ⟨1, 3, 0, 16, 9, 5⟩),
     (0x1038824A#32, .min, ⟨1, 3, 0, 16, 9, 5⟩),
     (0x1438824A#32, .max, ⟨1, 3, 0, 16, 9, 5⟩),
     (0x1838824A#32, .and, ⟨1, 3, 0, 16, 9, 5⟩),
     (0x1C38824A#32, .or, ⟨1, 3, 0, 16, 9, 5⟩),
     (0x2038824A#32, .xor, ⟨1, 3, 0, 16, 9, 5⟩),
     (0x2438824A#32, .shl, ⟨1, 3, 0, 16, 9, 5⟩),
     (0x2838824A#32, .shr, ⟨1, 3, 0, 16, 9, 5⟩),
     (0x2C38824A#32, .seq, ⟨1, 3, 0, 16, 9, 5⟩),
     (0x3038824A#32, .slt, ⟨1, 3, 0, 16, 9, 5⟩),
     (0x3438824A#32, .sle, ⟨1, 3, 0, 16, 9, 5⟩),
     (0x4072824A#32, .fadd, ⟨3, 2, 2, 16, 9, 5⟩),
     (0x4472824A#32, .fsub, ⟨3, 2, 2, 16, 9, 5⟩),
     (0x4872824A#32, .fmul, ⟨3, 2, 2, 16, 9, 5⟩),
     (0x4C728256#32, .fmac, ⟨3, 2, 2, 16, 9, 11⟩),
     (0x5072824A#32, .fmin, ⟨3, 2, 2, 16, 9, 5⟩),
     (0x5472824A#32, .fmax, ⟨3, 2, 2, 16, 9, 5⟩),
     (0x6132824A#32, .bamax, ⟨9, 2, 2, 16, 9, 5⟩),
     (0x6532824A#32, .qcvt, ⟨9, 2, 2, 16, 9, 5⟩)] = true := by decide +kernel

/-- A unit word with bit 0 set or a reserved operation stands for none (R314). -/
theorem test_decode_unit_reserved :
    decodeUnit 0x04000001 = none ∧ decodeUnit 0x38000000 = none ∧ decodeUnit 0x68000000 = none := by decide +kernel

/-- A convoy is its header and the vector words that the header counts (R26, R34). -/
theorem test_decode_convoy :
    (match decodeBytes (leBytes 4 0xF8001000 ++ leBytes 8 0x0400000000000000 ++ [0xAA]) with
      | .ok (.convoy h ws, rest) => decide (h = 0xF8001000 ∧ ws = [0x0400000000000000] ∧ rest = [0xAA])
      | _ => false) = true := by decide +kernel

/-! ### Single steps -/

/-- The state after one step of a word, from the state in which it is fetched with some registers set. -/
def afterWord (w : Nat) (f : State → State) : State :=
  match step (f (State.reset.withFetchWord 32 w)) with
  | .next t => t
  | _ => State.reset

/-- The value of x3 after a word, with x1 and x2 set. -/
def x3After (w : Nat) (a b : Word) : Word := (afterWord w (fun s => (s.setX 1 a).setX 2 b)).getX 3

/-- R200: sums and differences wrap; `andn` clears the bits of b. -/
theorem test_add_wraps :
    x3After 0x04611000 0xFFFFFFFFFFFFFFFF 2 = 1 ∧
      x3After 0x04611040 1 2 = 0xFFFFFFFFFFFFFFFF ∧
      x3After 0x04611140 0xF0 0x30 = 0xC0 := by
  decide +kernel

/-- R200: a shift takes the low six bits of its amount. -/
theorem test_shifts :
    x3After 0x04611200 0x8000000000000000 65 = 0xC000000000000000 ∧
      x3After 0x046111C0 0x8000000000000000 65 = 0x4000000000000000 ∧
      x3After 0x04611180 3 63 = 0x8000000000000000 := by
  decide +kernel

/-- R200: signed and unsigned compares and minimums. -/
theorem test_compares :
    x3After 0x04611240 0xFFFFFFFFFFFFFFFF 1 = 1 ∧
      x3After 0x04611280 0xFFFFFFFFFFFFFFFF 1 = 0 ∧
      x3After 0x046112C0 0xFFFFFFFFFFFFFFFF 1 = 0xFFFFFFFFFFFFFFFF ∧
      x3After 0x04611340 0xFFFFFFFFFFFFFFFF 1 = 1 := by
  decide +kernel

/-- R200: 32-bit results are sign-extended; `sh2add` shifts a; counts of bits. -/
theorem test_word_forms :
    x3After 0x046113C0 0x7FFFFFFF 1 = 0xFFFFFFFF80000000 ∧
      x3After 0x04611480 3 5 = 17 ∧
      x3After 0x04610500 0 0 = 64 ∧
      x3After 0x04610540 8 0 = 3 := by
  decide +kernel

/-- R201: the immediate is sign-extended, and x0 reads as zero. -/
theorem test_addi :
    x3After 0x0861FFFF 0 0 = 0xFFFFFFFFFFFFFFFF ∧
      x3After 0x08600007 9 9 = 7 := by
  decide +kernel

/-- R203: the high halves of the products of all ones with itself. -/
theorem test_multiply :
    x3After 0x0C611040 0xFFFFFFFFFFFFFFFF 0xFFFFFFFFFFFFFFFF = 0 ∧
      x3After 0x0C611080 0xFFFFFFFFFFFFFFFF 0xFFFFFFFFFFFFFFFF = 0xFFFFFFFFFFFFFFFE ∧
      x3After 0x0C6110C0 0xFFFFFFFFFFFFFFFF 0xFFFFFFFFFFFFFFFF = 0xFFFFFFFFFFFFFFFF := by
  decide +kernel

/-- R203: a zero divisor, the overflowing quotient, and the sign of a remainder. -/
theorem test_divide :
    x3After 0x0C611100 7 0 = 0xFFFFFFFFFFFFFFFF ∧
      x3After 0x0C611180 7 0 = 7 ∧
      x3After 0x0C611100 0x8000000000000000 0xFFFFFFFFFFFFFFFF = 0x8000000000000000 ∧
      x3After 0x0C611180 0x8000000000000000 0xFFFFFFFFFFFFFFFF = 0 ∧
      x3After 0x0C611180 0xFFFFFFFFFFFFFFF9 2 = 0xFFFFFFFFFFFFFFFF ∧
      x3After 0x0C611240 0x80000000 0xFFFFFFFF = 0xFFFFFFFF80000000 := by
  decide +kernel

/-- R204: `ld.i8` sign-extends and `ld.n8` does not; `st.i16` writes its low bytes, lowest first. -/
theorem test_loads_and_stores :
    let at_ := fun (s : State) => (s.setX 1 0x40001010).putBytes 0x40001000 0 [0x80, 0x7F]
    (afterWord 0x10610FF0 at_).getX 3 = 0xFFFFFFFFFFFFFF80 ∧
      (afterWord 0x10614FF0 at_).getX 3 = 0x80 ∧
      (afterWord 0x10611FF0 at_).getX 3 = 0x7F80 ∧
      (afterWord 0x14411FF0 (fun s => (at_ s).setX 2 0xABCDEF)).bytesUnder 0x40000FFF 0 4 =
        [0, 0xEF, 0xCD, 0] := by decide +kernel

/-- R206: `amoadd.i32` returns the old value, sign-extended, and stores the sum; `amocas` stores where the old
value is that of the destination. -/
theorem test_atomics :
    let at_ := fun (s : State) => (s.setX 1 0x40001000).putBytes 0x40001000 0 [0xFF, 0xFF, 0xFF, 0xFF, 5]
    let t := afterWord 0x18611040 (fun s => (at_ s).setX 2 3)
    let c := afterWord 0x18611240 (fun s => ((at_ s).setX 2 9).setX 3 0xFFFFFFFF)
    t.getX 3 = 0xFFFFFFFFFFFFFFFF ∧ t.bytesUnder 0x40001000 0 5 = [2, 0, 0, 0, 5] ∧
      c.getX 3 = 0xFFFFFFFFFFFFFFFF ∧ c.bytesUnder 0x40001000 0 5 = [9, 0, 0, 0, 5] := by decide +kernel

/-- R205: a misaligned load traps with cause 0x06 and the address in TVAL; TEPC is its own address. -/
theorem test_misaligned :
    let t := afterWord 0x10612002 (fun s => s.setX 1 0x40001000)
    t.me.csr.tcause = 6 ∧ t.me.csr.tval = 0x40001002 ∧ t.me.csr.tepc = 0x40000004 ∧ t.getX 3 = 0 := by decide +kernel

/-- R208, R210: a taken branch and a call go on at the offset in words, and the call pushes its return
address; the call is the word of the example after R214. -/
theorem test_branches :
    (afterWord 0x1C4117FF (fun s => s.setX 1 (-1))).pc = 0x40000000 ∧
      (afterWord 0x1C8117FF (fun s => s.setX 1 (-1))).pc = 0x40000008 ∧
      (afterWord 0x21000040 id).pc = 0x40000104 ∧ (afterWord 0x21000040 id).me.ras = [0x40000008] ∧
      (afterWord 0x22400000 (fun s => s.updMe (fun H => { H with ras := [0x40000010, 0x40000008]
        }))).me.ras.length = 1 := by
  decide +kernel

/-- R224, R420: an environment call saves the level and the interrupt enable, and goes to the
handler at supervisor level; R424: the return restores them. -/
theorem test_ecall :
    let s := (State.reset.withFetchWord 32 0x3C000000).updMe (fun H => { H with
      csr := { H.csr with tvec := 0x40002000, sstat := 2 } })
    let t := afterWord 0x3C000000 (fun _ => s)
    t.pc = 0x40002000 ∧ t.me.sup = true ∧ t.me.csr.tcause = 5 ∧ t.me.csr.tepc = 0x40000004 ∧
      t.me.csr.sstat = 0x120 := by decide +kernel

theorem test_sret :
    let t := afterWord 0x3C000080 (fun s => s.updMe (fun H => { H with
      csr := { H.csr with sstat := 0x20, tepc := 0x40000100 } }))
    t.pc = 0x40000100 ∧ t.me.sup = false ∧ t.me.csr.sstat = 0x22 := by decide +kernel

/-- R52: the all-zero word takes the illegal-instruction trap. -/
theorem test_illegal : (afterWord 0 id).me.csr.tcause = 2 ∧ (afterWord 0 id).me.csr.tepc = 0x40000004 := by
  decide +kernel

/-- R55, R57: a write gives the old value and keeps the reserved bits. -/
theorem test_csr :
    let t := afterWord 0x34611101 (fun s => s.setX 1 0x40002003)
    t.me.csr.tvec = 0x40002000 ∧ t.getX 3 = 0 := by decide +kernel

/-- R220, R219: 1 + 2 in `f64`; in `f32`, 1 + 2^-24 rounds to even and sets NX, and 1 / 0 is infinite. -/
theorem test_float :
    let f := fun (a b : Word) (s : State) => (s.setF 1 a).setF 2 b
    (afterWord 0x2C611000 (f 0x3FF0000000000000 0x4000000000000000)).getF 3 = 0x4008000000000000 ∧
      (afterWord 0x2C611001 (f 0xFFFFFFFF3F800000 0xFFFFFFFF33800000)).getF 3 = 0xFFFFFFFF3F800000 ∧
      (afterWord 0x2C6110C1 (f 0xFFFFFFFF3F800000 0xFFFFFFFF00000000)).getF 3 = 0xFFFFFFFF7F800000 := by
  decide +kernel

/-! ### Single vector steps -/

/-- The hart after a vector form, from a hart of one cluster with VL five at 32-bit width. -/
def afterForm (i : Instr) (f : Hart → Hart) : Hart :=
  match exec i (hartWith (fun H => f { H with csr := { H.csr with lpart := 0x30001, vcfg := 0x20005 } })) with
  | .next t => t.me
  | _ => base.me

/-- A hart with the first three 32-bit elements of v2 and v3. -/
def lanes3 (a b : Nat × Nat × Nat) (H : Hart) : Hart :=
  (((((H.putElem 2 2 0 a.1).putElem 2 2 1 a.2.1).putElem 2 2 2 a.2.2).putElem 3 2 0 b.1).putElem 3 2 1
    b.2.1).putElem 3 2 2 b.2.2

/-- R246: sums wrap at the element's width; a masked element and an element at VL keep their values. -/
theorem test_vadd :
    let H := afterForm (.vadd ⟨1, 2, 3, 0, 1, 2, 1, 0, 0⟩) (fun H =>
      (((lanes3 (0xFFFFFFFF, 5, 6) (2, 3, 4) H).setM 1 0b101).putElem 1 2 1 77).putElem 1 2 5 78)
    H.elem 1 2 0 = 1 ∧ H.elem 1 2 1 = 77 ∧ H.elem 1 2 2 = 10 ∧ H.elem 1 2 5 = 78 := by decide +kernel

/-- R246, R74: a saturating sum clamps to the signed range. -/
theorem test_vsadd :
    let H := afterForm (.vsadd ⟨1, 2, 3, 0, 0, 2, 0, 0, 0⟩) (lanes3 (0x7FFFFFFF, 0x80000000, 1) (1, 0xFFFFFFFF, 2))
    H.elem 1 2 0 = 0x7FFFFFFF ∧ H.elem 1 2 1 = 0x80000000 ∧ H.elem 1 2 2 = 3 := by decide +kernel

/-- R248: a signed compare writes mask bits below VL and keeps those above. -/
theorem test_vmslt :
    let H := afterForm (.vmslt ⟨1, 2, 3, 0, 0, 2, 0, 0, 0⟩) (fun H => (lanes3 (0xFFFFFFFF, 5, 6) (0, 5, 7)
      H).setM 1 0x22)
    H.bit 1 0 = true ∧ H.bit 1 1 = false ∧ H.bit 1 2 = true ∧ H.bit 1 5 = true := by decide +kernel

/-- R251: one rounding of 2 × 3 + 4. -/
theorem test_vfmadd :
    let H := afterForm (.vfmadd ⟨1, 2, 3, 4, 0, 2, 3, 0, 0⟩) (fun H =>
      (lanes3 (0x40000000, 0, 0) (0x40400000, 0, 0) H).putElem 4 2 0 0x40800000)
    H.elem 1 2 0 = 0x41200000 := by decide +kernel

/-- R257, R258: the sum of the elements below VL and the start value. -/
theorem test_vredsum :
    let H := afterForm (.vredsum ⟨1, 2, 3, 0, 0, 2, 1, 0, 0⟩) (lanes3 (1, 2, 3) (100, 0, 0))
    H.elem 1 2 0 = 106 := by decide +kernel

/-- R273: `vcompress` packs the elements whose bits are set and keeps those above. -/
theorem test_vcompress :
    let H := afterForm (.vcompress ⟨1, 2, 0, 0, 1, 2, 1, 0, 0⟩) (fun H =>
      ((lanes3 (7, 8, 9) (0, 0, 0) H).setM 1 0b110).putElem 1 2 2 55)
    H.elem 1 2 0 = 8 ∧ H.elem 1 2 1 = 9 ∧ H.elem 1 2 2 = 55 := by decide +kernel

/-- R249: `vpop` counts the bits below VL, and `vfirst` answers the least. -/
theorem test_vpop :
    (afterForm (.vpop ⟨5, 1, 0, 0, 0, 0, 0, 0, 0⟩) (fun H => H.setM 1 0xFC)).getX 5 = 3 ∧
      (afterForm (.vfirst ⟨5, 1, 0, 0, 0, 0, 0, 0, 0⟩) (fun H => H.setM 1 0xFC)).getX 5 = 2 := by decide +kernel

/-- R108: 0xF080 is byte 0x80 of the eighth 4 KiB unit of 32 KiB block 1, so die 7 xor 1 and channel 1 xor 1. -/
theorem test_interleave :
    homeOf 2 0xF080 = 6 ∧ stackOffset 2 0xF080 = 0x1080 ∧ channelOf 2 0xF080 = 0 ∧ channelOffset 2 0xF080 = 128 := by decide

end Sys2Proof.Tests
end

