-- ==== Sys2Proof/Tests/WitnessEvents.lean ====
section
/-!
SUPPORT. For every clause with hypotheses of the statements about the engines, the reservations, arrivals and the
scheduler: a state and operands that meet them all.
-/

namespace Sys2Proof.Tests

open Sys2Proof Sys2Proof.Machine

set_option maxRecDepth 100000
-- One kernel evaluation at a time, so that the check needs little memory.
set_option Elab.async false

/-! ### Streams -/

/-- The hart with stream 0 replaced, and the page at 0x40003000 cached as one of 4 KiB. -/
def streamed (t : Stream) : State :=
  (hartWith (fun H => { H with streams := H.streams.set 0 t })).updTile 0 (fun T =>
    { T with tlb := ⟨0, 0x40003000, 0x1000, 0x4000300F⟩ :: T.tlb })

/-- The leaf of an address in that page. -/
def pageLeaf (pa : Nat) : Leaf := ⟨pa, 0, 0x4000300F, 0x1000⟩

/-- A configured stream of 32-bit elements, 4 bytes apart. -/
def elems (dir : Bool) (count : Nat) : Stream :=
  { Stream.reset with cfg := true, sup := true, granules := [(0, 0)], desc := { Desc.reset with
    base := 0x40003000, stride := 4, count := count, ctrl := if dir then 0x11 else 0x10 } }

/-- What the statement asks of a stream in a state whose elements 0 to `hi - 1` lie in a page. -/
def registerB (s : State) (t : Stream) (l : Leaf) (hi code : Nat) : Bool :=
  let va := t.desc.base.toNat
  let st := t.desc.stride.toInt
  let at_ (j : Nat) : Int := (va % l.size : Int) + (j : Int) * st
  t.cfg && (s.hart 0).run != .halted && t.desc.idx == 0 && t.stopAt.isNone && t.reached == 0 &&
    decide (0 < t.desc.count ∧ t.extents.length < 5 ∧ t.granules ≠ []) &&
    decide (s.reach 0 t.sup (if t.desc.dir then .write else .read) va = .to l l.pa) &&
    [(0x1000, 0), (0x10000, 1), (0x200000, 2), (0x40000000, 3)].contains (l.size, code) &&
    decide (st < 2 ^ 31 ∧ -(2 ^ 31) ≤ st ∧ 0 < hi ∧ hi ≤ t.desc.count) &&
    (List.range hi).all (fun j => decide (0 ≤ at_ j ∧ at_ j < l.size)) &&
    decide (hi = t.desc.count ∨ at_ hi < 0 ∨ l.size ≤ at_ hi) && regionOf l.pa == .hbm && s.dir.isEmpty &&
    decide (s.mgmt.level = 2)

/-- A stream from an address with a stride. -/
def from_ (dir : Bool) (count : Nat) (base stride : Word) : Stream :=
  { elems dir count with desc := { (elems dir count).desc with base := base, stride := stride } }

/-- Pages of 4 KiB and of a gigabyte; strides up, down and 0; extents that end with the stream, above their page and
below it. -/
theorem witness_StreamEvents_register :
    (∀ dir line : Bool, ∀ e ∈ [((8 : Nat), (4 : Word), (0x40003000 : Nat), (8 : Nat)), (2048, 4, 0x40003000, 1024),
        (8, -4, 0x4000301C, 8), (8, -4, 0x40003004, 2), (8, 0, 0x40003004, 8)],
      let t : Stream := { from_ dir e.1 (BitVec.ofNat 64 e.2.2.1) e.2.1 with noMore := line }
      registerB (streamed t) t (pageLeaf e.2.2.1) e.2.2.2 0 = true ∧ t.noMore = line) ∧
      (let t := from_ true 8 0x40001000 4
       registerB (streamed t) t (leaf 0x40001000) 8 3 = true) ∧
      (∀ d, (base.landing d).entries = []) := by decide +kernel

/-- A stream with its extent registered, as entry 0 of the home die of its page. -/
def reachedTo (dir : Bool) (count : Nat) : Stream :=
  let d := (homeOf 2 0x40003000).val
  { elems dir count with reached := count, extents := [⟨0, count, 0x40003000, 0x40003000, 4096, 0, false, [(d, 0)], none, false⟩] }

/-- A reading or writing entry over lines from 0x40003000, in a mode. -/
def entryOf (dir : Bool) (mode count : Nat) : Rsv :=
  { dir := dir, mode := mode, state := 0, esize := 2, extsize := 0, key := 0, scope := 0, remote := false, origin := 0
    tile := 0, hart := 0, stream := 0, base := 0x40003, stride := 4, first := 0, count := count, pos := 0, whole := false, coming := 0 }

/-- The hart with that stream and its entry. -/
def registered (t : Stream) : State :=
  (streamed t).updLanding (homeOf 2 0x40003000) (fun l => { l with entries := [(0, entryOf t.desc.dir 0 t.desc.count)] })

/-- Directories that hold an entry: one that reads, beside a read stream, and one that writes elsewhere. -/
theorem witness_StreamEvents_register_beside :
    let d := homeOf 2 0x40003000
    let t := from_ false 8 0x40003000 4
    let u := from_ true 8 0x40003000 4
    let r := { entryOf true 0 1024 with base := 0x40007 }
    let s := (streamed t).updLanding d (fun l => { l with entries := [(0, entryOf false 0 1024)] })
    let v := (streamed u).updLanding d (fun l => { l with entries := [(3, r)] })
    registerB s t (pageLeaf 0x40003000) 8 0 = true ∧ (s.landing d).entries = [(0, entryOf false 0 1024)] ∧
      t.desc.dir = false ∧ (entryOf false 0 1024).dir = false ∧
      registerB v u (pageLeaf 0x40003000) 8 0 = true ∧ (v.landing d).entries = [(3, r)] ∧
      (List.range' (0x40003000 / 128) 32).all (fun x => !r.covers x) = true := by decide +kernel

theorem witness_StreamEvents_read :
    let t := reachedTo false 8
    let s := registered t
    (s.hart 0).run ≠ .halted ∧ t.desc.idx = 0 ∧ t.stopAt = none ∧ t.desc.dir = false ∧
      (let k := min (min t.desc.count ((t.home / t.strip + 1) * t.strip) - t.home) (t.windowRoom - t.win.length)
       k = 8 ∧ t.home + k ≤ t.reached) ∧ (∀ e ∈ t.extents, e.peer = none ∧ e.lost = false) ∧ s.dir = [] ∧
      (∀ j < 8, s.inHeld 0 t j = true ∧ s.reach 0 t.sup .read (0x40003000 + 4 * j) =
        .to (pageLeaf (0x40003000 + 4 * j)) (0x40003000 + 4 * j) ∧ s.poisoned (0x40003000 + 4 * j) 4 = false) := by
  decide +kernel

/-- A window that holds a whole strip, and one that does not. -/
theorem witness_StreamEvents_arrival :
    ∀ n ∈ [8, 7], let t : Stream := { reachedTo false 8 with win := List.replicate n 5, home := n }
      (t.stopAt = none ∧ t.desc.dir = false ∧ t.copy = none) ∧
        (let a := t.pos + t.buf.length
         let k := min t.desc.count ((a / t.strip + 1) * t.strip) - a
         (k ≤ t.win.length ↔ n = 8) ∧ a / t.strip - t.pos / t.strip < 65536 / t.stripBytes) := by decide +kernel

/-- A write stream with its elements 126 and 127 to be written home, and the states as they are. -/
def writing : Stream := { reachedTo true 256 with win := [5, 6], pos := 128, home := 126 }
def writes : Nat → State
  | 0 => registered writing
  | i + 1 => (writes i).write (.engine 0) (0x40003000 + 4 * (126 + i)) 0 (bytesOf 4 (writing.made.getD i 0))

theorem witness_StreamEvents_write :
    let t := writing
    t.cfg = true ∧ ((writes 0).hart 0).run ≠ .halted ∧ t.desc.idx = 0 ∧ t.stopAt = none ∧ t.copy = none ∧
      t.desc.dir = true ∧ min t.sent (min t.desc.count ((t.home / t.strip + 1) * t.strip) - t.home) = 2 ∧
      2 ≤ t.made.length ∧ t.home + 2 ≤ t.reached ∧ (∀ e ∈ t.extents, e.peer = none ∧ e.lost = false) ∧
      (∀ i < 2, (writes 0).inHeld 0 t (t.home + i) = true ∧ (writes i).reach 0 t.sup .write (0x40003000 + 4 * (126 + i)) =
        .to (pageLeaf (0x40003000 + 4 * (126 + i))) (0x40003000 + 4 * (126 + i)) ∧
        regionOf (0x40003000 + 4 * (126 + i)) ≠ .spad) ∧ (writes 0).dir = [] := by decide +kernel

/-- A write stream of 64-bit elements to the scratchpad, with a strip in its window. -/
theorem witness_StreamEvents_spad :
    let t : Stream := { elems true 8 with
      desc := { Desc.reset with base := 0x8000000040, stride := 8, count := 8, ctrl := 0x19 }
      reached := 8, pos := 1, win := [5], extents := [⟨0, 8, 0x8000000000, 0x8000000000, 4096, 0, false, [], none, false⟩] }
    let s := scratch.updMe (fun H => H.setStream 0 t)
    t.made = [5] ∧ min t.sent (min t.desc.count ((t.home / t.strip + 1) * t.strip) - t.home) = 1 ∧
      s.inHeld 0 t t.home = true ∧ s.dir = [] ∧ t.part = [] ∧ t.desc.esize = 8 ∧ t.desc.idx = 0 ∧
      s.reach 0 t.sup .write 0x8000000040 = .to (spadLeaf 0x8000000040) 0x8000000040 ∧ regionOf 0x8000000040 = .spad ∧
      0x8000000040 + 8 * (8 - 0) < 2 ^ 64 := by decide +kernel

/-- A state in which only hart 0 is placed has the slice circuits of hart 0. -/
theorem sliceCircuits_one {s : State} {slice : Nat} {dir : Bool} (hs : ∀ k, k ≠ 0 → s.hart k = Hart.reset)
    (h0 : (s.hart 0).wired = []) : s.sliceCircuits slice dir = 0 := by
  have hr : Hart.reset.wired = [] := by
    have : ∀ t ∈ Hart.reset.streams.toList ++ Hart.reset.releasing, t.circuit = false := by decide +kernel
    unfold Hart.wired
    rw [List.filter_eq_nil_iff]
    intro t ht
    simp [this t ht]
  unfold State.sliceCircuits
  refine List.sum_eq_zero (fun n hn => ?_)
  obtain ⟨k, -, rfl⟩ := List.mem_map.mp hn
  by_cases hk : k = 0
  · rw [hk, h0]
    rfl
  · rw [hs k hk, hr]
    rfl

theorem streamed_others (t : Stream) (k : HartId) (hk : k ≠ 0) : (streamed t).hart k = Hart.reset := by
  have hb : base.cur = 0 := by decide +kernel
  unfold streamed hartWith
  rw [← others_reset k hk, ← hart_updMe_ne base k _ (hb ▸ hk)]
  simp only [State.hart, State.updTile]
  rfl

/-- A circuit that has been asked for, with tracks to spare, and where the tile has none left. -/
theorem witness_StreamEvents_circuit :
    let t : Stream := { elems true 8 with asking := true }
    let c : Stream := { elems true 8 with circuit := true }
    t.cfg = true ∧ (streamed t).trackFree (tileOf 0) t = true ∧
      (((streamed t).updHart 1 (fun H => { H with streams := Vector.replicate 16 c })).updHart 2 (fun H =>
        { H with streams := Vector.replicate 16 c })).trackFree (tileOf 0) t = false := by
  refine ⟨rfl, ?_, by decide +kernel⟩
  have h := sliceCircuits_one (s := streamed { elems true 8 with asking := true }) (slice := 0) (dir := true)
    (fun k hk => streamed_others _ k hk) (List.isEmpty_iff.mp (by decide +kernel))
  show (decide (_ < 32) && (decide (State.sliceCircuits _ 0 true < rowTracks) && _)) = true
  rw [h]
  decide +kernel

/-- A stream over a page that is not there, and a record that waits for its queue, whose key is valid or not. -/
theorem witness_StreamEvents_end_fault :
    (let t : Stream := { elems false 8 with desc := { (elems false 8).desc with base := 0xC0000000 } }
     let s := streamed t
     t.home < t.desc.count ∧ s.hostIf.failed = [] ∧ s.reach 0 t.sup .read 0xC0000000 = .fault .pageFault) ∧
    (let t : Stream := { elems true 64 with desc := { (elems true 64).desc with base := 0xC0000000 }, win := [5, 6], pos := 2 }
     let s := streamed t
     t.desc.dir = true ∧ t.sent ≠ 0 ∧ t.made ≠ [] ∧ t.home < t.desc.count ∧ s.hostIf.failed = [] ∧
       s.reach 0 t.sup .write 0xC0000000 = .fault .pageFault) ∧
    (∀ k : Bool, let s := hartWith (fun H => { H with fq :=
        { FaultQ.reset with base := if k then 0x0010000040004000 else 0x40004000, waiting := [List.replicate 32 1] } })
     let q := (s.hart 0).fq
     q.waiting = List.replicate 32 1 :: [] ∧ (fld q.base 6 46).toNat * 64 = 0x40004000 ∧
      (q.tail + 65536 - q.head) % 65536 < q.size ∧ s.place 0 (0x40004000 + 32 * (q.tail % q.size)) = .cell 0x40004000 ∧
      s.keyInvalid (fld q.base 52 9).toNat = k) ∧
    (let s := hartWith (fun H => { H with fq :=
        { FaultQ.reset with base := 0x100000000000, waiting := [List.replicate 32 1] } })
     let q := (s.hart 0).fq
     q.waiting = List.replicate 32 1 :: [] ∧ (fld q.base 6 46).toNat * 64 ≠ 0 ∧ (q.tail + 65536 - q.head) % 65536 < q.size ∧
       (match s.place 0 ((fld q.base 6 46).toNat * 64 + 32 * (q.tail % q.size)) with
         | .cell _ => false
         | _ => true) = true) := by decide +kernel

theorem witness_StreamEvents_end_release :
    (∀ c : Bool, let r : Stream := { elems false 8 with desc := { (elems false 8).desc with ctrl := if c then 0xFFFFFFFE else 0x10 } }
     let s := hartWith (fun H => { H with releasing := [r] })
     (s.hart 0).run ≠ .halted ∧ r.owed = [] ∧ r.extents = [] ∧ (s.hart 0).releasers[(0 : Nat)]? = some (0, r) ∧ r.made = [] ∧ r.part = [] ∧ r.desc.dir = false ∧ r.desc.cen = c ∧
      ((s.hart 0).ctr[r.desc.counter]?).isSome = true ∧ ((s.tile (tileOf 0)).banks[r.bank]?).isSome = true) ∧
    (hartWith (fun H => { H with run := .halted })).me.run = .halted ∧
    (let r : Stream := { elems true 8 with release := .write }
     r.owed = [] ∧ (∀ e ∈ r.extents, e.peer = none) ∧ r.made = [] ∧ r.part = []) ∧
    (let a : Stream := { elems false 8 with copy := some ⟨1, false, [], 0⟩ }
     let b : Stream := { elems true 8 with copy := some ⟨0, false, [], 0⟩, pos := 8 }
     let s := hartWith (fun H => { H with streams := (H.streams.set 0 a).set 1 b })
     ((s.hart 0).stream 1).copy = some ⟨0, false, [], 0⟩ ∧ ((s.hart 0).stream 1).desc.dir = true ∧
      (s.hart 0).copyRuns 0 1 = true ∧ (s.hart 0).run ≠ .halted ∧ ((s.hart 0).stream 1).pos = ((s.hart 0).stream 1).desc.count) := by
  decide +kernel

/-! ### Reservations -/

/-- A writing entry in a mode at the landing die of its page. -/
def landed (mode : Nat) : State :=
  base.updLanding (homeOf 2 0x40003000) (fun l => { l with entries := [(7, entryOf true mode 1024)] })

/-- A read and a write of the host or a peer in one line. -/
def request (w : Bool) : MemReq := ⟨0x40003000, 8, if w then some [1, 2, 3, 4, 5, 6, 7, 8] else none⟩

theorem witness_ReservationEvents_requests :
    base.mgmt.level = 2 ∧ (∀ w : Bool, base.homed (request w) = true ∧ reqLines (request w) = [0x40003000 / 128] ∧
      (∀ agent ∈ [none, some (⟨1, 0, none⟩ : PeerAgent)],
        base.waitsBehind (.peer 3 agent) (0x40003000 / 128) = false ∧
        (landed 0).waitsBehind (.peer 3 agent) (0x40003000 / 128) = false) ∧
      (∀ who ∈ [Requester.external, .lefahel 3 ⟨1, 0, none⟩, .cxl], base.conflicts who (0x40003000 / 128) w = [] ∧
        ∀ mode ∈ [0, 2], (landed mode).conflicts who (0x40003000 / 128) w =
          [(homeOf 2 0x40003000, 7, entryOf true mode 1024)])) ∧ base.me.run = .running ∧
      base.keyInvalid 0 = false ∧ base.keyInvalid base.inboundKey = false ∧ base.noWindows = true ∧ base.dir = [] ∧
      (∀ trim ∈ [none, some 0, some 8], ∀ place ∈ [none, some (1, 7)],
        let s := hartWith (fun H => { H with run := .waiting, wait := .peer 0x40003000 place trim })
        s.me.run = .waiting ∧ s.me.wait = .peer 0x40003000 place trim) ∧
      (entryOf true 0 1024).coming = 0 ∧ ({ entryOf true 0 1024 with coming := 1 } : Rsv).coming ≠ 0 ∧
      (base.mgmt.level ≠ 0 ∧ ({ base with mgmt := { base.mgmt with level := 1 } } : State).mgmt.level ≠ 2) ∧
      base.homed ⟨0xC0000000000, 8, none⟩ = false ∧
      (∀ m < 3, ∀ st < 4, ({ entryOf true m 1 with state := st } : Rsv).mode < 3) := by decide +kernel

/-- A parked hart that waits, and a slice that exists. -/
theorem witness_ReservationEvents_parked :
    (let s := ((landed 0).park (.hart 0) (homeOf 2 0x40003000) 7 (0x40003000 / 128)).updHart 0 (fun H =>
        { H with run := .waiting, wait := .parked (homeOf 2 0x40003000).val 7 (0x40003000 / 128) })
     ((s.landing (homeOf 2 0x40003000)).parked.map (fun p => (p.who, p.entry, p.line))) =
        [(Parker.hart 0, 7, 0x40003000 / 128)] ∧ (s.hart 0).run = .waiting ∧
      (s.hart 0).wait = .parked (homeOf 2 0x40003000).val 7 (0x40003000 / 128)) ∧
      ((base.die 0).slices[(0 : Nat)]?).isSome = true ∧ 24 < (fld (25 : Word) 0 6).toNat ∧
      (fld (24 : Word) 0 6).toNat ≤ 24 := by decide +kernel

/-- A peer's message for an extent of one page. -/
def message : RsvMsg :=
  { module := 3, seq := 9, extBase := 0x40003, extSize := 0, first := 0, stride := 4, count := 8, esize := 2, dir := true
    mode := 0, scope := 0, key := 0, whole := false, tile := 0, ctx := 0, stream := 0 }

/-- A stream with an extent at a peer, whose registration is awaited, and an extent of a peer here. -/
def peered : State :=
  ({ streamed { elems false 8 with extents := [⟨0, 8, 0x40003000, 0x40003000, 4096, 0, false, [], some 9, false⟩] } with
    rsvOut := [⟨9, 3, false⟩], rsvIn := [((3, 9), [(0, 7)])]
    peerWin := base.peerWin.set 0 ⟨true, 0x40003000, 4096, 3, 0, true⟩ } : State)

theorem witness_ReservationEvents_peer_messages :
    base.mgmt.level = 2 ∧ (base.landing (homeOf 2 (message.extBase * 4096))).entries = [] ∧ message.extSize = 0 ∧
      (7, entryOf true 0 1024) ∈ ((landed 0).landing (homeOf 2 (message.extBase * 4096))).entries ∧
      rsvClash 2 (homeOf 2 (message.extBase * 4096)) (peerEntry message) (entryOf true 0 1024) = true ∧
      (∃ r ∈ peered.rsvOut, r.seq = 9 ∧ r.releasing = false) ∧
      (∀ r ∈ peered.rsvOut, ¬ (r.seq = 8 ∧ r.releasing = false)) ∧
      assoc peered.rsvIn (3, 9) = some [(0, 7)] ∧ base.dir = [] ∧
      (let e : DirLine := ⟨0x40003000 / 128, 0, [], [], none, some true, false⟩
       let s : State := { base with dir := [e] }
       s.dirAt e.line = some e ∧ message.extBase * 4096 ≤ e.line * 128 ∧
         e.line * 128 < message.extBase * 4096 + 4096) := by decide +kernel

/-- An extent of a stream of hart 0 is found first. -/
theorem peerStream_first {s : State} {seq : BitVec 16} {e : StreamAt × Stream}
    (h : (s.streamsOf 0).find? (fun e => e.2.extents.any (fun x => x.peer == some seq)) = some e) :
    s.peerStream seq = some e := by
  unfold State.peerStream allHarts
  rw [List.finRange_succ, List.flatMap_cons, List.append_assoc, List.find?_append]
  show Option.or ((s.streamsOf 0).find? _) _ = _
  rw [h]
  rfl

/-- The stream whose extent that registration names is a read stream. -/
theorem witness_ReservationEvents_peer_stream : ∃ p t, peered.peerStream 9 = some (p, t) ∧ t.desc.dir = false := by
  have h : ((peered.streamsOf 0).find? (fun e => e.2.extents.any (fun x => x.peer == some 9))).map
      (fun e => e.2.desc.dir) = some false := by decide +kernel
  obtain ⟨e, he, hd⟩ := Option.map_eq_some_iff.mp h
  exact ⟨e.1, e.2, peerStream_first he, hd⟩

/-- That stream as a write stream with an element in its window, which the peer cuts after its first. -/
def cut : State :=
  ({ streamed { elems true 8 with extents := [⟨0, 8, 0x40003000, 0x40003000, 4096, 0, false, [], some 9, false⟩], win := [5] } with
    rsvOut := [⟨9, 3, false⟩] } : State)

theorem witness_ReservationEvents_peer_cut : ∃ p t e, cut.peerStream 9 = some (p, t) ∧ t.desc.dir = true ∧ t.desc.idx = 0 ∧
    t.extents.find? (fun x => x.peer == some 9) = some e ∧ t.made.length ≤ e.lo + 1 - t.home ∧ t.made ≠ [] := by
  have h : ((cut.streamsOf 0).find? (fun e => e.2.extents.any (fun x => x.peer == some 9))).map
      (fun e => (e.2.desc.dir, e.2.desc.idx, e.2.extents.find? (fun x => x.peer == some 9), e.2.made, e.2.home)) =
      some (true, 0, some ⟨0, 8, 0x40003000, 0x40003000, 4096, 0, false, [], some 9, false⟩, [5], 0) := by decide +kernel
  obtain ⟨e, he, hd⟩ := Option.map_eq_some_iff.mp h
  simp only [Prod.mk.injEq] at hd
  exact ⟨e.1, e.2, _, peerStream_first he, hd.1, hd.2.1, hd.2.2.1, by rw [hd.2.2.2.1, hd.2.2.2.2]; decide,
    by rw [hd.2.2.2.1]; decide⟩

/-- A release with an extent at that peer, whose release is awaited there too. -/
def releasedThere : Stream :=
  { elems true 8 with release := .write, owed := [9], extents := [⟨0, 8, 0x40003000, 0x40003000, 4096, 0, false, [], some 9, false⟩] }

/-- Streams that a port takes with it: one that is configured, and one that is released. -/
theorem witness_ReservationEvents_peer_lost :
    (let t := (peered.hart 0).stream 0
     t.cfg && t.stopAt.isNone && t.extents.any (peered.atPeer [3])) = true ∧
    (let s := peered.updHart 0 (fun H => H.setStream 0 { H.stream 0 with stopAt := some (0, 13, 0x40003000) })
     let t := (s.hart 0).stream 0
     t.cfg && t.stopAt.isSome && t.extents.any (s.atPeer [3])) = true ∧
    ((peered.updHart 0 (fun H => { H with releasing := [releasedThere] })).hart 0).releasing.length = 1 ∧
    (releasedThere.stopAt.isNone && releasedThere.extents.any (peered.atPeer [3]) && releasedThere.release == .write &&
      releasedThere.owed.any (fun q => peered.rsvOut.any (fun r => r.seq == q && [3].contains r.module))) = true := by
  decide +kernel

/-! ### Arrivals -/

/-- The gang with tokens on their way to rank 1, and its harts ended or waiting for one. -/
def coming : State :=
  (({ ganged with tokens := [⟨5, (0, 0), 0, 1, 3, 0⟩, ⟨5, (0, 0), 0, 1, 3, 0⟩] } : State).updMe (fun H => { H with
    run := .waiting, wait := .tok 4 })).updHart 1 (fun H => { H with run := .waiting, wait := .cap 5 })

theorem witness_ArrivalAndSchedulingEvents_tokens :
    let t : Token := ⟨5, (0, 0), 0, 1, 3, 0⟩
    let m : Member := ⟨1, 1, false, none⟩
    coming.tokens[0]? = some t ∧ coming.tokens[1]? = some t ∧ coming.gang? 5 = some gang ∧ gang.member? 1 = some m ∧
      m.saved = none ∧ (coming.hart 1).tokens 3 < 0xFFFFFFFF ∧ gang.fc = 0 ∧ gang.running = true ∧
      (coming.hart 0).run = .waiting ∧ (coming.hart 0).wait = .tok 4 ∧ (coming.hart 1).run = .waiting ∧
      (coming.hart 1).wait = .cap 5 ∧ (coming.hart 1).cap.ring = [] ∧ (coming.hart 1).cap.parked = [] ∧
      ({ ganged with gangs := [{ gang with fc := 1 }] } : State).gang? 5 = some { gang with fc := 1 } := by decide +kernel

/-- A capsule of the gang with one step. -/
def letter : Capsule := ⟨5, 0, 9, 0, 0, 1, 0, 0, 0, 0, 0, List.replicate 8 0, [], (0, 0)⟩

/-- A capsule on its way, and the landing of its destination. -/
def flying (parked ring : List Capsule) : State :=
  ({ ganged with capsules := [⟨0, 1, letter⟩] } : State).updHart 1 (fun H =>
    { H with cap := { H.cap with land := true, parked := parked, ring := ring } })

theorem witness_ArrivalAndSchedulingEvents_capsules :
    let c := letter
    (∀ p ∈ [[], [c]], (flying p []).capsules[0]? = some ⟨0, 1, c⟩ ∧ (flying p []).gang? 5 = some gang ∧
      ((flying p []).hart 1).cap.land = true ∧ ((flying p []).hart 1).cap.parked = p ∧ ((flying p []).hart 1).cap.hold = false ∧
      (((flying p []).hart 1).cap.ring.map Capsule.room).sum + (64 + roundup c.payload.length 64) ≤ 65536) ∧
      65536 < ((((flying [] (List.replicate 1024 c)).hart 1).cap.ring.map Capsule.room).sum + 64 : Nat) ∧
      (let s := base.updMe (fun H => { H with ports := H.ports.set 2 { Port.reset with flight := [.group [1]] } })
       ((s.hart 0).ports[(2 : Nat)]?).map (fun p => p.flight) = some [.group [1]]) := by decide +kernel

/-! ### The scheduler -/

/-- The record of one hart. -/
def solo : Launch := { launch with levels := [⟨1, 1⟩], clus := 1 }

/-- The base state with an entry at the head of queue 0 of die 0. -/
def heads (e : QEntry) : State :=
  (base.updQueue 0 0 (fun Q => { Q with entries := [e], prio := 2, age := 50, readyFor := 900 })).updDie 0 (fun D =>
    { D with schcfg := 0x6400000032 })

theorem witness_ArrivalAndSchedulingEvents_place :
    let s := heads (.record solo)
    (s.chosen 0).map (fun c => (c.1, c.2.entries)) = some (0, [.record solo]) ∧
      s.placesOk solo.needs [⟨1, 0, 1, 0⟩] = true ∧ s.admits 0 (solo.needs.map (fun n => n.die)) 2 = true ∧
      (s.chosen 0).map (fun c => c.2.prio) = some 2 := by decide +kernel

theorem witness_ArrivalAndSchedulingEvents_ages :
    let s := heads (.record solo)
    (s.queue 0 0).entries = [.record solo] ∧ s.predsMet solo = true ∧ (s.die 0).agePeriod ≠ 0 ∧
      (s.die 0).agePeriod ≤ (s.queue 0 0).age ∧ (s.queue 0 0).prio < solo.ceil := by decide +kernel

/-- A gang of one hart that runs. -/
def running : Gang := { gang with launch := solo, members := [⟨0, 0, false, none⟩] }
/-- A die on which that gang keeps the candidate of queue 0 from its one tile. -/
def crowdedDie : State :=
  let s := (((base.updQueue 0 0 (fun Q => { Q with entries := [.record solo], prio := 2, age := 50, readyFor := 900 })).updDie 0 (fun D =>
    { D with schcfg := 0x6400000032, clock := 1000, poolBase := 0x60000000, poolSize := 0x100000, poolSlots := 4 }))
    ).updMe (fun H => { H with gang := some (5, 0) })
  let s := [1, 2, 3].foldl (fun s h => s.updHart h (fun H => { H with run := .waiting })) s
  { s with gangs := [running], spots := [⟨0, 0, 1, 0⟩], tiles := Vector.ofFn (fun t : Fin 224 => { s.tile t with quarantined := decide (t ≠ 0) }) }

theorem witness_ArrivalAndSchedulingEvents_candidate :
    let s := crowdedDie
    (s.chosen 0).map (fun c => (c.1, c.2.entries, c.2.prio, c.2.readyFor)) = some (0, [.record solo], 2, 900) ∧
      (s.die 0).preempt ≠ 0 ∧ (s.die 0).preempt ≤ 900 ∧ s.canPlace (s.needs (.record solo)) = false ∧
      s.gangs.filter (s.victim ((s.needs (.record solo)).map (fun n => n.die)) 2) = [running] ∧ s.slotsFor running = true ∧
      running.launch.queue < 32 ∧
      s.admits 0 ((s.needs (.record solo)).map (fun n => n.die)) 2 = true ∧ (QEntry.record solo).key ≠ (true, running.id) := by decide +kernel

/-- That state when the image of its hart is to be written. -/
def ready : State := (((crowdedDie.drainHart 0).forget 0 false).unparkHart 0).saveCaps 0
/-- That state with its streams saved, and their save areas. -/
def before : State × List (List Byte) := ready.saveStreams 0

/-- The saved part of that hart. -/
def kept : Saved :=
  let H := before.1.hart 0
  { die := 0
    slot := 0
    cap := H.cap
    fabric := H.fabric
    fq := { FaultQ.reset with seq := H.fq.seq }
    streams := H.takeStreams ((List.range 16).filter (fun n => ((ready.hart 0).stream n).cfg))
    ports := (H.ports.toList.mapIdx (fun k p => (k, { p with items := p.items ++ p.flight, flight := [] }))).filter
      (fun e => e.2.isOpen)
    oldTile := (tileOf 0).val
    banks := H.banks
    winSup := H.wins.toList.map (fun w => w.sup)
    moved := H.moved
    ctrRel := H.ctrRel
    tokRel := H.tokRel }

/-- The hart saved with its image in some memory. -/
def imaged (m : List Host.Cell) (k : List (Nat × KeySlot)) : State :=
  (({ before.1 with mem := m, sectorKey := k } : State).updDie (dieOf (tileOf 0)) (fun D =>
    { D with poolUsed := setInsert D.poolUsed 0 })).updGang 5 (fun G => G.updMember 0 (fun m => { m with saved := some kept }))

/-- The gang saved and its record queued again. -/
def after (m : List Host.Cell) (k : List (Nat × KeySlot)) : State :=
  (((imaged m k).vacate running).updGang 5 (fun G => { G with running := false, yielded := false })).postResume running

theorem after_room (m : List Host.Cell) (k : List (Nat × KeySlot)) : (after m k).canPlace solo.needs = true := by cbv

theorem after_place (m : List Host.Cell) (k : List (Nat × KeySlot)) :
    (after m k).placesOk solo.needs [⟨0, 0, 1, 0⟩] = true := by cbv

/-- A state but for its memory. -/
def Rest (s t : State) : Prop := ∃ m k, t = { s with mem := m, sectorKey := k }

theorem Rest.refl (s : State) : Rest s s := ⟨s.mem, s.sectorKey, rfl⟩

theorem Rest.trans {s t u : State} (h : Rest s t) (g : Rest t u) : Rest s u := by
  obtain ⟨_, _, rfl⟩ := h
  obtain ⟨m, k, rfl⟩ := g
  exact ⟨m, k, rfl⟩

theorem rest_putByte (s : State) (c k : Nat) (b : Byte) : Rest s (s.putByte c k b) := by
  unfold State.putByte State.rekey
  split
  · split
    · split <;> exact ⟨_, _, rfl⟩
    · exact ⟨_, _, rfl⟩
  · exact ⟨_, _, rfl⟩

theorem rest_putBytes (s : State) (c k : Nat) (bs : List Byte) : Rest s (s.putBytes c k bs) := by
  induction bs generalizing s c with
  | nil => exact Rest.refl s
  | cons b t ih => exact (rest_putByte s c k b).trans (ih _ _)

theorem rest_fold (base key : Nat) (l : List (Nat × List Byte)) (s : State) :
    Rest s (l.foldl (fun s e => s.putBytes (base + e.1) key e.2) s) := by
  induction l generalizing s with
  | nil => exact Rest.refl s
  | cons e t ih => exact (rest_putBytes s _ key e.2).trans (ih _)

theorem rest_wipe (s : State) (a n key : Nat) : Rest s (s.wipe a n key) := ⟨_, _, rfl⟩

theorem rest_writeImage (s : State) (h : HartId) (areas : List (List Byte)) (rank : HartId → Nat) (base key : Nat)
    (hb : bankList (s.hart h).banks = []) : Rest s (s.writeImage h areas rank base key) := by
  unfold State.writeImage
  simp only [hb, List.mapIdx_nil, List.foldl_nil]
  exact (rest_wipe s _ _ key).trans (rest_fold base key _ _)

theorem saved_hart : ∃ m k, crowdedDie.saveHart running ⟨0, 0, false, none⟩ = imaged m k := by
  have hs : crowdedDie.slotFor (dieOf (tileOf 0)) (popcount (crowdedDie.hart 0).banks) = some 0 := by decide +kernel
  have hb : bankList (before.1.hart 0).banks = [] := by decide +kernel
  obtain ⟨m, k, e⟩ := rest_writeImage before.1 0 before.2 (before.1.rankIn 0)
    ((before.1.die (dieOf (tileOf 0))).poolBase.toNat + 0 * (before.1.die (dieOf (tileOf 0))).poolSize.toNat)
    (before.1.die (dieOf (tileOf 0))).poolKey.toNat hb
  refine ⟨m, k, ?_⟩
  unfold State.saveHart
  simp only [hs]
  unfold imaged kept
  rw [← e]
  rfl

theorem witness_ArrivalAndSchedulingEvents_preempts : (crowdedDie.saveGang running).canPlace solo.needs = true ∧
    (crowdedDie.saveGang running).placesOk solo.needs [⟨0, 0, 1, 0⟩] = true ∧ crowdedDie.spots = [⟨0, 0, 1, 0⟩] := by
  obtain ⟨m, k, e⟩ := saved_hart
  have h : crowdedDie.saveGang running = after m k := by
    unfold State.saveGang after
    rw [← e]
    rfl
  rw [h]
  exact ⟨after_room m k, after_place m k, rfl⟩

/-- A gang of one saved hart. -/
def savedGang : Gang :=
  { gang with launch := solo, running := false, members := [⟨0, 0, false, some ⟨0, 0, CapSide.reset, Fabric.reset, FaultQ.reset,
    [], [], 0, 0, [], 0, [], []⟩⟩] }

theorem witness_ArrivalAndSchedulingEvents_resume :
    let s : State := { heads (.resume 5) with gangs := [savedGang] }
    (s.chosen 0).map (fun c => (c.1, c.2.entries)) = some (0, [.resume 5]) ∧ s.gang? 5 = some savedGang ∧
      (savedGang.members.map (fun m => (m.saved.isSome, m.done))) = [(true, false)] ∧
      s.placesOk savedGang.needs [⟨1, 0, 1, 0⟩] = true ∧ s.admits 0 (savedGang.needs.map (fun n => n.die)) 2 = true ∧
      (s.chosen 0).map (fun c => c.2.prio) = some 2 := by decide +kernel

/-! ### The loader -/

/-- An object of one data section of four bytes, placed or not. -/
def object (placed : Bool) : List Byte :=
  [0x41, 0x4C, 0x46, 0x01] ++ leBytes 2 1 ++ leBytes 10 0 ++ leBytes 4 1 ++ leBytes 4 64 ++ leBytes 40 0 ++
    (leBytes 4 2 ++ leBytes 4 (if placed then 1 else 0) ++ leBytes 8 96 ++ leBytes 8 4 ++ leBytes 4 2 ++ leBytes 4 0) ++
    [1, 2, 3, 4]

/-- The base state with its tables as those of address space 0. -/
def spaced : State := base.putBytes 0 0 (leBytes 8 0x1000)

theorem witness_ArrivalAndSchedulingEvents_load :
    spaced.mgmt.level ≠ 0 ∧ ([] : List Byte).take 4 ≠ [0x41, 0x4C, 0x46, 0x01] ∧
      (match checkObject ⟨[], 0, 512, []⟩ with
        | .error 1 => true
        | _ => false) = true ∧
      (match checkObject ⟨object true, 0, 0, [0x40003000]⟩, checkObject ⟨object false, 0, 0, [0]⟩ with
        | .ok [(e, b, bs)], .ok [(e', b', _)] => decide (b % 2 ^ e.align = 0 ∧ e.kind ≠ 9 ∧ b' % 2 ^ e'.align = 0 ∧ e'.kind ≠ 9) &&
            e.placed && !e'.placed && (spaced.spacePutAll 0 b bs).isSome
        | _, _ => false) = true := by decide +kernel

end Sys2Proof.Tests
end

