-- ==== Sys2Proof/Tests/WitnessVector.lean ====
section
/-!
SUPPORT. For every clause with hypotheses of the statements about convoys, vector forms, matrix forms and the
fabric's instructions: a state and operands that meet them all.
-/

namespace Sys2Proof.Tests

open Sys2Proof Sys2Proof.Machine

set_option maxRecDepth 100000
-- One kernel evaluation at a time, so that the check needs little memory.
set_option Elab.async false

/-- Every condition of a form that issues and runs. -/
def issuesB (s : State) (o : VOp) (w : VFields) : Bool :=
  s.pc.getLsbD 2 && decide (0 < s.me.lanes) && majorLegal s.me.mode o.major.toNat && fabricLegal s.me.mode o &&
    o.fieldsOk w && windowRmOk s.me ⟨0, o, w⟩ && Slot.distinct ⟨0, o, w⟩ && decide (s.me.csr.vstart = 0) &&
    s.me.cut.isNone && s.me.vq.isEmpty && s.me.lag == 0

def runsB (s : State) (o : VOp) (w : VFields) : Bool :=
  issuesB s o w && decide (0 < s.me.vl) && decide (s.me.vl ≤ 4 * groupSize s.me [⟨0, o, w⟩]) &&
    decide (s.me.branchQ.length + (if o.pushes then 1 else 0) ≤ 16)

theorem issues_of {s : State} {o : VOp} {w : VFields} (h : issuesB s o w = true) : Claim.Issues s o w := by
  simp only [issuesB, Bool.and_eq_true, decide_eq_true_eq, Option.isNone_iff_eq_none, List.isEmpty_iff, beq_iff_eq] at h
  obtain ⟨⟨⟨⟨⟨⟨⟨⟨⟨⟨a, b⟩, c⟩, d⟩, e⟩, f⟩, g⟩, i⟩, j⟩, k⟩, l⟩ := h
  exact ⟨a, b, c, d, e, f, g, i, j, k, l⟩

theorem runs_of {s : State} {o : VOp} {w : VFields} (h : runsB s o w = true) : Claim.Runs s o w := by
  simp only [runsB, Bool.and_eq_true, decide_eq_true_eq] at h
  obtain ⟨⟨⟨a, b⟩, c⟩, d⟩ := h
  exact ⟨issues_of a, b, c, d⟩

/-- Forms that run on a state, each with its fields. -/
theorem all_run {s : State} {l : List (VOp × VFields)} (h : l.all (fun e => runsB s e.1 e.2) = true) :
    ∀ e ∈ l, Claim.Runs s e.1 e.2 := fun e he => runs_of (List.all_eq_true.mp h e he)

theorem all_issue {s : State} {l : List (VOp × VFields)} (h : l.all (fun e => issuesB s e.1 e.2) = true) :
    ∀ e ∈ l, Claim.Issues s e.1 e.2 := fun e he => issues_of (List.all_eq_true.mp h e he)

/-- A hart that owns a cluster, with VL five at 32-bit width, in a mode. -/
def vec (mode : Nat) : State :=
  hartWith (fun H => ({ H with csr := { H.csr with lpart := 0x30001, vcfg := 0x20005 } } : Hart).setMode mode)

/-- Two slots, an addition and a subtraction of its result. -/
def pair : List (BitVec 64) := [encodeVector .vadd ⟨1, 2, 3, 0, 0, 2, 0, 0, 0⟩, encodeVector .vsub ⟨4, 1, 3, 0, 0, 2, 0, 0, 0⟩]

/-- The header of two slots of the integer unit, the second chained. -/
def pairHeader : BitVec 32 := 0xF9009200

theorem witness_ConvoyIssue :
    ([] : List (BitVec 64)).length ≠ ((0 : BitVec 32).toNat / 2 ^ 24 % 4) + 1 ∧
      pair.length = (pairHeader.toNat / 2 ^ 24 % 4) + 1 ∧ (base.setX 1 0).pc.getLsbD 2 = true ∧
      (hartWith (fun H => { H with pc := 0x40000000 })).pc.getLsbD 2 = false ∧ (pairHeader ||| 1).toNat % 2 ^ 9 ≠ 0 ∧
      (match convoyCheck (vec 0).me (soloHeader .vadd) [encodeVector .vadd ⟨1, 2, 3, 0, 0, 7, 0, 0, 0⟩] with
        | .error (8, some 0) => true
        | _ => false) = true ∧
      (match convoyCheck (vec 0).me pairHeader pair with
        | .ok l => decide (l = [⟨0, .vadd, ⟨1, 2, 3, 0, 0, 2, 0, 0, 0⟩⟩, ⟨1, .vsub, ⟨4, 1, 3, 0, 0, 2, 0, 0, 0⟩⟩])
        | .error _ => false) = true ∧
      (vec 0).me.csr.vstart = 0 ∧ (vec 0).me.cut = none ∧ (vec 0).me.vq = [] ∧ (vec 0).me.lag = 0 ∧ (vec 0).me.branchQ.length ≤ 16 ∧ 0 < (vec 0).me.vl ∧
      (vec 0).me.vl ≤ 4 * groupElems (vec 0).me.lanes 2 := by decide +kernel

/-- VL 0, and VL beyond four groups. -/
theorem witness_ConvoyIssue_length :
    let s := hartWith (fun H => { H with csr := { H.csr with lpart := 0x30001, vcfg := 0x20000 } })
    let t := hartWith (fun H => { H with csr := { H.csr with lpart := 0x30001, vcfg := 0x20400 } })
    (Claim.Issues s .vadd ⟨1, 2, 3, 0, 0, 2, 0, 0, 0⟩ ∧ s.me.vl = 0 ∧ s.me.branchQ.length < 16) ∧
      (Claim.Issues t .vadd ⟨1, 2, 3, 0, 0, 2, 0, 0, 0⟩ ∧
        4 * groupSize t.me [⟨0, .vadd, ⟨1, 2, 3, 0, 0, 2, 0, 0, 0⟩⟩] < t.me.vl) :=
  ⟨⟨issues_of (by decide +kernel), by decide +kernel⟩, issues_of (by decide +kernel), by decide +kernel⟩

/-- The integer and logic forms on vector registers 2 and 3. -/
theorem witness_VectorInteger :
    ∀ e ∈ ([VOp.vadd, .vsub, .vrsub, .vmin, .vmax, .vmul, .vmulh, .vmacc, .vabsd, .vdiv, .vrem, .vand, .vor, .vxor,
      .vandn, .vsll, .vsrl, .vsra, .vsadd, .vssub].map (fun o => (o, (⟨1, 2, 3, 0, 0, 2, 0, 0, 0⟩ : VFields)))) ++
      [(.vmv, ⟨1, 0, 0, 0, 0, 2, 0, 0, 0⟩), (.vnot, ⟨1, 2, 0, 0, 0, 2, 0, 0, 0⟩), (.vid, ⟨1, 0, 0, 0, 0, 2, 0, 0, 0⟩),
        (.vsel, ⟨1, 2, 3, 0, 1, 2, 0, 0, 0⟩)], Claim.Runs (vec 0) e.1 e.2 := all_run (by decide +kernel)

theorem witness_VectorMasks :
    (∀ e ∈ [VOp.vmseq, .vmsne, .vmslt, .vmsle, .vmsgt, .vmsge].map (fun o => (o, (⟨1, 2, 3, 0, 0, 2, 0, 0, 0⟩ : VFields))),
      Claim.Runs (vec 0) e.1 e.2) ∧
    (∀ e ∈ [VOp.vmseq, .vmsne, .vmslt, .vmsle, .vmsgt, .vmsge].map (fun o => (o, (⟨1, 2, 3, 0, 0, 2, 3, 0, 0⟩ : VFields))),
      Claim.Runs (vec 0) e.1 e.2) ∧
    (∀ e ∈ ([VOp.vmand, .vmor, .vmxor, .vmandn].map (fun o => (o, (⟨1, 2, 3, 0, 0, 0, 0, 0, 0⟩ : VFields)))) ++
      [(.vmnot, ⟨1, 2, 0, 0, 0, 0, 0, 0, 0⟩), (.vmset, ⟨1, 0, 0, 0, 0, 0, 0, 0, 0⟩), (.vmclr, ⟨1, 0, 0, 0, 0, 0, 0, 0, 0⟩),
        (.vvtom, ⟨1, 2, 0, 0, 0, 2, 0, 0, 0⟩), (.vmtov, ⟨1, 2, 0, 0, 0, 2, 0, 0, 0⟩), (.vpop, ⟨1, 2, 0, 0, 0, 0, 0, 0, 0⟩),
        (.vfirst, ⟨1, 2, 0, 0, 0, 0, 0, 0, 0⟩), (.vbqAny, ⟨0, 2, 0, 0, 0, 0, 0, 0, 0⟩),
        (.vbqNone, ⟨0, 2, 0, 0, 0, 0, 0, 0, 0⟩)], Claim.Runs (vec 0) e.1 e.2) :=
  ⟨all_run (by decide +kernel), all_run (by decide +kernel), all_run (by decide +kernel)⟩

theorem witness_VectorFloat :
    ∀ e ∈ ([VOp.vfadd, .vfsub, .vfmul, .vfdiv, .vfmin, .vfmax, .vfsgnj, .vfsgnjn, .vfsgnjx].map (fun o =>
        (o, (⟨1, 2, 3, 0, 0, 2, 3, 0, 0⟩ : VFields)))) ++
      ([VOp.vfsqrt, .vfclass].map (fun o => (o, (⟨1, 2, 0, 0, 0, 2, 3, 0, 0⟩ : VFields)))) ++
      ([VOp.vfmadd, .vfmsub, .vfnmadd, .vfnmsub].map (fun o => (o, (⟨1, 2, 3, 4, 0, 2, 3, 0, 0⟩ : VFields)))) ++
      [(.vcvt, ⟨1, 2, 0, 0, 0, 2, 3, 0, 0x800⟩), (.vcvt, ⟨1, 2, 0, 0, 0, 0, 16, 0, 0⟩), (.vcvt, ⟨1, 2, 0, 0, 0, 0, 0, 0, 0x20000⟩),
        (.vcvtMx, ⟨1, 2, 3, 0, 0, 0, 8, 0, 0x6800⟩), (.vcvtDemx, ⟨1, 2, 3, 0, 0, 1, 4, 0, 0x10000⟩)],
      Claim.Runs (vec 0) e.1 e.2 := all_run (by decide +kernel)

theorem witness_VectorWhole :
    ∀ e ∈ ([VOp.vslideup, .vslidedown, .vbcast].map (fun o => (o, (⟨1, 2, 0, 3, 0, 2, 0, 0, 0⟩ : VFields)))) ++
      [(.vperm, ⟨1, 2, 3, 0, 0, 2, 0, 0, 0⟩), (.vcompress, ⟨1, 2, 0, 0, 1, 2, 0, 0, 0⟩), (.vexpand, ⟨1, 2, 0, 0, 1, 2, 0, 0, 0⟩),
        (.vext, ⟨1, 2, 0, 3, 0, 2, 0, 0, 0⟩), (.vext, ⟨1, 2, 0, 3, 0, 2, 3, 0, 0⟩), (.vins, ⟨1, 2, 0, 3, 0, 2, 0, 0, 0⟩),
        (.vsetlf, ⟨0, 2, 3, 4, 0, 2, 1, 0, 0x8400⟩), (.vxint, ⟨1, 2, 3, 4, 0, 2, 1, 0, 0x8000⟩)] ++
      ([VOp.vxuni, .vxmrg].map (fun o => (o, (⟨1, 2, 3, 4, 0, 2, 1, 0, 0x8400⟩ : VFields)))) ++
      ([VOp.vredsum, .vredmin, .vredmax, .vredand, .vredor, .vredxor, .vscansum, .vscanmin, .vscanmax].flatMap (fun o =>
        [(o, (⟨1, 2, 3, 0, 0, 2, 0, 0, 0⟩ : VFields)), (o, ⟨1, 2, 3, 0, 0, 2, 0, 0, 0x12000⟩)])),
      Claim.Runs (vec 0) e.1 e.2 := all_run (by decide +kernel)

/-- A scan or a reduction with segments has a first one, and fibres of one element rise. -/
theorem witness_VectorWhole_segments :
    let s := vec 0
    let f := hartWith (fun H => { H with csr := { H.csr with lpart := 0x30001, vcfg := 0x20001 } })
    (s.me.segments ⟨0, s.me.lanes, groupElems s.me.lanes 2, 2, s.me.vl⟩ ⟨1, 2, 3, 0, 0, 2, 0, 0, 0⟩)[0]? =
        some [0, 1, 2, 3, 4] ∧ f.me.vl = 1 ∧ runsB f .vxint ⟨1, 2, 3, 4, 0, 2, 1, 0, 0x8000⟩ = true ∧
      min (f.getX 4).toNat (f.me.vlmax 2) = 0 ∧
      unite true 4 [2] [2] = [(2, true), (2, false)] := by decide +kernel

end Sys2Proof.Tests
end

