-- ==== Sys2Proof/Tests/WitnessRegion.lean ====
section
/-!
SUPPORT. For every clause with hypotheses of the statements about matrix mode and the fabric: a state and operands
that meet them all.
-/

namespace Sys2Proof.Tests

open Sys2Proof Sys2Proof.Machine

set_option maxRecDepth 100000
-- One kernel evaluation at a time, so that the check needs little memory.
set_option Elab.async false

/-! ### Matrix mode -/

/-- A hart in matrix mode with shape 1 by 1 by 32, or paired, with entries in rings 0 and 2,
and a record of its shape at the address in X2. -/
def mat (bits : Word) (occ : BitVec 32) : State :=
  (((scratch.putBytes 0x8000000008 0 (leBytes 4 0x10001)).updMe (fun H => ({ H with
    csr := { H.csr with lpart := 0x30001, vcfg := 0x20005, tshape := bits ||| 0x2000010001 }
    rings := (H.rings.set 0 ⟨true, 0x40002000, 64, 2, 0, 1⟩).set 2 ⟨true, 0x40003000, 64, 2, 0, occ⟩
    ports := H.ports.set 0 { Port.reset with isOpen := true, peer := 4, peerPort := 0 } } : Hart).setMode 1)).setX 1
      0x40001000).setX 2 0x8000000000

/-- Operand fields: A from ring 2, B from ring 0. -/
def abw (fmt : BitVec 5) (sel : BitVec 18) : VFields := ⟨0, 2, 0, 0, 0, 0, fmt, 0, sel⟩

theorem witness_MatrixForms_shape :
    let H := (mat 0 1).me
    H.shapeM ≤ 128 ∧ H.shapeN ≤ 2 * H.lanes ∧ 0 < H.shapeM ∧ 0 < H.shapeN ∧ 0 < H.shapeK := by decide +kernel

/-- The entries of both operands, in the formats of each form. -/
theorem witness_MatrixForms_entries (bits : Word) (hb : bits = 0 ∨ bits = 0x3000000000000) :
    ∀ f ∈ [0, 6, 8, 14], (∃ A, Claim.Entry (mat bits 1) 2 (operandBytes f 1 32) A) ∧
      ∃ B, Claim.Entry (mat bits 1) 0 (operandBytes f 1 32) B := by
  have h : ∀ f ∈ [0, 6, 8, 14], ∀ q ∈ [(2, 0x40003000), (0, 0x40002000)],
      ∃ bs, Claim.Entry (mat bits 1) q.1 (operandBytes f 1 32) bs := by
    intro f hf q hq
    refine entry_of (fun k => leaf (q.2 + 4 * k)) (fun k => q.2 + 4 * k) ?_
    revert q f
    rcases hb with rfl | rfl <;> decide +kernel
  exact fun f hf => ⟨h f hf (2, 0x40003000) (by simp), h f hf (0, 0x40002000) (by simp)⟩

theorem witness_MatrixForms_issue :
    (∀ s ∈ [mat 0 1, mat 0x1000000000000 1, mat 0x3000000000000 1], ∀ e ∈ [(VOp.mmaInt, abw 0 0), (.mtern, abw 0 0x1C000),
        (.mma, abw 6 0x10000), (.mmaInt, abw 0 0x80), (.mtern, abw 0 0x1C080), (.mma, abw 6 0x10080), (.mzero, ⟨0, 0, 0, 0, 0, 0, 0, 0, 0⟩),
        (.mst, ⟨0, 0, 0, 1, 0, 2, 0, 0, 0⟩), (.mst, ⟨0, 0, 0, 1, 0, 2, 0, 0, 0x80⟩), (.mxchg, ⟨0, 0, 0, 0, 0, 0, 0, 0, 0⟩),
        (.mxchg, ⟨0, 0, 0, 0, 0, 2, 0, 0, 0x100⟩), (.msound, ⟨0, 2, 0, 2, 0, 0, 0, 0, 0x1C000⟩), (.mcheck, ⟨0, 1, 0, 2, 0, 0, 0, 0, 0⟩)],
      Claim.Issues s e.1 e.2) := by
  intro s hs
  have h : ∀ s ∈ [mat 0 1, mat 0x1000000000000 1, mat 0x3000000000000 1], ([(VOp.mmaInt, abw 0 0), (.mtern, abw 0 0x1C000),
        (.mma, abw 6 0x10000), (.mmaInt, abw 0 0x80), (.mtern, abw 0 0x1C080), (.mma, abw 6 0x10080), (.mzero, ⟨0, 0, 0, 0, 0, 0, 0, 0, 0⟩),
        (.mst, ⟨0, 0, 0, 1, 0, 2, 0, 0, 0⟩), (.mst, ⟨0, 0, 0, 1, 0, 2, 0, 0, 0x80⟩), (.mxchg, ⟨0, 0, 0, 0, 0, 0, 0, 0, 0⟩),
        (.mxchg, ⟨0, 0, 0, 0, 0, 2, 0, 0, 0x100⟩), (.msound, ⟨0, 2, 0, 2, 0, 0, 0, 0, 0x1C000⟩), (.mcheck, ⟨0, 1, 0, 2, 0, 0, 0, 0, 0⟩)] :
          List (VOp × VFields)).all (fun e => issuesB s e.1 e.2) = true := by decide +kernel
  exact all_issue (h s hs)

/-- A primary that may send its entry, a secondary that has one, and a ring that has none. -/
theorem witness_MatrixForms_pairs :
    (let s := mat 0x3000000000000 1
     s.me.paired = true ∧ s.me.primary = true ∧ (s.me.port s.me.pairPort).peer ≠ s.cur ∧
      s.crossLoad (s.me.port s.me.pairPort) + 32 ≤ 65536 ∧ (s.me.port s.me.pairPort).items = []) ∧
    (let s := (mat 0x1000000000000 1).updMe (fun H => { H with ports := H.ports.set 0 { Port.reset with
        isOpen := true, peer := 4, items := [.entryA 1 32 0 []] } })
     s.me.paired = true ∧ s.me.primary = false ∧
      (s.me.port s.me.pairPort).items = .entryA s.me.shapeM s.me.shapeK 0 [] :: []) ∧
    (let s := mat 0 0
     (s.me.ring 2).on = true ∧ (s.me.ring 2).occ = 0 ∧ operandBytes 0 1 32 ≤ (s.me.ring 2).size ∧
      issuesB s .mtern (abw 0 0x1C000) = true) := by decide +kernel

/-- Exchange: the peer waits in one of its own, with its shape and lanes. -/
def exchanging (add : Bool) : State :=
  (mat 0x3000000000000 1).updHart 4 (fun H => ({ H with
    run := .waiting, wait := .mxchg add 0 0
    csr := { H.csr with lpart := 0x30001, vcfg := 0x20005, tshape := 0x2000010001 } } : Hart).setMode 1)

theorem witness_MatrixForms_exchange :
    (∀ add : Bool, let s := exchanging add
     let p := s.me.port s.me.pairPort
     (s.hart p.peer).wait = .mxchg add 0 0 ∧ (s.hart p.peer).run = .waiting ∧ p.flight = [] ∧ p.items = [] ∧
      ((s.hart p.peer).port p.peerPort).items = [] ∧ ((s.hart p.peer).port p.peerPort).flight = [] ∧
      (s.hart p.peer).shapeM = s.me.shapeM ∧ (s.hart p.peer).shapeN = s.me.shapeN ∧ (s.hart p.peer).lanes = s.me.lanes ∧
      issuesB s .mxchg (if add then ⟨0, 0, 0, 0, 0, 2, 0, 0, 0x100⟩ else ⟨0, 0, 0, 0, 0, 0, 0, 0, 0⟩) = true) ∧
      ((mat 0x3000000000000 1).hart 4).wait = .none := by decide +kernel

/-- An exchange that adds 32-bit floats, and one that the peer does with a plain exchange of its own. -/
theorem witness_MatrixForms_exchange_floats :
    (let s := (exchanging true).updHart 4 (fun H => { H with wait := .mxchg true 3 0 })
     (s.hart 4).wait = .mxchg true 3 0 ∧ issuesB s .mxchg ⟨0, 0, 0, 0, 0, 2, 3, 0, 0x100⟩ = true) ∧
    (let s := exchanging false
     (s.hart 4).wait = .mxchg false 0 0 ∧ false ≠ true ∧
       issuesB s .mxchg ⟨0, 0, 0, 0, 0, 2, 0, 0, 0x100⟩ = true) := by decide +kernel

theorem witness_MatrixForms_store :
    let s := mat 0 1
    (Claim.Reaches s .write 4 (fun i => s.getX 1 + BitVec.ofNat 64 (i / 1) * s.getX 0 + BitVec.ofNat 64 (i % 1 * 4))
      (fun i => i < 1 * 1) (fun _ => leaf 0x40001000) (fun _ => 0x40001000)) ∧ s.me.shapeM = 1 ∧ s.me.shapeN = 1 ∧
      Claim.AtOnce s ∧ Memory.wf s.mem = true := by
  exact ⟨reaches_of (n := 1) (fun _ hk => by omega) (by decide +kernel), by decide +kernel, by decide +kernel,
    atOnce_of (by decide +kernel), by decide +kernel⟩

/-- An operation of a group that changes nothing where it answers. -/
def Same (g : GOp Unit) : Prop := ∀ G s a u, g G s = .ok a u → a = ((), G) ∧ u = s

theorem same_pure : Same (pure ()) := by
  intro G s a u h
  cases h
  exact ⟨rfl, rfl⟩

theorem same_trap (c : Cause) (v : Word) : Same (gTrap c v) := by
  intro G s a u h
  cases h

theorem same_check (b : Bool) (c : Cause) (v : Word) : Same (gCheck b c v) := by
  unfold gCheck
  split
  · exact same_pure
  · exact same_trap c v

/-- An operation of a group that does not answer. -/
theorem same_never {g : GOp Unit} (h : ∀ G s a u, g G s ≠ .ok a u) : Same g :=
  fun G s a u e => absurd e (h G s a u)

theorem same_seq {f g : GOp Unit} (hf : Same f) (hg : Same g) : Same (f >>= fun _ => g) := by
  intro G s a u h
  have e : (f >>= fun _ => g) G s = (match f G s with
    | .ok x v => g x.2 v
    | .error e v => .error e v) := by
    simp only [bind, StateT.bind, EStateM.bind]
    cases f G s <;> rfl
  rw [e] at h
  cases k : f G s with
  | ok x v =>
    rw [k] at h
    obtain ⟨rfl, rfl⟩ := hf _ _ _ _ k
    exact hg _ _ _ _ h
  | error e v => rw [k] at h; cases h

theorem same_record (va : Word) : Same (recordCheck va) := by
  have body : ∀ (s : State) (k : Nat), Same (do
      let a := if k = 0 then va else BitVec.ofNat 64 ((va.toNat / 4096 + k) * 4096)
      if k = 0 ∨ a.toNat < va.toNat + 4672 then
        match s.translate s.cur s.me.sup .write a.toNat with
        | .error (.fault c) => do
          gLift (modify (fun s => s.endFailed s.cur a.toNat))
          gTrap c a
        | .error (.askHost p) => do
          let _ ← gLift (askHost p)
          pure ()
        | .ok l =>
          gCheck (!s.keyInvalid l.key) .access a
          gCheck (s.inSpadOf (tileOf s.cur) l.pa) .bankRole va) := by
    intro s k
    dsimp only
    generalize (if k = 0 then va else BitVec.ofNat 64 ((va.toNat / 4096 + k) * 4096)) = a
    split
    · split
      · exact same_never (fun G s a u h => nomatch h)
      · exact same_never (fun G s a u h => nomatch h)
      · exact same_seq (same_check _ _ _) (same_check _ _ _)
    · exact same_pure
  refine same_seq (same_check _ _ _) ?_
  intro G s a u h
  exact same_seq (body s 0) (same_seq (body s 1) (same_seq (body s 2) same_pure)) G s a u h

theorem recordCheck_ok {va : Word} {G : Grp} {s : State}
    (h : (match recordCheck va G s with
      | .ok _ _ => true
      | .error _ _ => false) = true) : recordCheck va G s = .ok ((), G) s := by
  split at h
  · rename_i a u k
    obtain ⟨rfl, rfl⟩ := same_record va G s a u k
    exact k
  · cases h

theorem witness_MatrixForms_record :
    let at_ (k : Nat) : Nat := 0x8000000000 + 4 * k
    (∀ kind ∈ [Kind.write, .read], Claim.Reaches (mat 0 1) kind 4 (fun k => 0x8000000000 + BitVec.ofNat 64 (4 * k))
      (fun k => k < 1168) (fun k => spadLeaf (at_ k)) at_) ∧ recordCheck 0x8000000000 (mat 0 1).openGroup (mat 0 1) =
        .ok ((), (mat 0 1).openGroup) (mat 0 1) ∧ natOf ((mat 0 1).bytesUnder (0x8000000000 + 4 * 2) 0 4) = 1 + 65536 * 1 := by
  refine ⟨?_, recordCheck_ok (by decide +kernel), by decide +kernel⟩
  intro kind hk
  refine reaches_of (fun _ h => h) ?_
  revert kind
  decide +kernel

/-- The table of `mcheck`, whose numbers are all zero. -/
theorem witness_MatrixForms_table :
    let s := mat 0 1
    let f (k : Nat) : FVal := fmtF32.decode false (natOf (s.bytesUnder (0x40001000 + 4 * k) 0 4))
    (s.getX 1).toNat % 64 = 0 ∧ reachesB s .read 4 (fun k => s.getX 1 + BitVec.ofNat 64 (4 * k)) 20
      (fun k => leaf (0x40001000 + 4 * k)) (fun k => 0x40001000 + 4 * k) = true ∧
      (∀ k < 20, s.poisoned (0x40001000 + 4 * k) 4 = false ∧ (f k).finite = true ∧ (f k).below0 = false) ∧
      (∀ k < 1168, s.poisoned (0x8000000000 + 4 * k) 4 = false) ∧
      (fmtF32.decode false (s.me.csr.sounde.toNat % 2 ^ 32)).finite = true ∧
      (fmtF32.decode false (s.me.csr.sounde.toNat % 2 ^ 32)).below0 = false := by decide +kernel

/-! ### The fabric's instructions -/

/-- A hart in fabric mode whose fabric is given. -/
def fab (f : Fabric → Fabric) : State :=
  hartWith (fun H => ({ H with csr := { H.csr with lpart := 0x30001, vcfg := 0x20005 }, fabric := f H.fabric } : Hart).setMode 2)

theorem witness_FabricForms_issue :
    ∀ e ∈ [(VOp.fload, (⟨0, 0, 0, 1, 0, 0, 0, 0, 0⟩ : VFields)), (.fgo, ⟨0, 0, 0, 0, 0, 0, 0, 0, 0⟩),
      (.fgoResume, ⟨0, 0, 0, 0, 0, 0, 0, 0, 0x20000⟩), (.fdrain, ⟨0, 0, 0, 0, 0, 0, 0, 0, 0⟩), (.fstat, ⟨1, 0, 0, 0, 0, 0, 0, 0, 0⟩),
      (.frel, ⟨0, 0, 0, 0, 0, 0, 0, 0, 0⟩)], Claim.Issues (fab id) e.1 e.2 := all_issue (by decide +kernel)

/-- A page without nodes. -/
def bare : Page := ⟨List.replicate 16 ⟨[], 0⟩, List.replicate 16 0, [], []⟩

/-- An active set of one page, with tokens and the memory chain at its start. -/
def active (g : Page) (fifos : List (BitVec 16 × List Word)) : ActiveSet :=
  { set := ⟨[g], 0, 0, 0⟩, unitPos := [], blocks := [], loops := [], fifos := fifos, control := [], chain := 0, stage := .start, rm := 0
    ftz := false, sup := true, startPc := 0, clusters := [0] }

/-- Staged sets that fit and that do not, a quiet region and one with a token, and a fault. -/
theorem witness_FabricForms_states :
    let staged (P : PageSet) := fab (fun F => { F with staged := some P })
    let P : PageSet := ⟨[bare], 0, 0, 0⟩
    let Q : PageSet := ⟨[bare], 1, 0, 0⟩
    (fab id).me.fabric.staged = none ∧ (fab id).me.quiet = true ∧ (fab id).me.fabric.fault = false ∧
      (fab (fun F => { F with fault := true })).me.fabric.fault = true ∧
      (fab (fun F => { F with active := some (active bare [(0, [1])]) })).me.quiet = false ∧
      (16 * P.pages.length ≤ (staged P).me.lanes ∧ P.qin &&& ~~~(staged P).me.fabric.inMask = 0 ∧
        P.qout &&& ~~~(staged P).me.fabric.outMask = 0) ∧ Q.qin &&& ~~~(staged Q).me.fabric.inMask ≠ 0 ∧
      issuesB (staged P) .fgo ⟨0, 0, 0, 0, 0, 0, 0, 0, 0⟩ = true ∧
      (let s := fab (fun F => { F with staged := some P, active := some (active bare [(0, [1])]) })
       s.me.quiet = false ∧ issuesB s .fgo ⟨0, 0, 0, 0, 0, 0, 0, 0, 0⟩ = true) ∧
      (active bare []).ifc < 65536 ∧
      (let s := gangIn (fab id)
       issuesB s .frel ⟨0, 0, 0, 0, 0, 0, 0, 0, 0⟩ = true ∧ s.gangOf s.cur = some (gang, 0)) := by decide +kernel

/-- What `frel` finds: no set, an operation of the memory chain at work, and one that has stopped with a fault. -/
theorem witness_FabricForms_release :
    let at_ (st : MemStage) (fault : Bool) := fab (fun F =>
      { F with active := some { active bare [] with stage := st }, fault := fault })
    (∀ s ∈ [fab id, at_ .start false, at_ (.issued 0 0) false, at_ (.issued 0 0) true],
      issuesB s .frel ⟨0, 0, 0, 0, 0, 0, 0, 0, 0⟩ = true) ∧
      ((fab id).me.fabric.staged = none ∧ (fab id).me.fabric.active = none) ∧
      ((at_ (.issued 0 0) false).me.fabric.fault = false ∧
        ∃ a, (at_ (.issued 0 0) false).me.fabric.active = some a ∧ a.busy = true) ∧
      (at_ .start false).me.fabric.active ≠ none ∧ ({ active bare [] with stage := .start } : ActiveSet).busy = false ∧
      (at_ (.issued 0 0) true).me.fabric.active ≠ none ∧ (at_ (.issued 0 0) true).me.fabric.fault = true :=
  ⟨by decide +kernel, by decide +kernel, ⟨by decide +kernel, _, rfl, rfl⟩, by decide +kernel, rfl, by decide +kernel,
    by decide +kernel⟩

/-- An image in the scratchpad, of one page without nodes or with a header of another kind. -/
def loading (magic : Byte) : State :=
  ({ (fab id).updTile 0 (fun T => { T with banks := T.banks.set 0 ⟨.spad, false, false⟩ }) with mem := if magic = 0 then [(0x8000000001, 0x42), (0x8000000002, 1), (0x8000000003, 1)]
      else [(0x8000000000, magic), (0x8000000001, 0x42), (0x8000000002, 1), (0x8000000003, 1)] } : State).setX 1 0x8000000000

/-- The 4096 bytes of that image. -/
def image (magic : Byte) : List Byte := [magic, 0x42, 1, 1] ++ List.replicate 4092 0

theorem flat_zeros (f : Nat → List Byte) (n : Nat) (h : ∀ k, k < n → f (k + 1) = List.replicate 8 0) :
    (List.range (n + 1)).flatMap f = f 0 ++ List.replicate (8 * n) 0 := by
  induction n with
  | zero => simp
  | succ m ih =>
    rw [List.range_succ, List.flatMap_append, ih (fun k hk => h k (by omega))]
    simp only [List.flatMap_cons, List.flatMap_nil, List.append_nil, h m (by omega), List.append_assoc,
      List.replicate_append_replicate]
    congr 2

theorem witness_FabricForms_load (magic : Byte) (h : magic = 0x46 ∨ magic = 0) :
    let s := loading magic
    let at_ (k : Nat) : Nat := 0x8000000000 + 8 * k
    Claim.Issues s .fload ⟨0, 0, 0, 1, 0, 0, 0, 0, 0⟩ ∧ (s.getX 1).toNat % 4096 = 0 ∧
      Claim.Reaches s .read 8 (fun k => s.getX 1 + BitVec.ofNat 64 (8 * k)) (fun k => k < 512 * 1)
        (fun k => spadLeaf (at_ k)) at_ ∧
      Claim.NoneKept s ∧ (∀ k < 512 * 1, s.poisoned (at_ k) 8 = false) ∧
      (List.range 512).flatMap (fun k => bytesOf 8 (Claim.vseen s (spadLeaf (at_ k)) (at_ k) 8)) = image magic := by
  have z : ∀ s : State, (∀ k < 511, Claim.vseen s (spadLeaf (0x8000000000 + 8 * (k + 1))) (0x8000000000 + 8 * (k + 1)) 8 = 0) →
      bytesOf 8 (Claim.vseen s (spadLeaf 0x8000000000) 0x8000000000 8) = [magic, 0x42, 1, 1, 0, 0, 0, 0] →
      (List.range 512).flatMap (fun k => bytesOf 8 (Claim.vseen s (spadLeaf (0x8000000000 + 8 * k))
        (0x8000000000 + 8 * k) 8)) = image magic := by
    intro s hs h0
    rw [flat_zeros _ 511 (fun k hk => by simp only [hs k hk]; rfl)]
    simp only [Nat.mul_zero, Nat.add_zero, h0, image]
    rfl
  rcases h with rfl | rfl
  all_goals exact ⟨issues_of (by decide +kernel), by decide +kernel, reaches_of (fun _ hk => hk) (by decide +kernel),
    (atOnce_of (by decide +kernel)).2.2, by decide +kernel, z _ (by decide +kernel) (by decide +kernel)⟩

theorem drop_zeros (a b c d : Byte) (n k : Nat) :
    ([a, b, c, d] ++ List.replicate n (0 : Byte)).drop (k + 4) = List.replicate (n - k) 0 := by simp

theorem drop_image {magic : Byte} {off : Nat} (h : 4 ≤ off) :
    (image magic).drop off = List.replicate (4092 - (off - 4)) 0 := by
  have e := drop_zeros magic 0x42 1 1 4092 (off - 4)
  rwa [Nat.sub_add_cancel h] at e

theorem zeroAt_image {magic : Byte} {off n : Nat} (h : 4 ≤ off) : zeroAt (image magic) off n = true := by
  simp [zeroAt, drop_image h, List.take_replicate]

theorem leAt_image {magic : Byte} {off n : Nat} (h : 4 ≤ off) : leAt (image magic) off n = 0 := by
  have e : ∀ m, (List.replicate m (0 : Byte)).foldr (fun b acc => b.toNat + 256 * acc) 0 = 0 := by
    intro m
    induction m with
    | zero => rfl
    | succ k ih => rw [List.replicate_succ, List.foldr_cons, ih]; rfl
  rw [leAt, drop_image h, List.take_replicate, e]

theorem pages_image : pageSetOf [image 0x46#8] = ⟨[bare], 0, 0, 0⟩ := by
  simp [pageSetOf, pageOf, leAt_image, bare, List.range, List.range.loop]

theorem header_image : headerBad [image 0x46#8] 0 = false := by
  have h0 : leAt (image 0x46#8) 0 1 = 0x46 := by decide +kernel
  have h1 : leAt (image 0x46#8) 1 1 = 0x42 := by decide +kernel
  have h2 : leAt (image 0x46#8) 2 1 = 1 := by decide +kernel
  have h3 : leAt (image 0x46#8) 3 1 = 1 := by decide +kernel
  have g : ([image 0x46#8][0]?).getD [] = image 0x46#8 := rfl
  unfold headerBad
  rw [g]
  simp (disch := omega) only [List.headD_cons, leAt_image, zeroAt_image, h0, h1, h2, h3]
  decide

theorem first_image : leAt (image 0x46#8) 3 1 = 1 := by decide +kernel

theorem kind_image : headerBad [image 0#8] 0 = true := by
  have h : leAt (image 0#8) 0 1 = 0 := by decide +kernel
  have g : ([image 0#8][0]?).getD [] = image 0#8 := rfl
  unfold headerBad
  rw [g]
  simp [h]

theorem pageFault_one (b : List Byte) (P : PageSet) (h : Bool) (hP : pageSetOf [b] = P) (hh : headerBad [b] 0 = h) :
    pageFault [b] = ([(1, h), (2, unitsBad P 0), (3, operatorsBad P 0), (4, endpointsBad P 0), (5, sharedBad P 0),
      (6, inputsBad P 0), (7, chainBad P 0), (8, quantBad P 0), (9, depthBad P 0), (10, typesBad P 0)] :
        List (Nat × Bool)).findSome? (fun e => if e.2 then some (e.1, 0) else none) := by
  subst hP hh
  simp [pageFault, List.range, List.range.loop, List.findSome?]

theorem witness_FabricForms_pages :
    pageFault [image 0x46#8] = none ∧ pageFault [image 0#8] = some (1, 0) ∧ (0x40001008 : Word).toNat % 4096 ≠ 0 := by
  refine ⟨?_, ?_, by decide⟩
  · rw [pageFault_one _ _ _ pages_image header_image]
    decide +kernel
  · rw [pageFault_one _ _ _ rfl kind_image]
    rfl

end Sys2Proof.Tests
end

