-- ==== Sys2Proof/Tests/WitnessFirings.lean ====
section
/-!
SUPPORT. For every clause with hypotheses of the statements about the firings of the fabric: a state and operands
that meet them all.
-/

namespace Sys2Proof.Tests

open Sys2Proof Sys2Proof.Machine

set_option maxRecDepth 100000
-- One kernel evaluation at a time, so that the check needs little memory.
set_option Elab.async false

theorem assoc_mem {κ α : Type} [DecidableEq κ] {l : List (κ × α)} {k : κ} {v : α} (h : assoc l k = some v) :
    (k, v) ∈ l := by
  induction l with
  | nil => cases h
  | cons p t ih =>
    obtain ⟨k', b⟩ := p
    unfold assoc at h
    split at h
    · rename_i e
      cases h
      exact e ▸ List.mem_cons_self
    · exact List.mem_cons_of_mem _ (ih h)

/-- The region of a state is still where its links come from nodes and its tokens are at nodes. -/
def stillB (s : State) (a : ActiveSet) : Bool :=
  decide (s.me.fabric.active = some a) && !s.me.fabric.fault && a.control.isEmpty &&
    a.set.linksOf.all (fun l => epKind l.2.src != 2) && a.fifos.all (fun f => epKind f.1 != 2 && epKind f.1 != 4)

theorem still_of {s : State} {a : ActiveSet} (h : stillB s a = true) : Claim.Still s a := by
  simp only [stillB, Bool.and_eq_true, decide_eq_true_eq, List.isEmpty_iff, Bool.not_eq_true', List.all_eq_true,
    bne_iff_ne] at h
  obtain ⟨⟨⟨⟨h1, h2⟩, h3⟩, h4⟩, h5⟩ := h
  refine ⟨h1, h2, h3, fun l hl k => absurd k (h4 l hl), fun e he => ?_⟩
  unfold ActiveSet.tokens
  cases k : assoc a.fifos e with
  | none => rfl
  | some v =>
    have := h5 _ (assoc_mem k)
    exact (he.elim this.1 this.2).elim

/-- A source has room for a token. -/
def freeB (a : ActiveSet) (src : BitVec 16) : Bool :=
  match a.set.linkFrom src with
  | none => true
  | some l => decide (l.stype = l.dtype ∧ l.dsts.Nodup) &&
      l.dsts.all (fun e => epKind e != 2 && epKind e != 4 && decide ((a.tokens e).length < l.depth))

theorem free_of {a : ActiveSet} {src : BitVec 16} (h : freeB a src = true) : Claim.Free a src := by
  intro l hl
  unfold freeB at h
  rw [hl] at h
  simp only [Bool.and_eq_true, decide_eq_true_eq, List.all_eq_true, bne_iff_ne] at h
  exact ⟨h.1.1, h.1.2, fun e he => ⟨(h.2 e he).1.1, (h.2 e he).1.2, (h.2 e he).2⟩⟩

/-- The state whose active set is given. -/
def firing (a : ActiveSet) : State := fab (fun F => { F with active := some a })

/-! ### Units -/

/-- A unit with one instruction, a token at its ports 0 and 1, and a link from its port 2 to the next unit. -/
def unit1 (o : UOp) (u : UFields) : ActiveSet :=
  active { bare with
    units := ⟨[encodeUnit o u], 0⟩ :: List.replicate 15 ⟨[], 0⟩
    links := [⟨endpoint 0 0 0 2, [endpoint 0 0 1 0], 1, false, 0, 0⟩] } [(endpoint 0 0 0 0, [5]), (endpoint 0 0 0 1, [3])]

/-- What the statement asks of a unit that fires. -/
def fireB (o : UOp) (u : UFields) : Bool :=
  let a := unit1 o u
  stillB (firing a) a && o.fieldsOk u && decide ((a.set.unit 0 0).prog[a.pos 0 0]? = some (encodeUnit o u)) &&
    (unitInputs o u).all (fun p => decide (a.tokens (endpoint 0 0 0 p) ≠ [])) && freeB a (endpoint 0 0 0 2) &&
    decide ((firing a).focus = (0, 0))

theorem witness_UnitFirings :
    [2, 8, 31].all (fun d => [UOp.mov, .add, .sub, .mul, .min, .max, .and, .or, .xor, .shl, .shr, .seq, .slt, .sle].all
      (fun o => fireB o ⟨0, 2, 0, 0, 1, d⟩)) = true := by decide +kernel

theorem witness_UnitFirings_floats :
    [2, 8, 31].all (fun d => [UOp.fadd, .fsub, .fmul, .fmin, .fmax].all (fun o => fireB o ⟨3, 2, 0, 0, 1, d⟩) &&
      [UOp.bamax, .qcvt].all (fun o => fireB o ⟨8, 2, 0, 0, 1, d⟩)) = true ∧ fireB .fmac ⟨3, 2, 0, 0, 1, 8⟩ = true := by
  decide +kernel

/-- A block that lacks one value, and one that lacks more; a scale that is a number. -/
theorem witness_UnitFirings_blocks :
    let a : ActiveSet := { unit1 .bamax ⟨8, 2, 0, 0, 1, 2⟩ with blocks := [((0, 0, 0), ⟨List.replicate 31 1, 0⟩)] }
    stillB (firing a) a = true ∧ (((assoc a.blocks (0, 0, 0)).getD ⟨[], 0⟩).vals ++ [5]).length = 32 ∧
      (((assoc (unit1 .bamax ⟨8, 2, 0, 0, 1, 2⟩).blocks (0, 0, 0)).getD ⟨[], 0⟩).vals ++ [5]).length < 32 ∧
      (3 : Word).toNat % 256 ≠ 255 := by decide +kernel

/-! ### Operators and the memory chain -/

/-- An operator with its tokens, a state of its loop, and links from its outputs. -/
def router (k : Nat) (toks : List (Nat × Word)) (loop : Option (Option Word)) : ActiveSet :=
  { active { bare with
      ops := k :: List.replicate 15 0
      links := [⟨endpoint 1 0 0 4, [endpoint 0 0 1 0], 1, false, 0, 0⟩, ⟨endpoint 1 0 0 5, [endpoint 0 0 2 0], 1, false, 0, 0⟩] }
      (toks.map (fun t => (endpoint 1 0 0 t.1, [t.2]))) with
    loops := match loop with
      | some v => [((0, 0), v)]
      | none => [] }

def routerB (k : Nat) (toks : List (Nat × Word)) (loop : Option (Option Word)) : Bool :=
  let a := router k toks loop
  stillB (firing a) a && decide (a.set.operator 0 0 = k) && freeB a (endpoint 1 0 0 4) && freeB a (endpoint 1 0 0 5) &&
    decide (assoc a.loops (0, 0) = loop) && toks.all (fun t => (a.tokens (endpoint 1 0 0 t.1)).head? == some t.2)

theorem witness_OperatorFirings :
    [(0 : Word), 1].all (fun x => routerB 1 [(0, x), (1, 7)] none && routerB 2 [(0, x), (2, 7)] (some none) &&
      routerB 3 [(0, x)] (some (some 9)) && routerB 4 [(0, x), (1, 7), (2, 8)] none) = true ∧
      routerB 2 [(1, 7)] none = true ∧ routerB 3 [(1, 7)] none = true := by decide +kernel

/-- One memory operation of 4 bytes with a predicate, an address and a datum, and a link from its result. -/
def chained (kind : Nat) (p va : Word) : ActiveSet :=
  active { bare with
    mems := [⟨kind, 2, 1, 0, 0, true⟩]
    links := [⟨endpoint 3 0 0 4, [endpoint 0 0 1 0], 1, false, 0, 0⟩] }
    [(endpoint 3 0 0 0, [p]), (endpoint 3 0 0 1, [va]), (endpoint 3 0 0 2, [7])]

def chainedB (kind : Nat) (p va : Word) : Bool :=
  let a : ActiveSet := { chained kind p va with sup := true }
  stillB (firing a) a && decide (a.nextOp = some (0, 0, ⟨kind, 2, 1, 0, 0, true⟩)) &&
    decide (a.stage = .start) && decide ((a.tokens (endpoint 3 0 0 0)).head? = some p ∧
      (a.tokens (endpoint 3 0 0 1)).head? = some va ∧ (a.tokens (endpoint 3 0 0 2)).head? = some 7) && freeB a (endpoint 3 0 0 4)

theorem witness_OperatorFirings_memory :
    [1, 2].all (fun kind => [0, 1].all (fun p => chainedB kind p 0x40001000)) = true ∧ chainedB 1 1 0xC0000000 = true ∧
      (let s := firing (chained 1 1 0x40001000)
       s.reach s.cur true .read 0x40001000 = .to (leaf 0x40001000) 0x40001000 ∧
       s.reach s.cur true .write 0x40001000 = .to (leaf 0x40001000) 0x40001000 ∧ s.poisoned 0x40001000 4 = false ∧
       s.peerWaits 0x40001000 = false ∧ (s.dirAt (0x40001000 / 128)).isNone = true ∧ atOnceB s = true ∧
       (∀ w, quietAt s (.region s.cur) (.hart s.cur) (0x40001000 / 128) w = true) ∧
       s.reach s.cur true .read 0xC0000000 = .fault .pageFault ∧
       s.reach s.cur true .write 0xC0000000 = .fault .pageFault) := by decide +kernel

/-- A control token of tag 0 or 3 for rank 0 of the gang, which has an active set of tag 0. -/
def tokened (tag : BitVec 16) (staged : Option PageSet) : State :=
  ({ gangIn (fab (fun F => { F with active := some (active bare []), staged := staged })) with
    tokens := [⟨5, (1, 0), 1, 0, 15, tag⟩] } : State)

theorem witness_OperatorFirings_tokens :
    ∀ e ∈ [((0 : BitVec 16), (none : Option PageSet)), (3, some ⟨[bare], 0, 0, 3⟩), (3, none)],
      let s := tokened e.1 e.2
      stillB s (active bare []) = true ∧ s.tokens = [⟨5, (1, 0), 1, 0, 15, e.1⟩] ∧ s.tokenFirst 0 ⟨5, (1, 0), 1, 0, 15, e.1⟩ = true ∧
      (s.gang? 5).bind (fun G => G.member? 0) = some ⟨0, 0, false, none⟩ ∧ s.me.gang = some (5, 0) ∧ s.me.mode = 2 ∧
      (active bare []).set.linkFrom (endpoint 4 0 0 0) = none ∧ s.me.fabric.staged = e.2 ∧
      s.me.fabric.heldTokens.length < 64 := by decide +kernel

/-- An active set of tag 0 with a link from its control port 0. -/
def controlled : ActiveSet :=
  active { bare with links := [⟨endpoint 4 0 0 0, [endpoint 0 0 1 0, endpoint 1 0 0 1], 1, false, 0, 0⟩] } []

theorem witness_OperatorFirings_linked :
    let s : State := { tokened 0 none with tokens := [⟨5, (1, 0), 1, 0, 15, 0⟩] }
    let u := s.updMe (fun H => { H with fabric := { H.fabric with active := some controlled } })
    stillB u controlled = true ∧ u.tokenFirst 0 ⟨5, (1, 0), 1, 0, 15, 0⟩ = true ∧ controlled.set.tag = 0 ∧
      (controlled.set.linkFrom (endpoint 4 0 0 0)).isSome = true ∧ freeB controlled (endpoint 4 0 0 0) = true ∧
      (controlled.set.linksOf.all (fun p => epKind p.2.src != 4 ||
        decide (some p.2 = controlled.set.linkFrom (endpoint 4 0 0 0)))) = true ∧
      (u.updMe (fun H => { H with run := .halted })).me.run = .halted ∧ u.me.run ≠ .halted := by decide +kernel

/-- A page can move to cluster 2 where the memory chain is at rest, without a candidate that cannot be placed and
with one. -/
theorem witness_OperatorFirings_move :
    let s := firing (active bare [])
    let b := s.updDie (dieOf (tileOf s.cur)) (fun D => { D with blocked := [(0, false, 0)] })
    (∀ u ∈ [s, b], stillB u (active bare []) = true ∧ (u.heldClusters (tileOf u.cur)).getLsbD 2 = false ∧
      (u.freedFor (tileOf u.cur)).getLsbD 2 = false) ∧ (active bare []).clusters[0]? = some 0 ∧
      (active bare []).busy = false ∧ (b.die (dieOf (tileOf b.cur))).blocked ≠ [] := by decide +kernel

end Sys2Proof.Tests
end

