-- ==== Sys2Proof/Tests/WitnessKernel.lean ====
section
/-!
SUPPORT. For every clause with hypotheses of the statements about kernels, capsules, lanes, modes and pairing: a
state and operands that meet them all.
-/

namespace Sys2Proof.Tests

open Sys2Proof Sys2Proof.Machine

set_option maxRecDepth 100000
-- One kernel evaluation at a time, so that the check needs little memory.
set_option Elab.async false

/-! ### Kernels -/

/-- The gang whose other hart has ended. -/
def lastHart : State :=
  { ganged with gangs := [{ gang with members := [⟨0, 0, false, none⟩, ⟨1, 1, true, none⟩] }] }

theorem witness_KernelForms :
    ganged.gangOf ganged.cur = some (gang, 0) ∧ gang.launch.levels[0]? = some ⟨1, 2⟩ ∧ gang.launch.levels.length ≤ 1 ∧
      ganged.me.cap.held = none ∧ ganged.me.cap.land = false ∧ (∀ t ∈ ganged.me.streams.toList, t.cfg = false) ∧
      ganged.me.releasing = [] ∧ ganged.delayed = [] ∧ (∃ m ∈ gang.members, m.rank ≠ 0 ∧ m.done = false) ∧
      (∃ m ∈ gang.members, m.ctx = ganged.cur) := by decide +kernel

theorem witness_KernelForms_last :
    ∃ G, lastHart.gangOf lastHart.cur = some (G, 0) ∧ (∀ m ∈ G.members, m.rank ≠ 0 → m.done = true) ∧
      (∃ m ∈ G.members, m.ctx = lastHart.cur) :=
  ⟨{ gang with members := [⟨0, 0, false, none⟩, ⟨1, 1, true, none⟩] }, by decide +kernel⟩

/-- A capsule of the gang, of two steps, from rank 0. -/
def capsule : Capsule :=
  { gang := 5, origin := 0, id := 9, hops := 0, cur := 0, nsteps := 2, fmt := 0, status := 0, fault := 0, slot := 0
    user := 0, steps := [0, 1, 0, 0, 0, 0, 0, 0], payload := [], sent := (0, 4) }

/-- A hart that lands capsules and holds one, with its service buffer at 0x40005000. -/
def holding (c : Capsule) (rewrite : Bool) : State :=
  (ganged.updMe (fun H => { H with cap := { H.cap with
    send := true, land := true, buf := 0x40005000, sup := true, table := 0x40006000, code := 0x40007000, slots := 2
    inUse := [0], held := some (c, rewrite) } })).putBytes 0x40005000 0 (c.bytes 0)

theorem witness_KernelForms_held : (holding capsule false).me.cap.held.isSome = true := by decide +kernel

/-- A launch record at 0x10000 of the kernel at 0x11000, which an object loaded holds. -/
def recorded : State :=
  ((({ base with loaded := [⟨[], 0, 0, [(1, 0x12000, 0x100), (6, 0x11000, 48)], []⟩] } : State).putBytes 0x10000 0
    (leBytes 32 0x11000 ++ leBytes 4 1 ++ [1, 3])).setX 1 0x10000)

theorem witness_KernelForms_launch :
    ∃ p u, loadParts (recorded.getX 1) (fun r => if recorded.me.sup then r else recorded.me.space) recorded = .ok p u ∧
      (decide ((recorded.getX 1).toNat % 64 = 0) && (u.raise (fun e => e.hart == u.cur) 3).me.sup &&
        (match (u.raise (fun e => e.hart == u.cur) 3).checkLaunch (!recorded.me.sup) (decide ((0 : Word).toNat < 128)) 0 0 0 p with
          | .ok _ => true
          | .error _ => false)) = true := answers_of (by decide +kernel)

theorem witness_KernelForms_codes :
    (∃ p u, loadParts (recorded.getX 1) (fun _ => 0) (recorded.updMe (fun H => { H with sup := false })) = .ok p u ∧
      (!((u.raise (fun e => e.hart == u.cur) 3).qcfgOf 0 0).getLsbD 7) = true) ∧ 128 ≤ (0x80 : Word).toNat ∧ (0x10020 : Nat) % 64 ≠ 0 :=
  ⟨answers_of (by decide +kernel), by decide, by decide⟩

/-! ### Capsules -/

/-- A descriptor of a pool of one slot at 0x40010000 and a service buffer in the scratchpad. -/
def landing : State :=
  (scratch.putBytes 0x40001000 0 (leBytes 24 0x8000000000 ++ leBytes 8 0x40010000 ++ leBytes 2 1)).setX 1 0x40001000

theorem witness_CapsuleSending_land :
    ∃ bs u, loadBytes (landing.getX 1) 64 landing = .ok bs u ∧
      (answers (poolFrames (leAt bs 24 8) (leAt bs 24 8 + 16448 * leAt bs 32 2) (16448 * leAt bs 32 2 / 4096 + 2)) u
        (fun _ v => answers (ringPages (leAt bs 0 8) (leAt bs 0 8 + 16448) 6) v (fun ls w =>
          decide (leAt bs 24 8 % 64 = 0 ∧ 1 ≤ leAt bs 32 2 ∧ leAt bs 32 2 ≤ 256 ∧ (bs.drop 34).all (fun x => x == 0) = true ∧
            leAt bs 0 8 % 64 = 0 ∧ leAt bs 8 8 % 8 = 0) && ls.all (fun l => w.inSpadOf (tileOf w.cur) l.pa) &&
          !w.me.cap.land && (w.claimFifo (tileOf w.cur)).isSome &&
          !(hartsOf (tileOf w.cur)).any (fun h => (w.hart h).cap.land)))) = true := answers_of (by decide +kernel)

/-- A descriptor of a pool alone. -/
def pooling : State :=
  (base.putBytes 0x40001000 0 (leBytes 24 0 ++ leBytes 8 0x40010000 ++ leBytes 2 1)).setX 1 0x40001000

theorem witness_CapsuleSending_send :
    ∃ bs u, loadBytes (pooling.getX 1) 64 pooling = .ok bs u ∧
      (answers (poolFrames (leAt bs 24 8) (leAt bs 24 8 + 16448 * leAt bs 32 2) (16448 * leAt bs 32 2 / 4096 + 2)) u
        (fun _ _ => decide (leAt bs 24 8 % 64 = 0 ∧ leAt bs 32 2 = 1 ∧ (bs.drop 34).all (fun x => x == 0) = true ∧
          leAt bs 0 8 = 0 ∧ leAt bs 8 8 = 0 ∧ leAt bs 16 8 = 0))) = true := answers_of (by decide +kernel)

/-- The other answers of `cap.land`: a pool in use that would change, another landing on the tile, no FIFO bank. -/
theorem witness_CapsuleSending_refusals :
    (let q := (holding capsule false).me.cap
     q.send = true ∧ q.inUse ≠ [] ∧ (q.poolBase.toNat ≠ 0x40010000 ∨ q.slots ≠ 1)) ∧
      (∃ c : Fin 4, hartAt (tileOf base.cur) c ≠ base.cur ∧
        ((base.updHart 1 (fun H => { H with cap := { H.cap with land := true } })).hart (hartAt (tileOf base.cur) c)).cap.land = true) ∧
      granting.claimFifo (tileOf granting.cur) = none ∧ base.me.cap.held = none ∧ base.me.cap.send = false ∧
      base.me.cap.land = false := ⟨by decide +kernel, ⟨1, by decide +kernel⟩, by decide +kernel⟩

/-- A capsule image at 0x40001000 with one step, to rank 1, by a hart with a pool of two slots, the first in use. -/
def sending : State :=
  ((ganged.updMe (fun H => { H with cap := { H.cap with send := true, slots := 2, inUse := [0] } })).updHart 1
    (fun H => { H with cap := { H.cap with land := true } })).putBytes 0x40001000 0
      (leBytes 8 9 ++ [1, 0] ++ leBytes 22 0 ++ leBytes 4 1) |>.setX 1 0x40001000

theorem witness_CapsuleSending_capsule :
    ∃ head u, loadRun (sending.getX 1) 8 sending = .ok head u ∧
      (imageOk head && sending.me.cap.send && answers (loadRun (sending.getX 1 + 64) (leAt head 10 2 / 8)) u (fun _ v =>
        v.gangOf v.cur == some (gang, 0) && decide (1 < v.me.cap.slots) && !v.me.cap.inUse.contains 1 &&
          v.me.cap.inUse.contains 0 && decide (leAt head 32 4 / 2 ^ 12 % 16 = 0) &&
          decide (leAt head 32 4 % 2 ^ 12 = 1) && (v.capOf 5 1).land)) = true := answers_of (by decide +kernel)

theorem witness_CapsuleSending_full :
    ∀ n < (holding capsule false |>.updMe (fun H => { H with cap := { H.cap with slots := 1 } })).me.cap.slots,
      n ∈ (holding capsule false).me.cap.inUse := by decide +kernel

/-- A landing with a capsule in its ring, and with none. -/
def receiving (entry : Nat) : State :=
  ((holding capsule false).updMe (fun H => { H with cap := { H.cap with held := none, ring := [capsule] } })).putBytes
    0x40006000 0 (leBytes 8 entry)

theorem witness_CapsuleSending_receive :
    let s := receiving 0x100000010
    (s.me.cap.land = true ∧ s.me.cap.held = none ∧ s.me.cap.ring = capsule :: [] ∧ s.me.gang = some (5, 0)) ∧
      (∃ e u, (loadScalar (s.me.cap.table + BitVec.ofNat 64 (8 * ((capsule.step capsule.cur).toNat / 2 ^ 16 % 2 ^ 8)))
        8 : Op Nat) s = .ok e u ∧ (decide (e % 2 ^ 32 ≠ 2 ^ 32 - 1) &&
          answers (copyToBuf (capsule.bytes (u.ctxOfRank 5 0))) u
            (fun _ _ => true)) = true) ∧
      (∃ e u, (loadScalar 0x40006000 8 : Op Nat) (receiving 0xFFFFFFFF) = .ok e u ∧
        (decide (e % 2 ^ 32 = 2 ^ 32 - 1) && (u.capOf 5 0).land) = true) :=
  ⟨by decide +kernel, answers_of (by decide +kernel), answers_of (by decide +kernel)⟩

theorem witness_CapsuleSending_waits :
    (holding capsule false).me.cap.land = true ∧ (holding capsule false).me.cap.held.isSome = true ∧
      ((holding capsule false).updMe (fun H => { H with cap := { H.cap with held := none } })).me.cap.ring = [] := by
  decide +kernel

/-- The held capsule, at its first step and at its last. -/
theorem witness_CapsuleService_forward :
    (∃ c u, heldCapsule (holding capsule false) = .ok c u ∧
      (decide (c.cur + 1 < c.nsteps) && decide (c.hops ≠ 255) && decide (stepKind (c.step (c.cur + 1)) = 0) &&
        decide (stepTile (c.step c.cur) = 0) && u.me.gang == some (5, 0) && (u.capOf 5 0).land &&
        decide (c.nsteps ≤ c.nsteps) && decide (u.gang? 5 = some gang)) = true) ∧
    (∃ c u, heldCapsule (holding { capsule with hops := 255 } false) = .ok c u ∧
      (decide (c.hops = 255) && (u.capOf c.gang c.origin).land) = true) :=
  ⟨answers_of (by decide +kernel), answers_of (by decide +kernel)⟩

theorem witness_CapsuleService_others :
    base.me.cap.held = none ∧ base.me.sup = true ∧ atUser.me.sup = false ∧ (128 : Nat) ≤ (0x80 : Word).toNat ∧
      (0x80 : Word).toNat < 256 ∧ (0x7F : Word).toNat < 128 ∧ (holding capsule false).me.cap.land = true ∧
      base.me.cap.land = false := by decide +kernel

/-- A capsule that may be edited: an operand after its step, before its end, and outside. -/
theorem witness_CapsuleService_edit :
    let s := holding capsule true
    s.me.cap.held = some (capsule, true) ∧ capsule.steps.length = 8 ∧ capsule.nsteps ≤ 8 ∧
      (capsule.cur < 1 ∧ 1 < capsule.nsteps) ∧ capsule.cur < 2 ∧ 2 ≤ capsule.nsteps ∧ 0 ≤ capsule.cur ∧
      capsule.nsteps < 3 ∧ (stepKind 1 ≤ 1 ∧ stepKind 0x1000 = 1 ∧ stepTile 0x1000 = 0) ∧
      ¬ stepKind 0x2000 ≤ 1 ∧ ({ capsule with nsteps := 8 } : Capsule).nsteps = 8 := by decide +kernel

theorem witness_CapsuleService_edit_words :
    (((capsule.steps.set 1 0x1000000).getD (2 - 1) 0).getLsbD 24 = true) ∧
      ((capsule.steps.set 1 1).getD (2 - 1) 0).getLsbD 24 = false ∧
      (∃ l u, reachAs (holding capsule true).me.cap.sup .write (holding capsule true).me.cap.buf 64 (holding capsule true) =
        .ok l u) := by
  obtain ⟨l, u, h, -⟩ := answers_of (op := reachAs (holding capsule true).me.cap.sup .write
    (holding capsule true).me.cap.buf 64) (s := holding capsule true) (test := fun _ _ => true) (by decide +kernel)
  exact ⟨by decide, by decide, l, u, h⟩

/-! ### Lanes, modes and pairing -/

/-- A hart that owns a cluster of two granted, in a lane mode, at 32-bit width. -/
def lanes (mode : Nat) : State :=
  hartWith (fun H => ({ H with csr := { H.csr with lpart := 0x30001, vcfg := 0x20000 } }).setMode mode)

theorem witness_LaneForms_lanes :
    (lanes 0).me.mode = 0 ∧ (5 : BitVec 3).toNat ≤ 5 ∧ (∀ q ∈ (lanes 0).me.ports.toList, q.isOpen = false) ∧
      min ((withX 1 1).getX 1).toNat 16 = popcount (fld (lanes 0).me.csr.lpart 0 16) ∧
      min ((withX 1 2).getX 1).toNat 16 ≠ popcount (fld (lanes 0).me.csr.lpart 0 16) ∧
      (lanes 1).me.mode = 1 ∧ (lanes 2).me.mode = 2 ∧ 0 < (lanes 0).me.lanes ∧ base.me.mode = 0 ∧
      base.me.lanes = 0 := by decide +kernel

/-- Crossings: one open, and a paired one. -/
def paired : State :=
  (lanes 1).updMe (fun H => { H with
    ports := H.ports.set 0 { Port.reset with isOpen := true, peer := 4, paired := true }
    csr := { H.csr with tshape := setBit H.csr.tshape 48 true } })

theorem witness_LaneForms_modes :
    (∃ q ∈ paired.me.ports.toList, q.isOpen = true) ∧ paired.me.paired = true ∧
      (paired.me.port paired.me.pairPort).isOpen = true ∧ (lanes 1).me.paired = false ∧ (0 : Word).toNat < 2 ^ 48 ∧
      2 ^ 48 ≤ (0x1000000000000 : Word).toNat := by decide +kernel

theorem witness_LaneForms_fabric :
    ((1 : Word) ||| 2).toNat < 2 ^ 24 ∧ (1 : Word) &&& 2 = 0 ∧ 2 ^ 24 ≤ ((0x1000000 : Word) ||| 0).toNat ∧
      (1 : Word) &&& 1 ≠ 0 ∧ (0 : Nat) < 2 ^ 16 := by decide

/-- A hart in fabric mode with the queue register 0. -/
def queued : State := (lanes 2).updMe (fun H => { H with fabric := { H.fabric with qw := 2, queues := [(0, [7])] } })

theorem witness_LaneForms_leave :
    queued.me.mode = 2 ∧ queued.me.quiet = true ∧ (∀ r < 64, (1 : Word).getLsbD r = true →
      (assoc queued.me.fabric.queues r).isSome = true) ∧ (queued.me.fabric.queue 0).length < 2 ^ 16 ∧
      (∃ r < 64, (2 : Word).getLsbD r = true ∧ assoc queued.me.fabric.queues r = none) ∧
      (queued.me.fabric.queues.map (fun q => q.1)).Nodup := by decide +kernel

/-- A region with a fault on its chain is not quiet. -/
theorem witness_LaneForms_busy :
    let a : ActiveSet :=
      { set := ⟨[], 0, 0, 0⟩, unitPos := [], blocks := [], loops := [], fifos := [(0, [1])], control := [], chain := 0
        stage := .start, rm := 0, ftz := false, sup := true, startPc := 0, clusters := [] }
    (queued.updMe (fun H => { H with fabric := { H.fabric with active := some a } })).me.quiet = false := by
  decide +kernel

/-- Hart 0 meets hart 4 of another tile in its gang, which waits as the other role. -/
def meeting : State :=
  ((({ (lanes 1) with gangs := [{ gang with members := [⟨0, 0, false, none⟩, ⟨1, 4, false, none⟩] }] } : State).updMe
    (fun H => { H with gang := some (5, 0) })).updHart 4 (fun H =>
      ({ H with run := .waiting, wait := .mpair 3 0x1000, gang := some (5, 1), sup := true, csr := { H.csr with
        lpart := 0x30001 } } : Hart).setMode 1)).setX 1 0x0001

theorem witness_LaneForms_pair :
    meeting.me.mode = 1 ∧ (4 : HartId) ≠ meeting.cur ∧ (meeting.getX 1).toNat < 2 ^ 13 ∧
      (meeting.getX 1).toNat % 2 ^ 8 * 4 + (meeting.getX 1).toNat / 2 ^ 8 % 4 = (4 : HartId).val ∧
      meeting.me.paired = false ∧ ¬ (meeting.me.wait = .mpair 2 (meeting.getX 1) ∧ 1048576 ≤ meeting.me.waited) ∧
      (meeting.hart 4).wait = .mpair 3 0x1000 ∧ (meeting.hart 4).run = .waiting ∧ (meeting.hart 4).waited < 1048576 ∧
      Claim.NamesBack 0x1000 meeting.cur 4 ∧ (0x1000 : Word).getLsbD 12 ≠ (meeting.getX 1).getLsbD 12 ∧
      meeting.sameGang meeting.cur 4 = true ∧ meeting.me.lanes = (meeting.hart 4).lanes ∧
      meeting.portFree meeting.cur 0 = true ∧ meeting.portFree 4 0 = true := by
  refine ⟨?_, ?_, ?_, ?_, ?_, ?_, ?_, ?_, ?_, ⟨?_, ?_, ?_⟩, ?_⟩ <;> decide +kernel

/-- The crossing of those two opens: each tile has a FIFO bank to claim. -/
theorem witness_LaneForms_pair_opens :
    tileOf meeting.cur ≠ tileOf 4 ∧ ∃ v b u b', meeting.claimFifo (tileOf meeting.cur) = some (v, b) ∧
      v.claimFifo (tileOf 4) = some (u, b') :=
  have h : (meeting.claimFifo (tileOf meeting.cur)).any (fun e => (e.1.claimFifo (tileOf 4)).isSome) = true := by
    decide +kernel
  have ⟨⟨v, b⟩, hv, hu⟩ := (Option.any_eq_true ..).mp h
  have ⟨⟨u, b'⟩, hu⟩ := Option.isSome_iff_exists.mp hu
  ⟨by decide +kernel, v, b, u, b', hv, hu⟩

/-- A hart whose wait in an `mpair` has run out, and a pair that cannot be opened. -/
theorem witness_LaneForms_pair_ends :
    (let s := meeting.updMe (fun H => { H with wait := .mpair 2 1, waited := 1048576 })
     s.me.wait = .mpair 2 (s.getX 1) ∧ 1048576 ≤ s.me.waited ∧ s.me.paired = false ∧ s.me.mode = 1) ∧
      (meeting.updHart 4 (fun H => { H with waited := 1048576 })).me.lanes ≠ 0 ∧
      1048576 ≤ ((meeting.updHart 4 (fun H => { H with waited := 1048576 })).hart 4).waited ∧
      ((lanes 1).hart 4).wait = .none ∧
      (meeting.updHart 4 (fun H => { H with csr := { H.csr with lpart := 0x70003 } })).me.lanes ≠
        ((meeting.updHart 4 (fun H => { H with csr := { H.csr with lpart := 0x70003 } })).hart 4).lanes := by
  decide +kernel

theorem witness_LaneForms_unpaired :
    (2 ^ 13 ≤ (0x2000 : Word).toNat ∧ 224 ≤ (0xE0 : Word).toNat % 2 ^ 8) ∧ base.me.mode ≠ 1 ∧
      ((lanes 1).hart 4).wait = .none ∧ (lanes 1).sameGang 0 4 = false := by decide +kernel

end Sys2Proof.Tests
end

