-- ==== Sys2Proof/Tests/WitnessHost.lean ====
section
/-!
SUPPORT. For every clause with hypotheses of the statements about the host, the management complex, waits and the debug
module: a state and operands that meet them all. What the model leaves to the cryptographic functions (log 12) cannot be
shown either way: of a clause that asks it of a signature or of a wrapped key, everything else is shown.
-/

namespace Sys2Proof.Tests

open Sys2Proof Sys2Proof.Machine

set_option maxRecDepth 100000
-- One kernel evaluation at a time, so that the check needs little memory.
set_option Elab.async false

/-! ### The host -/

/-- A source whose events go to the host, or to the device as well, by event queue 0, enabled, disabled or full. -/
def routed (route : Word) (cfg : Word) (tail : Nat) : State :=
  { base with routes := [⟨4, route, false⟩], evqs := base.evqs.set 0 ⟨0x1000, cfg, tail, 0, true, false⟩ }

theorem witness_HostEvents_events :
    Memory.wf base.mem = true ∧ base.mgmt.level ≠ 0 ∧
      (let r := (routed 0x800 0x80000003 0).routeOf 4
       r.route.getLsbD 11 = true ∧ r.route.getLsbD 10 = false ∧ (fld r.route 12 6).toNat = 0) ∧
      (let Q := (routed 0x800 0x80000003 0).evq 0
       Q.cfg.getLsbD 31 = true ∧ (Q.tail + 65536 - Q.head) % 65536 ≠ (fld Q.cfg 0 12).toNat + 1) ∧
      (let Q := (routed 0x800 0x80000003 4).evq 0
       (Q.tail + 65536 - Q.head) % 65536 = (fld Q.cfg 0 12).toNat + 1) ∧
      ((routed 0x800 3 0).evq 0).cfg.getLsbD 31 = false ∧ ((routed 0x400 3 0).routeOf 4).route.getLsbD 11 = false ∧
      (0x80000003 : Word).getLsbD 31 = true ∧ (3 : Word).getLsbD 31 = false := by decide +kernel

/-- The launch record of the kernel's tests, in an address space that the device can read. -/
def recordSpace : State := recorded.putBytes 0 0 (leBytes 8 0x1000)

/-- Queue pair 0 with an entry at the head of its ring, enabled or not, during a handover or not. -/
def submitting (cfg : Word) (handing : Bool) (e : List Byte) : State :=
  { recordSpace with
    mem := memPutAll recordSpace.mem (hostCell 0x2000) e
    mgmt := { recordSpace.mgmt with wshand := if handing then 1 else 0 }
    pairs := recordSpace.pairs.set 0 ⟨0x2000, 0x3000, cfg, 0, 1, 0, 0, true, false, []⟩ }

/-- A submission entry for a record at an address. -/
def submission (va : Nat) : List Byte := [7, 0, 1, 0, 0, 0, 0, 0] ++ leBytes 8 va ++ List.replicate 16 0

theorem witness_HostEvents_doorbells :
    (∀ on : Bool, ∀ handing : Bool, let s := submitting (if on then 0x80000003 else 3) handing []
      s.mgmt.level ≠ 0 ∧ Memory.wf s.mem = true ∧ (s.pair 0).cfg.getLsbD 31 = on ∧ s.mgmt.wshand.getLsbD 0 = handing ∧
      (fld (s.pair 0).cfg 0 12).toNat + 1 = 4) ∧ (3 : Word).toNat % 65536 < 4 ∧ 4 ≤ (4 : Word).toNat % 65536 ∧
      (0x80000003 : Word).getLsbD 31 = true ∧ (3 : Word).getLsbD 31 = false := by decide +kernel

/-- What the statement asks of an entry that is sound. -/
def soundB (e : List Byte) : Bool :=
  decide (leAt e 2 1 = 1 ∧ leAt e 3 1 < 128 ∧ leAt e 8 8 % 64 = 0) && ((e.drop 6).take 2).all (fun b => b == 0) &&
    (e.drop 16).all (fun b => b == 0)

theorem witness_HostEvents_submission :
    (∀ va ∈ [0x10000, 0x10020, 0xC0000000], let s := submitting 0x80000003 false (submission va)
      Memory.wf s.mem = true ∧ (s.pair 0).error = false ∧ (s.pair 0).head ≠ (s.pair 0).tail ∧
      ((s.pair 0).cqTail + 1) % 4 ≠ (s.pair 0).cqHead ∧ s.hostGet ((s.pair 0).sqBase.toNat + 32 * (s.pair 0).head) 32 = submission va) ∧
      soundB (submission 0x10020) = false ∧ soundB (submission 0x10000) = true ∧ soundB (submission 0xC0000000) = true ∧
      leAt (submission 0x10000) 3 1 / 32 = (0 : Fin 4).val ∧
      ((submitting 0x80000003 false (submission 0xC0000000)).hostParts 0 0 0xC0000000).isNone = true ∧
      (let s := submitting 0x80000003 false (submission 0x10000)
       match s.hostParts 0 0 0x10000 with
       | some p => (match s.checkLaunch false true (BitVec.ofNat 16 p.asid) 0 0 p with
         | .ok _ => true
         | .error _ => false)
       | none => false) = true ∧
      (let e := [7, 0, 1, 32, 0, 0, 0, 0] ++ leBytes 8 0x10000 ++ List.replicate 16 0
       let t := submitting 0x80000003 false e
       let s : State := { t with mgmt := { t.mgmt with level := 1 } }
       s.mgmt.level = 1 ∧ soundB e = true ∧ (1 : Fin 4).val = leAt e 3 1 / 32 ∧ (s.pair 0).head ≠ (s.pair 0).tail ∧
         ((s.pair 0).cqTail + 1) % 4 ≠ (s.pair 0).cqHead) := by decide +kernel

/-- A page that the host has been asked for, with page requests on or off, made or not. -/
theorem witness_HostEvents_pages :
    let r : PageReq := ⟨0, 7⟩
    let s (on : Bool) (pri : List PageReq) : State :=
      { base with hostIf := { base.hostIf with prien := on, asked := [r], pri := pri } }
    (∀ b : Bool, r ∈ (s b []).hostIf.asked ∧ r ∉ (s b []).hostIf.pri ∧ (s b []).hostIf.prien = b) ∧
      (r ∈ (s true [r]).hostIf.pri.take 32 ∧ r ∈ (s true [r]).hostIf.asked) ∧ r ∉ base.hostIf.asked ∧
      r ∉ base.hostIf.pri.take 32 ∧ base.delayed = [] := by decide +kernel

/-! ### The management complex -/

/-- The base state with its management complex changed. -/
def managed (f : Mgmt → Mgmt) : State := { base with mgmt := f base.mgmt }

theorem witness_ManagementEvents_stages :
    fld (managed (fun m => { m with mbstat := 0x100 })).mgmt.mbstat 8 8 = 1 ∧ fld base.mgmt.mbstat 8 8 ≠ 1 ∧
      base.mgmt.stage = .idle ∧ (managed (fun m => { m with stage := .loading 4096 })).mgmt.stage = .loading 4096 ∧
      (∀ l ∈ [0, 1, 2], let m := (managed (fun m => { m with stage := .verified, level := l })).mgmt
        m.stage = .verified ∧ m.level = l ∧ fld m.mbstat 8 8 ≠ 1 ∧ Memory.wf m.window = true) ∧
      ((4096 : Word).toNat % 2 ^ 32 ≤ 61440 ∧ 0 + 4096 ≤ 4096) ∧ 61440 < (61441 : Word).toNat % 2 ^ 32 ∧ 4096 < 4096 + 4096 := by
  decide +kernel

/-- A firmware image of one page by a key, for the slot that is not active. -/
def firmware (keyid : Byte) : List Byte :=
  [0x43, 0x46, 0x57, 0x01, 0, 0, 0, 0] ++ leBytes 8 256 ++ [keyid] ++ List.replicate 239 0

/-- The checks of an image in their order, up to the signature: an image with all, and one that fails each. -/
theorem witness_ManagementEvents_images :
    let sound (img : List Byte) : Bool := decide (img.take 4 = [0x43, 0x46, 0x57, 0x01]) &&
      ((img.drop 17).take 47).all (fun b => b == 0) && ((img.drop 160).take 96).all (fun b => b == 0) &&
      decide (256 ≤ leAt img 8 8 ∧ roundup (leAt img 8 8) 4096 = 4096)
    sound (firmware 2) = true ∧ sound [] = false ∧ leAt (firmware 2) 16 1 ≤ 3 ∧ base.mgmt.revoked.getLsbD 2 = false ∧
      3 < leAt (firmware 4) 16 1 ∧ sound (firmware 4) = true ∧ base.mgmt.svnmin ≤ leAt (firmware 2) 4 4 ∧
      leAt (firmware 2) 4 4 < (managed (fun m => { m with svnmin := 1 })).mgmt.svnmin := by decide +kernel

theorem witness_ManagementEvents_keys :
    base.mgmt.level ≠ 0 ∧ (managed (fun m => { m with level := 0 })).mgmt.level = 0 ∧
      (managed (fun m => { m with mblen := 129 })).mgmt.mblen.toNat % 2 ^ 32 = 129 ∧ base.mgmt.mblen.toNat % 2 ^ 32 = 0 ∧
      ((0x201 : BitVec 32).toNat % 512 = 1 ∧ (0x201 : BitVec 32).toNat / 512 % 4 = 1 ∧ (0x201 : BitVec 32).toNat < 2048) ∧
      (0x401 : BitVec 32).toNat / 512 % 4 = 2 ∧ (0x001 : BitVec 32).toNat / 512 % 4 = 0 ∧ (0x601 : BitVec 32).toNat / 512 % 4 = 3 ∧
      (0x200 : BitVec 32).toNat % 512 = 0 ∧ 2048 ≤ (0x800 : BitVec 32).toNat ∧
      Memory.wf (managed (fun m => { m with mblen := 32 })).mgmt.window = true ∧
      (managed (fun m => { m with mblen := 32 })).mgmt.mblen.toNat % 2 ^ 32 = 32 := by decide +kernel

theorem witness_ManagementEvents_levels :
    (managed (fun m => { m with level := 1 })).mgmt.level = 1 ∧
      (managed (fun m => { m with wshand := 1 })).mgmt.wshand.getLsbD 0 = true ∧ base.mgmt.wshand.getLsbD 0 = false ∧
      base.mgmt.level = 2 ∧ fld (0x101 : Word) 0 8 = 1 ∧ (4095 : Nat) < 4096 ∧ (0 : Nat) < 2 ^ 44 := by decide +kernel

/-- A hart of a gang whose watchdog has run to its limit, with image slots or without. -/
def expired (ladder : Nat) (slots : Word) : State :=
  ((gangIn base).updMe (fun H => { H with watchdog := 1000, ladder := ladder })).updDie 0 (fun D =>
    { D with wdcfg := 100, poolBase := 0x60000000, poolSize := 0x100000, poolSlots := slots })

theorem witness_ManagementEvents_watchdog :
    (∀ l ∈ [0, 1], ∀ k ∈ [0, 4], let s := expired l (BitVec.ofNat 64 k)
      let limit := (fld (s.die (dieOf (tileOf 0))).wdcfg 0 48).toNat
      limit ≠ 0 ∧ (s.hart 0).run ≠ .idle ∧ limit ≤ (s.hart 0).watchdog ∧ (s.hart 0).ladder = l ∧
        s.gangOf 0 = some (gang, 0) ∧ s.slotsFor gang = decide (k = 4)) ∧
      (∃ m ∈ gang.members, m.saved = none ∧ tileOf m.ctx = 0 ∧ dieOf (tileOf m.ctx) = 0) := by decide +kernel

/-- A hart whose watchdog has run to its limit again after the save that failed, and after the quarantine. -/
theorem witness_ManagementEvents_ladder :
    let lim (s : State) : Nat := (fld (s.die (dieOf (tileOf 0))).wdcfg 0 48).toNat
    let ms (s : State) : Nat := 1000 * s.mgmt.islands[(tileOf 0).val]?.getD 450
    (let s := expired 1 4
     lim s ≠ 0 ∧ (s.hart 0).run ≠ .idle ∧ lim s + lim s ≤ (s.hart 0).watchdog ∧ (s.hart 0).ladder = 1) ∧
    (let s := expired 3 4
     lim s ≠ 0 ∧ (s.hart 0).run ≠ .idle ∧ lim s + min (ms s) (lim s) ≤ (s.hart 0).watchdog ∧ (s.hart 0).ladder = 3) ∧
    (base.die 0).retraining = false ∧
    ((base.updDie 0 (fun D => { D with retraining := true })).die 0).retraining = true := by decide +kernel

/-- No hart of tile 0 or of die 0 has come so far in the base state. -/
theorem witness_ManagementEvents_ladder_not (k : HartId) : (base.hart k).ladder ≠ 1 ∧ (base.hart k).ladder ≠ 3 := by
  by_cases h : k = 0
  · subst h
    decide +kernel
  · rw [others_reset k h]
    decide

theorem witness_ManagementEvents_samples :
    base.mgmt.level ≠ 0 ∧ 500 ≤ base.mgmt.islands[(0 : Nat)]?.getD 450 ∧ islandDie 0 = some 0 ∧ (105 : Int) ≤ 105 ∧
      (105 : Int) < 106 ∧ (115 : Int) ≤ 115 ∧ (115 : Int) < 116 := by decide +kernel

/-! ### Waits and the debug module -/

/-- A hart in a run state with a wait, for some time. -/
def waits (run : Run) (w : Wait) (n : Nat) : State := hartWith (fun H => { H with run := run, wait := w, waited := n })

theorem witness_WaitAndDebugEvents_waits :
    (hartWith (fun H => { H with csr := { H.csr with timer := 1 } })).me.csr.timer = 1 ∧ base.me.csr.timer ≠ 1 ∧
      base.me.run ≠ .halted ∧ base.me.run ≠ .waiting ∧ (waits .waiting (.bar 3) 0).me.wait = .bar 3 ∧
      (waits .waiting (.vwait 5) 5).me.wait = .vwait 5 ∧ (5 : Word).toNat ≤ (waits .waiting (.vwait 5) 5).me.waited ∧
      (waits .waiting (.vwait 5) 4).me.waited < (5 : Word).toNat ∧ (waits .waiting (.mpair 3 0) 0).me.wait = .mpair 3 0 ∧
      1048576 ≤ (waits .waiting (.mpair 3 0) 1048576).me.waited ∧ (waits .waiting (.mpair 3 0) 0).me.waited < 1048576 ∧
      (waits .waiting (.mpair 3 0) 0).me.run = .waiting := by decide +kernel

/-- A halted hart with a command of the debug module, its data and its image key. -/
def halted (cmd data : Word) : State :=
  hartWith (fun H => { H with run := .halted, dbg := { H.dbg with stat := 1, cmd := cmd, data := data } })

theorem witness_WaitAndDebugEvents_debug :
    (hartWith (fun H => { H with dbg := { H.dbg with haltReq := true } })).me.dbg.haltReq = true ∧
      (base.hart 1).run = .idle ∧ (halted 0 0).me.run = .halted ∧ (halted 0 0).me.dbg.stat.getLsbD 0 = true ∧
      (5 : BitVec 16).toNat = (5 : Reg).toNat ∧ (37 : BitVec 16).toNat = 32 + (5 : Reg).toNat ∧
      (∃ c < 4096, csrLegal true c false = true) ∧ 64 ≤ (64 : BitVec 16).toNat ∧ (64 : BitVec 16).toNat < 0x1000 := by
  decide +kernel

theorem witness_WaitAndDebugEvents_images :
    (∀ c ∈ [3, 4], let s := halted (0x100000 + BitVec.ofNat 64 c) 0x60000000
      (fld s.me.dbg.cmd 20 2).toNat = 1 ∧ s.me.banks = 0 ∧ Memory.wf s.mem = true ∧
      (∀ k < 4, (s.me.port k).items = [] ∧ (s.me.port k).flight = []) ∧
      s.imageOk 0x60000000 540672 (s.die (dieOf (tileOf 0))).poolKey.toNat = true ∧ (fld s.me.dbg.cmd 0 4).toNat = c) ∧
      (halted 0x100003 0x60000001).imageOk 0x60000001 540672 (base.die (dieOf (tileOf 0))).poolKey.toNat = false ∧
      base.poison = [] := by decide +kernel

/-- No sector of that image is poisoned, as none is. -/
theorem witness_WaitAndDebugEvents_sound : (halted 0x100004 0x60000000).poisoned 0x60000000 540672 = false := by
  have h : (halted 0x100004 0x60000000).poison = [] := by decide +kernel
  unfold State.poisoned
  rw [h]
  simp

end Sys2Proof.Tests
end

