-- ==== Sys2Proof/Tests/WitnessLanes.lean ====
section
/-!
SUPPORT. For every clause with hypotheses of the statements about the memory forms and the transfers: a state and
operands that meet them all.
-/

namespace Sys2Proof.Tests

open Sys2Proof Sys2Proof.Machine

set_option maxRecDepth 100000
-- One kernel evaluation at a time, so that the check needs little memory.
set_option Elab.async false

/-! ### Memory forms -/

/-- The hart of `vec 0` with X1 = 0x40001000 and X2 = 4, rising indices in V3 and addresses in V5. -/
def mem : State :=
  (((vec 0).setX 1 0x40001000).setX 2 4).updMe (fun H => (List.range 5).foldl (fun H k =>
    (H.putElem 3 2 k k).putElem 5 3 k (0x40001000 + 4 * k)) H)

/-- A form with its fields, its kind of access, its size, its count of accesses and their addresses. -/
structure Form where
  o : VOp
  w : VFields
  kind : Kind
  size : Nat
  n : Nat
  addr : Nat → Word

/-- The form runs in one group, and its accesses reach plain memory where the addresses are physical. -/
def formB (s : State) (f : Form) : Bool :=
  runsB s f.o f.w && decide (s.me.vl ≤ groupSize s.me [⟨0, f.o, f.w⟩]) &&
    reachesB s f.kind f.size f.addr f.n (fun k => leaf (f.addr k).toNat) (fun k => (f.addr k).toNat) &&
    (List.range f.n).all (fun k => !s.poisoned (f.addr k).toNat f.size && s.atomicOk (f.addr k).toNat)

theorem form_of {s : State} {f : Form} (h : formB s f = true) :
    (Claim.Runs s f.o f.w ∧ s.me.vl ≤ groupSize s.me [⟨0, f.o, f.w⟩]) ∧
      Claim.Reaches s f.kind f.size f.addr (fun k => k < f.n) (fun k => leaf (f.addr k).toNat)
        (fun k => (f.addr k).toNat) ∧
      ∀ k < f.n, s.poisoned (f.addr k).toNat f.size = false ∧ s.atomicOk (f.addr k).toNat = true := by
  simp only [formB, Bool.and_eq_true, decide_eq_true_eq, List.all_eq_true, List.mem_range, Bool.not_eq_true'] at h
  exact ⟨⟨runs_of h.1.1.1, h.1.1.2⟩, reaches_of (fun _ hk => hk) h.1.2, h.2⟩

theorem all_form {s : State} {l : List Form} (h : l.all (formB s) = true) (f : Form) (hf : f ∈ l) :
    (Claim.Runs s f.o f.w ∧ s.me.vl ≤ groupSize s.me [⟨0, f.o, f.w⟩]) ∧
      Claim.Reaches s f.kind f.size f.addr (fun k => k < f.n) (fun k => leaf (f.addr k).toNat)
        (fun k => (f.addr k).toNat) ∧
      ∀ k < f.n, s.poisoned (f.addr k).toNat f.size = false ∧ s.atomicOk (f.addr k).toNat = true :=
  form_of (List.all_eq_true.mp h f hf)

/-- The addresses of the statement about memory forms. -/
def unitAt (s : State) (w : VFields) (k : Nat) : Word :=
  BitVec.ofInt 64 ((s.getX w.vc).toInt + (BitVec.ofNat 16 w.sel.toNat).toInt + k * (2 ^ w.width.toNat : Nat))
def strideAt (s : State) (w : VFields) (k : Nat) : Word :=
  BitVec.ofInt 64 ((s.getX w.vc).toInt + (BitVec.ofNat 16 w.sel.toNat).toInt + k * (s.getX w.vb).toInt)
def indexAt (s : State) (w : VFields) (k : Nat) : Word :=
  BitVec.ofNat 64 ((s.getX w.vc).toNat +
    s.me.elem w.vb.toNat (w.sel.toNat / 2 ^ 11 % 4) k * 2 ^ (w.sel.toNat / 2 ^ 13 % 8))
def wordAt (s : State) (w : VFields) (k : Nat) : Word := s.getX w.vc + BitVec.ofNat 64 (8 * k)

/-- A form of five elements of 32 bits. -/
def five (o : VOp) (w : VFields) (kind : Kind) (addr : State → VFields → Nat → Word) : Form :=
  ⟨o, w, kind, 4, 5, addr mem w⟩

theorem witness_VectorMemory :
    ∀ f ∈ [five .vld ⟨1, 0, 0, 1, 0, 2, 0, 0, 0⟩ .read unitAt, five .vldff ⟨1, 0, 0, 1, 0, 2, 0, 0, 0⟩ .read unitAt,
      five .vlds ⟨1, 0, 2, 1, 0, 2, 0, 0, 0⟩ .read strideAt, five .vgather ⟨1, 0, 3, 1, 0, 2, 0, 0, 0x5000⟩ .read indexAt,
      five .vst ⟨0, 2, 0, 1, 0, 2, 0, 0, 0⟩ .write unitAt, five .vsts ⟨0, 2, 2, 1, 0, 2, 0, 0, 0⟩ .write strideAt,
      five .vscatter ⟨0, 2, 3, 1, 0, 2, 0, 0, 0x5000⟩ .write indexAt,
      ⟨.vwait, ⟨1, 5, 3, 1, 0, 2, 0, 0, 0⟩, .read, 4, 5, fun k => BitVec.ofNat 64 (mem.me.elem 5 3 k)⟩,
      ⟨.vldr, ⟨1, 0, 2, 1, 0, 3, 0, 0, 0⟩, .read, 8, mem.me.lanes, wordAt mem ⟨1, 0, 2, 1, 0, 3, 0, 0, 0⟩⟩,
      ⟨.vstr, ⟨0, 2, 2, 1, 0, 3, 0, 0, 0⟩, .write, 8, mem.me.lanes, wordAt mem ⟨0, 2, 2, 1, 0, 3, 0, 0, 0⟩⟩],
      (Claim.Runs mem f.o f.w ∧ mem.me.vl ≤ groupSize mem.me [⟨0, f.o, f.w⟩]) ∧
      Claim.Reaches mem f.kind f.size f.addr (fun k => k < f.n) (fun k => leaf (f.addr k).toNat)
        (fun k => (f.addr k).toNat) ∧
      ∀ k < f.n, mem.poisoned (f.addr k).toNat f.size = false ∧ mem.atomicOk (f.addr k).toNat = true :=
  all_form (by decide +kernel)

theorem witness_VectorMemory_images :
    ∀ f ∈ [(⟨.vldm, ⟨1, 0, 0, 1, 0, 0, 0, 0, 0⟩, .read, 8, 128, wordAt mem ⟨1, 0, 0, 1, 0, 0, 0, 0, 0⟩⟩ : Form),
      ⟨.vstm, ⟨0, 2, 0, 1, 0, 0, 0, 0, 0⟩, .write, 8, 128, wordAt mem ⟨0, 2, 0, 1, 0, 0, 0, 0, 0⟩⟩],
      (Claim.Runs mem f.o f.w ∧ mem.me.vl ≤ groupSize mem.me [⟨0, f.o, f.w⟩]) ∧
      Claim.Reaches mem f.kind f.size f.addr (fun k => k < f.n) (fun k => leaf (f.addr k).toNat)
        (fun k => (f.addr k).toNat) ∧
      ∀ k < f.n, mem.poisoned (f.addr k).toNat f.size = false ∧ mem.atomicOk (f.addr k).toNat = true :=
  all_form (by decide +kernel)

theorem witness_VectorMemory_atomics :
    ∀ f ∈ [VOp.vamoswap, .vamoadd, .vamoand, .vamoor, .vamoxor, .vamomin, .vamomax].map (fun o =>
        five o ⟨0, 2, 3, 1, 0, 2, 0, 0, 0x5000⟩ .write indexAt),
      (Claim.Runs mem f.o f.w ∧ mem.me.vl ≤ groupSize mem.me [⟨0, f.o, f.w⟩]) ∧
      Claim.Reaches mem f.kind f.size f.addr (fun k => k < f.n) (fun k => leaf (f.addr k).toNat)
        (fun k => (f.addr k).toNat) ∧
      ∀ k < f.n, mem.poisoned (f.addr k).toNat f.size = false ∧ mem.atomicOk (f.addr k).toNat = true :=
  all_form (by decide +kernel)

/-- What else the clauses ask of that state: every element active below VL, addresses apart, stores at once, and
flags that are met or not, with the limit of X1. -/
theorem witness_VectorMemory_rest :
    mem.me.vl = 5 ∧ (∀ k < 5, mem.me.bit 0 k = true) ∧ atOnceB mem = true ∧
      Memory.wf mem.mem = true ∧ (mem.getX 1).toNat % 64 = 0 ∧ 0 < (mem.getX 2).toNat ∧ (mem.getX 2).toNat % 64 ≠ 0 ∧
      (∀ j < 5, ∀ k < 5, j ≠ k → 0x40001000 + 4 * j + 4 ≤ 0x40001000 + 4 * k ∨
        0x40001000 + 4 * k + 4 ≤ 0x40001000 + 4 * j) ∧
      mem.me.elem 3 2 0 = 0 ∧ mem.me.elem 3 2 1 = 1 ∧ mem.me.waited < (mem.getX 1).toNat ∧
      (mem.updMe (fun H => { H with waited := 0x40001000 })).me.waited = (mem.getX 1).toNat := by decide +kernel

/-- `vldff` whose second element meets no page. -/
def cliff : State :=
  ((mem.putBytes 0x3010 0 (leBytes 8 0)).setX 1 0x7FFFFFFC)

theorem witness_VectorMemory_cliff :
    runsB cliff .vldff ⟨1, 0, 0, 1, 0, 2, 0, 0, 0⟩ = true ∧
      cliff.me.vl ≤ groupSize cliff.me [⟨0, .vldff, ⟨1, 0, 0, 1, 0, 2, 0, 0, 0⟩⟩] ∧ atOnceB cliff = true ∧ cliff.me.bit 0 1 = true ∧
      (match cliff.reach cliff.cur cliff.me.sup .read (unitAt cliff ⟨1, 0, 0, 1, 0, 2, 0, 0, 0⟩ 1).toNat with
        | .fault c => decide ((unitAt cliff ⟨1, 0, 0, 1, 0, 2, 0, 0, 0⟩ 1).toNat % 4 = 0) && !(c == .memoryError)
        | _ => false) = true ∧
      reachesB cliff .read 4 (unitAt cliff ⟨1, 0, 0, 1, 0, 2, 0, 0, 0⟩) 1 (fun _ => leaf 0x7FFFFFFC)
        (fun _ => 0x7FFFFFFC) = true ∧ cliff.poisoned 0x7FFFFFFC 4 = false := by decide +kernel

/-! ### Transfers -/

/-- A form of one group. -/
def groupB (s : State) (o : VOp) (w : VFields) : Bool :=
  runsB s o w && decide (s.me.vl ≤ groupSize s.me [⟨0, o, w⟩])

/-- The state of `vec 0` with stream 0 configured for 32-bit elements. -/
def strm (dir : Bool) (buf : List Nat) (pos : Nat) : State :=
  (vec 0).updMe (fun H => { H with streams := H.streams.set 0 { Stream.reset with
    cfg := true, desc := { Desc.reset with count := 8, ctrl := if dir then 0x11 else 0x10 }, buf := buf, pos := pos } })

theorem witness_VectorTransfers_streams :
    let r (s : State) (dir : Bool) : Prop := (s.me.stream 0).cfg = true ∧ (s.me.stream 0).busy = false ∧
      (s.me.stream 0).desc.dir = dir ∧ (s.me.stream 0).desc.esize = 4
    (∀ b ∈ [[], [1, 2]], ∀ p ∈ [0, 8], groupB (strm false b p) .vldStrm ⟨1, 0, 0, 0, 0, 2, 0, 0, 0⟩ = true ∧ r (strm false b p) false) ∧
      ((strm false [1, 2] 0).me.stream 0).pos ≠ 8 ∧ ((strm false [1, 2] 0).me.stream 0).desc.count = 8 ∧
      0 < ((strm false [1, 2] 0).me.stream 0).avail ∧ ((strm false [] 0).me.stream 0).avail = 0 ∧
      ((strm false [] 8).me.stream 0).pos = ((strm false [] 8).me.stream 0).desc.count ∧
      groupB (strm true [1, 2] 0) .vstStrm ⟨0, 2, 0, 0, 0, 2, 0, 0, 0⟩ = true ∧ r (strm true [1, 2] 0) true ∧
      0 + (strm true [1, 2] 0).me.vl ≤ ((strm true [1, 2] 0).me.stream 0).desc.count ∧
      2 + (strm true [1, 2] 0).me.vl ≤ ((strm true [1, 2] 0).me.stream 0).capacity ∧
      ((vec 0).me.stream 0).cfg = false ∧ groupB (vec 0) .vldStrm ⟨1, 0, 0, 0, 0, 2, 0, 0, 0⟩ = true ∧
      groupB (vec 0) .vstStrm ⟨0, 2, 0, 0, 0, 2, 0, 0, 0⟩ = true := by decide +kernel

/-- A hart with port 0 to port 1 of hart 4, VL a whole group, and items that have arrived. -/
def crossed (items : List Item) (theirs : List Item) : State :=
  ((vec 0).updMe (fun H => { H with
    csr := { H.csr with vcfg := 0x20020 }
    ports := H.ports.set 0 { Port.reset with isOpen := true, peer := 4, peerPort := 1, items := items } })).updHart 4
      (fun H => { H with ports := H.ports.set 1 { Port.reset with isOpen := true, items := theirs } })

theorem witness_VectorTransfers_crossing :
    let s := crossed [] []
    let g := crossed [.group (List.replicate s.me.lanes 7)] []
    let full := crossed [] (List.replicate 512 (.group []))
    (∀ u ∈ [s, g, full], groupB u .vxsend ⟨0, 2, 0, 0, 0, 2, 0, 0, 0⟩ = true ∧ groupB u .vxrecv ⟨1, 0, 0, 0, 0, 2, 0, 0, 0⟩ = true) ∧
      s.me.lanes = 16 ∧ s.me.vl = groupElems s.me.lanes 2 ∧
      (match s.me.ports[(0 : Nat)]? with
        | some p => p.isOpen && decide (p.peer ≠ s.cur) && decide (p.items = []) &&
          (match (s.hart p.peer).ports[p.peerPort]? with
            | some q => decide (q.items.length + q.flight.length < 65536 / (8 * s.me.lanes)) && decide (q.entry = p.entry)
            | none => false)
        | none => false) = true ∧
      (match g.me.ports[(0 : Nat)]? with
        | some p => (match p.items with
          | .group ws :: _ => decide (ws.length = g.me.lanes)
          | _ => false)
        | none => false) = true ∧
      (match (full.hart 4).ports[(1 : Nat)]? with
        | some q => decide (65536 / (8 * full.me.lanes) ≤ q.items.length + q.flight.length)
        | none => false) = true ∧
      (match (vec 0).me.ports[(0 : Nat)]? with
        | some p => !p.isOpen
        | none => false) = true ∧
      groupB (vec 0) .vxsend ⟨0, 2, 0, 0, 0, 2, 0, 0, 0⟩ = true ∧ groupB (vec 0) .vxrecv ⟨1, 0, 0, 0, 0, 2, 0, 0, 0⟩ = true := by
  decide +kernel

/-- A hart with VL 1 on the scratchpad, X1 = 0x40001000, X2 = 1 and X3 in its window, and window 0 declared or not. -/
def windowed (on : Bool) : State :=
  (((scratch.updMe (fun H => ({ H with
    csr := { H.csr with lpart := 0x30001, vcfg := 0x20001 }
    wins := H.wins.set 0 ⟨on, .sum, 0, 0x40001000, 1, 0x8000000000, true⟩ } : Hart).setMode 0)).setX 1 0x40001000).setX 2
      1).setX 3 0x8000000000

theorem witness_VectorTransfers_declare :
    (∀ e ∈ [VOp.accwinSum, .accwinMin, .accwinMax].map (fun o => (o, (⟨0, 3, 2, 1, 0, 2, 0, 0, 0⟩ : VFields))),
      Claim.Runs (windowed false) e.1 e.2) ∧
    (let s := windowed false
     (s.getX 1).toNat % 4 = 0 ∧ 1 ≤ (s.getX 2).toNat ∧ (s.getX 2).toNat ≤ 65536 ∧ (s.getX 3).toNat % 64 = 0 ∧
      (s.getX 2).toNat % 64 ≠ 0 ∧
      (s.privPages 0x8000000000 (0x8000000000 + s.me.lanes * 1 * 8) (s.me.lanes * 1 * 8 / 4096 + 2)).isSome = true) :=
  ⟨all_run (by decide +kernel), by decide +kernel⟩

theorem witness_VectorTransfers_update :
    let s := windowed true
    let w : VFields := ⟨0, 2, 3, 0, 0, 2, 0, 0, 0x1000⟩
    groupB s .vacc w = true ∧ (s.me.window w).on = true ∧ (s.me.window w).fmt = w.fmt ∧ s.me.vl = 1 ∧
      s.me.bit 0 0 = true ∧ atOnceB s = true ∧ Memory.wf s.mem = true ∧
      s.me.elem 3 2 0 < (s.me.window w).count ∧
      (s.reach s.cur (s.me.window w).sup .write ((s.me.window w).priv + BitVec.ofNat 64 (8 * s.me.elem 3 2 0)).toNat =
        .to (spadLeaf 0x8000000000) 0x8000000000) ∧
      (let beyond := s.updMe (fun H => H.putElem 3 2 0 1)
       groupB beyond .vacc w = true ∧ (beyond.me.window w).count ≤ beyond.me.elem 3 2 0 ∧ beyond.me.bit 0 0 = true) ∧
      runsB (windowed false) .vacc w = true ∧ ((windowed false).me.window w).on = false ∧
      runsB (windowed false) .accmerge ⟨0, 0, 0, 0, 0, 2, 0, 0, 0⟩ = true := by decide +kernel

theorem witness_VectorTransfers_merge :
    let s := windowed true
    let w : VFields := ⟨0, 0, 0, 0, 0, 2, 0, 0, 0⟩
    Claim.Runs s .accmerge w ∧ (s.me.window w).on = true ∧ (s.me.window w).count = 1 ∧ atOnceB s = true ∧ Memory.wf s.mem = true ∧
      (s.me.window w).base.toNat % 4 = 0 ∧ (s.me.window w).base.toNat % 4096 + 4 ≤ 4096 ∧
      s.reach s.cur s.me.sup .write (s.me.window w).base.toNat = .to (leaf 0x40001000) 0x40001000 ∧
      Claim.LineFree s (leaf 0x40001000) true ∧ s.atomicOk 0x40001000 = true ∧
      s.poisoned 0x40001000 4 = false ∧
      ∀ i < s.me.lanes, s.reach s.cur (s.me.window w).sup .write ((s.me.window w).priv + BitVec.ofNat 64 (8 * i)).toNat =
        .to (spadLeaf (0x8000000000 + 8 * i)) (0x8000000000 + 8 * i) :=
  ⟨runs_of (by decide +kernel), by decide +kernel, by decide +kernel, by decide +kernel, by decide +kernel, by decide +kernel,
    by decide +kernel, by decide +kernel, lineFree_of (by decide +kernel), by decide +kernel, by decide +kernel, by decide +kernel⟩

/-- Stores are performed at once in those states. -/
theorem witness_AtOnce : Claim.AtOnce mem ∧ Claim.AtOnce cliff ∧ Claim.AtOnce (windowed true) :=
  ⟨atOnce_of (by decide +kernel), atOnce_of (by decide +kernel), atOnce_of (by decide +kernel)⟩

end Sys2Proof.Tests
end

