-- ==== Sys2Proof/Tests/WitnessScalar.lean ====
section
/-!
SUPPORT. For every clause with hypotheses of the statements about the machine as a whole, scalar arithmetic,
branches, memory and scalar floating point: a state and operands that meet them all.
-/

namespace Sys2Proof.Tests

open Sys2Proof Sys2Proof.Machine

set_option maxRecDepth 100000
-- One kernel evaluation at a time, so that the check needs little memory.
set_option Elab.async false

/-! ### The machine as a whole -/


theorem witness_StepRunsFetched_turn :
    let s := State.reset.withFetchWord 32 0x08220005
    s.agenda = [] ∧ s.me.run = .running ∧ s.me.dbg.haltReq = false ∧ s.dueIrq = none ∧
      s.me.vq = [] := by decide +kernel

theorem witness_StepRunsFetched_fetch : ∃ i, (State.reset.withFetchWord 32 0x08220005).fetch = .got i :=
  got_of (by decide +kernel : fetchedWord (State.reset.withFetchWord 32 0x08220005).fetch = some 0x08220005#32)

theorem acting {u : State} (ha : u.agenda = []) (hc : u.cur = 0) :
    let s : State := { u with agenda := [.hart 0], cur := 3 }
    ∃ h rest, s.agenda = .hart h :: rest ∧ u = { s with agenda := rest, cur := h } := by
  cases u
  subst ha hc
  exact ⟨0, [], rfl, rfl⟩

theorem witness_StepRunsFetched_act :
    let u := State.reset.withFetchWord 32 0x08220005
    let s : State := { u with agenda := [.hart 0], cur := 3 }
    (∃ h rest, s.agenda = .hart h :: rest ∧ u = { s with agenda := rest, cur := h }) ∧ u.me.run = .running :=
  ⟨acting (by decide +kernel) (by decide +kernel), by decide +kernel⟩

theorem witness_StepRunsFetched_word :
    Claim.Fetches (State.reset.withFetchWord 32 0x08220005) 0x40000004 4 (0x08220005#32).toNat :=
  ⟨⟨0x40000004, 0, 0x4000000F, 0x40000000⟩, 0x40000004, by decide +kernel⟩

theorem witness_StepRunsFetched_convoy :
    let s := State.reset.withFetchWord 64 0x0400000000000000
    Claim.Fetches s s.pc 4 (0xF8001000#32).toNat ∧ headerFault s.pc 0xF8001000#32 = none ∧
      slotsOf 0xF8001000#32 = 1 ∧ Claim.Fetches s (s.pc + 4 + BitVec.ofNat 64 (8 * 0)) 8 0x0400000000000000 :=
  ⟨⟨⟨0x40000004, 0, 0x4000000F, 0x40000000⟩, 0x40000004, by decide +kernel⟩, by decide +kernel, by decide,
    ⟨⟨0x40000008, 0, 0x4000000F, 0x40000000⟩, 0x40000008, by decide +kernel⟩⟩

theorem witness_StepRunsFetched_event :
    ({ base with agenda := [.event (.timerExpiry 0)] } : State).agenda = .event (.timerExpiry 0) :: [] ∧
      isEvent (.timerExpiry 0) = true ∧ (base.hart 0).dbg.stepping = false ∧ ∀ h, (base.hart h).vq = [] :=
  ⟨rfl, rfl, by decide +kernel, fun h => if e : h = 0 then by rw [e]; decide +kernel else by rw [others_reset h e]; rfl⟩

/-- A fetch that traps: the PC lies in a gigabyte that is not mapped. -/
theorem witness_StepRunsFetched_trap :
    let s := hartWith (fun H => { H with pc := 0xC0000000 })
    s.agenda = [] ∧ s.me.run = .running ∧ s.me.dbg.haltReq = false ∧ s.dueIrq = none ∧
      (match s.fetch with
        | .trap .fetchFault v => v == 0xC0000000
        | _ => false) = true := by decide +kernel

theorem witness_StepRunsFetched_stepped :
    let s := hartWith (fun H => { H with dbg := { H.dbg with stepping := true } })
    (s.hart 0).dbg.stepping = true ∧ (s.hart 0).run = .running ∧ (base.hart 0).dbg.stepping = false := by decide +kernel

theorem witness_StepKeepsMemoryCanonical : Memory.wf base.mem = true ∧ nexts (step base) = true := by decide +kernel

theorem witness_ScalarWordsRoundTrip :
    encodeScalar (.addi 31 31 0xFFFF) = some 0x0BFFFFFF#32 ∧ (Instr.addi 31 31 0xFFFF).scalarOk = true ∧
      ∀ v, Instr.addi 31 31 0xFFFF ≠ .illegalInstruction v :=
  ⟨by decide, by decide, fun _ h => nomatch h⟩

theorem witness_VectorWordsRoundTrip :
    (fld (0x00000#18) 17 1 = 0 ∧ fld (0x20000#18) 17 1 = 1) ∧
      decodeVector 0x0401844004000000#64 = some (.vadd, ⟨3, 1, 2, 0, 0, 1, 0, 0, 0⟩) := by decide +kernel

theorem witness_UnitWordsRoundTrip : decodeUnit 0x04180886#32 = some (.add, ⟨0, 3, 0, 1, 2, 3⟩) := by decide +kernel

/-! ### Branches, calls and loops -/

theorem witness_Branches :
    (hartWith (fun H => { H with branchQ := [true] })).me.branchQ = true :: [] ∧ base.me.branchQ = [] := by
  decide +kernel

/-- The return-address store with one entry, and full. -/
theorem witness_JumpsCallsReturns :
    base.me.ras.length < 32 ∧ (BitVec.ofInt 64 (((withX 1 0x40000010).getX 1).toInt + (0 : BitVec 16).toInt)).toNat % 4 = 0 ∧
      (BitVec.ofInt 64 ((base.getX 0).toInt + (2 : BitVec 16).toInt)).toNat % 4 ≠ 0 ∧
      32 ≤ (hartWith (fun H => { H with ras := List.replicate 32 4 })).me.ras.length ∧
      (hartWith (fun H => { H with ras := [8, 4] })).me.ras = [8] ++ [4] ∧ (4 : Word).toNat % 4 = 0 ∧
      base.me.ras = [] := by decide +kernel

theorem witness_DropReturnAddresses :
    let s := (withX 1 2).updMe (fun H => { H with ras := [4, 8, 12] })
    s.me.ras = [4] ++ [8, 12] ∧ ([8, 12] : List Word).length = (s.getX 1).toNat ∧
      (withX 1 33).me.ras.length < ((withX 1 33).getX 1).toNat ∧ base.getX 0 = 0 := by decide +kernel

/-- Entries that can be spilled in turn, and the state after it. -/
def spillState : Nat → State → State
  | 0, s => s
  | n + 1, s =>
    let a := s.me.csr.rasp.toNat
    let w := metState s (leafAt a 0x80000087) true
    spillState n ((w.store w.cur true a 0 ((bytesOf 8 (s.me.ras.headD 0).toNat).map some)).updMe
      (fun H => { H with ras := H.ras.tail }.setRasp (H.csr.rasp + 8)))

def spillOk : Nat → State → Bool
  | 0, _ => true
  | n + 1, s =>
    let a := s.me.csr.rasp.toNat
    let l := leafAt a 0x80000087
    let w := metState s l true
    decide (a % 8 = 0 ∧ s.reach s.cur s.me.sup .shadowWrite a = .to l a ∧ s.peerWaits l.pa = false) &&
      decide ((met s l true).2 = .served ∧ (met s l true).1.hostHolds (l.pa / 128) l.key true = false) &&
      spillOk n ((w.store w.cur true a 0 ((bytesOf 8 (s.me.ras.headD 0).toNat).map some)).updMe
        (fun H => { H with ras := H.ras.tail }.setRasp (H.csr.rasp + 8)))

theorem spilled_of {n : Nat} {s : State} (h : spillOk n s = true) : Claim.Spilled n s (spillState n s) := by
  induction n generalizing s with
  | zero => rfl
  | succ n ih =>
    simp only [spillOk, Bool.and_eq_true, decide_eq_true_eq] at h
    exact ⟨_, _, _, h.1.1.1, h.1.1.2.1, meets_of ⟨h.1.1.2.2, h.1.2⟩, ih h.2⟩

/-- Entries that can be filled in turn, and the state after it. -/
def fillState : Nat → State → State
  | 0, s => s
  | n + 1, s =>
    let a := (s.me.csr.rasp - 8).toNat
    let l := leafAt a 0x80000087
    fillState n ((readState s l a 8).updMe (fun H =>
      { H with ras := BitVec.ofNat 64 (readValue s l a 8) :: H.ras }.setRasp (H.csr.rasp - 8)))

def fillOk : Nat → State → Bool
  | 0, _ => true
  | n + 1, s =>
    let a := (s.me.csr.rasp - 8).toNat
    let l := leafAt a 0x80000087
    decide (a % 8 = 0 ∧ s.deviceAt .shadowRead (s.me.csr.rasp - 8) 8 = none ∧
      s.reach s.cur s.me.sup .shadowRead a = .to l a ∧ s.peerWaits l.pa = false ∧
      (met s l false).2 = .served ∧ (met s l false).1.hostHolds (l.pa / 128) l.key false = false) &&
      (s.takeEarly s.cur true a l.key 8).isNone && !(metState s l false).poisoned l.pa 8 &&
      fillOk n ((readState s l a 8).updMe (fun H =>
        { H with ras := BitVec.ofNat 64 (readValue s l a 8) :: H.ras }.setRasp (H.csr.rasp - 8)))

theorem filled_of {n : Nat} {s : State} (h : fillOk n s = true) : Claim.Filled n s (fillState n s) := by
  induction n generalizing s with
  | zero => rfl
  | succ n ih =>
    simp only [fillOk, Bool.and_eq_true, decide_eq_true_eq, Bool.not_eq_true'] at h
    exact ⟨_, _, reads_at _ _ h.1.1.1 h.1.1.2 h.1.2, ih h.2⟩

/-- A shadow-stack pointer, with entries to spill and a count. -/
def shadow (count : Word) (ras : List Word) (rasp : Word) : State :=
  (withX 1 count).updMe (fun H => { H with ras := ras, csr := { H.csr with rasp := rasp } })

/-- One entry, two of three, and all of two where more are asked for. -/
theorem witness_SpillAndFill_spill :
    [(1, [(4 : Word)], 1), (2, [4, 8, 12], 2), (0xFFFFFFFFFFFFFFFF, [4, 8], 2)].all (fun (e : Word × List Word × Nat) =>
      let s := shadow e.1 e.2.1 0x80001000
      s.me.sup && decide (min (s.getX 1).toNat s.me.ras.length = e.2.2) && spillOk e.2.2 s) = true := by decide +kernel

/-- One entry, two, and one into the last room where more are asked for. -/
theorem witness_SpillAndFill_fill :
    [(1, [], 1), (2, [(4 : Word)], 2), (5, List.replicate 31 4, 1)].all (fun (e : Word × List Word × Nat) =>
      let s := shadow e.1 e.2.1 0x80001000
      s.me.sup && decide (min (s.getX 1).toNat (32 - s.me.ras.length) = e.2.2) && fillOk e.2.2 s) = true := by decide +kernel

/-- The second access faults, since its gigabyte is not mapped. -/
theorem witness_SpillAndFill_faults :
    (let s := shadow 2 [4, 8] 0xBFFFFFF8
     let u := spillState 1 s
     spillOk 1 s = true ∧ u.me.csr.rasp = 0xC0000000 ∧ u.reach u.cur u.me.sup .shadowWrite 0xC0000000 = .fault .pageFault) ∧
    (let s := shadow 2 [] 0x80000008
     let u := fillState 1 s
     fillOk 1 s = true ∧ u.me.csr.rasp - 8 = 0x7FFFFFF8 ∧
       u.reach u.cur u.me.sup .shadowRead 0x7FFFFFF8 = .fault .shadowStack) := by decide +kernel

theorem witness_SpillAndFill_others :
    base.me.sup = true ∧ base.getX 0 = 0 ∧ atUser.me.sup = false := by decide +kernel

theorem witness_HardwareLoops :
    let s := hartWith (fun H => (H.setLoop 0 ⟨0, 2, 1⟩).setLoop 1 ⟨0, 2, 2⟩)
    1 < (s.me.loop 1).count.toNat ∧ (s.me.loop 0).count.toNat ≤ 1 ∧ (s.me.loop 3).count.toNat ≤ 1 ∧
      1 < (s.me.loop (0 + 1)).count.toNat ∧ (s.getX 0).toNat % 4 = 0 := by decide +kernel

/-! ### Memory -/

/-- x1 points into the supervisor's gigabyte. -/
def pointed : State := withX 1 0x40001000

theorem loads_of (va : Word) (size : Nat)
    (h : va.toNat % size = 0 ∧ pointed.deviceAt .read va size = none ∧
      pointed.reach pointed.cur pointed.me.sup .read va.toNat = .to (leaf va.toNat) va.toNat ∧
      pointed.peerWaits va.toNat = false ∧
      (met pointed (leaf va.toNat) false).2 = .served ∧
      (met pointed (leaf va.toNat) false).1.hostHolds (va.toNat / 128) 0 false = false)
    (he : pointed.takeEarly pointed.cur true va.toNat 0 size = none)
    (hp : (metState pointed (leaf va.toNat) false).poisoned va.toNat size = false) :
    ∃ v u, Claim.Reads pointed .read va size v u := reads_of _ _ h he hp

theorem witness_Loads :
    (∃ v u, Claim.Reads pointed .read 0x40001000 8 v u) ∧ (∃ v u, Claim.Reads pointed .read 0x4000107F 1 v u) ∧
      (∃ v u, Claim.Reads pointed .read 0x4000107E 2 v u) ∧ (∃ v u, Claim.Reads pointed .read 0x4000107C 4 v u) :=
  ⟨loads_of _ _ (by decide +kernel) (Option.isNone_iff_eq_none.mp (by decide +kernel)) (by decide +kernel),
    loads_of _ _ (by decide +kernel) (Option.isNone_iff_eq_none.mp (by decide +kernel)) (by decide +kernel),
    loads_of _ _ (by decide +kernel) (Option.isNone_iff_eq_none.mp (by decide +kernel)) (by decide +kernel),
    loads_of _ _ (by decide +kernel) (Option.isNone_iff_eq_none.mp (by decide +kernel)) (by decide +kernel)⟩

/-- A load takes what its side has read early. -/
theorem witness_Loads_early :
    let s : State := { pointed with early := [⟨0, true, 0x40001000, 0, bytesOf 8 7, []⟩] }
    ∃ u, Claim.Reads s .read 0x40001000 8 7 u :=
  ⟨_, by decide +kernel, by decide +kernel, leaf 0x40001000, 0x40001000, by decide +kernel,
    .inl ⟨bytesOf 8 7, rfl, by decide +kernel⟩⟩

theorem witness_Loads_misaligned :
    (BitVec.ofInt 64 ((pointed.getX 1).toInt + (1 : BitVec 12).toInt)).toNat % 2 ≠ 0 ∧
      (BitVec.ofInt 64 ((pointed.getX 1).toInt + (2 : BitVec 12).toInt)).toNat % 4 ≠ 0 ∧
      (BitVec.ofInt 64 ((pointed.getX 1).toInt + (4 : BitVec 12).toInt)).toNat % 8 ≠ 0 := by decide +kernel

theorem witness_Stores :
    (∃ u, Claim.Access pointed .write true 0x4000107F 1 (leaf 0x4000107F) 0x4000107F u) ∧
    (∃ u, Claim.Access pointed .write true 0x4000107E 2 (leaf 0x4000107E) 0x4000107E u) ∧
    (∃ u, Claim.Access pointed .write true 0x4000107C 4 (leaf 0x4000107C) 0x4000107C u) ∧
    (∃ u, Claim.Access pointed .write true 0x40001078 8 (leaf 0x40001078) 0x40001078 u) :=
  ⟨⟨_, access_of _ _ (by decide +kernel)⟩, ⟨_, access_of _ _ (by decide +kernel)⟩,
    ⟨_, access_of _ _ (by decide +kernel)⟩, ⟨_, access_of _ _ (by decide +kernel)⟩⟩

theorem witness_Stores_frame : Memory.wf base.mem = true ∧ Claim.NoneDelayed base :=
  ⟨by decide +kernel, (by decide +kernel : base.delayed = [] ∧ base.me.delays.head? ≠ some true)⟩

theorem witness_AtomicsComplete :
    (∃ u, Claim.Access pointed .write true 0x40001000 4 (leaf 0x40001000) 0x40001000 u) ∧
    (∃ u, Claim.Access pointed .write true 0x40001000 8 (leaf 0x40001000) 0x40001000 u) ∧
      pointed.atomicOk 0x40001000 = true :=
  ⟨⟨_, access_of _ _ (by decide +kernel)⟩, ⟨_, access_of _ _ (by decide +kernel)⟩, by decide +kernel⟩

theorem witness_AtomicsComplete_sound :
    (metState pointed (leaf 0x40001000) true).poisoned 0x40001000 8 = false := by decide +kernel

theorem witness_OrderForms :
    (∃ u, Claim.Access pointed .read false (pointed.getX 1) 4 (leaf 0x40001000) 0x40001000 u ∧
      u.poisoned 0x40001000 4 = false) ∧
    (∃ u, Claim.Access pointed .write true (pointed.getX 1) 4 (leaf 0x40001000) 0x40001000 u) :=
  ⟨⟨_, access_of _ _ (by decide +kernel), by decide +kernel⟩, ⟨_, access_of _ _ (by decide +kernel)⟩⟩

/-! ### Scalar floating point -/

/-- f1 holds 3, f2 −∞, f3 +∞, f4 a quiet NaN, f5 a signalling NaN, f6 −0, f7 −4, f8 4, f9 2 (F64). -/
def floats : State :=
  (((((((((base.setF 1 0x4008000000000000).setF 2 0xFFF0000000000000).setF 3 0x7FF0000000000000).setF 4
    0x7FF8000000000000).setF 5 0x7FF0000000000001).setF 6 0x8000000000000000).setF 7 0xC010000000000000).setF 8
    0x4010000000000000).setF 9 0x4000000000000000)

theorem floats_values :
    floats.fval fmtF64 1 = .num false 0x18000000000000 (-51) ∧ floats.fval fmtF64 2 = .inf true ∧
      floats.fval fmtF64 3 = .inf false ∧ floats.fval fmtF64 4 = .nan false ∧ floats.fval fmtF64 5 = .nan true ∧
      floats.fval fmtF64 6 = .num true 0 (-1074) ∧ floats.fval fmtF64 7 = .num true 0x10000000000000 (-50) ∧
      floats.fval fmtF64 8 = .num false 0x10000000000000 (-50) ∧
      fmtF64.decode false 0x4000000000000000 = .num false 0x10000000000000 (-51) ∧
      floats.me.ftz = false := by decide +kernel

/-- Infinities and NaNs in each operand of the two- and three-operand forms. -/
theorem witness_FloatForms_special :
    (Claim.finite (floats.fval fmtF64 1) ∧ Claim.finite (floats.fval fmtF64 6)) ∧
      (floats.fval fmtF64 3 = .inf false ∧ floats.fval fmtF64 2 = .inf true ∧ (floats.fval fmtF64 4).isNan = true ∧
      (floats.fval fmtF64 1).isNan = false ∧ (floats.fval fmtF64 1).isZero = false ∧ (floats.fval fmtF64 6).isZero = true) :=
  ⟨⟨finite_of (by decide +kernel), finite_of (by decide +kernel)⟩, by decide +kernel⟩

/-- RoundingOfValues: the smallest subnormal, the largest finite value, and one within its range. -/
theorem witness_RoundingOfValues :
    Claim.finite (fmtE4m3.decode false 1) ∧ Claim.finite (fmtE4m3.decode false 0x7E) ∧ 0x7E < 2 ^ fmtE4m3.bits ∧
      |Claim.rat (.num true 1 0)| ≤ Claim.rat (fmtF16.decode false fmtF16.maxMag) := by
  refine ⟨finite_of (by decide +kernel), finite_of (by decide +kernel), by decide, ?_⟩
  rw [show fmtF16.decode false fmtF16.maxMag = .num false 2047 5 by decide +kernel]
  norm_num [Claim.rat]

theorem witness_FloatSumsAndProducts :
    Claim.finite (floats.fval fmtF64 1) ∧ (floats.fval fmtF64 4).isNan = true ∧
      floats.fval fmtF64 3 = .inf false ∧ floats.fval fmtF64 2 = .inf (!false) ∧
      (floats.fval fmtF64 6).isZero = true ∧ (floats.fval fmtF64 1).isZero = false ∧
      (floats.fval fmtF64 1).isNan = false :=
  ⟨finite_of (by decide +kernel), by decide +kernel⟩

theorem witness_FloatQuotientsAndRoots_special :
    Claim.finite (floats.fval fmtF64 1) ∧ (floats.fval fmtF64 1).isZero = false ∧
      (floats.fval fmtF64 6).isZero = true ∧ floats.fval fmtF64 2 = .inf true ∧ floats.fval fmtF64 3 = .inf false :=
  ⟨finite_of (by decide +kernel), by decide +kernel⟩

/-- 4 / 2 = 2, the square root of 4 is 2, and that of −4 is none. -/
theorem witness_FloatQuotientsAndRoots_exact :
    Claim.rat (fmtF64.decode false 0x4000000000000000) * Claim.rat (floats.fval fmtF64 9) =
      Claim.rat (floats.fval fmtF64 8) ∧ 0 < Claim.rat (floats.fval fmtF64 8) ∧
      Claim.rat (fmtF64.decode false 0x4000000000000000) ^ 2 = Claim.rat (floats.fval fmtF64 8) ∧
      Claim.rat (floats.fval fmtF64 7) < 0 ∧ floats.me.ftz = false := by
  obtain ⟨-, -, -, -, -, -, h7, h8, h9, hz⟩ := floats_values
  rw [show floats.fval fmtF64 9 = .num false 0x10000000000000 (-51) by decide +kernel, h9, h8, h7]
  norm_num [Claim.rat, hz]

theorem witness_FusedMultiplyAdd :
    Claim.finite (floats.fval fmtF64 1) ∧ (floats.fval fmtF64 3 = .inf false ∧ (floats.fval fmtF64 6).isZero = true) ∧
      (floats.fval fmtF64 5).isNan = true :=
  ⟨finite_of (by decide +kernel), by decide +kernel⟩

theorem witness_FloatComparisonsAndSelections :
    Claim.below (floats.fval fmtF64 2) (floats.fval fmtF64 1) ∧
      ¬ Claim.below (floats.fval fmtF64 1) (floats.fval fmtF64 1) ∧ (floats.fval fmtF64 4).isNan = true ∧
      (floats.fval fmtF64 1).isNan = false ∧ floats.me.ftz = false ∧
      ((floats.fval fmtF64 6).isZero = true ∧ Claim.negative (floats.fval fmtF64 6) = true) := by
  obtain ⟨h1, h2, -⟩ := floats_values
  refine ⟨?_, ?_, by decide +kernel⟩
  · rw [h1, h2]; rfl
  · rw [h1]; exact lt_irrefl _

theorem witness_FloatConversionsAndBoxing :
    Claim.finite (floats.fval fmtF64 1) ∧ ¬ Claim.finite (floats.fval fmtF64 2) ∧
      0x7C00 < 2 ^ fmtF16.bits ∧ fmtF16.bits < 64 ∧ (0x7C00 : Word).toNat / 2 ^ fmtF16.bits ≠ 2 ^ (64 - fmtF16.bits) - 1 ∧
      (0xFFFFFFFFFFFF7C00 : Word).toNat / 2 ^ fmtF16.bits = 2 ^ (64 - fmtF16.bits) - 1 := by
  refine ⟨finite_of (by decide +kernel), ?_, by decide +kernel⟩
  rw [floats_values.2.1]
  exact id

end Sys2Proof.Tests
end

