-- ==== Sys2Proof/Tests/WitnessSystem.lean ====
section
/-!
SUPPORT. For every clause with hypotheses of the statements about CSRs, traps, the system forms, streams, banks,
full/empty bits, rings, counters, tokens and barriers: a state and operands that meet them all.
-/

namespace Sys2Proof.Tests

open Sys2Proof Sys2Proof.Machine

set_option maxRecDepth 100000
-- One kernel evaluation at a time, so that the check needs little memory.
set_option Elab.async false

/-! ### CSRs, traps and the system forms -/

theorem witness_CsrForms :
    csrLegal base.me.sup 0x107 false = true ∧ csrLegal base.me.sup 0x107 true = true ∧
      csrLegal atUser.me.sup 0x100 false = false ∧ csrLegal base.me.sup 9 true = false := by decide +kernel

/-- Only the timer's interrupt is pending, and it is enabled. -/
def interrupted : State := hartWith (fun H => { H with csr := { H.csr with sstat := 0x01010002 } })

theorem witness_TrapAndInterruptEntry :
    interrupted.me.run = .running ∧ (interrupted.sstat interrupted.cur).getLsbD (24 + 0) = true ∧
      (interrupted.me.sup = true → interrupted.me.csr.sstat.getLsbD 1 = true ∧
        interrupted.me.csr.sstat.getLsbD (16 + 0) = true) ∧
      ((interrupted.sstat interrupted.cur).getLsbD 25 = false ∧ (interrupted.sstat interrupted.cur).getLsbD 26 = false ∧
        (interrupted.sstat interrupted.cur).getLsbD 27 = false ∧ (interrupted.sstat interrupted.cur).getLsbD 28 = false) ∧
      (∀ c < 5, (base.sstat base.cur).getLsbD (24 + c) = false) := by decide +kernel

theorem witness_SystemAndIllegalForms :
    base.me.dbg.ctl.getLsbD 3 = false ∧
      (hartWith (fun H => { H with dbg := { H.dbg with ctl := 8 } })).me.dbg.ctl.getLsbD 3 = true ∧
      base.me.sup = true ∧ atUser.me.sup = false ∧ fld (interrupted.sstat interrupted.cur) 24 5 ≠ 0 ∧
      fld (base.sstat base.cur) 24 5 = 0 ∧ fld (0x0022186A#32) 26 6 = 0 := by decide +kernel

theorem witness_HintsDoNothing : fld (0xF7FFFFFF#32) 26 6 = 0x3D ∧ fld (0xF4000000#32) 26 6 = 0x3D := by decide

theorem witness_TlbInvalidation :
    base.me.sup = true ∧ atUser.me.sup = false ∧ (0 : Fin 224) ∈ tilesInReach (tileOf base.cur) 1 ∧
      (1 : Fin 224) ∉ tilesInReach (tileOf base.cur) 1 := by decide +kernel

/-! ### Streams -/

/-- A descriptor of two 8-byte elements to read, and one to write. -/
def readDesc : Desc := ⟨0x40002000, 8, 2, 0x18, 0, 0⟩
def writeDesc : Desc := ⟨0x40002000, 8, 2, 0x19, 0, 0⟩

/-- A configured stream of a descriptor. -/
def streamOf (n : Nat) (d : Desc) : Stream :=
  { Stream.reset with num := n, cfg := true, desc := d, sup := true, status := if d.dir then 3 else 1 }

/-- s0 reads and s1 writes. -/
def streaming : State :=
  hartWith (fun H => (H.setStream 0 (streamOf 0 readDesc)).setStream 1 (streamOf 1 writeDesc))

/-- x1 points to a descriptor of two elements to read. -/
def describing (s : State) : State :=
  (s.setX 1 0x40001000).putBytes 0x40001000 0 (leBytes 8 0x40002000 ++ leBytes 8 8 ++ leBytes 8 2 ++ leBytes 4 0x18)

/-- A state in which x1 points to memory that reads as a descriptor, and what a load of it reads and leaves. -/
theorem read_descriptor (s : State) (h : (s.getX 1 = 0x40001000 ∧ s.deviceAt .read 0x40001000 64 = none ∧
      s.reach s.cur s.me.sup .read 0x40001000 = .to (leaf 0x40001000) 0x40001000 ∧ s.peerWaits 0x40001000 = false ∧
      (met s (leaf 0x40001000) false).2 = .served ∧
      (met s (leaf 0x40001000) false).1.hostHolds (0x40001000 / 128) 0 false = false) ∧
      (s.takeEarly s.cur true 0x40001000 0 64).isNone = true ∧
      (metState s (leaf 0x40001000) false).poisoned 0x40001000 64 = false) :
    Claim.Reads s .read (s.getX 1) 64 (readValue s (leaf 0x40001000) 0x40001000 64)
      (readState s (leaf 0x40001000) 0x40001000 64) := by
  rw [h.1.1]
  exact reads_at _ _ ⟨by decide, h.1.2.1, h.1.2.2⟩ h.2.1 h.2.2

theorem witness_StreamConfigure_read :
    (∃ x u, Claim.Reads (describing granting) .read ((describing granting).getX 1) 64 x u) ∧
      (withX 1 0x40001004 |>.getX 1).toNat % 64 ≠ 0 :=
  ⟨⟨_, _, read_descriptor _ (by decide +kernel)⟩, by decide +kernel⟩

/-- A tile whose harts 0 and 1 use 16 stream contexts each. -/
def crowded : State :=
  let all (H : Hart) : Hart := { H with streams := Vector.replicate 16 (streamOf 0 readDesc) }
  (hartWith all).updHart 1 all

/-- What `strm.cfg` finds once it has read the descriptor: whether it is legal, whether s0 is configured, how many
contexts the tile uses, and whether it has a FIFO bank. -/
def configures (s : State) : Bool × Bool × Nat × Bool :=
  let bs := bytesOf 64 (readValue s (leaf 0x40001000) 0x40001000 64)
  let u := readState s (leaf 0x40001000) 0x40001000 64
  let w := u.release u.cur false (descOf bs).scope
  (descOk bs, (w.me.stream 0).cfg, w.contexts (tileOf w.cur), (w.claimFifo (tileOf w.cur)).isSome)

theorem witness_StreamConfigure :
    (configures (base.setX 1 0x40001000)).1 = false ∧ configures (describing streaming) = (true, true, 2, true) ∧
      configures (describing (crowded.updMe (fun H => H.setStream 0 Stream.reset))) = (true, false, 31, true) ∧
      configures (describing granting) = (true, false, 0, false) ∧ configures (describing fifo) = (true, false, 0, true) := by
  decide +kernel

/-- The tile's harts 0, 1 and 2 use 32 stream contexts, and s0 of hart 0 is free. -/
theorem witness_StreamConfigure_full :
    configures (describing ((crowded.updMe (fun H => H.setStream 0 Stream.reset)).updHart 2
      (fun H => H.setStream 0 (streamOf 0 readDesc)))) = (true, false, 32, true) := by decide +kernel

theorem witness_StreamElements_pop :
    let s := hartWith (fun H => H.setStream 0 { streamOf 0 readDesc with buf := [5] })
    let t := s.me.stream 0
    (t.cfg = true ∧ t.desc.dir = false ∧ t.copy = none ∧ t.pos ≠ t.desc.count ∧ t.buf = 5 :: []) ∧
      (streaming.me.stream 0).buf = [] ∧ (base.me.stream 0).cfg = false := by decide +kernel

theorem witness_StreamElements_push :
    let t := streaming.me.stream 1
    (t.cfg = true ∧ t.desc.dir = true ∧ t.copy = none ∧ t.pos ≠ t.desc.count ∧ t.desc.fold = 0 ∧
      t.buf.length < t.capacity) := by decide +kernel

theorem witness_StreamElements_full : (streamOf 1 writeDesc).capacity ≤ (List.replicate 8192 0).length := by
  rw [List.length_replicate]
  decide

theorem witness_StreamElements_others :
    ({ streamOf 0 readDesc with copy := some ⟨1, false, [], 0⟩ } : Stream).copy.isSome = true ∧
      ({ streamOf 0 readDesc with pos := 2 } : Stream).pos = readDesc.count ∧
      (let t := streaming.me.stream 0
       let w := streaming.me.stream 1
       t.cfg = true ∧ w.cfg = true ∧ (0 : BitVec 4) ≠ 1 ∧ t.desc.dir = false ∧ w.desc.dir = true ∧ t.copy = none ∧
         w.copy = none ∧ t.stopAt = none ∧ w.stopAt = none ∧ t.pos = 0 ∧ w.pos = 0 ∧ w.desc.fold = 0 ∧
         w.desc.foldlen = 0 ∧ t.desc.count = w.desc.count) := by decide +kernel

theorem witness_StreamRelease :
    let s := hartWith (fun H => { H with
      wait := .stream 3
      releasing := [{ streamOf 3 readDesc with release := .read }] })
    ((streaming.me.stream 0).cfg = true ∧ (streaming.me.stream 0).copy = none) ∧
      (base.me.stream 0).cfg = false ∧ base.me.wait = .none ∧ base.me.releasing = [] ∧
      s.me.wait = .stream 3 ∧ (s.me.stream 3).cfg = false ∧
      (∃ u ∈ s.me.releasing, u.num = 3 ∧ u.serial = (s.me.stream 3).serial ∧ u.saved = false) ∧
      (s.me.releasingOf 3).isSome = true ∧ (base.me.releasingOf 0).isNone = true := by decide +kernel

/-- Only the release of an earlier stream of the register goes on. -/
theorem witness_StreamRelease_older :
    let s := hartWith (fun H => { H with
      wait := .stream 3
      streams := H.streams.set 3 { Stream.reset with num := 3, serial := 2 }
      releasing := [{ streamOf 3 readDesc with release := .read, serial := 1 }] })
    (s.me.stream 3).cfg = false ∧ (s.me.stream 3).serial = 2 ∧
      (∀ u ∈ s.me.releasing, ¬ (u.num = 3 ∧ u.serial = 2 ∧ u.saved = false)) ∧
      (s.me.releasingOf 3).isNone = true := by decide +kernel

/-- A stream whose copy runs, and one whose copy has stopped. -/
theorem witness_StreamRelease_copy :
    let t (stopped : Bool) : Stream := { streamOf 0 readDesc with copy := some ⟨1, stopped, [], 0⟩ }
    (∃ c, (t false).cfg = true ∧ (t false).copy = some c ∧ c.stopped = false) ∧
      ∃ c, (t true).cfg = true ∧ (t true).copy = some c ∧ c.stopped = true :=
  ⟨⟨_, by decide, rfl, rfl⟩, ⟨_, by decide, rfl, rfl⟩⟩

/-- s0 has a fault at element 1, and its copy with it. -/
def faulty : State :=
  hartWith (fun H => H.setStream 0
    { streamOf 0 readDesc with stopAt := some (1, 7, 0x40002008), copy := some ⟨1, true, [], 0⟩ })

theorem witness_StreamSaveAndRestore_names :
    Claim.Names base (base.getX 0) base.cur ∧ Claim.Names (withX 2 1024) ((withX 2 1024).getX 2) 0 :=
  ⟨.inl (by decide +kernel), .inr (by decide +kernel)⟩

/-- No hart is named by an operand without bit 10. -/
theorem witness_StreamSaveAndRestore_nobody : ∀ g, ¬ Claim.Names (withX 2 7) ((withX 2 7).getX 2) g := by
  have hx : (withX 2 7).getX 2 = 7 := by decide +kernel
  rintro g (⟨h, -⟩ | ⟨h, -⟩)
  · rw [hx] at h
    exact absurd h (by decide)
  · rw [hx] at h
    have h' := congrArg BitVec.toNat h
    rw [BitVec.toNat_ofNat] at h'
    have hc : ctxOf g < 4 := Nat.mod_lt _ (by decide)
    have := (tileOf g).isLt
    rw [Nat.mod_eq_of_lt (by omega)] at h'
    exact absurd h' (by simp only [show BitVec.toNat (7 : Word) = 7 from rfl]; omega)

theorem witness_StreamSaveAndRestore :
    ((faulty.me.stream 0).cfg = true ∧ (faulty.me.stream 0).stopAt.isSome = true ∧
      (∃ k, (faulty.me.stream 0).copy = some k) ∧ faulty.me.sup = true) ∧ (streaming.me.stream 0).stopAt = none ∧
      atUser.me.sup = false ∧ (1 : Reg) ≠ 0 ∧ (withX 1 0x40001004).getX 1 = 0x40001004 ∧
      (0x40001004 : Word).toNat % 64 ≠ 0 ∧ (0x40001000 : Word).toNat % 64 = 0 ∧
      (2 : HartId) ≠ streaming.cur ∧ (base.hart 2).run ≠ .halted := by
  refine ⟨⟨by decide +kernel, by decide +kernel, ⟨_, rfl⟩, by decide +kernel⟩, by decide +kernel⟩

/-- A write stream with an element produced that is not home, below its fault. -/
def unmade : Stream := { streamOf 1 writeDesc with buf := [5], pos := 1, stopAt := some (1, 7, 0x40002008) }

/-- What a save of stream register `n` to x1 finds: its two halves, each reached and served in turn. -/
theorem saves (s : State) (n : Nat) (h : (s.me.sup = true ∧ s.getX 0 = 0 ∧ (s.getX 1).toNat % 64 = 0 ∧
      (s.me.stream n).cfg = true ∧
      s.reach s.cur true .write (s.getX 1).toNat = .to (leaf 0x40001000) 0x40001000 ∧
      s.reach s.cur true .write (s.getX 1 + 64).toNat = .to (leaf 0x40001040) 0x40001040) ∧
    (s.peerWaits 0x40001000 = false ∧ (met s (leaf 0x40001000) true).2 = .served ∧
      (met s (leaf 0x40001000) true).1.hostHolds (0x40001000 / 128) 0 true = false) ∧
    (let u := metState s (leaf 0x40001000) true
     u.peerWaits 0x40001040 = false ∧ (met u (leaf 0x40001040) true).2 = .served ∧
      (met u (leaf 0x40001040) true).1.hostHolds (0x40001040 / 128) 0 true = false)) :
    s.me.sup = true ∧ Claim.Names s (s.getX 0) s.cur ∧ (s.getX 1).toNat % 64 = 0 ∧ (s.me.stream n).cfg = true ∧
      ∃ l l' c c' u u', s.reach s.cur true .write (s.getX 1).toNat = .to l c ∧
        s.reach s.cur true .write (s.getX 1 + 64).toNat = .to l' c' ∧ Claim.Meets s l true u ∧ Claim.Meets u l' true u' :=
  ⟨h.1.1, .inl ⟨h.1.2.1, rfl⟩, h.1.2.2.1, h.1.2.2.2.1, _, _, _, _, _, _, h.1.2.2.2.2.1, h.1.2.2.2.2.2,
    meets_of h.2.1, meets_of h.2.2⟩

/-- s1 is such a stream, without an extent that would let it be written. -/
def unhomeable : State := (hartWith (fun H => H.setStream 1 unmade)).setX 1 0x40001000

theorem witness_StreamSaveAndRestore_save :
    (let s := streaming.setX 1 0x40001000
     (s.me.sup = true ∧ ∃ l l' c c' u u', s.reach s.cur true .write (s.getX 1).toNat = .to l c ∧
        s.reach s.cur true .write (s.getX 1 + 64).toNat = .to l' c' ∧ Claim.Meets s l true u ∧
        Claim.Meets u l' true u') ∧
      (((metState (metState s (leaf 0x40001000) true) (leaf 0x40001040) true).saveHome 0 0).me.stream 0).unhomed = false) ∧
    ((∃ l l' c c' u u', unhomeable.reach unhomeable.cur true .write (unhomeable.getX 1).toNat = .to l c ∧
        unhomeable.reach unhomeable.cur true .write (unhomeable.getX 1 + 64).toNat = .to l' c' ∧
        Claim.Meets unhomeable l true u ∧ Claim.Meets u l' true u') ∧
      (((metState (metState unhomeable (leaf 0x40001000) true) (leaf 0x40001040) true).saveHome 0 1).me.stream 1).unhomed = true) ∧
    (hartWith (fun H => { H with run := .halted })).me.run = .halted := by
  refine ⟨⟨⟨by decide +kernel, ?_⟩, by decide +kernel⟩, ⟨?_, by decide +kernel⟩, by decide +kernel⟩
  · exact (saves (streaming.setX 1 0x40001000) 0 (by decide +kernel)).2.2.2.2
  · exact (saves unhomeable 1 (by decide +kernel)).2.2.2.2

/-- What `strm.rest` of s0 from x1 finds: whether s0 is configured, the contexts of the tile and whether it has a FIFO
bank once both halves of the image are read. -/
def restores (s : State) : Bool × Nat × Bool :=
  let u := readState (readState s (leaf 0x40001000) 0x40001000 64) (leaf 0x40001040) 0x40001040 64
  ((s.me.stream 0).cfg, u.contexts (tileOf u.cur), (u.claimFifo (tileOf u.cur)).isSome)

theorem restores_reads (s : State) (h : (s.getX 1 = 0x40001000 ∧ s.deviceAt .read 0x40001000 64 = none ∧
      s.reach s.cur s.me.sup .read 0x40001000 = .to (leaf 0x40001000) 0x40001000 ∧ s.peerWaits 0x40001000 = false ∧
      (met s (leaf 0x40001000) false).2 = .served ∧
      (met s (leaf 0x40001000) false).1.hostHolds (0x40001000 / 128) 0 false = false) ∧
      (s.takeEarly s.cur true 0x40001000 0 64).isNone = true ∧
      (metState s (leaf 0x40001000) false).poisoned 0x40001000 64 = false)
    (h' : let u := readState s (leaf 0x40001000) 0x40001000 64
      (u.deviceAt .read 0x40001040 64 = none ∧
      u.reach u.cur u.me.sup .read 0x40001040 = .to (leaf 0x40001040) 0x40001040 ∧ u.peerWaits 0x40001040 = false ∧
      (met u (leaf 0x40001040) false).2 = .served ∧
      (met u (leaf 0x40001040) false).1.hostHolds (0x40001040 / 128) 0 false = false) ∧
      (u.takeEarly u.cur true 0x40001040 0 64).isNone = true ∧
      (metState u (leaf 0x40001040) false).poisoned 0x40001040 64 = false) :
    ∃ x x' u u', Claim.Reads s .read (s.getX 1) 64 x u ∧ Claim.Reads u .read (s.getX 1 + 64) 64 x' u' := by
  have hr := reads_at (va := 0x40001040) (leaf 0x40001040) 0x40001040 ⟨by decide, h'.1⟩ h'.2.1 h'.2.2
  rw [show (0x40001040 : Word) = s.getX 1 + 64 by rw [h.1.1]; decide] at hr
  exact ⟨_, _, _, _, read_descriptor s h, hr⟩

theorem witness_StreamSaveAndRestore_restore :
    (∃ x x' u u', Claim.Reads (describing fifo) .read ((describing fifo).getX 1) 64 x u ∧
      Claim.Reads u .read ((describing fifo).getX 1 + 64) 64 x' u') ∧
      Claim.Names (describing fifo) ((describing fifo).getX 0) (describing fifo).cur ∧
      restores (describing fifo) = (false, 0, true) ∧ restores (describing granting) = (false, 0, false) ∧
      (restores (describing ((crowded.updMe (fun H => H.setStream 0 Stream.reset)).updHart 2
        (fun H => H.setStream 0 (streamOf 0 readDesc))))).2.1 = 32 :=
  ⟨restores_reads _ (by decide +kernel) (by decide +kernel), .inl (by decide +kernel), by decide +kernel⟩

/-! ### Banks, full/empty bits and rings -/

theorem witness_BankRoles_levels :
    (atUser.me.sup = false ∧ (1 : Word) &&& ~~~atUser.me.banks ≠ 0) ∧ base.me.sup = true ∧ base.getX 0 = 0 := by
  decide +kernel

theorem witness_BankRoles_held :
    (2 : Word).getLsbD 1 = true ∧ ∃ k, (claimed.tile 0).banks[1]? = some k ∧ k.role = .fifo ∧ k.claimed = true :=
  ⟨by decide, _, rfl, rfl, rfl⟩

/-- The cache banks that a change of the banks of a mask to scratchpad would leave. -/
def cacheLeft (m : Word) : Nat :=
  ((List.range 64).filter (fun b => !m.getLsbD b &&
    ((base.tile 0).banks[b]?.map (fun k => k.role == .cache)).getD false)).length

theorem witness_BankRoles_left : cacheLeft (BitVec.allOnes 64) < 2 ∧ 2 ≤ cacheLeft 1 := by decide +kernel

theorem witness_BankRoles_none :
    ¬ ∃ b < 64, (1 : Word).getLsbD b = true ∧ ∃ k, (base.tile (tileOf base.cur)).banks[b]? = some k ∧
      k.role = .fifo ∧ k.claimed = true := by
  rintro ⟨b, hb, -, k, hk, hr, -⟩
  have h : ∀ b < 64, (base.tile (tileOf base.cur)).banks[b]?.map (fun k => k.role) = some .cache := by decide +kernel
  have := h b hb
  rw [hk] at this
  simp_all

theorem witness_FullEmptyBits :
    let s := scratch.setX 1 0x8000000040
    (s.getX 1).toNat % 8 = 0 ∧ (1 : Word).toNat < 2 ^ 32 ∧
      s.reach s.cur s.me.sup .write (s.getX 1 + 8 * BitVec.ofNat 64 0).toNat =
        .to (spadLeaf 0x8000000040) 0x8000000040 ∧
      s.reach s.cur s.me.sup .read (s.getX 1).toNat = .to (spadLeaf 0x8000000040) 0x8000000040 ∧
      regionOf 0x8000000040 = .spad ∧ spadTile 0x8000000040 = 0 ∧ s.isFull 0x8000000040 = false ∧
      (s.setFull 0x8000000040 true).isFull 0x8000000040 = true ∧
      ((s.setX 1 4).getX 1).toNat % 8 ≠ 0 := by decide +kernel

/-- No hart waits for a word but perhaps the hart whose turn it is. -/
theorem not_behind {s : State} (h : ∀ k, k ≠ s.cur → (s.hart k).run ≠ .waiting) (w : Nat) (f : Bool) :
    s.feBehind w f = false := by
  unfold State.feBehind
  rw [List.any_eq_false]
  intro k _
  by_cases hk : k = s.cur
  · simp [hk]
  · simp [h k hk]

theorem hart_updTile (s : State) (t : Fin 224) (f : Tile → Tile) (k : HartId) : (s.updTile t f).hart k = s.hart k := rfl

theorem cur_setX (s : State) (r : Reg) (w : Word) : (s.setX r w).cur = s.cur := rfl

theorem hart_setX (s : State) (r : Reg) (w : Word) {k : HartId} (hk : k ≠ s.cur) : (s.setX r w).hart k = s.hart k :=
  hart_updHart_ne _ _ _ _ hk

theorem scratch_cur : scratch.cur = 0 := by decide +kernel

theorem witness_FullEmptyBits_first (w : Nat) (f : Bool) : (scratch.setX 1 0x8000000040).feBehind w f = false := by
  refine not_behind (fun k hk => ?_) w f
  rw [cur_setX] at hk
  rw [hart_setX _ _ _ hk]
  rw [scratch_cur] at hk
  unfold scratch
  rw [hart_updTile, others_idle k hk]
  decide

theorem witness_Rings_configure :
    let s := (scratch.setX 1 0x8000000040).setX 2 0x20040
    ringShapeOk (s.getX 1) (s.getX 2) = true ∧ ringShapeOk (s.getX 1) 0 = false ∧
      s.translate s.cur s.me.sup .read (max (s.getX 1).toNat (0x8000000 * 4096) % 2 ^ 64) =
        .ok (spadLeaf 0x8000000040) ∧ s.keyInvalid 0 = false ∧
      s.inSpadOf (tileOf s.cur) 0x8000000040 = true := by decide +kernel

theorem witness_Rings :
    let s := (hartWith (fun H => H.setRing 0 ⟨true, 0, 64, 2, 0, 1⟩)).setX 1 1
    let r := s.me.ring 0
    (r.on = true ∧ (s.getX 1).toNat ≠ 0 ∧ (s.getX 1).toNat ≤ r.entries ∧
      (r.tail - r.head).toNat + (s.getX 1).toNat ≤ r.entries) ∧
      r.entries < (r.tail - r.head).toNat + (2 : Word).toNat ∧ (s.getX 1).toNat ≤ (r.tail - r.head).toNat ∧
      (r.tail - r.head).toNat < (2 : Word).toNat ∧ (2 : Word).toNat ≤ r.entries ∧ (base.me.ring 0).on = false := by
  decide +kernel

/-! ### Counters, tokens and barriers -/

theorem witness_CountersTokensBarriers :
    (base.getX 0).toNat ≤ ((base.me.ctr)[0]).toNat ∧ ((base.me.ctr)[0]).toNat < ((withX 1 1).getX 1).toNat ∧
      (ganged.gangOf ganged.cur).isSome = true ∧ base.me.gang = none ∧
      ((ganged.gangOf ganged.cur).all (fun g => (g.1.member? 1).isSome && g.1.members.length == 2 && g.1.fc == 0)) = true ∧
      fld (0x50000 : Word) 4 12 = 0 ∧ fld (0x50000 : Word) 32 32 = 0 ∧
      (ganged.hart 1).tokens 0 ≠ 0xFFFFFFFF ∧
      0 < (hartWith (fun H => { H with tok := H.tok.set 0 1 })).me.tokens 0 ∧ base.me.tokens 0 = 0 ∧
      16 ≤ ((withX 1 16).getX 1).toNat := by decide +kernel

/-- Counter 0 stepped by a hart of another tile, whose scope reaches the tile alone or every die; no release is noted at
counter 1. -/
def stepped_ (p : Nat) : State := hartWith (fun H => { H with ctrRel := [(0, (4, p))] })

theorem witness_CountersTokensBarriers_releases :
    relsOf base.me.ctrRel 1 = [] ∧
      (∃ r ∈ relsOf (stepped_ 4).me.ctrRel 0, r.1.far (stepped_ 4).cur ≤ min r.2 ((4 : BitVec 3).toNat + 1)) ∧
      (∀ r ∈ relsOf (stepped_ 0).me.ctrRel 0, ¬ r.1.far (stepped_ 0).cur ≤ min r.2 ((0 : BitVec 3).toNat + 1)) ∧
      relsOf (stepped_ 0).me.ctrRel 0 ≠ [] := by decide +kernel

/-- A barrier of two harts, at 0x40001000, with `left` of them to come. -/
def barrier (left : Nat) : State := (withX 1 0x40001000).putBytes 0x40001000 0 (leBytes 8 (0x20000 + left))

/-- What an arrival finds: whether the word can be read, LEFT and TOTAL. -/
def arrives (s : State) : Bool × Nat × Nat :=
  let u := metState s (leaf 0x40001000) true
  let o := (u.release u.cur true 0).acquire u.cur true 0 0x40001000 8
  let w := (o.forgetAt u.cur true 0x40001000 8).drain (fun e => e.seenBy (.side u.cur true) && e.meets 0x40001000 8)
  let old := natOf (w.bytesUnder 0x40001000 0 8)
  (u.poisoned 0x40001000 8, old % 2 ^ 16, old / 2 ^ 16 % 2 ^ 16)

theorem witness_CountersTokensBarriers_barrier :
    (∃ u, Claim.Access (barrier 1) .write true 0x40001000 8 (leaf 0x40001000) 0x40001000 u) ∧
      (∃ u, Claim.Access (barrier 2) .read false 0x40001000 8 (leaf 0x40001000) 0x40001000 u) ∧
      (barrier 1).atomicOk 0x40001000 = true ∧ arrives (barrier 1) = (false, 1, 2) ∧ arrives (barrier 2) = (false, 2, 2) ∧
      (let u := metState (barrier 2) (leaf 0x40001000) false
       let gen := Claim.seen u (leaf 0x40001000) 0x40001000 8 / 2 ^ 32
       u.poisoned 0x40001000 8 = false ∧ gen = ((barrier 2).getX 0).toNat % 2 ^ 32 ∧
         gen ≠ (((barrier 2).setX 2 1).getX 2).toNat % 2 ^ 32) :=
  ⟨⟨_, access_of _ _ (by decide +kernel)⟩, ⟨_, access_of _ _ (by decide +kernel)⟩, by decide +kernel⟩

end Sys2Proof.Tests
end

namespace Sys2Proof.Machine

/-! ### What only a placement, a save or an end of a gang changes -/

/-- The numbers of the gangs with whether each runs, and the launch queues of each die: what memory, the engines, the
reservations and the roles of banks never change. -/
def State.roster (s : State) : List (Nat × Bool) × (Fin 4 → Vector Queue 32) :=
  (s.gangs.map (fun G => (G.id, G.running)), fun d => (s.die d).queues)

/-- A fold keeps what each of its steps keeps. -/
theorem foldl_keeps {σ α β : Type} {p : σ → β} {f : σ → α → σ} (h : ∀ s x, p (f s x) = p s) (l : List α) (s : σ) :
    p (l.foldl f s) = p s := by
  induction l generalizing s with
  | nil => rfl
  | cons x t ih => exact (ih _).trans (h s x)

theorem roster_foldl {α : Type} {f : State → α → State} (h : ∀ s x, (f s x).roster = s.roster) (l : List α)
    (s : State) : (l.foldl f s).roster = s.roster := foldl_keeps (p := State.roster) h l s

theorem roster_foldl_fst {α β : Type} {f : State × β → α → State × β} (h : ∀ a x, (f a x).1.roster = a.1.roster)
    (l : List α) (a : State × β) : (l.foldl f a).1.roster = a.1.roster :=
  foldl_keeps (p := fun a : State × β => a.1.roster) h l a

/-! #### Harts, tiles, dies and landing dies -/

@[simp] theorem updHart_roster (s : State) (h : HartId) (f : Hart → Hart) : (s.updHart h f).roster = s.roster := rfl
@[simp] theorem updLanding_roster (s : State) (d : Fin 8) (f : Landing → Landing) :
    (s.updLanding d f).roster = s.roster := rfl

theorem die_updDie_ne (s : State) (d e : Fin 4) (f : Die → Die) (he : e ≠ d) : (s.updDie d f).die e = s.die e := by
  have : d.val ≠ e.val := fun h => he (Fin.ext h.symm)
  simp [State.die, State.updDie, this]

theorem updDie_roster {f : Die → Die} (hf : ∀ D, (f D).queues = D.queues) (s : State) (d : Fin 4) :
    (s.updDie d f).roster = s.roster := by
  refine Prod.ext rfl (funext fun e => ?_)
  by_cases h : e = d
  · subst h
    exact (congrArg Die.queues (die_updDie_same s e f)).trans (hf _)
  · exact congrArg Die.queues (die_updDie_ne s d e f h)

theorem roster_of_map {s u : State} {f : Gang → Gang} (hf : ∀ G, ((f G).id, (f G).running) = (G.id, G.running))
    (hg : u.gangs = s.gangs.map f) (hq : u.roster.2 = s.roster.2) : u.roster = s.roster := by
  refine Prod.ext ?_ hq
  simp only [State.roster, hg, List.map_map]
  exact List.map_congr_left (fun G _ => hf G)

theorem updGang_roster {f : Gang → Gang} (hf : ∀ G, ((f G).id, (f G).running) = (G.id, G.running)) (s : State)
    (g : Nat) : (s.updGang g f).roster = s.roster :=
  roster_of_map (s := s) (fun G => by split; exacts [hf G, rfl]) rfl rfl

@[simp] theorem fcAdd_roster (s : State) (g up down : Nat) : (s.fcAdd g up down).roster = s.roster :=
  updGang_roster (f := fun G => { G with fc := G.fc + up - down }) (fun _ => rfl) s g

/-! #### Memory -/

/-- A state that differs in the bytes of memory and the keys of its sectors alone. -/
def State.Rewritten (s u : State) : Prop := ∃ m k, u = { s with mem := m, sectorKey := k }

theorem State.Rewritten.refl (s : State) : s.Rewritten s := ⟨s.mem, s.sectorKey, rfl⟩

theorem State.Rewritten.trans {s u v : State} (h : s.Rewritten u) (k : u.Rewritten v) : s.Rewritten v := by
  obtain ⟨m, e, rfl⟩ := h
  obtain ⟨n, f, rfl⟩ := k
  exact ⟨n, f, rfl⟩

theorem rekey_rewritten (s : State) (sector key : Nat) : s.Rewritten (s.rekey sector key) := by
  unfold State.rekey
  split
  · split
    · exact .refl s
    · exact ⟨_, _, rfl⟩
  · exact ⟨_, _, rfl⟩

theorem putByte_rewritten (s : State) (c k : Nat) (b : Byte) : s.Rewritten (s.putByte c k b) := by
  unfold State.putByte
  split
  · exact (rekey_rewritten s (c / 32) k).trans ⟨_, _, rfl⟩
  · exact ⟨_, _, rfl⟩

theorem putBytes_rewritten (s : State) (c k : Nat) (bs : List Byte) : s.Rewritten (s.putBytes c k bs) := by
  induction bs generalizing s c with
  | nil => exact .refl s
  | cons b t ih => exact (putByte_rewritten s c k b).trans (ih _ _)

theorem State.Rewritten.roster {s u : State} (h : s.Rewritten u) : u.roster = s.roster := by
  obtain ⟨m, k, rfl⟩ := h
  rfl

theorem State.Rewritten.harts {s u : State} (h : s.Rewritten u) : u.harts = s.harts := by
  obtain ⟨m, k, rfl⟩ := h
  rfl

theorem State.Rewritten.gangs {s u : State} (h : s.Rewritten u) : u.gangs = s.gangs := by
  obtain ⟨m, k, rfl⟩ := h
  rfl

theorem State.Rewritten.capsules {s u : State} (h : s.Rewritten u) : u.capsules = s.capsules := by
  obtain ⟨m, k, rfl⟩ := h
  rfl

theorem State.Rewritten.loaded {s u : State} (h : s.Rewritten u) : u.loaded = s.loaded := by
  obtain ⟨m, k, rfl⟩ := h
  rfl

@[simp] theorem putByte_roster (s : State) (c k : Nat) (b : Byte) : (s.putByte c k b).roster = s.roster :=
  (putByte_rewritten s c k b).roster

@[simp] theorem putBytes_roster (s : State) (c k : Nat) (bs : List Byte) : (s.putBytes c k bs).roster = s.roster :=
  (putBytes_rewritten s c k bs).roster

@[simp] theorem putSome_roster (s : State) (c k : Nat) (bs : List (Option Byte)) :
    (s.putSome c k bs).roster = s.roster := by
  induction bs generalizing s c with
  | nil => rfl
  | cons b t ih =>
    cases b with
    | none => exact ih s _
    | some b => exact (ih _ _).trans (putByte_roster s c k b)

@[simp] theorem noteWrite_roster (s : State) (c n : Nat) : (s.noteWrite c n).roster = s.roster := by
  unfold State.noteWrite
  split <;> rfl

@[simp] theorem noteRelease_roster (s : State) (who : Agent) (scope c n : Nat) :
    (s.noteRelease who scope c n).roster = s.roster := rfl

@[simp] theorem performStore_roster (s : State) (d : Delayed) : (s.performStore d).roster = s.roster := by
  unfold State.performStore
  dsimp only
  have h : ((d.runs.foldl (fun s r => s.noteWrite r.1 r.2) s).putSome d.pa d.key d.bytes).roster = s.roster :=
    (putSome_roster _ _ _ _).trans (roster_foldl (fun s (r : Nat × Nat) => noteWrite_roster s r.1 r.2) _ s)
  split
  · exact (roster_foldl (fun s (r : Nat × Nat) => noteRelease_roster s _ _ r.1 r.2) _ _).trans h
  · exact h

@[simp] theorem drain_roster (s : State) (p : Delayed → Bool) : (s.drain p).roster = s.roster := by
  unfold State.drain
  split
  · rfl
  · exact roster_foldl performStore_roster _ s

@[simp] theorem drainHart_roster (s : State) (h : HartId) : (s.drainHart h).roster = s.roster := drain_roster s _

@[simp] theorem write_roster (s : State) (v : Viewer) (c k : Nat) (bs : List Byte) :
    (s.write v c k bs).roster = s.roster := by simp [State.write]

@[simp] theorem writeSome_roster (s : State) (v : Viewer) (c k : Nat) (bs : List (Option Byte)) :
    (s.writeSome v c k bs).roster = s.roster := by simp [State.writeSome]

@[simp] theorem forgetWhere_roster (s : State) (p : Early → Bool) : (s.forgetWhere p).roster = s.roster := by
  unfold State.forgetWhere
  split <;> rfl

@[simp] theorem forget_roster (s : State) (h : HartId) (b : Bool) : (s.forget h b).roster = s.roster :=
  forgetWhere_roster s _

@[simp] theorem notePast_roster (s : State) (h : HartId) (num serial c n : Nat) :
    (s.notePast h num serial c n).roster = s.roster := by
  unfold State.notePast
  split <;> rfl

@[simp] theorem setFull_roster (s : State) (pa : Nat) (b : Bool) : (s.setFull pa b).roster = s.roster := rfl
@[simp] theorem clearRange_roster (s : State) (a n : Nat) : (s.clearRange a n).roster = s.roster := rfl
@[simp] theorem wipe_roster (s : State) (a n key : Nat) : (s.wipe a n key).roster = s.roster := rfl
@[simp] theorem askFor_roster (s : State) (asid : BitVec 16) (page : Nat) : (s.askFor asid page).roster = s.roster := rfl

@[simp] theorem endFailed_roster (s : State) (h : HartId) (va : Nat) : (s.endFailed h va).roster = s.roster := by
  unfold State.endFailed
  split <;> rfl

/-! #### Lines, windows and banks -/

@[simp] theorem updSlice_roster (s : State) (d : Fin 4) (line : Nat) (f : Slice → Slice) :
    (s.updSlice d line f).roster = s.roster :=
  updDie_roster (fun D => by split <;> rfl) s d

@[simp] theorem dropLine_roster (s : State) (line : Nat) (d : Fin 4) : (s.dropLine line d).roster = s.roster := by
  unfold State.dropLine
  split
  · exact updSlice_roster s d line _
  · rfl

@[simp] theorem putDir_roster (s : State) (e : DirLine) : (s.putDir e).roster = s.roster :=
  roster_foldl (fun s d => dropLine_roster s e.line d) _ _

@[simp] theorem snoopHost_roster (s : State) (line : Nat) : (s.snoopHost line).roster = s.roster := by
  unfold State.snoopHost
  split
  · exact putDir_roster s _
  · rfl

@[simp] theorem snoopAll_roster (s : State) (lines : List Nat) : (s.snoopAll lines).roster = s.roster :=
  roster_foldl snoopHost_roster lines s

@[simp] theorem touchSlice_roster (s : State) (d : Fin 4) (pa : Nat) (w : Bool) :
    (s.touchSlice d pa w).roster = s.roster := by
  unfold State.touchSlice
  split
  · exact updSlice_roster s d _ _
  · rfl

@[simp] theorem touchLine_roster (s : State) (t : Fin 224) (pa key : Nat) (w : Bool) :
    (s.touchLine t pa key w).roster = s.roster := by
  unfold State.touchLine
  split <;> simp

@[simp] theorem homeLine_roster (s : State) (key : Nat) (w : Bool) (line : Nat) :
    (s.homeLine key w line).roster = s.roster := by
  unfold State.homeLine
  split
  · exact putDir_roster s _
  · rfl

@[simp] theorem homeLines_roster (s : State) (key : Nat) (w : Bool) (lines : List Nat) :
    (s.homeLines key w lines).roster = s.roster :=
  roster_foldl (fun s l => homeLine_roster s key w l) lines s

@[simp] theorem freeWindow_roster (s : State) (gs : List (Nat × Nat)) : (s.freeWindow gs).roster = s.roster :=
  roster_foldl (fun s _ => updDie_roster (fun D => by split <;> rfl) s _) gs s

theorem placeWindow_roster {s u : State} {t : Fin 224} {n : Nat} {gs : List (Nat × Nat)}
    (h : s.placeWindow t n = some (u, gs)) : u.roster = s.roster := by
  unfold State.placeWindow at h
  dsimp only at h
  split at h
  · cases h
  · split at h
    · cases h
    · cases h
      exact updDie_roster (fun D => by rfl) s _

@[simp] theorem updBank_roster (s : State) (t : Fin 224) (b : Nat) (f : Bank → Bank) :
    (s.updBank t b f).roster = s.roster := rfl
@[simp] theorem freeFifo_roster (s : State) (t : Fin 224) (b : Nat) : (s.freeFifo t b).roster = s.roster := rfl
@[simp] theorem fifoToCache_roster (s : State) (t : Fin 224) (b : Nat) : (s.fifoToCache t b).roster = s.roster := rfl

@[simp] theorem changeRole_roster (s : State) (t : Fin 224) (b : Nat) (r : Role) :
    (s.changeRole t b r).roster = s.roster := by
  unfold State.changeRole
  split
  · rfl
  · split
    · rfl
    · dsimp only
      rw [updBank_roster]
      split <;> split <;> rfl

/-! #### Reservations -/

@[simp] theorem unpark_roster (s : State) (who : Parker) : (s.unpark who).roster = s.roster := by
  unfold State.unpark
  split <;> rfl

@[simp] theorem unparkHart_roster (s : State) (h : HartId) : (s.unparkHart h).roster = s.roster := by
  unfold State.unparkHart
  dsimp only
  split <;> rfl

@[simp] theorem unparkAt_roster (s : State) (who : Parker) (lines : List Nat) :
    (s.unparkAt who lines).roster = s.roster := by
  unfold State.unparkAt
  split <;> rfl

@[simp] theorem tellPeers_roster (s : State) (es : List Extent) (k : MsgKind) :
    (s.tellPeers es k).roster = s.roster :=
  roster_foldl (fun s e => by split <;> rfl) es s

@[simp] theorem setEntries_roster (s : State) (t : Stream) (st : Nat) : (s.setEntries t st).roster = s.roster :=
  tellPeers_roster _ _ _

@[simp] theorem relPeers_roster (s : State) (es : List Extent) : (s.relPeers es).roster = s.roster :=
  (tellPeers_roster _ _ _).trans (roster_foldl (fun s e => by split <;> rfl) es s)

@[simp] theorem giveUp_roster (s : State) (t : Stream) (es : List Extent) : (s.giveUp t es).1.roster = s.roster :=
  relPeers_roster _ _

@[simp] theorem leavePeers_roster (s : State) (t : Stream) : (s.leavePeers t).1.roster = s.roster :=
  relPeers_roster _ _

@[simp] theorem relabel_roster (s : State) (t : Stream) (h : HartId) : (s.relabel t h).roster = s.roster := rfl
@[simp] theorem putStream_roster (s : State) (h : HartId) (n : Nat) (t : Stream) :
    (s.putStream h n t).roster = s.roster := rfl

@[simp] theorem giveWindow_roster (s : State) (h : HartId) (t : Stream) : (s.giveWindow h t).1.roster = s.roster := by
  unfold State.giveWindow
  split
  · split
    · exact placeWindow_roster ‹_›
    · rfl
  · rfl

@[simp] theorem passed_roster (s : State) (t : Stream) (front : Nat) : (s.passed t front).1.roster = s.roster := by
  refine (roster_foldl (fun s e => roster_foldl (fun s q => ?_) _ s) _ _).trans (giveUp_roster s t _)
  split <;> rfl

@[simp] theorem putAt_roster (s : State) (p : StreamAt) (t : Stream) : (s.putAt p t).roster = s.roster := by
  cases p with
  | reg h n => rfl
  | released h k => rfl
  | gang g r k => exact roster_of_map (s := s) (fun G => by split <;> rfl) rfl rfl

end Sys2Proof.Machine

namespace Sys2Proof.Machine

/-! ### What a stream engine does leaves the roster -/

@[simp] theorem fillWord_roster (t : Stream) (s : State) (d : Delayed) : (State.fillWord t s d).roster = s.roster := by
  simp [State.fillWord]

@[simp] theorem fillParts_roster (s : State) (t : Stream) : (s.fillParts t).1.roster = s.roster :=
  roster_foldl (fillWord_roster t) _ s

theorem writeElem_roster {s u : State} {h : HartId} {t t' : Stream} {j v : Nat}
    (e : s.writeElem h t j v = .ok (u, t')) : u.roster = s.roster := by
  unfold State.writeElem at e
  split at e
  · cases e
  · split at e
    · cases e
    · split at e
      · dsimp only at e
        split at e
        · split at e
          · cases e; rfl
          · cases e; exact roster_foldl (fillWord_roster t) _ s
        · cases e; simp
      · cases e
      · cases e

@[simp] theorem writeElems_roster (s : State) (h : HartId) (t : Stream) (j : Nat) (vs : List Nat) :
    (s.writeElems h t j vs).1.roster = s.roster := by
  induction vs generalizing s t j with
  | nil => rfl
  | cons v vs ih =>
    unfold State.writeElems
    split
    · rfl
    · exact (ih _ _ _).trans (writeElem_roster ‹_›)

@[simp] theorem cleanStrips_roster (s : State) (h : HartId) (t : Stream) (j n : Nat) :
    (s.cleanStrips h t j n).1.roster = s.roster := by
  unfold State.cleanStrips
  split <;> rfl

@[simp] theorem drainStream_roster (s : State) (h : HartId) (t : Stream) (k : Nat) :
    (s.drainStream h t k).1.roster = s.roster := by
  unfold State.drainStream
  split
  · exact (cleanStrips_roster _ _ _ _ _).trans (writeElems_roster _ _ _ _ _)
  · rfl

@[simp] theorem stopAtFault_roster (s : State) (h : HartId) (n : Nat) (t : Stream) (f va : Nat) (c : Cause) :
    (s.stopAtFault h n t f va c).1.roster = s.roster := setEntries_roster s t 2

@[simp] theorem stopStream_roster (s : State) (h : HartId) (n : Nat) (t : Stream) (f va : Nat) (c : Cause) :
    (s.stopStream h n t f va c).1.roster = s.roster :=
  (stopAtFault_roster _ _ _ _ _ _ _).trans (endFailed_roster s h va)

/-! #### Splits, and windows under another key -/

@[simp] theorem splitStream_roster (s : State) (hold : Bool) (h : HartId) (n : Nat) (t : Stream) :
    (s.splitStream hold h n t).1.roster = s.roster := by
  have hd := drainStream_roster s h t t.made.length
  unfold State.splitStream
  dsimp only
  split
  · exact (leavePeers_roster _ _).trans hd
  · exact (stopAtFault_roster _ _ _ _ _ _ _).trans ((leavePeers_roster _ _).trans hd)
  · split
    · exact hd
    · exact (leavePeers_roster _ _).trans hd

@[simp] theorem stopSaved_roster (s : State) (p : StreamAt) (t : Stream) (f va : Nat) (c : Cause) :
    (s.stopSaved p t f va c).1.roster = s.roster := by
  cases p with
  | reg h n => exact setEntries_roster s t 2
  | released h k => exact setEntries_roster s t 2
  | gang g r k =>
    have hq := congrArg Prod.snd (setEntries_roster s t 2)
    exact roster_of_map (s := s) (fun G => by split <;> rfl) rfl hq

@[simp] theorem homeSaved_roster (s : State) (p : StreamAt) (t : Stream) (k : Nat) :
    (s.homeSaved p t k).1.roster = s.roster := by
  induction k generalizing s t with
  | zero => rfl
  | succ k ih =>
    unfold State.homeSaved
    split
    · rfl
    · split
      · rfl
      · split
        · exact (ih _ _).trans (write_roster s _ _ _ _)
        · rfl
        · split
          · rfl
          · exact stopSaved_roster s p t _ _ _

@[simp] theorem splitAt_roster (s : State) (hold : Bool) (p : StreamAt) (n : Nat) (t : Stream) :
    (s.splitAt hold p n t).1.roster = s.roster := by
  unfold State.splitAt
  split
  · exact (leavePeers_roster _ _).trans (homeSaved_roster s p t _)
  · exact splitStream_roster s hold _ n t

theorem onHolder_roster {f : State → StreamAt → Stream → State × Stream × Bool}
    (hf : ∀ s p t, (f s p t).1.roster = s.roster) (s : State) (d k : Nat) (r : Rsv) :
    (s.onHolder d k r f).1.roster = s.roster := by
  unfold State.onHolder
  split
  · exact (putAt_roster _ _ _).trans (hf _ _ _)
  · rfl

@[simp] theorem splitEntry_roster (s : State) (hold : Bool) (d k : Nat) (r : Rsv) :
    (s.splitEntry hold d k r).1.roster = s.roster := by
  have h := onHolder_roster (fun s p t => splitAt_roster s hold p r.stream t) s d k r
  unfold State.splitEntry
  dsimp only
  split
  · rfl
  · split
    · exact h
    · exact h

@[simp] theorem earlyEntry_roster (s : State) (d k : Nat) (r : Rsv) : (s.earlyEntry d k r).1.roster = s.roster := by
  unfold State.earlyEntry
  split
  · rfl
  · refine onHolder_roster (fun s p t => ?_) s d k r
    dsimp only
    split
    · exact homeSaved_roster s p t _
    · split
      · exact drainStream_roster s _ t _
      · exact drainStream_roster s _ t _

@[simp] theorem emptyWindow_roster (s : State) (h : HartId) (t : Stream) : (s.emptyWindow h t).1.roster = s.roster := by
  unfold State.emptyWindow
  split
  · exact (passed_roster _ _ _).trans (drainStream_roster s h t _)
  · rfl

@[simp] theorem flushWindows_roster (s : State) (hit : Leaf → Bool) : (s.flushWindows hit).roster = s.roster := by
  unfold State.flushWindows
  split
  · rfl
  · refine roster_foldl (fun s e => ?_) _ s
    dsimp only
    split
    · split
      · exact (putAt_roster _ _ _).trans (emptyWindow_roster _ _ _)
      · rfl
    · rfl

/-! #### Meeting entries -/

theorem onClash_roster {f : State → Nat → Nat → Rsv → State × Bool}
    (hf : ∀ s d k r, (f s d k r).1.roster = s.roster) (who : Requester) (write : Bool) (a : State × Bool)
    (c : Nat × Fin 8 × Nat × Rsv) : (State.onClash who write f a c).1.roster = a.1.roster := by
  unfold State.onClash
  split
  · exact hf _ _ _ _
  · rfl

@[simp] theorem meetAll_roster (s : State) (who : Requester) (lines : List Nat) (key : Nat) (write : Bool) :
    (s.meetAll who lines key write).1.roster = s.roster := by
  unfold State.meetAll
  dsimp only
  split
  · rfl
  · have h := (roster_foldl_fst (onClash_roster earlyEntry_roster who write)
      ((s.clashes who lines write).filter (fun c => c.2.2.2.verdict who == .early)) _).trans
      (roster_foldl_fst (onClash_roster (fun s => splitEntry_roster s who.held) who write)
        ((s.clashes who lines write).filter (fun c => c.2.2.2.verdict who == .split)) (s, true))
    split
    · exact h
    · split
      · exact (flushWindows_roster _ _).trans h
      · exact h

@[simp] theorem park_roster (s : State) (who : Parker) (d : Fin 8) (entry line : Nat) :
    (s.park who d entry line).roster = s.roster := by
  unfold State.park
  split
  · rfl
  · cases who
    all_goals
      dsimp only
      split
      · simp only [apply_ite State.roster, updLanding_roster, unpark_roster, ite_self]
      · simp only [unpark_roster]

@[simp] theorem meetInTurn_roster (s : State) (p : Parker) (who : Requester) (lines : List Nat) (key : Nat)
    (write : Bool) : (s.meetInTurn p who lines key write).1.roster = s.roster := by
  have h := meetAll_roster s who lines key write
  unfold State.meetInTurn
  split
  · rfl
  · split
    · rename_i e; rw [e] at h; exact (unparkAt_roster _ _ _).trans h
    · rename_i e; rw [e] at h; exact (park_roster _ _ _ _ _).trans h
    · exact h

/-! #### Transfers of elements -/

/-- A transfer leaves the roster of a state. -/
def Moved.Keeps {α : Type} (s : State) : Moved α → Prop
  | .done u _ => u.roster = s.roster
  | .fault _ _ => True
  | .blocked u => u.roster = s.roster

theorem Moved.Keeps.andThen {α β : Type} {s : State} {m : Moved α} {f : State → α → Moved β} (hm : m.Keeps s)
    (hf : ∀ u a, (f u a).Keeps u) : (m.andThen f).Keeps s := by
  cases m with
  | fault c va => trivial
  | blocked u => exact hm
  | done u a =>
    have h := hf u a
    change (f u a).Keeps s
    cases e : f u a with
    | fault c va => trivial
    | blocked v => rw [e] at h; exact Eq.trans h hm
    | done v b => rw [e] at h; exact Eq.trans h hm

theorem elemStop_keeps {α : Type} (s : State) (h : HartId) (e : ElemStop) : (e.moved s h : Moved α).Keeps s := by
  cases e with
  | fault c va => trivial
  | ask p => exact askFor_roster s _ p

theorem pastHost_keeps {f : State → State} (hf : ∀ s, (f s).roster = s.roster) (s : State) (lines : List Nat)
    (key : Nat) (write : Bool) : (s.pastHost lines key write f).Keeps s := by
  unfold State.pastHost
  split
  · exact hf s
  · exact snoopAll_roster s _

theorem Moved.Keeps.of_eq {α : Type} {s u : State} {m : Moved α} (h : u.roster = s.roster) (hm : m.Keeps u) :
    m.Keeps s := by
  cases m with
  | fault c va => trivial
  | blocked v => exact Eq.trans hm h
  | done v a => exact Eq.trans hm h

theorem engineMeets_keeps (s : State) (h : HartId) (k : Nat) (l : Leaf) (n va : Nat) (write : Bool) :
    (s.engineMeets h k l n va write).Keeps s := by
  have hm := meetInTurn_roster s (.engine h k) (.hart h) (linesOf l.pa n) l.key write
  unfold State.engineMeets
  dsimp only
  split
  · rfl
  · split
    · rename_i e
      rw [e] at hm
      exact .of_eq hm (pastHost_keeps (fun s => roster_foldl (fun s _ => touchLine_roster s _ _ _ _) _ s) _ _ _ _)
    · trivial
    · rename_i e; rw [e] at hm; exact hm

theorem engineReach_keeps (s : State) (h : HartId) (t : Stream) (kind : Kind) (va : Nat) :
    (s.engineReach h t kind va).Keeps s := by
  unfold State.engineReach
  split
  · rfl
  · trivial
  · rfl

theorem indexMeets_keeps (s : State) (h : HartId) (t : Stream) (j : Nat) : (s.indexMeets h t j).Keeps s := by
  unfold State.indexMeets
  split
  · rfl
  · exact (engineReach_keeps s h t .read _).andThen (fun u l => engineMeets_keeps u h _ l _ _ _)

theorem findElem_keeps (s : State) (h : HartId) (t : Stream) (kind : Kind) (j : Nat) :
    (s.findElem h t kind j).Keeps s := by
  refine (indexMeets_keeps s h t j).andThen (fun u _ => ?_)
  split
  · exact elemStop_keeps u h _
  · exact (engineReach_keeps u h t kind _).andThen (fun v l => rfl)

theorem elemMeets_keeps (s : State) (h : HartId) (t : Stream) (kind : Kind) (j : Nat) :
    (s.elemMeets h t kind j).Keeps s := by
  refine (findElem_keeps s h t kind j).andThen (fun u e => ?_)
  dsimp only
  split
  · trivial
  · split
    · exact pastHost_keeps (fun s => homeLines_roster s _ _ _) u _ _ _
    · exact engineMeets_keeps u h _ _ _ _ _

theorem homeElem_keeps (s : State) (h : HartId) (t : Stream) (j v : Nat) : (s.homeElem h t j v).Keeps s := by
  refine (elemMeets_keeps s h t .write j).andThen (fun u _ => ?_)
  split
  · exact writeElem_roster ‹_›
  · exact elemStop_keeps u h _

@[simp] theorem homeRun_roster (s : State) (h : HartId) (t : Stream) (j : Nat) (vs : List Nat) :
    (s.homeRun h t j vs).1.roster = s.roster := by
  induction vs generalizing s t j with
  | nil => rfl
  | cons v vs ih =>
    have hk := homeElem_keeps s h t j v
    unfold State.homeRun
    split
    · rfl
    · rename_i e; rw [e] at hk; exact hk
    · rename_i e; rw [e] at hk; exact (ih _ _ _).trans hk

/-! #### Extents and releases -/

@[simp] theorem homeMade_roster (s : State) (h : HartId) (t : Stream) (k : Nat) :
    (s.homeMade h t k).1.roster = s.roster :=
  (passed_roster _ _ _).trans ((cleanStrips_roster _ _ _ _ _).trans (homeRun_roster s h t _ _))

theorem roster_foldl_some {α β : Type} {f : Option (State × β) → α → Option (State × β)}
    (hf : ∀ acc x u b, f acc x = some (u, b) → ∃ v c, acc = some (v, c) ∧ u.roster = v.roster) {l : List α}
    {acc : Option (State × β)} {u : State} {b : β} (e : l.foldl f acc = some (u, b)) :
    ∃ v c, acc = some (v, c) ∧ u.roster = v.roster := by
  induction l generalizing acc with
  | nil => exact ⟨u, b, e, rfl⟩
  | cons x t ih =>
    obtain ⟨v, c, hv, hu⟩ := ih e
    obtain ⟨w, d, hw, hvw⟩ := hf acc x v c hv
    exact ⟨w, d, hw, hu.trans hvw⟩

theorem registerAt_roster {s u : State} {r : Rsv} {ds : List (Fin 8)} {got : List (Nat × Nat)}
    (e : s.registerAt r ds = some (u, got)) : u.roster = s.roster := by
  unfold State.registerAt at e
  obtain ⟨a, ha, e⟩ := Option.map_eq_some_iff.mp e
  obtain ⟨v, c, hv, hr⟩ : ∃ v c, some (s, ([] : List (Nat × Nat))) = some (v, c) ∧ a.1.roster = v.roster := by
    refine roster_foldl_some (fun acc d w b hw => ?_) ha
    split at hw
    · cases hw
    · dsimp only at hw
      split at hw
      · cases hw
      · split at hw
        · cases hw
        · cases hw
          exact ⟨_, _, rfl, updLanding_roster _ _ _⟩
  cases e
  cases hv
  simpa using hr

@[simp] theorem registerExtent_roster (s : State) (h : HartId) (n : Nat) (t : Stream) (st : Nat) :
    (s.registerExtent h n t st).1.roster = s.roster := by
  have hk := findElem_keeps s h t (if t.desc.dir then .write else .read) t.reached
  unfold State.registerExtent
  dsimp only
  split
  · rename_i e; rw [e] at hk; exact hk
  · exact stopStream_roster s h n t _ _ _
  · rename_i u l va e
    rw [e] at hk
    have hw := (giveWindow_roster u h t).trans hk
    split
    · exact hw
    · split
      case h_3 =>
        split
        · split
          · exact hw
          · exact hw
        · exact hw
      case h_4 => exact hw
      all_goals
        split
        · split
          · exact (registerAt_roster ‹_›).trans hw
          · exact hw
        · exact (snoopAll_roster _ _).trans hw

@[simp] theorem homeAll_roster (s : State) (h : HartId) (t : Stream) (st n : Nat) :
    (s.homeAll h t st n).1.roster = s.roster := by
  induction n generalizing s t with
  | zero => rfl
  | succ n ih =>
    unfold State.homeAll
    dsimp only
    split
    · exact (stopStream_roster _ _ _ _ _ _ _).trans (homeMade_roster s h t _)
    · split
      all_goals
        split
        · exact homeMade_roster s h t _
        · split
          · exact (registerExtent_roster _ _ _ _ _).trans (homeMade_roster s h t _)
          · exact (ih _ _).trans ((registerExtent_roster _ _ _ _ _).trans (homeMade_roster s h t _))

@[simp] theorem drainRelease_roster (s : State) (h : HartId) (k : Nat) (t : Stream) :
    (s.drainRelease h k t).1.roster = s.roster := homeAll_roster s h t 3 (t.made.length + 1)

@[simp] theorem finishRelease_roster (s : State) (h : HartId) (k : Nat) (t : Stream) :
    (s.finishRelease h k t).roster = s.roster := by
  simp [State.finishRelease]

@[simp] theorem advanceRelease_roster (s : State) (h : HartId) (k : Nat) : (s.advanceRelease h k).roster = s.roster := by
  unfold State.advanceRelease
  split
  · rfl
  · split
    · rfl
    · dsimp only
      split
      · exact drainRelease_roster s h k _
      · split
        · simp
        · simp

end Sys2Proof.Machine

namespace Sys2Proof.Machine

/-! ### Saving a hart leaves the roster (R400, R437) -/

theorem poolWrite_rewritten (s : State) (p : CapSide) (va : Nat) (bs : List Byte) : s.Rewritten (s.poolWrite p va bs) := by
  induction bs generalizing s va with
  | nil => exact .refl s
  | cons b t ih =>
    refine State.Rewritten.trans ?_ (ih (s.poolByte p va b) (va + 1))
    unfold State.poolByte
    split
    · exact putByte_rewritten s _ _ b
    · exact .refl s

theorem writeSlot_rewritten (s : State) (c : Capsule) : s.Rewritten (s.writeSlot c) := poolWrite_rewritten s _ _ _

@[simp] theorem heldToSlot_roster (s : State) (h : HartId) : (s.heldToSlot h).roster = s.roster := by
  unfold State.heldToSlot
  dsimp only
  split
  · rfl
  · refine roster_foldl (fun s off => ?_) _ s
    split
    · exact (poolWrite_rewritten s _ _ _).roster
    · rfl

@[simp] theorem slotToHeld_roster (s : State) (h : HartId) (v : Saved) (stays : Bool) :
    (s.slotToHeld h v stays).roster = s.roster := by
  unfold State.slotToHeld
  dsimp only
  split
  · rfl
  · refine roster_foldl (fun s off => ?_) _ s
    split
    · split
      · exact putBytes_roster s _ _ _
      · rfl
    · rfl

@[simp] theorem saveCaps_roster (s : State) (h : HartId) : (s.saveCaps h).roster = s.roster := by
  have hw : (((s.hart h).cap.ring.foldl State.writeSlot s).heldToSlot h).roster = s.roster :=
    (heldToSlot_roster _ h).trans (roster_foldl (fun s c => (writeSlot_rewritten s c).roster) _ s)
  unfold State.saveCaps
  simp only [updHart_roster, apply_ite State.roster, freeFifo_roster, ite_self, hw]

@[simp] theorem saveHome_roster (s : State) (h : HartId) (n : Nat) : (s.saveHome h n).roster = s.roster := by
  unfold State.saveHome
  dsimp only
  split
  · exact homeAll_roster s h _ 0 _
  · rfl

@[simp] theorem saveStream_roster (s : State) (h : HartId) (n : Nat) : (s.saveStream h n).1.roster = s.roster := by
  unfold State.saveStream
  simp only [updHart_roster, apply_ite State.roster, freeWindow_roster, freeFifo_roster, unpark_roster,
    setEntries_roster, ite_self, fillParts_roster]

@[simp] theorem saveStreams_roster (s : State) (h : HartId) : (s.saveStreams h).1.roster = s.roster := by
  refine (roster_foldl_fst (fun a n => ?_) _ _).trans (roster_foldl (fun s k => advanceRelease_roster s h k) _ s)
  dsimp only
  split
  · exact (saveStream_roster _ h n).trans (saveHome_roster a.1 h n)
  · rfl

@[simp] theorem bankOut_roster (s : State) (t : Fin 224) (b base key : Nat) :
    (s.bankOut t b base key).roster = s.roster := by
  unfold State.bankOut
  split
  · split
    · exact (putBytes_roster _ _ _ _).trans (roster_foldl (fun s _ => putByte_roster s _ _ _) _ s)
    · rfl
  · rfl

@[simp] theorem bankIn_roster (s : State) (t : Fin 224) (b base key : Nat) :
    (s.bankIn t b base key).roster = s.roster := by
  refine (roster_foldl (fun s w => ?_) _ _).trans ((putBytes_roster _ _ _ _).trans (clearRange_roster s _ _))
  split <;> rfl

@[simp] theorem writeImage_roster (s : State) (h : HartId) (areas : List (List Byte)) (rank : HartId → Nat)
    (base key : Nat) : (s.writeImage h areas rank base key).roster = s.roster :=
  (roster_foldl (fun s (e : Nat × Nat) => bankOut_roster s _ e.2 _ key) _ _).trans
    ((roster_foldl (fun s (e : Nat × List Byte) => putBytes_roster s _ key e.2) _ _).trans (wipe_roster s base _ key))

@[simp] theorem saveHart_roster (s : State) (G : Gang) (m : Member) : (s.saveHart G m).roster = s.roster := by
  unfold State.saveHart
  dsimp only
  split
  · rfl
  · refine (updGang_roster (fun G => ?_) _ _).trans ?_
    · rfl
    · rw [updDie_roster (fun D => ?_)]
      · simp
      · rfl

/-! #### Crossings and contexts given up -/

@[simp] theorem setPort_roster (s : State) (h : HartId) (k : Nat) (p : Port) : (s.setPort h k p).roster = s.roster := rfl

theorem closeCrossingBy_roster {free : State → Fin 224 → Nat → State} (hf : ∀ s t b, (free s t b).roster = s.roster)
    (s : State) (h : HartId) (k : Nat) : (s.closeCrossingBy free h k).roster = s.roster := by
  unfold State.closeCrossingBy
  dsimp only
  split
  · split <;> simp [hf]
  · rfl

@[simp] theorem closeAll_roster (s : State) (h : HartId) : (s.closeAll h).roster = s.roster :=
  roster_foldl (fun s k => closeCrossingBy_roster freeFifo_roster s h k) _ s

@[simp] theorem freeContext_roster (s : State) (h : HartId) : (s.freeContext h).roster = s.roster := by
  have hc : (s.finishCrossings h).roster = s.roster :=
    roster_foldl (fun s k => closeCrossingBy_roster fifoToCache_roster s h k) _ s
  have hb : ((s.finishCrossings h).banksBack h).roster = s.roster :=
    (roster_foldl (fun s b => changeRole_roster s _ b .cache) _ _).trans hc
  exact (unparkHart_roster _ h).trans hb

@[simp] theorem vacate_roster (s : State) (G : Gang) : (s.vacate G).roster = s.roster :=
  (roster_foldl (fun s (m : Member) => freeContext_roster s m.ctx) _ _).trans
    ((roster_foldl (fun s (m : Member) => closeAll_roster s m.ctx) _ _).trans
      (roster_foldl (fun s (m : Member) => updHart_roster s m.ctx _) _ s))

/-! ### Bringing a hart back leaves the roster (R438) -/

theorem claimFifo_roster {s u : State} {t : Fin 224} {b : Nat} (e : s.claimFifo t = some (u, b)) :
    u.roster = s.roster := by
  unfold State.claimFifo at e
  split at e
  · cases e; rfl
  · cases e

@[simp] theorem rewindow_roster (s : State) (h : HartId) (t : Stream) : (s.rewindow h t).1.roster = s.roster := by
  unfold State.rewindow
  dsimp only
  split
  · exact (giveUp_roster _ (s.giveWindow h t).2 _).trans (giveWindow_roster s h t)
  · exact giveWindow_roster s h t

/-- A stream that is restored has a FIFO bank, its entries again, and a window or none (R194). -/
theorem restoreStream_some {s u : State} {h : HartId} {n : Nat} {d : Desc} {pos : Nat} {status : Word}
    {kept : Option Stream} (e : s.restoreStream h n d pos status kept = some u) :
    ∃ (v : State) (b : Nat) (t : Stream), s.claimFifo (tileOf h) = some (v, b) ∧
      u = ((((v.setEntries t 0).relabel t h).rewindow h t).1.putStream h n
        (((v.setEntries t 0).relabel t h).rewindow h t).2).updHart h (fun H => H.relink n) := by
  unfold State.restoreStream at e
  split at e
  · cases e
  · split at e
    · cases e
    · rename_i hc
      exact ⟨_, _, _, hc, (Option.some.inj e).symm⟩

theorem restoreStream_roster {s u : State} {h : HartId} {n : Nat} {d : Desc} {pos : Nat} {status : Word}
    {kept : Option Stream} (e : s.restoreStream h n d pos status kept = some u) : u.roster = s.roster := by
  obtain ⟨v, b, t, hc, rfl⟩ := restoreStream_some e
  simp [claimFifo_roster hc]

@[simp] theorem putRegion_roster (s : State) (h : HartId) (r : FabRun) : (s.putRegion h r).roster = s.roster := by
  unfold State.putRegion
  dsimp only
  split
  · exact fcAdd_roster _ _ _ _
  · rfl

/-! #### The stages of `State.resumeHart` -/

/-- A granted bank has its role and its contents again. -/
def State.bankBack (t : Fin 224) (base key : Nat) (s : State) (e : Nat × Nat) : State :=
  match s.img base key (0xEF0 + e.1) 1 with
  | 1 => (s.changeRole t e.2 .spad).bankIn t e.2 (base + 0x84000 + 66560 * e.1) key
  | 2 => s.changeRole t e.2 .fifo
  | _ => s

/-- A configured stream is restored to its register, or kept aside. -/
def State.streamBack (h : HartId) (s : State) (e : Nat × Stream) : State :=
  match s.restoreStream h e.1 e.2.desc e.2.pos e.2.status (some e.2) with
  | some s' => s'
  | none => s.updHart h (fun H => { H with releasing := H.releasing ++ [e.2] })

/-- A landing has a bank for its arrival ring again. -/
def State.ringBack (s : State) (v : Saved) (t : Fin 224) (h : HartId) : State :=
  if v.cap.land then
    match s.claimFifo t with
    | some (s, b) => s.updHart h (fun H => { H with cap := { H.cap with bank := b } })
    | none => s
  else s

/-- The tokens of the region flow again. -/
def State.regionBack (s : State) (h : HartId) : State :=
  match (s.hart h).fabric.active with
  | some a => s.putRegion h (FabRun.settle ⟨s.hart h, a, 0, 0⟩)
  | none => s

/-- A hart of a gang as it comes back on the contexts and resources of a place (R438). -/
structure State.Returned (s : State) (G : Gang) (m : Member) (v : Saved) (p : Place) (H : Hart) : Prop where
  run : H.run = if m.done then .idle else .running
  gang : H.gang = some (G.id, m.rank)
  banks : H.banks = p.banks
  pc : H.pc = s.imgW (s.imageBase v) (s.imageKey v.die) 0 &&& ~~~3#64
  sup : H.sup = (s.imgW (s.imageBase v) (s.imageKey v.die) 8).getLsbD 0
  x : H.x = Vector.ofFn (fun r : Fin 32 =>
    if r.val = 0 then 0 else s.imgW (s.imageBase v) (s.imageKey v.die) (0x40 + 8 * r.val))
  f : H.f = Vector.ofFn (fun r : Fin 32 => s.imgW (s.imageBase v) (s.imageKey v.die) (0x140 + 8 * r.val))

/-- The stages of a resume: the registers of the image, the banks, the released streams, the configured ones, the landing,
the held capsule, the region and the slot. -/
theorem resumeHart_stages (s : State) (G : Gang) (m : Member) (v : Saved) (p : Place) :
    ∃ F : Hart → Hart, s.resumeHart G m v p =
      (let h := hartAt p.tile p.ctx
      let s₁ := ((bankList p.banks).mapIdx (fun k b => (k, b))).foldl
        (State.bankBack p.tile (s.imageBase v) (s.imageKey v.die)) (s.updHart h F)
      let s₂ := (v.streams.filter (fun e => decide (16 ≤ e.1))).foldl (fun s e => s.relabel e.2 h) s₁
      let s₃ := (v.configured.foldl (State.streamBack h) s₂).ringBack v p.tile h
      ((s₃.slotToHeld h v (v.oldTile == p.tile.val && v.banks == p.banks)).regionBack h).updDie
        ⟨v.die % 4, by omega⟩ (fun D => { D with poolUsed := setErase D.poolUsed v.slot })) ∧
      ∀ H, s.Returned G m v p (F H) := by
  refine ⟨_, rfl, fun H => ?_⟩
  exact ⟨rfl, rfl, rfl, rfl, rfl, rfl, rfl⟩

@[simp] theorem bankBack_roster (t : Fin 224) (base key : Nat) (s : State) (e : Nat × Nat) :
    (s.bankBack t base key e).roster = s.roster := by
  unfold State.bankBack
  split
  · exact (bankIn_roster _ _ _ _ _).trans (changeRole_roster s t e.2 .spad)
  · exact changeRole_roster s t e.2 .fifo
  · rfl

@[simp] theorem streamBack_roster (h : HartId) (s : State) (e : Nat × Stream) :
    (s.streamBack h e).roster = s.roster := by
  unfold State.streamBack
  split
  · exact restoreStream_roster ‹_›
  · rfl

@[simp] theorem ringBack_roster (s : State) (v : Saved) (t : Fin 224) (h : HartId) :
    (s.ringBack v t h).roster = s.roster := by
  unfold State.ringBack
  split
  · split
    · rename_i hc
      exact (updHart_roster _ h _).trans (claimFifo_roster hc)
    · rfl
  · rfl

@[simp] theorem regionBack_roster (s : State) (h : HartId) : (s.regionBack h).roster = s.roster := by
  unfold State.regionBack
  split
  · exact putRegion_roster s h _
  · rfl

@[simp] theorem resumeHart_roster (s : State) (G : Gang) (m : Member) (v : Saved) (p : Place) :
    (s.resumeHart G m v p).roster = s.roster := by
  obtain ⟨F, e, -⟩ := resumeHart_stages s G m v p
  rw [e]
  refine (updDie_roster (fun D => ?_) _ _).trans ?_
  · rfl
  · rw [regionBack_roster, slotToHeld_roster, ringBack_roster, roster_foldl (streamBack_roster _),
      roster_foldl (fun s (e : Nat × Stream) => relabel_roster s e.2 _), roster_foldl (bankBack_roster _ _ _)]
    rfl

end Sys2Proof.Machine

namespace Sys2Proof.Machine

/-! ### What a placed hart keeps while its crossings, banks, streams and rings are set up -/

/-- What a placement gives a hart: its state, gang, banks, PC, level, registers and CSRs. -/
def Hart.face (H : Hart) : Run × Option (Nat × Nat) × BitVec 64 × Word × Bool × Vector Word 32 × Vector Word 32 × Csrs :=
  (H.run, H.gang, H.banks, H.pc, H.sup, H.x, H.f, H.csr)

theorem hart_of_harts {s u : State} (e : u.harts = s.harts) (h : HartId) : u.hart h = s.hart h := by
  simp only [State.hart, e]

theorem updHart_face {f : Hart → Hart} (hf : ∀ H, (f H).face = H.face) (s : State) (k h : HartId) :
    ((s.updHart k f).hart h).face = (s.hart h).face := by
  by_cases e : h = k
  · subst e; rw [hart_updHart_same, hf]
  · rw [hart_updHart_ne _ _ _ _ e]

theorem face_foldl {α : Type} {f : State → α → State} {h : HartId}
    (hf : ∀ s x, ((f s x).hart h).face = (s.hart h).face) (l : List α) (s : State) :
    ((l.foldl f s).hart h).face = (s.hart h).face := foldl_keeps (p := fun s : State => (s.hart h).face) hf l s

theorem harts_foldl {α : Type} {f : State → α → State} (hf : ∀ s x, (f s x).harts = s.harts) (l : List α) (s : State) :
    (l.foldl f s).harts = s.harts := foldl_keeps (p := State.harts) hf l s

/-! #### Operations that leave every hart -/

@[simp] theorem putBytes_harts (s : State) (c k : Nat) (bs : List Byte) : (s.putBytes c k bs).harts = s.harts :=
  (putBytes_rewritten s c k bs).harts

@[simp] theorem bankIn_harts (s : State) (t : Fin 224) (b base key : Nat) : (s.bankIn t b base key).harts = s.harts := by
  refine (harts_foldl (fun s w => ?_) _ _).trans (putBytes_harts _ _ _ _)
  split <;> rfl

@[simp] theorem slotToHeld_harts (s : State) (h : HartId) (v : Saved) (stays : Bool) :
    (s.slotToHeld h v stays).harts = s.harts := by
  unfold State.slotToHeld
  dsimp only
  split
  · rfl
  · refine harts_foldl (fun s off => ?_) _ s
    split
    · split
      · exact putBytes_harts s _ _ _
      · rfl
    · rfl

@[simp] theorem tellPeers_harts (s : State) (es : List Extent) (k : MsgKind) : (s.tellPeers es k).harts = s.harts :=
  harts_foldl (fun s e => by split <;> rfl) es s

@[simp] theorem setEntries_harts (s : State) (t : Stream) (st : Nat) : (s.setEntries t st).harts = s.harts :=
  tellPeers_harts _ _ _

@[simp] theorem giveUp_harts (s : State) (t : Stream) (es : List Extent) : (s.giveUp t es).1.harts = s.harts :=
  (tellPeers_harts _ _ _).trans (harts_foldl (fun s e => by split <;> rfl) es _)

@[simp] theorem relabel_harts (s : State) (t : Stream) (h : HartId) : (s.relabel t h).harts = s.harts := rfl

@[simp] theorem giveWindow_harts (s : State) (h : HartId) (t : Stream) : (s.giveWindow h t).1.harts = s.harts := by
  unfold State.giveWindow State.placeWindow
  dsimp only
  split
  · split
    · rename_i e
      split at e
      · cases e
      · split at e
        · cases e
        · obtain ⟨rfl, -⟩ := Prod.mk.inj (Option.some.inj e)
          rfl
    · rfl
  · rfl

@[simp] theorem rewindow_harts (s : State) (h : HartId) (t : Stream) : (s.rewindow h t).1.harts = s.harts := by
  unfold State.rewindow
  dsimp only
  split
  · exact (giveUp_harts _ (s.giveWindow h t).2 _).trans (giveWindow_harts s h t)
  · exact giveWindow_harts s h t

theorem claimFifo_harts {s u : State} {t : Fin 224} {b : Nat} (e : s.claimFifo t = some (u, b)) : u.harts = s.harts := by
  unfold State.claimFifo at e
  split at e
  · cases e; rfl
  · cases e

/-! #### The stages of a resume -/

/-- A change of role releases only harts that wait at a word of the bank (R156). -/
theorem changeRole_hart {s : State} {h : HartId} (hr : (s.hart h).run = .running) (t : Fin 224) (b : Nat) (r : Role) :
    (s.changeRole t b r).hart h = s.hart h := by
  have hw : ∀ a, (s.hart h).feRelease a = s.hart h := fun a => by
    unfold Hart.feRelease
    rw [hr]
  unfold State.changeRole
  split
  · rfl
  · split
    · rfl
    · dsimp only
      rename_i k _ _
      have hm : ∀ a, ((if k.role = .spad then
          { s with
              harts := s.harts.map (fun H => H.feRelease a)
              delayed := s.delayed.filter (fun d => decide (d.pa < a ∨ a + 0x10000 ≤ d.pa))
              early := s.early.filter (fun e => decide (e.cell < a ∨ a + 0x10000 ≤ e.cell)) }
        else s : State)).hart h = s.hart h := fun a => by
        split
        · simpa [State.hart] using hw a
        · rfl
      refine Eq.trans ?_ (hm (spadAddr t.val b 0))
      split <;> rfl

theorem bankBack_hart {s : State} {h : HartId} (hr : (s.hart h).run = .running) (t : Fin 224) (base key : Nat)
    (e : Nat × Nat) : (s.bankBack t base key e).hart h = s.hart h := by
  unfold State.bankBack
  split
  · exact (hart_of_harts (bankIn_harts _ _ _ _ _) h).trans (changeRole_hart hr t _ _)
  · exact changeRole_hart hr t _ _
  · rfl

theorem banksBack_hart {s : State} {h : HartId} (hr : (s.hart h).run = .running) (t : Fin 224) (base key : Nat)
    (l : List (Nat × Nat)) : (l.foldl (State.bankBack t base key) s).hart h = s.hart h := by
  induction l generalizing s with
  | nil => rfl
  | cons e l ih =>
    have h1 := bankBack_hart hr t base key e
    exact (ih (by rw [h1]; exact hr)).trans h1

theorem setStream_face (H : Hart) (n : Nat) (t : Stream) : (H.setStream n t).face = H.face := rfl

theorem relink_face (H : Hart) (n : Nat) : (H.relink n).face = H.face := by
  unfold Hart.relink
  dsimp only
  split
  · rfl
  · split <;> rfl

theorem streamBack_face (s : State) (k h : HartId) (e : Nat × Stream) :
    ((s.streamBack k e).hart h).face = (s.hart h).face := by
  unfold State.streamBack
  split
  · rename_i hs
    obtain ⟨v, b, t, hc, rfl⟩ := restoreStream_some hs
    rw [updHart_face (fun H => relink_face H e.1), State.putStream, updHart_face (fun H => setStream_face H _ _),
      hart_of_harts (rewindow_harts _ _ _), hart_of_harts (relabel_harts _ _ _), hart_of_harts (setEntries_harts _ _ _),
      hart_of_harts (claimFifo_harts hc)]
  · exact updHart_face (fun _ => by rfl) s k h

theorem ringBack_face (s : State) (v : Saved) (t : Fin 224) (k h : HartId) :
    ((s.ringBack v t k).hart h).face = (s.hart h).face := by
  unfold State.ringBack
  split
  · split
    · rename_i hc
      refine (updHart_face (fun _ => by rfl) _ k h).trans ?_
      rw [hart_of_harts (claimFifo_harts hc)]
    · rfl
  · rfl

/-! #### A region as its tokens flow -/

theorem send_face (r : FabRun) (src : BitVec 16) (x : Word) : (r.send src x).h.face = r.h.face := by
  unfold FabRun.send
  split <;> rfl

theorem sink_face (r : FabRun) (e : BitVec 16) : (r.sink e).h.face = r.h.face := by
  unfold FabRun.sink
  dsimp only
  split
  · rfl
  · split <;> rfl

theorem runFace_foldl {α : Type} {f : FabRun → α → FabRun} (hf : ∀ r x, (f r x).h.face = r.h.face) (l : List α)
    (r : FabRun) : (l.foldl f r).h.face = r.h.face := foldl_keeps (p := fun r : FabRun => r.h.face) hf l r

theorem sinks_face (r : FabRun) : r.sinks.h.face = r.h.face := runFace_foldl sink_face _ r

theorem source_face (r : FabRun) (l : Link) : (r.source l).h.face = r.h.face := by
  unfold FabRun.source
  split
  · rfl
  · split
    · split
      · exact send_face _ _ _
      · rfl
    · split
      · split
        · exact send_face _ _ _
        · rfl
      · rfl

theorem flow_face (r : FabRun) (n : Nat) : (r.flow n).h.face = r.h.face := by
  induction n generalizing r with
  | zero => rfl
  | succ n ih =>
    have h := (sinks_face _).trans (runFace_foldl source_face (r.a.set.linksOf.map (fun l => l.2)) r)
    unfold FabRun.flow
    dsimp only
    split
    · exact h
    · exact (ih _).trans h

theorem settle_face (r : FabRun) : r.settle.h.face = r.h.face := by
  have h : r.unlinked.h.face = r.h.face := by
    unfold FabRun.unlinked
    split <;> rfl
  exact (flow_face _ _).trans ((sinks_face _).trans h)

theorem putRegion_face (s : State) (h : HartId) (r : FabRun) : ((s.putRegion h r).hart h).face = r.h.face := by
  have hu := congrArg Hart.face
    (hart_updHart_same s h (fun _ => { r.h with fabric := { r.h.fabric with active := some r.a } }))
  unfold State.putRegion
  dsimp only
  split
  · exact hu
  · exact hu

theorem regionBack_face (s : State) (h : HartId) : ((s.regionBack h).hart h).face = (s.hart h).face := by
  unfold State.regionBack
  split
  · rename_i a _
    rw [putRegion_face]
    exact settle_face ⟨s.hart h, a, 0, 0⟩
  · rfl

/-- A hart of a gang that is brought back has what its image gives it. -/
theorem resumeHart_face (s : State) (G : Gang) {m : Member} (v : Saved) (p : Place) (hd : m.done = false) :
    ∃ H, s.Returned G m v p H ∧ ((s.resumeHart G m v p).hart (hartAt p.tile p.ctx)).face = H.face := by
  obtain ⟨F, e, hF⟩ := resumeHart_stages s G m v p
  refine ⟨F (s.hart (hartAt p.tile p.ctx)), hF _, ?_⟩
  have hr : ((s.updHart (hartAt p.tile p.ctx) F).hart (hartAt p.tile p.ctx)).run = .running := by
    rw [hart_updHart_same, (hF _).run, hd]
    rfl
  rw [e]
  dsimp only
  rw [hart_of_harts (updDie_harts _ _ _), regionBack_face, hart_of_harts (slotToHeld_harts _ _ _ _), ringBack_face,
    face_foldl (fun s x => streamBack_face s _ _ x),
    hart_of_harts (harts_foldl (fun s (e : Nat × Stream) => relabel_harts s e.2 _) _ _), banksBack_hart hr,
    hart_updHart_same]

end Sys2Proof.Machine

namespace Sys2Proof.Machine

/-! ### What the set-up of a placed hart leaves exactly as it is -/

/-- Memory, the gangs, the number of the next, and the dies. -/
def State.core (s : State) : List Host.Cell × List Gang × Nat × Vector Die 4 := (s.mem, s.gangs, s.nextId, s.dies)

theorem core_foldl {α : Type} {f : State → α → State} (h : ∀ s x, (f s x).core = s.core) (l : List α) (s : State) :
    (l.foldl f s).core = s.core := foldl_keeps (p := State.core) h l s

/-! #### Rings of the object (R68, R163) -/

/-- An operation that leaves the state where it answers. -/
def Op.Reads {α : Type} (x : Op α) : Prop := ∀ s a u, x s = .ok a u → u = s

theorem reads_pure {α : Type} (a : α) : Op.Reads (pure a : Op α) := by
  intro s b u h
  cases h
  rfl

theorem reads_get : Op.Reads (get : Op State) := by
  intro s b u h
  cases h
  rfl

theorem reads_check (b : Bool) (c : Cause) (v : Word) : Op.Reads (check b c v) := by
  intro s a u h
  cases b
  · cases h
  · cases h; rfl

theorem op_bind_eq {α β : Type} {x : Op α} {f : α → Op β} {s u : State} {b : β} (h : (x >>= f) s = .ok b u) :
    ∃ a v, x s = .ok a v ∧ f a v = .ok b u := by
  cases e : x s with
  | ok a v => exact ⟨a, v, rfl, by rwa [op_bind_ok e] at h⟩
  | error k v => rw [op_bind_error e] at h; cases h

theorem Op.Reads.bind {α β : Type} {x : Op α} {f : α → Op β} (hx : Op.Reads x) (hf : ∀ a, Op.Reads (f a)) :
    Op.Reads (x >>= f) := by
  intro s b u h
  obtain ⟨a, v, ha, hb⟩ := op_bind_eq h
  rw [hf a v b u hb, hx s a v ha]

/-- An operation that never answers. -/
theorem reads_of_ends {α : Type} {x : Op α} (h : ∀ s a u, x s ≠ .ok a u) : Op.Reads x := fun s a u e => absurd e (h s a u)

theorem ringPages_reads (va stop n : Nat) : Op.Reads (ringPages va stop n) := by
  induction n generalizing va with
  | zero => exact reads_pure _
  | succ n ih =>
    unfold ringPages
    split
    · exact reads_pure _
    · refine reads_get.bind (fun s => ?_)
      split
      · exact reads_of_ends (fun _ _ _ h => nomatch h)
      · exact reads_of_ends (fun _ _ _ h => nomatch h)
      · exact (reads_check _ _ _).bind (fun _ => (ih _).bind (fun _ => reads_pure _))

/-- A ring that `ring.cfg` accepts is set, and nothing else. -/
theorem ringConfigure_ok {q : BitVec 3} {base shape : Word} {s u : State} (h : ringConfigure q base shape s = .ok () u) :
    ∃ r, u = s.updMe (fun H => H.setRing q r) := by
  unfold ringConfigure at h
  obtain ⟨_, v, h1, k1⟩ := op_bind_eq h
  obtain ⟨_, w, h2, k2⟩ := op_bind_eq k1
  obtain ⟨_, x, h3, k3⟩ := op_bind_eq k2
  obtain ⟨_, y, h4, k4⟩ := op_bind_eq k3
  have hy : y = s := by
    rw [reads_check _ _ _ _ _ _ h4, reads_get _ _ _ h3, ringPages_reads _ _ _ _ _ _ h2, reads_check _ _ _ _ _ _ h1]
  subst hy
  cases k4
  exact ⟨_, rfl⟩

theorem setRing_face (H : Hart) (q : BitVec 3) (r : Ring) : (H.setRing q r).face = H.face := rfl

/-- A ring that an object declares is set on the hart, or it is not. -/
theorem declareRing_cases (s : State) (h : HartId) (r : RingDecl) :
    s.declareRing h r = s ∨ ∃ q R, s.declareRing h r = s.updHart h (fun H => H.setRing q R) := by
  unfold State.declareRing
  split
  · rename_i e
    obtain ⟨R, rfl⟩ := ringConfigure_ok e
    exact .inr ⟨_, R, rfl⟩
  · exact .inl rfl

theorem declareRing_core (s : State) (h : HartId) (r : RingDecl) : (s.declareRing h r).core = s.core := by
  obtain e | ⟨q, R, e⟩ := declareRing_cases s h r <;> rw [e]
  rfl

theorem declareRing_face (s : State) (h k : HartId) (r : RingDecl) :
    ((s.declareRing h r).hart k).face = (s.hart k).face := by
  obtain e | ⟨q, R, e⟩ := declareRing_cases s h r <;> rw [e]
  exact updHart_face (fun H => setRing_face H q R) s h k

/-! #### Crossings (R149, R372) -/

theorem claimOutside_some {s u : State} {t : Fin 224} {b : Nat} (e : s.claimOutside t = some (u, b)) :
    ∃ f, u = s.updBank t b f := by
  unfold State.claimOutside at e
  dsimp only at e
  split at e
  · obtain ⟨rfl, rfl⟩ := Prod.mk.inj (Option.some.inj e)
    exact ⟨_, rfl⟩
  · split at e
    · cases e
    · obtain ⟨b', -, e⟩ := Option.map_eq_some_iff.mp e
      obtain ⟨rfl, rfl⟩ := Prod.mk.inj e
      exact ⟨_, rfl⟩

/-- A crossing opened claims a bank at each end and takes a port of each hart. -/
theorem openCrossing_some {s u : State} {h p : HartId} {k j : Nat} {e f : BitVec 32} {paired : Bool}
    (o : s.openCrossingBy State.claimOutside h k e p j f paired = some u) :
    ∃ (t t' : Fin 224) (b b' : Nat) (g g' : Bank → Bank) (P Q : Port),
      u = (((s.updBank t b g).updBank t' b' g').setPort h k P).setPort p j Q := by
  unfold State.openCrossingBy at o
  split at o
  · cases o
  · split at o
    · cases o
    · split at o
      · cases o
      · rename_i h1 _ _ _ h2
        obtain ⟨g, rfl⟩ := claimOutside_some h1
        obtain ⟨g', rfl⟩ := claimOutside_some h2
        exact ⟨_, _, _, _, g, g', _, _, (Option.some.inj o).symm⟩

theorem openCrossing_core (s : State) (h p : HartId) (k j : Nat) (e f : BitVec 32) (paired : Bool) :
    ((s.openCrossingBy State.claimOutside h k e p j f paired).getD s).core = s.core := by
  cases o : s.openCrossingBy State.claimOutside h k e p j f paired with
  | none => rfl
  | some u =>
    obtain ⟨t, t', b, b', g, g', P, Q, rfl⟩ := openCrossing_some o
    rfl

theorem setPort_face (s : State) (h i : HartId) (k : Nat) (P : Port) :
    ((s.setPort h k P).hart i).face = (s.hart i).face := updHart_face (fun _ => by rfl) s h i

theorem openCrossing_face (s : State) (h p i : HartId) (k j : Nat) (e f : BitVec 32) (paired : Bool) :
    (((s.openCrossingBy State.claimOutside h k e p j f paired).getD s).hart i).face = (s.hart i).face := by
  cases o : s.openCrossingBy State.claimOutside h k e p j f paired with
  | none => rfl
  | some u =>
    obtain ⟨t, t', b, b', g, g', P, Q, rfl⟩ := openCrossing_some o
    rw [Option.getD_some, setPort_face, setPort_face]
    rfl

theorem openAll_core (s : State) (G : Gang) (xs : List Xing) : (s.openAll G xs).core = s.core :=
  core_foldl (fun s _ => openCrossing_core s _ _ _ _ _ _ _) xs s

theorem openAll_face (s : State) (G : Gang) (xs : List Xing) (h : HartId) :
    ((s.openAll G xs).hart h).face = (s.hart h).face :=
  face_foldl (fun s _ => openCrossing_face s _ _ h _ _ _ _ _) xs s

/-- A port of a resumed hart (R438): its crossing where it is not open yet, and what was buffered. -/
theorem reopen_core (s : State) (old new : Gang) : (s.reopen old new).core = s.core := by
  refine core_foldl (fun s m => ?_) _ s
  split
  · rfl
  · refine core_foldl (fun s e => ?_) _ s
    dsimp only
    split
    · rfl
    · split
      · rfl
      · exact openCrossing_core s _ _ _ _ _ _ _

theorem reopen_face (s : State) (old new : Gang) (h : HartId) :
    ((s.reopen old new).hart h).face = (s.hart h).face := by
  refine face_foldl (fun s m => ?_) _ s
  split
  · rfl
  · refine face_foldl (fun s e => ?_) _ s
    dsimp only
    split
    · rfl
    · refine (updHart_face (fun _ => by rfl) _ _ h).trans ?_
      split
      · rfl
      · exact openCrossing_face s _ _ h _ _ _ _ _

/-! ### Placing harts (R371) -/

/-- A hart as a placement gives it (R371, R430). -/
structure State.Placed (s : State) (l : Launch) (gang inst rank : Nat) (p : Place) (H : Hart) : Prop where
  run : H.run = .running
  pc : H.pc = l.entry
  sup : H.sup = false
  gang : H.gang = some (gang, rank)
  banks : H.banks = p.banks
  lpart : H.csr.lpart = lpartOf p.clusters (if l.lanes then p.clusters else 0)
  asid : H.csr.asid = l.asid.setWidth 64
  sstat : H.csr.sstat = 0
  x : H.x = s.argRegs (dieOf p.tile) l inst rank

theorem placeHart_placed (s : State) (l : Launch) (gang inst rank : Nat) (p : Place) :
    s.Placed l gang inst rank p ((s.placeHart l gang inst rank p).hart (hartAt p.tile p.ctx)) := by
  unfold State.placeHart
  rw [hart_updHart_same]
  exact ⟨rfl, rfl, rfl, rfl, rfl, rfl, rfl, rfl, rfl⟩

theorem State.Placed.of_face {s : State} {l : Launch} {gang inst rank : Nat} {p : Place} {H K : Hart}
    (hp : s.Placed l gang inst rank p H) (e : K.face = H.face) : s.Placed l gang inst rank p K := by
  simp only [Hart.face, Prod.mk.injEq] at e
  obtain ⟨hr, hg, hb, hpc, hs, hx, -, hc⟩ := e
  exact ⟨hr.trans hp.run, hpc.trans hp.pc, hs.trans hp.sup, hg.trans hp.gang, hb.trans hp.banks,
    hc ▸ hp.lpart, hc ▸ hp.asid, hc ▸ hp.sstat, hx.trans hp.x⟩

theorem placeHart_core (s : State) (l : Launch) (gang inst rank : Nat) (p : Place) :
    (s.placeHart l gang inst rank p).core = s.core := rfl

end Sys2Proof.Machine

namespace Sys2Proof.Machine

/-! ### What the device reads for a placement does not depend on the harts -/

/-- The state with other harts. -/
def State.withHarts (s : State) (hs : Vector Hart 896) : State := { s with harts := hs }

/-- The definition is unfolded as a function: an application of it to an address would be evaluated. -/
theorem roleAt_of_tiles {s u : State} (h : u.tiles = s.tiles) (a : Nat) : u.roleAt a = s.roleAt a := by
  have e : @State.roleAt = @State.roleAt := rfl
  conv at e => rhs; delta State.roleAt
  rw [e]
  dsimp only
  rw [h]

section
variable (s : State) (hs : Vector Hart 896)

theorem bytesUnder_withHarts (c k n : Nat) : (s.withHarts hs).bytesUnder c k n = s.bytesUnder c k n := by
  induction n generalizing c with
  | zero => rfl
  | succ n ih => exact congrArg (s.byteUnder c k :: ·) (ih (c + 1))

theorem rekey_withHarts (a k : Nat) : (s.withHarts hs).rekey a k = (s.rekey a k).withHarts hs := by
  have hb := bytesUnder_withHarts s hs (a * 32) k 32
  have he : (s.withHarts hs).sectorKey = s.sectorKey := rfl
  have hk : (s.withHarts hs).key k = s.key k := rfl
  unfold State.rekey
  rw [hb, he, hk]
  generalize s.bytesUnder (a * 32) k 32 = bs
  split
  · split <;> rfl
  · rfl

theorem putByte_withHarts (c k : Nat) (b : Byte) : (s.withHarts hs).putByte c k b = (s.putByte c k b).withHarts hs := by
  unfold State.putByte
  rw [rekey_withHarts]
  split <;> rfl

theorem putSome_withHarts (c k : Nat) (bs : List (Option Byte)) :
    (s.withHarts hs).putSome c k bs = (s.putSome c k bs).withHarts hs := by
  induction bs generalizing s c with
  | nil => rfl
  | cons b t ih =>
    cases b with
    | none => exact ih s _
    | some b =>
      unfold State.putSome
      rw [putByte_withHarts]
      exact ih _ _

theorem foldl_withHarts {α : Type} {f : State → α → State} (hf : ∀ s x, f (s.withHarts hs) x = (f s x).withHarts hs)
    (l : List α) : l.foldl f (s.withHarts hs) = (l.foldl f s).withHarts hs := by
  induction l generalizing s with
  | nil => rfl
  | cons x t ih => rw [List.foldl_cons, hf, ih, List.foldl_cons]

theorem noteWrite_withHarts (c n : Nat) : (s.withHarts hs).noteWrite c n = (s.noteWrite c n).withHarts hs := by
  have hr : (s.withHarts hs).rels = s.rels := rfl
  unfold State.noteWrite
  rw [hr]
  split <;> rfl

theorem noteRelease_withHarts (who : Agent) (scope c n : Nat) :
    (s.withHarts hs).noteRelease who scope c n = (s.noteRelease who scope c n).withHarts hs := rfl

theorem performStore_withHarts (d : Delayed) : (s.withHarts hs).performStore d = (s.performStore d).withHarts hs := by
  unfold State.performStore
  rw [foldl_withHarts s hs (fun s (r : Nat × Nat) => noteWrite_withHarts s hs r.1 r.2), putSome_withHarts]
  dsimp only
  split
  · rename_i p _
    exact foldl_withHarts _ hs (fun s (r : Nat × Nat) => noteRelease_withHarts s hs _ _ r.1 r.2) _
  · rfl

theorem read_withHarts (v : Viewer) (c k n : Nat) : (s.withHarts hs).read v c k n = s.read v c k n := by
  unfold State.read State.seen
  rw [foldl_withHarts s hs (fun s d => performStore_withHarts s hs d), bytesUnder_withHarts]
  rfl

theorem place_withHarts (asid : BitVec 16) (a : Nat) : (s.withHarts hs).place asid a = s.place asid a := by
  have hr : (s.withHarts hs).roleAt a = s.roleAt a := by
    refine roleAt_of_tiles (s := s) (u := s.withHarts hs) ?_ a
    rfl
  unfold State.place
  rw [hr]
  cases regionOf a <;> rfl

theorem keyInvalid_withHarts (k : Nat) : (s.withHarts hs).keyInvalid k = s.keyInvalid k := rfl
theorem poisoned_withHarts (a n : Nat) : (s.withHarts hs).poisoned a n = s.poisoned a n := rfl

theorem tableRead_withHarts (asid : BitVec 16) (a k : Nat) :
    (s.withHarts hs).tableRead asid a k = s.tableRead asid a k := by
  unfold State.tableRead
  rw [place_withHarts, keyInvalid_withHarts, poisoned_withHarts]
  simp only [read_withHarts]

theorem groupOk_withHarts (asid : BitVec 16) (a k : Nat) (first : Word) (n : Nat) :
    (s.withHarts hs).groupOk asid a k first n = s.groupOk asid a k first n := by
  induction n with
  | zero => rfl
  | succ n ih =>
    unfold State.groupOk
    simp only [ih, tableRead_withHarts]

theorem walkFrom_withHarts (asid : BitVec 16) (va lvl a k : Nat) :
    (s.withHarts hs).walkFrom asid va lvl a k = s.walkFrom asid va lvl a k := by
  induction lvl generalizing a k with
  | zero =>
    unfold State.walkFrom
    simp only [tableRead_withHarts, groupOk_withHarts]
  | succ n ih =>
    unfold State.walkFrom
    simp only [tableRead_withHarts, groupOk_withHarts, ih]

theorem spaceByte_withHarts (d : Fin 4) (asid : BitVec 16) (va : Nat) :
    (s.withHarts hs).spaceByte d asid va = s.spaceByte d asid va := by
  have he : (s.withHarts hs).spaceEntry d asid = s.spaceEntry d asid := by
    have ha : (s.withHarts hs).die d = s.die d := rfl
    unfold State.spaceEntry
    simp only [ha, place_withHarts, bytesUnder_withHarts]
  have hw : ∀ base, (s.withHarts hs).walk base asid va = s.walk base asid va := fun base => by
    unfold State.walk
    rw [walkFrom_withHarts]
  have hb : ∀ c k, (s.withHarts hs).byteUnder c k = s.byteUnder c k := fun _ _ => rfl
  unfold State.spaceByte
  simp only [he, hw, hb, place_withHarts, keyInvalid_withHarts, poisoned_withHarts]

theorem spaceBytes_withHarts (d : Fin 4) (asid : BitVec 16) (va n : Nat) :
    (s.withHarts hs).spaceBytes d asid va n = s.spaceBytes d asid va n := by
  induction n generalizing va with
  | zero => rfl
  | succ n ih =>
    unfold State.spaceBytes
    rw [spaceByte_withHarts, ih]

theorem argRegs_withHarts (d : Fin 4) (l : Launch) (inst rank : Nat) :
    (s.withHarts hs).argRegs d l inst rank = s.argRegs d l inst rank := by
  unfold State.argRegs
  simp only [spaceBytes_withHarts]
  rfl

end

end Sys2Proof.Machine

namespace Sys2Proof.Machine

/-! ### Gangs by their numbers -/

theorem gang?_map_running (s : State) (g : Nat) :
    (s.gang? g).map (fun G => G.running) = (s.roster.1.find? (fun x => x.1 == g)).map (fun x => x.2) := by
  simp only [State.roster, List.find?_map, Option.map_map]
  rfl

/-- Whether a gang runs is kept by what keeps the roster. -/
theorem gang?_running {s u : State} (e : u.roster = s.roster) (g : Nat) :
    (u.gang? g).map (fun G => G.running) = (s.gang? g).map (fun G => G.running) := by
  rw [gang?_map_running, gang?_map_running, e]

theorem gang?_isSome {s u : State} (e : u.roster = s.roster) (g : Nat) :
    (u.gang? g).isSome = (s.gang? g).isSome := by
  simpa only [Option.isSome_map] using congrArg Option.isSome (gang?_running e g)

theorem gang?_id {s : State} {g : Nat} {G : Gang} (h : s.gang? g = some G) : G.id = g := by
  simpa using List.find?_some h

theorem gang?_updGang {f : Gang → Gang} (hf : ∀ G, (f G).id = G.id) (s : State) (g k : Nat) :
    (s.updGang g f).gang? k = (s.gang? k).map (fun G => if G.id = g then f G else G) := by
  have hp : (fun G => G.id == k) ∘ (fun G => if G.id = g then f G else G) = fun G : Gang => G.id == k := by
    funext G
    by_cases h : G.id = g <;> simp [h, hf]
  simp only [State.gang?, State.updGang, List.find?_map, hp]

theorem gang?_updGang_same {f : Gang → Gang} (hf : ∀ G, (f G).id = G.id) {s : State} {g : Nat} {G : Gang}
    (h : s.gang? g = some G) : (s.updGang g f).gang? g = some (f G) := by
  simp [gang?_updGang hf, h, gang?_id h]

theorem gang?_updGang_ne {f : Gang → Gang} (hf : ∀ G, (f G).id = G.id) (s : State) {g k : Nat} (hk : k ≠ g) :
    (s.updGang g f).gang? k = s.gang? k := by
  rw [gang?_updGang hf]
  cases h : s.gang? k with
  | none => rfl
  | some G => simp [gang?_id h, hk]

theorem gang?_append {s u : State} {G : Gang} (hu : u.gangs = s.gangs ++ [G]) {g : Nat} (h : (s.gang? g).isSome) :
    u.gang? g = s.gang? g := by
  obtain ⟨K, hK⟩ := Option.isSome_iff_exists.mp h
  have hf : s.gangs.find? (fun G => G.id == g) = some K := hK
  simp [State.gang?, hu, List.find?_append, hf]

theorem gang?_of_gangs {s u : State} (h : u.gangs = s.gangs) (g : Nat) : u.gang? g = s.gang? g := by
  simp only [State.gang?, h]

theorem gang?_isSome_of_mem {s : State} {G : Gang} (h : G ∈ s.gangs) : (s.gang? G.id).isSome := by
  simpa [State.gang?] using ⟨G, h, rfl⟩

/-! ### Launch queues -/

theorem queue_of_roster {s u : State} (e : u.roster = s.roster) (d : Fin 4) (q : Nat) : u.queue d q = s.queue d q :=
  congrArg (fun r : List (Nat × Bool) × (Fin 4 → Vector Queue 32) => (r.2 d)[q]?.getD Queue.reset) e

theorem queue_of_dies {s u : State} (e : u.dies = s.dies) (d : Fin 4) (q : Nat) : u.queue d q = s.queue d q := by
  simp only [State.queue, State.die, e]

theorem queue_updQueue_same (s : State) (d : Fin 4) {q : Nat} (hq : q < 32) (f : Queue → Queue) :
    (s.updQueue d q f).queue d q = f (s.queue d q) := by
  simp [State.queue, State.updQueue, hq]

theorem queue_updQueue_ne (s : State) {d e : Fin 4} {q k : Nat} (h : ¬ (e = d ∧ k = q)) (f : Queue → Queue) :
    (s.updQueue d q f).queue e k = s.queue e k := by
  by_cases he : e = d
  · subst he
    have hk : q ≠ k := fun hk => h ⟨rfl, hk.symm⟩
    simp [State.queue, State.updQueue, hk]
  · simp only [State.queue, State.updQueue, die_updDie_ne _ _ _ _ he]

theorem queue_updDie {f : Die → Die} (hf : ∀ D, (f D).queues = D.queues) (s : State) (d e : Fin 4) (q : Nat) :
    (s.updDie d f).queue e q = s.queue e q := queue_of_roster (updDie_roster hf s d) e q

/-- A queue beyond the last is empty. -/
theorem lt_of_queue_entries {s : State} {d : Fin 4} {q : Nat} (h : (s.queue d q).entries ≠ []) : q < 32 := by
  by_contra hq
  refine h ?_
  have : (s.die d).queues[q]? = none := Vector.getElem?_eq_none (by omega)
  simp [State.queue, this, Queue.reset]

/-! #### The choice (R369) -/

/-- The candidate chosen is one of those looked at. -/
theorem bestHead_mem {l : List (Nat × Queue)} {b : Option (Nat × Queue)} {c : Nat × Queue} (h : bestHead b l = some c) :
    b = some c ∨ c ∈ l := by
  induction l generalizing b with
  | nil => exact .inl h
  | cons x t ih =>
    obtain e | e := ih h
    · cases b with
      | none => exact .inr (by simp [Option.some.inj e])
      | some y =>
        dsimp only at e
        split at e
        · exact .inr (by simp [Option.some.inj e])
        · exact .inl e
    · exact .inr (List.mem_cons_of_mem x e)

theorem chosen_queue {s : State} {d : Fin 4} {q : Nat} {Q : Queue} (h : s.chosen d = some (q, Q)) : Q = s.queue d q := by
  obtain h | h := bestHead_mem h
  · obtain h | h := bestHead_mem h
    · cases h
    · obtain ⟨c, -, e⟩ := List.mem_map.mp h
      cases e
      rfl
  · obtain ⟨i, -, e⟩ := List.mem_filterMap.mp h
    dsimp only at e
    split at e
    · cases e
      rfl
    · cases e

theorem chosen_lt {s : State} {d : Fin 4} {q : Nat} {Q : Queue} {e : QEntry} {rest : List QEntry}
    (h : s.chosen d = some (q, Q)) (hQ : Q.entries = e :: rest) : q < 32 := by
  refine lt_of_queue_entries (s := s) (d := d) ?_
  rw [← chosen_queue h, hQ]
  exact List.cons_ne_nil e rest

/-! #### A served entry (R366) -/

/-- What stays of an entry of a queue when an entry is served. -/
def QEntry.left (e x : QEntry) : List QEntry :=
  if x.key ≠ e.key then [x]
  else match x with
    | .record l => if l.inst ≤ l.next + 1 then [] else [.record { l with next := l.next + 1 }]
    | .resume _ => []

theorem flatMap_left {e : QEntry} {l : List QEntry} (h : ∀ x ∈ l, x.key ≠ e.key) : l.flatMap e.left = l := by
  induction l with
  | nil => rfl
  | cons x t ih =>
    have hx : e.left x = [x] := if_pos (h x (by simp))
    rw [List.flatMap_cons, hx, ih (fun y hy => h y (List.mem_cons_of_mem x hy))]
    rfl

@[simp] theorem served_gangs (s : State) (d : Fin 4) (q : Nat) (e : QEntry) : (s.served d q e).gangs = s.gangs := rfl
@[simp] theorem served_mem (s : State) (d : Fin 4) (q : Nat) (e : QEntry) : (s.served d q e).mem = s.mem := rfl
@[simp] theorem served_harts (s : State) (d : Fin 4) (q : Nat) (e : QEntry) : (s.served d q e).harts = s.harts := rfl
@[simp] theorem served_nextId (s : State) (d : Fin 4) (q : Nat) (e : QEntry) : (s.served d q e).nextId = s.nextId := rfl

theorem queue_served (s : State) (d : Fin 4) {q : Nat} (hq : q < 32) (e : QEntry) :
    ((s.served d q e).queue d q).entries = (s.queue d q).entries.flatMap e.left := by
  unfold State.served
  refine (congrArg Queue.entries (queue_updDie (fun _ => by rfl) _ d d q)).trans ?_
  rw [queue_updQueue_same _ _ hq]
  exact congrArg Queue.entries (queue_updQueue_same s d hq _)

theorem queue_served_ne (s : State) {d c : Fin 4} {q k : Nat} (h : ¬ (c = d ∧ k = q)) (e : QEntry) :
    (s.served d q e).queue c k = s.queue c k := by
  unfold State.served
  refine (queue_updDie (fun _ => by rfl) _ d c k).trans ?_
  rw [queue_updQueue_ne _ h, queue_updQueue_ne _ h]

/-- An entry that is not the one served stays in its queue. -/
theorem mem_served {s : State} {c : Fin 4} {k : Nat} {e x : QEntry} (hx : x.key ≠ e.key)
    (h : x ∈ (s.queue c k).entries) (d : Fin 4) (q : Nat) : x ∈ ((s.served d q e).queue c k).entries := by
  by_cases hc : c = d ∧ k = q
  · obtain ⟨rfl, rfl⟩ := hc
    rw [queue_served s c (lt_of_queue_entries (List.ne_nil_of_mem h))]
    exact List.mem_flatMap.mpr ⟨x, h, by simp [QEntry.left, hx]⟩
  · rwa [queue_served_ne s hc]

end Sys2Proof.Machine

namespace Sys2Proof.Machine

/-! ### A record placed (R361, R366, R371) -/

theorem nodup_of_noRepeat {α : Type} [DecidableEq α] {l : List α} (h : noRepeat l = true) : l.Nodup := by
  induction l with
  | nil => exact List.nodup_nil
  | cons a t ih =>
    simp only [noRepeat, Bool.and_eq_true, Bool.not_eq_true', List.contains_eq_mem, decide_eq_false_iff_not] at h
    exact List.nodup_cons.mpr ⟨h.1, ih h.2⟩

theorem hartAt_tile {t u : Fin 224} {c d : Fin 4} (h : hartAt t c = hartAt u d) : t = u := by
  have hv : t.val * 4 + c.val = u.val * 4 + d.val := congrArg Fin.val h
  exact Fin.ext (by omega)

/-! #### The harts -/

/-- The harts of a gang placed one after another. -/
def State.placeAll (s : State) (l : Launch) (gang inst : Nat) (ranks : List (Nat × Place)) : State :=
  ranks.foldl (fun s e => s.placeHart l gang inst e.1 e.2) s

theorem placeHart_withHarts (s : State) (l : Launch) (gang inst rank : Nat) (p : Place) :
    s.placeHart l gang inst rank p = s.withHarts (s.placeHart l gang inst rank p).harts := rfl

theorem State.Placed.of_withHarts {s : State} {hs : Vector Hart 896} {l : Launch} {gang inst rank : Nat} {p : Place}
    {H : Hart} (h : (s.withHarts hs).Placed l gang inst rank p H) : s.Placed l gang inst rank p H :=
  { h with x := h.x.trans (argRegs_withHarts s hs _ l inst rank) }

theorem placeAll_core (s : State) (l : Launch) (gang inst : Nat) (ranks : List (Nat × Place)) :
    (s.placeAll l gang inst ranks).core = s.core :=
  core_foldl (fun s (e : Nat × Place) => placeHart_core s l gang inst e.1 e.2) ranks s

theorem placeAll_hart_ne {h : HartId} {ranks : List (Nat × Place)}
    (hr : ∀ e ∈ ranks, h ≠ hartAt e.2.tile e.2.ctx) (s : State) (l : Launch) (gang inst : Nat) :
    (s.placeAll l gang inst ranks).hart h = s.hart h := by
  induction ranks generalizing s with
  | nil => rfl
  | cons x t ih =>
    refine (ih (fun e he => hr e (List.mem_cons_of_mem x he)) _).trans ?_
    exact hart_updHart_ne s _ h _ (hr x (by simp))

theorem placeAll_placed {ranks : List (Nat × Place)} (hd : (ranks.map (fun e => e.2.tile)).Nodup) (s : State)
    (l : Launch) (gang inst : Nat) {r : Nat} {p : Place} (he : (r, p) ∈ ranks) :
    s.Placed l gang inst r p ((s.placeAll l gang inst ranks).hart (hartAt p.tile p.ctx)) := by
  induction ranks generalizing s with
  | nil => cases he
  | cons x t ih =>
    obtain ⟨hx, ht⟩ := List.nodup_cons.mp hd
    show s.Placed l gang inst r p (((s.placeHart l gang inst x.1 x.2).placeAll l gang inst t).hart (hartAt p.tile p.ctx))
    obtain rfl | he := List.mem_cons.mp he
    · have hne : ∀ e ∈ t, hartAt p.tile p.ctx ≠ hartAt e.2.tile e.2.ctx := fun e hm h =>
        hx (List.mem_map.mpr ⟨e, hm, (hartAt_tile h).symm⟩)
      rw [placeAll_hart_ne hne]
      exact placeHart_placed s l gang inst r p
    · have := ih ht (s.placeHart l gang inst x.1 x.2) he
      rw [placeHart_withHarts] at this ⊢
      exact this.of_withHarts

/-! #### The rings, the gang and its crossings -/

/-- The places of a gang by rank. -/
def byRank (ps : List Place) : List (Nat × Place) := ps.mapIdx (fun r p => (r, p))

theorem byRank_mem {ps : List Place} {r : Nat} {p : Place} (h : ps[r]? = some p) : (r, p) ∈ byRank ps := by
  refine List.mem_of_getElem? (i := r) ?_
  simp [byRank, h]

theorem byRank_tiles (ps : List Place) : (byRank ps).map (fun e => e.2.tile) = ps.map (fun p => p.tile) := by
  refine List.ext_getElem? fun i => ?_
  simp [byRank, Function.comp_def]

/-- The gang that a placement of a record adds. -/
def State.newGang (s : State) (die : Fin 4) (l : Launch) (ps : List Place) : Gang where
  id := s.nextId
  launch := l
  inst := l.next
  members := (byRank ps).map (fun e => ⟨e.1, hartAt e.2.tile e.2.ctx, false, none⟩)
  fc := 0
  running := true
  since := (s.die die).clock
  yielded := false
  prio := l.prio

/-- The state in which a placed gang stands with its harts and their rings, before its crossings are opened. -/
def State.gangSet (s : State) (die : Fin 4) (l : Launch) (ps : List Place) : State :=
  let u := (byRank ps).foldl (fun s e => l.rings.foldl (fun s r => s.declareRing (hartAt e.2.tile e.2.ctx) r) s)
    (s.placeAll l s.nextId l.next (byRank ps))
  { u with nextId := s.nextId + 1, fresh := u.fresh + 32 * ps.length, gangs := u.gangs ++ [s.newGang die l ps] }

theorem placeRecord_eq (s : State) (die : Fin 4) (q : Nat) (l : Launch) (ps : List Place) :
    s.placeRecord die q l ps =
      ((s.gangSet die l ps).openAll (s.newGang die l ps) l.xings).served die q (.record l) := rfl

theorem gangSet_core (s : State) (die : Fin 4) (l : Launch) (ps : List Place) :
    (s.gangSet die l ps).core = (s.mem, s.gangs ++ [s.newGang die l ps], s.nextId + 1, s.dies) := by
  have h : ((byRank ps).foldl (fun s e => l.rings.foldl (fun s r => s.declareRing (hartAt e.2.tile e.2.ctx) r) s)
      (s.placeAll l s.nextId l.next (byRank ps))).core = s.core :=
    (core_foldl (fun s (_ : Nat × Place) => core_foldl (fun s r => declareRing_core s _ r) l.rings s) _ _).trans
      (placeAll_core s l _ _ _)
  simp only [State.core, Prod.mk.injEq] at h
  obtain ⟨hm, hg, -, hd⟩ := h
  simp only [State.core, State.gangSet, hm, hg, hd]

theorem gangSet_face (s : State) (die : Fin 4) (l : Launch) (ps : List Place) (h : HartId) :
    ((s.gangSet die l ps).hart h).face = ((s.placeAll l s.nextId l.next (byRank ps)).hart h).face :=
  face_foldl (fun s (_ : Nat × Place) => face_foldl (fun s r => declareRing_face s _ h r) l.rings s) (byRank ps) _

/-- The state before the served entry leaves its queue. -/
theorem opened_core (s : State) (die : Fin 4) (l : Launch) (ps : List Place) :
    ((s.gangSet die l ps).openAll (s.newGang die l ps) l.xings).core =
      (s.mem, s.gangs ++ [s.newGang die l ps], s.nextId + 1, s.dies) :=
  (openAll_core _ _ _).trans (gangSet_core s die l ps)

theorem placeRecord_gangs (s : State) (die : Fin 4) (q : Nat) (l : Launch) (ps : List Place) :
    (s.placeRecord die q l ps).gangs = s.gangs ++ [s.newGang die l ps] := by
  rw [placeRecord_eq, served_gangs]
  exact congrArg (fun c => c.2.1) (opened_core s die l ps)

theorem placeRecord_mem (s : State) (die : Fin 4) (q : Nat) (l : Launch) (ps : List Place) :
    (s.placeRecord die q l ps).mem = s.mem := by
  rw [placeRecord_eq, served_mem]
  exact congrArg (fun c => c.1) (opened_core s die l ps)

theorem placeRecord_nextId (s : State) (die : Fin 4) (q : Nat) (l : Launch) (ps : List Place) :
    (s.placeRecord die q l ps).nextId = s.nextId + 1 := by
  rw [placeRecord_eq, served_nextId]
  exact congrArg (fun c => c.2.2.1) (opened_core s die l ps)

theorem opened_queue (s : State) (die : Fin 4) (l : Launch) (ps : List Place) (d : Fin 4) (q : Nat) :
    ((s.gangSet die l ps).openAll (s.newGang die l ps) l.xings).queue d q = s.queue d q :=
  queue_of_dies (congrArg (fun c => c.2.2.2) (opened_core s die l ps)) d q

theorem placeRecord_queue (s : State) (die : Fin 4) {q : Nat} (hq : q < 32) (l : Launch) (ps : List Place) :
    ((s.placeRecord die q l ps).queue die q).entries =
      (s.queue die q).entries.flatMap (QEntry.left (.record l)) := by
  rw [placeRecord_eq, queue_served _ _ hq, opened_queue]

theorem mem_placeRecord {s : State} {l : Launch} {x : QEntry} {c : Fin 4} {k : Nat} (hx : x.key ≠ (false, l.id))
    (h : x ∈ (s.queue c k).entries) (die : Fin 4) (q : Nat) (ps : List Place) :
    x ∈ ((s.placeRecord die q l ps).queue c k).entries := by
  rw [placeRecord_eq]
  refine mem_served hx ?_ die q
  rwa [opened_queue]

theorem placeRecord_placed {s : State} {l : Launch} {ps : List Place} {r : Nat} {p : Place}
    (hd : (ps.map (fun p => p.tile)).Nodup) (h : ps[r]? = some p) (die : Fin 4) (q : Nat) :
    s.Placed l s.nextId l.next r p ((s.placeRecord die q l ps).hart (hartAt p.tile p.ctx)) := by
  rw [placeRecord_eq]
  refine (placeAll_placed (by rwa [byRank_tiles]) s l s.nextId l.next (byRank_mem h)).of_face ?_
  rw [hart_of_harts (served_harts _ _ _ _), openAll_face, gangSet_face]

/-! #### The registers of a placed hart -/

theorem fld_setFld_same {n lo len : Nat} (w : BitVec n) (v : BitVec len) (h : lo + len ≤ n) :
    fld (setFld w lo v) lo len = v := by
  refine BitVec.eq_of_getLsbD_eq fun i hi => ?_
  have hn : lo + i < n := by omega
  simp [fld, setFld, hi, hn]

theorem fld_setFld_above {n lo len k m : Nat} (w : BitVec n) (v : BitVec len) (h : lo + len ≤ k) :
    fld (setFld w lo v) k m = fld w k m := by
  refine BitVec.eq_of_getLsbD_eq fun i hi => ?_
  have hk : ¬ k + i < lo := by omega
  have hl : len ≤ k + i - lo := by omega
  have hb : (setFld w lo v).getLsbD (k + i) = w.getLsbD (k + i) := by
    by_cases hn : k + i < n
    · simp [setFld, hn, hk, hl]
    · rw [BitVec.getLsbD_of_ge _ _ (by omega), BitVec.getLsbD_of_ge _ _ (by omega)]
  simp [fld, hi, hb]

theorem fld_lpartOf_grant (g o : BitVec 16) : (fld (lpartOf g o) 16 16 : BitVec 16) = g :=
  (fld_setFld_above _ o (Nat.le_refl 16)).trans (fld_setFld_same _ g (by decide))

theorem fld_lpartOf_own (g o : BitVec 16) : (fld (lpartOf g o) 0 16 : BitVec 16) = o :=
  fld_setFld_same _ o (by decide)

theorem getX_eq (H : Hart) {r : Reg} (hr : r ≠ 0) : H.getX r = H.x[r.toNat]'(by have := r.isLt; omega) := if_neg hr

theorem State.Placed.getX {s : State} {l : Launch} {gang inst rank : Nat} {p : Place} {H : Hart}
    (h : s.Placed l gang inst rank p H) {x : Reg} (hx : x ≠ 0) {bs : List Byte}
    (hb : s.spaceBytes (dieOf p.tile) l.asid (l.argsAt inst rank + 8 * x.toNat) 8 = some bs) :
    H.getX x = BitVec.ofNat 64 (natOf bs) := by
  have hn : x.toFin ≠ 0 := fun e => hx (BitVec.eq_of_toFin_eq e)
  simp [getX_eq H hx, h.x, State.argRegs, hn, hb]

/-! #### The instruction of the scheduler (R369) -/

theorem nodup_of_placesOk {s : State} {ns : List Need} {ps : List Place} (h : s.placesOk ns ps = true) :
    (ps.map (fun p => p.tile)).Nodup := by
  simp only [State.placesOk, Bool.and_eq_true] at h
  exact nodup_of_noRepeat h.1.2

theorem exec_placeGang {s : State} {die : Fin 4} {ps : List Place} {q : Nat} {Q : Queue} {l : Launch}
    {rest : List QEntry} (hc : s.chosen die = some (q, Q)) (hQ : Q.entries = .record l :: rest)
    (hp : s.placesOk l.needs ps = true) (ha : s.admits die (l.needs.map (fun n => n.die)) Q.prio = true) :
    exec (.placeGang die ps) s = .next (s.placeRecord die q l ps) := by
  show execPlaceGang die ps s = _
  simp only [execPlaceGang, hc, hQ, hp, ha, Bool.and_self, if_true]

theorem left_record_head (l : Launch) {rest : List QEntry} (h : ∀ e ∈ rest, e.key ≠ (false, l.id)) :
    (QEntry.record l :: rest).flatMap (QEntry.left (.record l)) =
      if l.inst ≤ l.next + 1 then rest else .record { l with next := l.next + 1 } :: rest := by
  rw [List.flatMap_cons, flatMap_left h]
  by_cases hi : l.inst ≤ l.next + 1 <;> simp [QEntry.left, hi]

/-- The chosen record is placed where the places are such as R370 allows. -/
theorem placeGang_places {s : State} {die : Fin 4} {ps : List Place} {q : Nat} {Q : Queue} {l : Launch}
    {rest : List QEntry} (hc : s.chosen die = some (q, Q)) (hQ : Q.entries = .record l :: rest)
    (hp : s.placesOk l.needs ps = true) (ha : s.admits die (l.needs.map (fun n => n.die)) Q.prio = true)
    (hr : ∀ e ∈ rest, e.key ≠ (false, l.id)) :
    ∃ u G, exec (.placeGang die ps) s = .next u ∧ u.gangs = s.gangs ++ [G] ∧ u.nextId = s.nextId + 1 ∧ u.mem = s.mem ∧
      G.id = s.nextId ∧ G.launch = l ∧ G.inst = l.next ∧ G.fc = 0 ∧ G.running = true ∧
      G.members = ps.mapIdx (fun r p => ⟨r, hartAt p.tile p.ctx, false, none⟩) ∧
      (u.queue die q).entries =
        (if l.inst ≤ l.next + 1 then rest else .record { l with next := l.next + 1 } :: rest) ∧
      ∀ (r : Nat) (p : Place), ps[r]? = some p →
        s.Placed l s.nextId l.next r p (u.hart (hartAt p.tile p.ctx)) := by
  refine ⟨_, s.newGang die l ps, exec_placeGang hc hQ hp ha, placeRecord_gangs s die q l ps,
    placeRecord_nextId s die q l ps, placeRecord_mem s die q l ps, rfl, rfl, rfl, rfl, rfl, ?_, ?_, fun r p h =>
    placeRecord_placed (nodup_of_placesOk hp) h die q⟩
  · exact List.ext_getElem? fun i => by simp [State.newGang, byRank, Function.comp_def]
  · rw [placeRecord_queue s die (chosen_lt hc hQ), ← chosen_queue hc, hQ, left_record_head l hr]

end Sys2Proof.Machine

namespace Sys2Proof.Machine

/-! ### Aging (R368) -/

theorem exec_agingStep {s : State} {die : Fin 4} {k : BitVec 5} {l : Launch} {rest : List QEntry}
    (hQ : (s.queue die k.toNat).entries = .record l :: rest) (hp : s.predsMet l = true)
    (h0 : (s.die die).agePeriod ≠ 0) (ha : (s.die die).agePeriod ≤ (s.queue die k.toNat).age)
    (hc : (s.queue die k.toNat).prio < l.ceil) :
    exec (.agingStep die k) s = .next (s.updQueue die k.toNat (fun Q =>
      { Q with prio := Q.prio + 1, age := Q.age - (s.die die).agePeriod })) := by
  have hr : s.headReady (s.queue die k.toNat) = true := by simp [State.headReady, hQ, hp]
  have hl : (s.headPrio (s.queue die k.toNat)).2 = l.ceil := by simp [State.headPrio, hQ, State.entryLaunch]
  show execAgingStep die k s = _
  simp [execAgingStep, hr, hl, h0, ha, hc]

theorem agingStep_rises {s : State} {die : Fin 4} {k : BitVec 5} {l : Launch} {rest : List QEntry}
    (hQ : (s.queue die k.toNat).entries = .record l :: rest) (hp : s.predsMet l = true)
    (h0 : (s.die die).agePeriod ≠ 0) (ha : (s.die die).agePeriod ≤ (s.queue die k.toNat).age)
    (hc : (s.queue die k.toNat).prio < l.ceil) :
    ∃ u, exec (.agingStep die k) s = .next u ∧ u.harts = s.harts ∧ u.mem = s.mem ∧
      u.queue die k.toNat = { s.queue die k.toNat with
        prio := (s.queue die k.toNat).prio + 1
        age := (s.queue die k.toNat).age - (s.die die).agePeriod } :=
  ⟨_, exec_agingStep hQ hp h0 ha hc, rfl, rfl, queue_updQueue_same s die k.isLt _⟩

/-! ### A gang saved (R373, R374) -/

/-- The state in which every hart of a gang is saved and its contexts are free. -/
def State.emptied (s : State) (G : Gang) : State := (G.members.foldl (fun s m => s.saveHart G m) s).vacate G

theorem emptied_roster (s : State) (G : Gang) : (s.emptied G).roster = s.roster :=
  (vacate_roster _ G).trans (roster_foldl (fun s (m : Member) => saveHart_roster s G m) _ s)

/-- A gang that has been stopped. -/
def Gang.stopped (G : Gang) : Gang := { G with running := false, yielded := false }

theorem saveGang_eq (s : State) (G : Gang) :
    s.saveGang G = ((s.emptied G).updGang G.id Gang.stopped).postResume G := rfl

theorem saveGang_gang? (s : State) (G : Gang) (g : Nat) :
    (s.saveGang G).gang? g = ((s.emptied G).gang? g).map (fun K => if K.id = G.id then K.stopped else K) := by
  rw [saveGang_eq]
  exact gang?_updGang (f := Gang.stopped) (fun _ => rfl) _ _ _

/-- A saved gang does not run. -/
theorem saveGang_running {s : State} {G K : Gang} (h : (s.saveGang G).gang? G.id = some K) : K.running = false := by
  rw [saveGang_gang?] at h
  obtain ⟨L, hL, rfl⟩ := Option.map_eq_some_iff.mp h
  rw [if_pos (gang?_id hL)]
  rfl

theorem saveGang_isSome (s : State) (G : Gang) (g : Nat) : ((s.saveGang G).gang? g).isSome = (s.gang? g).isSome := by
  rw [saveGang_gang?, Option.isSome_map, gang?_isSome (emptied_roster s G)]

/-- The die of a gang's own queue. -/
def Gang.home (G : Gang) : Fin 4 := ⟨G.launch.die % 4, Nat.mod_lt _ (by decide)⟩

/-- A saved gang waits in the queue of its record. -/
theorem saveGang_queued (s : State) {G : Gang} (hq : G.launch.queue < 32) :
    .resume G.id ∈ ((s.saveGang G).queue G.home G.launch.queue).entries := by
  rw [saveGang_eq]
  unfold State.postResume Gang.home
  rw [queue_updQueue_same _ _ hq]
  split <;> simp [State.freshHead]

/-! ### A saved gang brought back (R374, R438) -/

/-- A gang that goes on in some places. -/
def Gang.back (G : Gang) (s : State) (die : Fin 4) (ps : List Place) (K : Gang) : Gang := { K with
  running := true
  since := (s.die die).clock
  yielded := false
  members := (G.members.zip ps).map (fun e => { e.1 with ctx := hartAt e.2.tile e.2.ctx, saved := none }) }

/-- The harts of a saved gang put back on their contexts. -/
def State.resumeAll (s : State) (G : Gang) (ps : List Place) : State :=
  (G.members.zip ps).foldl (fun s e => match e.1.saved with
    | some v => s.resumeHart G e.1 v e.2
    | none => s) s

theorem resumePlaced_eq (s : State) (die : Fin 4) (q g : Nat) (G : Gang) (ps : List Place) :
    s.resumePlaced die q g G ps =
      (((s.resumeAll G ps).updGang g (G.back s die ps)).reopen G (G.back s die ps G)).served die q (.resume g) := rfl

theorem resumeAll_roster (s : State) (G : Gang) (ps : List Place) : (s.resumeAll G ps).roster = s.roster := by
  refine roster_foldl (fun s e => ?_) _ s
  split
  · exact resumeHart_roster _ _ _ _ _
  · rfl

theorem resumePlaced_gang? (s : State) (die : Fin 4) (q g : Nat) (G : Gang) (ps : List Place) (k : Nat) :
    (s.resumePlaced die q g G ps).gang? k = ((s.resumeAll G ps).updGang g (G.back s die ps)).gang? k := by
  rw [resumePlaced_eq]
  exact gang?_of_gangs (congrArg (fun c => c.2.1) (reopen_core _ _ _)) k

theorem resumePlaced_back {s : State} {g : Nat} (hg : (s.gang? g).isSome) (die : Fin 4) (q : Nat) (G : Gang)
    (ps : List Place) : ∃ K, (s.resumePlaced die q g G ps).gang? g = some (G.back s die ps K) := by
  rw [← gang?_isSome (resumeAll_roster s G ps)] at hg
  obtain ⟨K, hK⟩ := Option.isSome_iff_exists.mp hg
  refine ⟨K, ?_⟩
  rw [resumePlaced_gang?]
  exact gang?_updGang_same (f := G.back s die ps) (fun _ => rfl) hK

/-- Whether another gang runs stays. -/
theorem resumePlaced_running {s : State} {g k : Nat} (hk : k ≠ g) (die : Fin 4) (q : Nat) (G : Gang) (ps : List Place) :
    ((s.resumePlaced die q g G ps).gang? k).map (fun K => K.running) = (s.gang? k).map (fun K => K.running) := by
  rw [resumePlaced_gang?, gang?_updGang_ne (f := G.back s die ps) (fun _ => rfl) _ hk,
    gang?_running (resumeAll_roster s G ps)]

/-- The state before the served entry leaves its queue. -/
theorem reopened_queue (s : State) (die : Fin 4) (g : Nat) (G : Gang) (ps : List Place) (d : Fin 4) (q : Nat) :
    (((s.resumeAll G ps).updGang g (G.back s die ps)).reopen G (G.back s die ps G)).queue d q = s.queue d q :=
  (queue_of_dies (congrArg (fun c => c.2.2.2) (reopen_core _ _ _)) d q).trans
    (queue_of_roster (resumeAll_roster s G ps) d q)

theorem resumePlaced_queue (s : State) (die : Fin 4) {q : Nat} (hq : q < 32) (g : Nat) (G : Gang) (ps : List Place) :
    ((s.resumePlaced die q g G ps).queue die q).entries =
      (s.queue die q).entries.flatMap (QEntry.left (.resume g)) := by
  rw [resumePlaced_eq, queue_served _ _ hq, reopened_queue]

theorem mem_resumePlaced {s : State} {g : Nat} {x : QEntry} {c : Fin 4} {k : Nat} (hx : x.key ≠ (true, g))
    (h : x ∈ (s.queue c k).entries) (die : Fin 4) (q : Nat) (G : Gang) (ps : List Place) :
    x ∈ ((s.resumePlaced die q g G ps).queue c k).entries := by
  rw [resumePlaced_eq]
  refine mem_served hx ?_ die q
  rwa [reopened_queue]

/-- The registers of a hart that is put back are those of its image. -/
theorem resumePlaced_hart (s : State) (die : Fin 4) (q g : Nat) {G : Gang} {m : Member} {v : Saved} (p : Place)
    (hm : G.members = [m]) (hv : m.saved = some v) (hd : m.done = false) :
    ∃ H, s.Returned G m v p H ∧
      ((s.resumePlaced die q g G [p]).hart (hartAt p.tile p.ctx)).face = H.face := by
  obtain ⟨H, hH, e⟩ := resumeHart_face s G v p hd
  refine ⟨H, hH, ?_⟩
  have hr : s.resumeAll G [p] = s.resumeHart G m v p := by simp [State.resumeAll, hm, hv]
  rw [resumePlaced_eq, hart_of_harts (served_harts _ _ _ _), reopen_face, ← e, hr]
  rfl

theorem exec_resumeGang {s : State} {die : Fin 4} {ps : List Place} {q : Nat} {Q : Queue} {g : Nat} {G : Gang}
    {rest : List QEntry} (hc : s.chosen die = some (q, Q)) (hQ : Q.entries = .resume g :: rest)
    (hg : s.gang? g = some G) (hp : s.placesOk G.needs ps = true)
    (ha : s.admits die (G.needs.map (fun n => n.die)) Q.prio = true) :
    exec (.resumeGang die ps) s = .next (s.resumePlaced die q g G ps) := by
  show execResumeGang die ps s = _
  simp only [execResumeGang, hc, hQ, hg, hp, ha, Bool.and_self, if_true]

theorem left_resume_head (g : Nat) {rest : List QEntry} (h : ∀ e ∈ rest, e.key ≠ (true, g)) :
    (QEntry.resume g :: rest).flatMap (QEntry.left (.resume g)) = rest := by
  rw [List.flatMap_cons, flatMap_left h]
  simp [QEntry.left]

theorem State.Returned.getX {s : State} {G : Gang} {m : Member} {v : Saved} {p : Place} {H : Hart}
    (h : s.Returned G m v p H) {r : Reg} (hr : r ≠ 0) :
    H.getX r = s.imgW (s.imageBase v) (s.imageKey v.die) (0x40 + 8 * r.toNat) := by
  have hn : r.toFin ≠ 0 := fun e => hr (BitVec.eq_of_toFin_eq e)
  simp [getX_eq H hr, h.x, hn]

theorem State.Returned.getF {s : State} {G : Gang} {m : Member} {v : Saved} {p : Place} {H : Hart}
    (h : s.Returned G m v p H) (r : Reg) :
    H.getF r = s.imgW (s.imageBase v) (s.imageKey v.die) (0x140 + 8 * r.toNat) := by
  simp [Hart.getF, h.f]

theorem State.Returned.of_face {s : State} {G : Gang} {m : Member} {v : Saved} {p : Place} {H K : Hart}
    (h : s.Returned G m v p H) (e : K.face = H.face) : s.Returned G m v p K := by
  simp only [Hart.face, Prod.mk.injEq] at e
  obtain ⟨hr, hg, hb, hpc, hs, hx, hf, -⟩ := e
  exact ⟨hr.trans h.run, hg.trans h.gang, hb.trans h.banks, hpc.trans h.pc, hs.trans h.sup, hx.trans h.x, hf.trans h.f⟩

/-- The lowest bit of a word of an image is whether its value is odd. -/
theorem imgW_odd (s : State) (base key off : Nat) :
    (s.imgW base key off).getLsbD 0 = decide (s.img base key off 8 % 2 = 1) := by
  rw [State.imgW, BitVec.getLsbD_ofNat, Nat.testBit_zero, decide_eq_true (by decide : 0 < 64), Bool.true_and]

/-- The chosen gang of one hart goes on with the registers of its image. -/
theorem resumeGang_resumes {s : State} {die : Fin 4} {q : Nat} {Q : Queue} {g : Nat} {rest : List QEntry} {G : Gang}
    {m : Member} {v : Saved} {p : Place} (hc : s.chosen die = some (q, Q)) (hQ : Q.entries = .resume g :: rest)
    (hg : s.gang? g = some G) (hm : G.members = [m]) (hv : m.saved = some v) (hd : m.done = false)
    (hp : s.placesOk G.needs [p] = true) (ha : s.admits die (G.needs.map (fun n => n.die)) Q.prio = true)
    (hr : ∀ e ∈ rest, e.key ≠ (true, g)) :
    ∃ u, exec (.resumeGang die [p]) s = .next u ∧ (u.queue die q).entries = rest ∧
      (u.gang? g).map (fun K => (K.running, K.members)) =
        some (true, [{ m with ctx := hartAt p.tile p.ctx, saved := none }]) ∧
      s.Returned G m v p (u.hart (hartAt p.tile p.ctx)) := by
  refine ⟨_, exec_resumeGang hc hQ hg hp ha, ?_, ?_, ?_⟩
  · rw [resumePlaced_queue s die (chosen_lt hc hQ), ← chosen_queue hc, hQ, left_resume_head g hr]
  · obtain ⟨K, hK⟩ := resumePlaced_back (s := s) (by rw [hg]; rfl) die q G [p]
    rw [hK]
    simp [Gang.back, hm]
  · obtain ⟨H, hH, e⟩ := resumePlaced_hart s die q g p hm hv hd
    exact hH.of_face e

/-! ### Pre-emption (R373) -/

/-- One victim is saved, and the candidate is placed. -/
theorem exec_preemption {s : State} {die : Fin 4} {q : Nat} {Q : Queue} {e : QEntry} {rest : List QEntry} {G : Gang}
    (hc : s.chosen die = some (q, Q)) (hQ : Q.entries = e :: rest) (h0 : (s.die die).preempt ≠ 0)
    (hl : (s.die die).preempt ≤ Q.readyFor) (hn : s.canPlace (s.needs e) = false)
    (ha : s.admits die ((s.needs e).map (fun n => n.die)) Q.prio = true)
    (hv : s.gangs.filter (s.victim ((s.needs e).map (fun n => n.die)) Q.prio) = [G]) (hs : s.slotsFor G = true)
    (hp : (s.saveGang G).canPlace (s.needs e) = true) (ho : (s.saveGang G).placesOk (s.needs e) s.spots = true) :
    exec (.preemption die) s = .next ((s.saveGang G).placeEntry die q e s.spots) := by
  have hstop : ¬ ((s.die die).preempt = 0 ∨ Q.readyFor < (s.die die).preempt ∨ s.canPlace (s.needs e) = true ∨
      s.admits die ((s.needs e).map (fun n => n.die)) Q.prio = false) := by
    simp [h0, hl, hn, ha]
  have hgive : s.preempt (s.needs e) [G] = some (s.saveGang G) := by simp [State.preempt, hs, hp]
  show execPreemption die s = _
  simp only [execPreemption, hc, hQ, if_neg hstop, hv, List.foldl_cons, List.foldl_nil, insertVictim, hgive, ho, if_true]

/-- A gang that a candidate waits for exists: a candidate without needs can always be placed. -/
theorem gang?_isSome_of_needs {s : State} {g : Nat} (h : s.canPlace (s.needs (.resume g)) = false) :
    (s.gang? g).isSome := by
  cases e : s.gang? g with
  | some G => rfl
  | none => simp [State.needs, e, State.canPlace] at h

/-- A candidate is placed beside a gang that has been saved: the gang stays stopped and queued, and the candidate
runs. -/
theorem placeEntry_beside {s : State} {G : Gang} (hG : (s.gang? G.id).isSome) {e : QEntry} (hk : e.key ≠ (true, G.id))
    (he : ∀ g, e = .resume g → (s.gang? g).isSome) {c : Fin 4} {k : Nat}
    (hq : .resume G.id ∈ (s.queue c k).entries) (hs : ∀ K, s.gang? G.id = some K → K.running = false) (die : Fin 4)
    (q : Nat) (ps : List Place) :
    (∀ K, (s.placeEntry die q e ps).gang? G.id = some K → K.running = false) ∧
      .resume G.id ∈ ((s.placeEntry die q e ps).queue c k).entries ∧
      (∀ l, e = .record l → ∃ K ∈ (s.placeEntry die q e ps).gangs, K.running = true ∧ K.launch = l ∧ K.inst = l.next) ∧
      ∀ g, e = .resume g → ((s.placeEntry die q e ps).gang? g).map (fun K => K.running) = some true := by
  cases e with
  | record l =>
    refine ⟨fun K hK => hs K ?_, mem_placeRecord (l := l) (x := .resume G.id) hk.symm hq die q ps, ?_, fun g h => nomatch h⟩
    · rwa [← gang?_append (placeRecord_gangs s die q l ps) hG]
    · rintro _ ⟨⟩
      refine ⟨s.newGang die l ps, ?_, rfl, rfl, rfl⟩
      exact (placeRecord_gangs s die q l ps).symm ▸ List.mem_append_right _ (List.mem_singleton_self _)
  | resume g =>
    obtain ⟨L, hL⟩ := Option.isSome_iff_exists.mp (he g rfl)
    have hu : s.placeEntry die q (.resume g) ps = s.resumePlaced die q g L ps := by simp only [State.placeEntry, hL]
    have hne : G.id ≠ g := fun h => hk (congrArg (fun i => (true, i)) h.symm)
    rw [hu]
    refine ⟨fun K hK => ?_, mem_resumePlaced (g := g) (x := .resume G.id) hk.symm hq die q L ps, (fun l h => nomatch h), ?_⟩
    · have := resumePlaced_running (s := s) hne die q L ps
      obtain ⟨M, hM⟩ := Option.isSome_iff_exists.mp hG
      rw [hK, hM] at this
      exact (Option.some.inj this).trans (hs M hM)
    · rintro _ ⟨⟩
      obtain ⟨K, hK⟩ := resumePlaced_back (he g rfl) die q L ps
      rw [hK]
      rfl

/-- A candidate that has waited long enough takes the place of its one victim. -/
theorem preemption_replaces {s : State} {die : Fin 4} {q : Nat} {Q : Queue} {e : QEntry} {rest : List QEntry} {G : Gang}
    (hc : s.chosen die = some (q, Q)) (hQ : Q.entries = e :: rest) (h0 : (s.die die).preempt ≠ 0)
    (hl : (s.die die).preempt ≤ Q.readyFor) (hn : s.canPlace (s.needs e) = false)
    (ha : s.admits die ((s.needs e).map (fun n => n.die)) Q.prio = true)
    (hv : s.gangs.filter (s.victim ((s.needs e).map (fun n => n.die)) Q.prio) = [G]) (hs : s.slotsFor G = true)
    (hq : G.launch.queue < 32) (hk : e.key ≠ (true, G.id))
    (hp : (s.saveGang G).canPlace (s.needs e) = true) (ho : (s.saveGang G).placesOk (s.needs e) s.spots = true) :
    ∃ u, exec (.preemption die) s = .next u ∧ (∀ K, u.gang? G.id = some K → K.running = false) ∧
      .resume G.id ∈ (u.queue G.home G.launch.queue).entries ∧
      (∀ l, e = .record l → ∃ K ∈ u.gangs, K.running = true ∧ K.launch = l ∧ K.inst = l.next) ∧
      ∀ g, e = .resume g → (u.gang? g).map (fun K => K.running) = some true := by
  have hG : G ∈ s.gangs := (List.mem_filter.mp (hv ▸ List.mem_singleton_self G)).1
  refine ⟨_, exec_preemption hc hQ h0 hl hn ha hv hs hp ho, placeEntry_beside ?_ hk ?_ (saveGang_queued s hq)
    (fun K => saveGang_running) die q s.spots⟩
  · rw [saveGang_isSome]
    exact gang?_isSome_of_mem hG
  · rintro g rfl
    rw [saveGang_isSome]
    exact gang?_isSome_of_needs hn

end Sys2Proof.Machine

namespace Sys2Proof.Machine

/-! ### Items of a list taken in the order of their sender -/

theorem listDel_eq {α : Type} (l : List α) (i : Nat) : listDel l i = l.eraseIdx i :=
  (List.eraseIdx_eq_take_drop_succ l i).symm

theorem any_take_eq_false {α : Type} {l : List α} {k : Nat} {p : α → Bool} (h : ∀ j < k, ∀ u, l[j]? = some u → p u = false) :
    (l.take k).any p = false := by
  rw [List.any_eq_false]
  intro u hu
  obtain ⟨j, hj⟩ := List.mem_iff_getElem?.mp hu
  rw [List.getElem?_take] at hj
  split at hj
  · rename_i hk
    simp [h j hk u hj]
  · cases hj

theorem any_take_eq_true {α : Type} {l : List α} {j k : Nat} {p : α → Bool} (hj : j < k) {u : α} (hu : l[j]? = some u)
    (hp : p u = true) : (l.take k).any p = true := by
  refine List.any_eq_true.mpr ⟨u, List.mem_of_getElem? (i := j) ?_, hp⟩
  rw [List.getElem?_take, if_pos hj, hu]

/-! ### Tokens (R377) -/

theorem tokens_setTokens_same (H : Hart) {ch : Nat} (h : ch < 16) (n : Nat) : (H.setTokens ch n).tokens ch = n := by
  simp [Hart.tokens, Hart.setTokens, h]

theorem tokens_setTokens_ne (H : Hart) {ch c : Nat} (h : c ≠ ch) (n : Nat) : (H.setTokens ch n).tokens c = H.tokens c := by
  simp [Hart.tokens, Hart.setTokens, Ne.symm h]

theorem tokenFirst_of {s : State} {k : Nat} {t : Token} (h : ∀ j < k, ∀ u, s.tokens[j]? = some u →
    ¬ (u.gang = t.gang ∧ u.src = t.src ∧ u.dst = t.dst ∧ u.ch = t.ch)) : s.tokenFirst k t = true := by
  unfold State.tokenFirst
  rw [any_take_eq_false (fun j hj u hu => ?_)]
  · rfl
  · have := h j hj u hu
    simpa [Bool.eq_false_iff, and_assoc] using this

theorem not_tokenFirst_of {s : State} {j k : Nat} {t u : Token} (hj : j < k) (hu : s.tokens[j]? = some u)
    (hg : u.gang = t.gang) (hs : u.src = t.src) (hd : u.dst = t.dst) (hc : u.ch = t.ch) : s.tokenFirst k t = false := by
  unfold State.tokenFirst
  rw [any_take_eq_true hj hu (by simp [hg, hs, hd, hc])]
  rfl

/-- The member that an item is for. -/
theorem member_of {s : State} {g r : Nat} {G : Gang} {m : Member} (hG : s.gang? g = some G) (hm : G.member? r = some m) :
    (s.gang? g).bind (fun G => G.member? r) = some m := by
  rw [hG]
  exact hm

/-- A hart with one more token of a channel. -/
def Hart.takeToken (H : Hart) (t : Token) : Hart :=
  { H.setTokens t.ch (H.tokens t.ch + 1) with tokRel := H.tokRel ++ [(t.ch, t.sent)] }

theorem exec_tokenDelivery {s : State} {k : Nat} {t : Token} {G : Gang} {m : Member} (ht : s.tokens[k]? = some t)
    (hc : t.ch < 15) (hG : s.gang? t.gang = some G) (hm : G.member? t.dst = some m) (hs : m.saved = none)
    (hf : s.tokenFirst k t = true) (hn : (s.hart m.ctx).tokens t.ch < 0xFFFFFFFF) :
    exec (.tokenDelivery k) s = .next ((s.dropToken k).updHart m.ctx (fun H => H.takeToken t)) := by
  have hch : t.ch ≠ 15 := by omega
  have hmax : s.memberTokens m t.ch ≠ tokenMax := by
    simp only [State.memberTokens, hs, tokenMax]
    omega
  show execTokenDelivery k s = _
  simp only [execTokenDelivery, ht, member_of hG hm, hs, hf, decide_eq_false hch, decide_eq_false hmax,
    Bool.false_and, Bool.not_true, Bool.or_self, if_false, Bool.false_eq_true]
  rfl

theorem tokenDelivery_first {s : State} {k : Nat} {t : Token} {G : Gang} {m : Member} (ht : s.tokens[k]? = some t)
    (hc : t.ch < 15) (hG : s.gang? t.gang = some G) (hm : G.member? t.dst = some m) (hs : m.saved = none)
    (hf : s.tokenFirst k t = true) (hn : (s.hart m.ctx).tokens t.ch < 0xFFFFFFFF) :
    ∃ u, exec (.tokenDelivery k) s = .next u ∧ u.tokens = s.tokens.eraseIdx k ∧ u.gangs = s.gangs ∧
      (u.hart m.ctx).tokens t.ch = (s.hart m.ctx).tokens t.ch + 1 ∧
      (∀ c, c ≠ t.ch → (u.hart m.ctx).tokens c = (s.hart m.ctx).tokens c) ∧ ∀ h, h ≠ m.ctx → u.hart h = s.hart h := by
  refine ⟨_, exec_tokenDelivery ht hc hG hm hs hf hn, listDel_eq _ _, rfl, ?_, fun c h => ?_, fun h hh => ?_⟩
  · rw [hart_updHart_same]
    exact tokens_setTokens_same _ (by omega) _
  · rw [hart_updHart_same]
    exact tokens_setTokens_ne _ h _
  · exact hart_updHart_ne _ _ _ _ hh

theorem tokenDelivery_waits {s : State} {k : Nat} {t : Token} {G : Gang} {m : Member} (ht : s.tokens[k]? = some t)
    (hG : s.gang? t.gang = some G) (hm : G.member? t.dst = some m) (hf : s.tokenFirst k t = false) :
    exec (.tokenDelivery k) s = .next s := by
  show execTokenDelivery k s = _
  simp only [execTokenDelivery, ht, member_of hG hm, hf, Bool.not_false, Bool.or_true, Bool.true_or, if_true]

/-! ### Termination (R378, R401) -/

/-- A member of a gang that terminates, one after another: the hart leaves its wait with 0. -/
def State.endWait (s : State) (m : Member) : State := s.updHart m.ctx (fun H =>
  match H.endReg with
  | some d => if m.done then H else H.finishWait d 0
  | none => H)

theorem exec_gangTermination {s : State} {g : Nat} {G : Gang} (hG : s.gang? g = some G) :
    exec (.gangTermination g) s = .next (if s.terminates G then G.members.foldl State.endWait s else s) := by
  show execGangTermination g s = _
  simp only [execGangTermination, hG]
  rfl

theorem endReg_finishWait (H : Hart) (d : Reg) (w : Word) : (H.finishWait d w).endReg = none := by
  simp [Hart.endReg, Hart.finishWait]

theorem endWait_hart (s : State) (m : Member) (h : HartId) :
    (s.endWait m).hart h = if m.ctx = h ∧ m.done = false then
      ((s.hart h).endReg.map (fun d => (s.hart h).finishWait d 0)).getD (s.hart h) else s.hart h := by
  unfold State.endWait
  by_cases e : m.ctx = h
  · subst e
    rw [hart_updHart_same]
    cases (s.hart m.ctx).endReg with
    | none => simp
    | some d => cases m.done <;> simp
  · rw [hart_updHart_ne _ _ _ _ (Ne.symm e), if_neg (fun x => e x.1)]

/-- A hart in no wait that ends stays as it is. -/
theorem endWaits_keep {h : HartId} (ms : List Member) {s : State} (he : (s.hart h).endReg = none) :
    (ms.foldl State.endWait s).hart h = s.hart h := by
  induction ms generalizing s with
  | nil => rfl
  | cons m t ih =>
    have hk : (s.endWait m).hart h = s.hart h := by simp [endWait_hart, he]
    rw [List.foldl_cons, ih (by rw [hk, he]), hk]

/-- A hart of a member that is not done leaves its wait once. -/
theorem endWaits_end {h : HartId} {d : Reg} {ms : List Member} {s : State} (he : (s.hart h).endReg = some d)
    (hm : ∃ m ∈ ms, m.ctx = h ∧ m.done = false) : (ms.foldl State.endWait s).hart h = (s.hart h).finishWait d 0 := by
  induction ms generalizing s with
  | nil => simp at hm
  | cons m t ih =>
    rw [List.foldl_cons]
    by_cases hx : m.ctx = h ∧ m.done = false
    · have hk : (s.endWait m).hart h = (s.hart h).finishWait d 0 := by simp [endWait_hart, hx, he]
      rw [endWaits_keep t (by rw [hk, endReg_finishWait]), hk]
    · have hk : (s.endWait m).hart h = s.hart h := by rw [endWait_hart, if_neg hx]
      obtain ⟨n, hn, hy⟩ := hm
      obtain rfl | hn := List.mem_cons.mp hn
      · exact absurd hy hx
      · rw [ih (by rw [hk, he]) ⟨n, hn, hy⟩, hk]

theorem endWaits_mem_gangs (ms : List Member) (s : State) : (ms.foldl State.endWait s).mem = s.mem ∧
    (ms.foldl State.endWait s).gangs = s.gangs :=
  ⟨foldl_keeps (p := State.mem) (f := State.endWait) (fun _ _ => rfl) ms s,
    foldl_keeps (p := State.gangs) (f := State.endWait) (fun _ _ => rfl) ms s⟩

/-- A wait for a token, or for a capsule where none has come. -/
theorem endReg_of {H : Hart} {d : Reg} (hr : H.run = .waiting)
    (hw : H.wait = .tok d ∨ (H.wait = .cap d ∧ H.cap.ring = [] ∧ H.cap.parked = [])) : H.endReg = some d := by
  obtain h | ⟨h, hc, hp⟩ := hw
  · simp [Hart.endReg, hr, h]
  · simp [Hart.endReg, hr, h, hc, hp]

theorem getX_finishWait_same (H : Hart) (d : Reg) : (H.finishWait d 0).getX d = 0 := by
  show (H.setX d 0).getX d = 0
  by_cases h : d = 0
  · subst h; rfl
  · exact getX_setX_same H d 0 h

theorem getX_finishWait_ne (H : Hart) {d r : Reg} (h : r ≠ d) (w : Word) : (H.finishWait d w).getX r = H.getX r :=
  getX_setX_ne H d r w h

theorem terminates_of {s : State} {G : Gang} (hf : G.fc = 0) (hr : G.running = true)
    (hm : ∀ m ∈ G.members, m.done = true ∨ ∃ d, (s.hart m.ctx).endReg = some d) : s.terminates G = true := by
  simp only [State.terminates, hf, hr, beq_self_eq_true, Bool.and_self, Bool.true_and, List.all_eq_true, Bool.or_eq_true]
  intro m hx
  obtain h | ⟨d, h⟩ := hm m hx
  · exact .inl h
  · exact .inr (by rw [h]; rfl)

/-- A gang that terminates: its waits answer 0. -/
theorem gangTermination_ends {s : State} {g : Nat} {G : Gang} (hG : s.gang? g = some G) (hf : G.fc = 0)
    (hr : G.running = true) (hm : ∀ m ∈ G.members, m.done = true ∨ ∃ d, (s.hart m.ctx).endReg = some d) :
    ∃ u, exec (.gangTermination g) s = .next u ∧ u.mem = s.mem ∧ u.gangs = s.gangs ∧
      ∀ m ∈ G.members, m.done = false → ∀ d, (s.hart m.ctx).endReg = some d →
        u.hart m.ctx = (s.hart m.ctx).finishWait d 0 := by
  refine ⟨_, exec_gangTermination hG, ?_⟩
  rw [if_pos (terminates_of hf hr hm)]
  obtain ⟨hmem, hgangs⟩ := endWaits_mem_gangs G.members s
  exact ⟨hmem, hgangs, fun m hx hd d he => endWaits_end he ⟨m, hx, rfl, hd⟩⟩

theorem gangTermination_waits {s : State} {g : Nat} {G : Gang} (hG : s.gang? g = some G) (hf : G.fc ≠ 0) :
    exec (.gangTermination g) s = .next s := by
  rw [exec_gangTermination hG, if_neg]
  simp [State.terminates, hf]

/-! ### Capsules (R397, R399) -/

section
variable {s : State} {g r : Nat} {G : Gang} {m : Member}
  (hG : s.gang? g = some G) (hm : G.member? r = some m) (hs : m.saved = none)
include hG hm hs

theorem capOf_eq : s.capOf g r = (s.hart m.ctx).cap := by
  simp only [State.capOf, member_of hG hm, State.memberCap, hs]

theorem updCap_eq (f : CapSide → CapSide) : s.updCap g r f = s.updHart m.ctx (fun H => { H with cap := f H.cap }) := by
  simp only [State.updCap, member_of hG hm, hs]

end

/-- A capsule on its way comes off the network. -/
def State.dropCapsule (s : State) (k : Nat) : State := { s with capsules := s.capsules.eraseIdx k }

theorem exec_capsuleArrival {s : State} {k : Nat} {t : Transit} (ht : s.capsules[k]? = some t)
    (hf : ∀ j < k, ∀ u, s.capsules[j]? = some u → ¬ (u.cap.gang = t.cap.gang ∧ u.src = t.src ∧ u.dst = t.dst))
    (hl : (s.capOf t.cap.gang t.dst).land = true) :
    exec (.capsuleArrival k) s = .next ((s.dropCapsule k).landCapsule t.dst t.cap) := by
  have hfirst : (s.capsules.take k).any (fun u => u.cap.gang == t.cap.gang && u.src == t.src && u.dst == t.dst) =
      false := any_take_eq_false fun j hj u hu => by
    have := hf j hj u hu
    simpa [Bool.eq_false_iff, and_assoc] using this
  have hland : ((s.dropCapsule k).capOf t.cap.gang t.dst).land = true := hl
  show execCapsuleArrival k s = _
  simp only [execCapsuleArrival, ht, hfirst, Bool.false_eq_true, if_false, listDel_eq]
  exact congrArg _ (if_pos hland)

theorem fits_iff (p : CapSide) (c : Capsule) : p.fits c = true ↔
    p.hold = false ∧ (p.ring.map Capsule.room).sum + (64 + roundup c.payload.length 64) ≤ 65536 := by
  rw [CapSide.fits, Bool.and_eq_true, Bool.not_eq_true', decide_eq_true_iff]
  rfl

theorem gangRuns_of {s : State} {g : Nat} {G : Gang} (hG : s.gang? g = some G) (hr : G.running = true) :
    s.gangRuns g = true := by
  simp [State.gangRuns, hG, hr]

section
variable {s : State} {r : Nat} {c : Capsule} {G : Gang} {m : Member} (hG : s.gang? c.gang = some G)
  (hm : G.member? r = some m) (hs : m.saved = none)
include hG hm hs

theorem landCapsule_enters (hr : G.running = true) (hp : (s.hart m.ctx).cap.parked = [])
    (hf : (s.hart m.ctx).cap.fits c = true) :
    s.landCapsule r c = s.updHart m.ctx (fun H => { H with cap := { H.cap with ring := H.cap.ring ++ [c] } }) := by
  simp only [State.landCapsule, capOf_eq hG hm hs, hp, hf, gangRuns_of hG hr, List.isEmpty_nil, Bool.and_self, if_true,
    updCap_eq hG hm hs]

theorem landCapsule_parks (h : (s.hart m.ctx).cap.parked ≠ [] ∨ (s.hart m.ctx).cap.fits c = false) :
    s.landCapsule r c = (s.writeSlot c).updHart m.ctx (fun H =>
      { H with cap := { H.cap with parked := H.cap.parked ++ [c] } }) := by
  have hw := writeSlot_rewritten s c
  have hG' : (s.writeSlot c).gang? c.gang = some G := (gang?_of_gangs hw.gangs c.gang).trans hG
  have hno : ((s.hart m.ctx).cap.parked.isEmpty && (s.hart m.ctx).cap.fits c && s.gangRuns c.gang) = false := by
    obtain h | h := h
    · simp [h]
    · simp [h]
  simp only [State.landCapsule, capOf_eq hG hm hs, hno, Bool.false_eq_true, if_false, updCap_eq hG' hm hs]

end

section
variable {s : State} {k : Nat} {t : Transit} {G : Gang} {m : Member} (ht : s.capsules[k]? = some t)
  (hG : s.gang? t.cap.gang = some G) (hm : G.member? t.dst = some m) (hs : m.saved = none)
  (hf : ∀ j < k, ∀ u, s.capsules[j]? = some u → ¬ (u.cap.gang = t.cap.gang ∧ u.src = t.src ∧ u.dst = t.dst))
  (hl : (s.hart m.ctx).cap.land = true)
include ht hG hm hs hf hl

theorem capsuleArrival_enters (hp : (s.hart m.ctx).cap.parked = [])
    (hr : G.running = true) (hfit : (s.hart m.ctx).cap.fits t.cap = true) :
    ∃ u, exec (.capsuleArrival k) s = .next u ∧ u.capsules = s.capsules.eraseIdx k ∧ u.mem = s.mem ∧
      (u.hart m.ctx).cap = { (s.hart m.ctx).cap with ring := (s.hart m.ctx).cap.ring ++ [t.cap] } := by
  have hGd : (s.dropCapsule k).gang? t.cap.gang = some G := hG
  refine ⟨_, exec_capsuleArrival ht hf (by rwa [capOf_eq hG hm hs]), ?_⟩
  rw [landCapsule_enters hGd hm hs hr hp hfit]
  exact ⟨rfl, rfl, by rw [hart_updHart_same]; rfl⟩

theorem capsuleArrival_parks (h : (s.hart m.ctx).cap.parked ≠ [] ∨ (s.hart m.ctx).cap.fits t.cap = false) :
    ∃ u, exec (.capsuleArrival k) s = .next u ∧ u.capsules = s.capsules.eraseIdx k ∧
      (u.hart m.ctx).cap = { (s.hart m.ctx).cap with parked := (s.hart m.ctx).cap.parked ++ [t.cap] } := by
  have hGd : (s.dropCapsule k).gang? t.cap.gang = some G := hG
  have hw := writeSlot_rewritten (s.dropCapsule k) t.cap
  refine ⟨_, exec_capsuleArrival ht hf (by rwa [capOf_eq hG hm hs]), ?_⟩
  rw [landCapsule_parks hGd hm hs h]
  refine ⟨(updHart_capsules _ _ _).trans hw.capsules, ?_⟩
  rw [hart_updHart_same, hart_of_harts hw.harts]
  rfl

end

/-- A hart whose image is given at its own value. -/
theorem updHart_congr {s : State} {h : HartId} {f g : Hart → Hart} (e : f (s.hart h) = g (s.hart h)) :
    s.updHart h f = s.updHart h g := by
  simp only [State.updHart, e]

theorem parkedCapsuleEnter_enters {s : State} {h : HartId} {c : Capsule} {rest : List Capsule}
    (hp : (s.hart h).cap.parked = c :: rest) (hl : (s.hart h).cap.land = true) (hf : (s.hart h).cap.fits c = true) :
    exec (.parkedCapsuleEnter h) s = .next (s.updHart h (fun H => { H with cap :=
      { H.cap with ring := (s.hart h).cap.ring ++ [c], parked := rest } })) := by
  show execParkedCapsuleEnter h s = _
  simp only [execParkedCapsuleEnter, hp, hl, hf, Bool.and_self, if_true]
  exact congrArg _ (updHart_congr rfl)

/-! ### Crossings (R150) -/

theorem crossingGroupArrival_enters {s : State} {h : HartId} {port : BitVec 2} {p : Port} {it : Item} {rest : List Item}
    (hp : (s.hart h).ports[port.toNat]? = some p) (hf : p.flight = it :: rest) :
    exec (.crossingGroupArrival h port) s = .next (s.updHart h (fun H => { H with
      ports := H.ports.set port.toNat { p with items := p.items ++ [it], flight := rest } port.isLt })) := by
  have he : (s.hart h).ports[port.toNat]'port.isLt = p := by
    rw [Vector.getElem?_eq_getElem port.isLt] at hp
    exact Option.some.inj hp
  show execCrossingGroupArrival h port s = _
  unfold execCrossingGroupArrival
  refine congrArg _ (updHart_congr ?_)
  simp only [he, hf]

end Sys2Proof.Machine

namespace Sys2Proof.Machine

/-! ### The loader (R64, R65, R71) -/

/-- The reasons of a refusal are numbered from 1 to 7. -/
theorem checkObject_reason {job : LoadJob} {r : Nat} (h : checkObject job = .error r) : 1 ≤ r ∧ r ≤ 7 := by
  unfold checkObject at h
  dsimp only at h
  split at h
  · cases h; decide
  · split at h
    · cases h; decide
    · split at h
      · cases h; decide
      · split at h
        · cases h; decide
        · split at h
          · cases h; decide
          · split at h
            · cases h; decide
            · split at h
              · cases h; decide
              · split at h <;> cases h
                decide

theorem checkObject_of_magic {job : LoadJob} (h : job.object.take 4 ≠ [0x41, 0x4C, 0x46, 0x01]) :
    checkObject job = .error 1 := if_pos (.inl h)

theorem loadObject_refused {s : State} {job : LoadJob} {r : Nat} (hl : s.mgmt.level ≠ 0)
    (h : checkObject job = .error r) : exec (.loadObject job) s = .next { s with loadReport := r } := by
  show execLoadObject job s = _
  simp only [execLoadObject, if_neg hl, h]

/-- What is recorded of an object of one section. -/
def loadedOf (job : LoadJob) (e : AlfSection) (base : Nat) (bs : List Byte) : Loaded where
  object := job.object
  asid := job.asid
  vlbytes := job.vlbytes
  sections := [(e.kind, base, if e.placed then e.size else 0)]
  rings := ringsOf job.object [(e, base, bs)]

theorem alignedOk_single {e : AlfSection} {base : Nat} (bs : List Byte) (ha : base % 2 ^ e.align = 0) (hk : e.kind ≠ 9) :
    alignedOk [(e, base, bs)] = true := by
  simp [alignedOk, ha, hk]

section
variable {s : State} {job : LoadJob} {e : AlfSection} {base : Nat} {bs : List Byte} (hl : s.mgmt.level ≠ 0)
  (hc : checkObject job = .ok [(e, base, bs)]) (ha : base % 2 ^ e.align = 0) (hk : e.kind ≠ 9)
include hl hc ha hk

theorem loadObject_placed {v : State} (hp : e.placed = true) (hv : s.spacePutAll job.asid base bs = some v) :
    exec (.loadObject job) s = .next { v with loadReport := 0, loaded := loadedOf job e base bs :: v.loaded } := by
  show execLoadObject job s = _
  simp only [execLoadObject, if_neg hl, hc, alignedOk_single bs ha hk, Bool.not_true, Bool.false_eq_true, if_false,
    List.foldl_cons, List.foldl_nil, hp, if_true, Option.bind_some, hv]
  simp only [loadedOf, hp, if_true, List.map_cons, List.map_nil]

theorem loadObject_unplaced (hp : e.placed = false) :
    exec (.loadObject job) s = .next { s with loadReport := 0, loaded := loadedOf job e base bs :: s.loaded } := by
  show execLoadObject job s = _
  simp only [execLoadObject, if_neg hl, hc, alignedOk_single bs ha hk, Bool.not_true, Bool.false_eq_true, if_false,
    List.foldl_cons, List.foldl_nil, hp]
  simp only [loadedOf, hp, Bool.false_eq_true, if_false, List.map_cons, List.map_nil]

end

/-! #### Placing bytes changes memory alone -/

theorem spacePut_rewritten {s u : State} {asid : BitVec 16} {va : Nat} {b : Byte} (h : s.spacePut asid va b = some u) :
    s.Rewritten u := by
  unfold State.spacePut at h
  split at h
  · cases h
  · split at h
    · cases h
    · split at h
      · obtain rfl := Option.some.inj h
        exact putByte_rewritten s _ _ b
      · cases h

theorem spacePutAll_rewritten {s u : State} {asid : BitVec 16} {va : Nat} {bs : List Byte}
    (h : s.spacePutAll asid va bs = some u) : s.Rewritten u := by
  induction bs generalizing s va with
  | nil => exact Option.some.inj h ▸ .refl s
  | cons b t ih =>
    obtain ⟨v, hv, ht⟩ := Option.bind_eq_some_iff.mp h
    exact (spacePut_rewritten hv).trans (ih ht)

end Sys2Proof.Machine

/-! ## What the scheduler and the arrivals do (O57) -/

section
open Sys2Proof.Machine

/-- Settles O57: each clause is the theorem of its event. What a placement, a save and a resume leave alone is kept by two
projections of the state, its roster and its core, and by the face of a hart. -/
theorem arrivalAndSchedulingEvents : Obligations.ArrivalAndSchedulingEvents := by
  unfold Obligations.ArrivalAndSchedulingEvents
  refine ⟨fun s k => ⟨?tokens, ?ends, ?capsules, ?parked, ?crossings⟩,
    fun s die ps q Q => ⟨?places, ?ages, ?preempts, ?resumes⟩, fun s job hl => ⟨?magic, ?refused, ?loaded⟩⟩
  case tokens =>
    intro t G m ht hc hG hm hs
    exact ⟨fun hf hn => tokenDelivery_first ht hc hG hm hs (tokenFirst_of hf) hn,
      fun j hj u hu hg hsrc hd hch => tokenDelivery_waits ht hG hm (not_tokenFirst_of hj hu hg hsrc hd hch)⟩
  case ends =>
    intro G hG
    refine ⟨fun hf hr hm => ?_, gangTermination_waits hG⟩
    have hend : ∀ m ∈ G.members, m.done = true ∨ ∃ d, (s.hart m.ctx).endReg = some d := fun m hx =>
      (hm m hx).imp_right fun ⟨hrun, d, hw⟩ => ⟨d, endReg_of hrun hw⟩
    obtain ⟨u, hu, hmem, hgangs, hx⟩ := gangTermination_ends hG hf hr hend
    refine ⟨u, hu, hmem, hgangs, fun m hmG hd d hw => ?_⟩
    have he : (s.hart m.ctx).endReg = some d := by
      obtain h | ⟨hrun, d', hw'⟩ := hm m hmG
      · exact absurd hd (by simp [h])
      · obtain rfl : d = d' := by
          obtain hw | hw := hw <;> obtain hw' | ⟨hw', -⟩ := hw' <;> cases hw.symm.trans hw' <;> rfl
        exact endReg_of hrun hw'
    rw [hx m hmG hd d he]
    exact ⟨rfl, rfl, getX_finishWait_same _ d, fun r hr => getX_finishWait_ne _ hr 0⟩
  case capsules =>
    intro t G m ht hG hm hs hr hf p room hl
    refine ⟨fun hp hroom => capsuleArrival_enters ht hG hm hs hf hl hp hr ((fits_iff _ _).mpr hroom), fun h => ?_⟩
    refine capsuleArrival_parks ht hG hm hs hf hl (h.imp_right fun hroom => ?_)
    exact Bool.eq_false_iff.mpr fun hfit => hroom ((fits_iff _ _).mp hfit)
  case parked =>
    intro h c rest p hp hl hh hroom
    exact parkedCapsuleEnter_enters hp hl ((fits_iff _ _).mpr ⟨hh, hroom⟩)
  case crossings =>
    intro h port p it rest hp hf
    refine ⟨_, crossingGroupArrival_enters hp hf, rfl, ?_, fun j hj hne => ?_, ?_, fun g hg =>
      hart_updHart_ne _ _ _ _ hg⟩
    · rw [hart_updHart_same]
      exact Vector.getElem?_set_self port.isLt
    · rw [hart_updHart_same]
      exact Vector.getElem?_set_ne port.isLt (Ne.symm hne)
    · rw [hart_updHart_same]
  case places =>
    intro l rest hc hQ hp ha hr
    obtain ⟨u, G, hu, hg, hn, hm, hid, hl, hi, hfc, hrun, hmem, hent, hpl⟩ := placeGang_places hc hQ hp ha hr
    refine ⟨u, G, hu, hg, hn, hm, hid, hl, hi, hfc, hrun, hmem, hent, fun r p hrp => ?_⟩
    have h := hpl r p hrp
    exact ⟨h.run, h.pc, h.sup, h.gang, h.banks, h.lpart ▸ fld_lpartOf_grant _ _, h.lpart ▸ fld_lpartOf_own _ _,
      h.asid, h.sstat, rfl, fun x hx bs hb => h.getX hx hb⟩
  case ages =>
    intro k l rest W hQ hp h0 ha hc
    exact agingStep_rises hQ hp h0 ha hc
  case preempts =>
    intro e rest G hc hQ limit dies h0 hl hn ha hv hs hq hk hp ho
    exact preemption_replaces hc hQ h0 hl hn ha hv hs hq hk hp ho
  case resumes =>
    intro g rest G m v p hc hQ hg hm hv hd hp ha hr h img
    obtain ⟨u, hu, hent, hback, hx⟩ := resumeGang_resumes hc hQ hg hm hv hd hp ha hr
    exact ⟨u, hu, hent, hback, by rw [hx.run, hd]; rfl, hx.gang, hx.banks, hx.pc, hx.sup.trans (imgW_odd s _ _ 8),
      fun r hr => hx.getX hr, hx.getF⟩
  case magic =>
    exact fun h => loadObject_refused hl (checkObject_of_magic h)
  case refused =>
    exact fun r h => ⟨loadObject_refused hl h, checkObject_reason h⟩
  case loaded =>
    intro e base bs v hc ha hk
    refine ⟨fun hp hv => ?_, fun hp => ⟨_, _, loadObject_unplaced hl hc ha hk hp, rfl, rfl, rfl, rfl⟩⟩
    refine ⟨_, loadedOf job e base bs, loadObject_placed hl hc ha hk hp hv, rfl, rfl, ?_, rfl, rfl, rfl, ?_⟩
    · exact congrArg _ (spacePutAll_rewritten hv).loaded
    · simp only [loadedOf, hp, if_true]

end

namespace Sys2Proof.Machine

/-! ### The values of a format as rational numbers (R77, R78) -/

/-- The format has exponent and fraction bits, as each format of R77 has. -/
structure FFmt.Proper (F : FFmt) : Prop where
  e : 0 < F.e
  m : 0 < F.m

/-- The rational number that magnitude bits stand for. -/
def FFmt.mag (F : FFmt) (b : Nat) : ℚ :=
  ((if b < 2 ^ F.m then b else 2 ^ F.m + b % 2 ^ F.m : Nat) : ℚ) * 2 ^ (F.minExp + (b / 2 ^ F.m - 1 : Nat))

/-- A number with a sign. -/
def withSign (neg : Bool) (x : ℚ) : ℚ := if neg then -x else x

theorem rat_num (neg : Bool) (m : Nat) (e : Int) : Claim.rat (.num neg m e) = withSign neg (m * 2 ^ e) := by
  cases neg <;> simp [Claim.rat, withSign]

theorem withSign_withSign (a b : Bool) (x : ℚ) : withSign a (withSign b x) = withSign (a != b) x := by
  cases a <;> cases b <;> simp [withSign]

theorem abs_withSign (neg : Bool) {x : ℚ} (h : 0 ≤ x) : |withSign neg x| = x := by
  cases neg <;> simp [withSign, abs_of_nonneg h]

theorem withSign_injective (neg : Bool) : Function.Injective (withSign neg) := by
  intro x y h
  cases neg <;> simpa [withSign] using h

variable {F : FFmt}

/-- `n` quanta of a binade, up to the first of the next one, are the magnitude bits that stand for them. -/
theorem mag_quanta {n off : Nat} (hn : n ≤ 2 ^ (F.m + 1)) (h : off = 0 ∨ 2 ^ F.m ≤ n) :
    F.mag (n + off * 2 ^ F.m) = n * 2 ^ (F.minExp + off) := by
  have hP : 0 < 2 ^ F.m := Nat.two_pow_pos _
  have hdiv : (n + off * 2 ^ F.m) / 2 ^ F.m = n / 2 ^ F.m + off := Nat.add_mul_div_right _ _ hP
  have hmod : (n + off * 2 ^ F.m) % 2 ^ F.m = n % 2 ^ F.m := Nat.add_mul_mod_self_right _ _ _
  rw [pow_succ] at hn
  unfold FFmt.mag
  rw [hdiv, hmod]
  rcases lt_or_ge n (2 ^ F.m) with hlt | hge
  · obtain rfl : off = 0 := h.resolve_right (by omega)
    simp [hlt, Nat.div_eq_of_lt hlt]
  · have hb : ¬ n + off * 2 ^ F.m < 2 ^ F.m := by omega
    rw [if_neg hb]
    rcases hn.lt_or_eq with hn | rfl
    · have h1 : n / 2 ^ F.m = 1 := Nat.div_eq_of_lt_le (by omega) (by omega)
      have h2 : 2 ^ F.m + n % 2 ^ F.m = n := by
        have := Nat.div_add_mod n (2 ^ F.m)
        rw [h1] at this
        omega
      rw [h1, h2, Nat.add_sub_cancel_left]
    · have h1 : 2 ^ F.m * 2 / 2 ^ F.m = 2 := Nat.mul_div_cancel_left _ hP
      have h2 : 2 + off - 1 = off + 1 := by omega
      rw [h1, h2, Nat.mul_mod_right]
      push_cast
      rw [show F.minExp + ((off : Int) + 1) = (F.minExp + off) + 1 by ring, zpow_add_one₀ (by norm_num)]
      ring

/-- Magnitude bits are so many quanta of one binade. -/
theorem exists_quanta (F : FFmt) (b : Nat) : ∃ n off, n < 2 ^ (F.m + 1) ∧ (off = 0 ∨ 2 ^ F.m ≤ n) ∧
    b = n + off * 2 ^ F.m := by
  have hP : 0 < 2 ^ F.m := Nat.two_pow_pos _
  have hb := Nat.div_add_mod b (2 ^ F.m)
  have hr := Nat.mod_lt b hP
  rw [pow_succ]
  rcases Nat.eq_zero_or_pos (b / 2 ^ F.m) with h0 | hpos
  · rw [h0] at hb
    exact ⟨b, 0, by omega, .inl rfl, by omega⟩
  · obtain ⟨off, ho⟩ : ∃ off, b / 2 ^ F.m = off + 1 := ⟨_, (Nat.sub_add_cancel hpos).symm⟩
    rw [ho, Nat.mul_succ, Nat.mul_comm] at hb
    exact ⟨2 ^ F.m + b % 2 ^ F.m, off, by omega, .inr (by omega), by omega⟩

theorem mag_strictMono (F : FFmt) : StrictMono F.mag := by
  refine strictMono_nat_of_lt_succ fun b => ?_
  obtain ⟨n, off, hn, ho, rfl⟩ := exists_quanta F b
  rw [show n + off * 2 ^ F.m + 1 = (n + 1) + off * 2 ^ F.m by ring, mag_quanta hn.le ho,
    mag_quanta hn (ho.imp_right fun h => by omega)]
  push_cast
  nlinarith [zpow_pos (show (0 : ℚ) < 2 by norm_num) (F.minExp + off)]

@[simp] theorem mag_zero (F : FFmt) : F.mag 0 = 0 := by
  simp [FFmt.mag]

theorem mag_nonneg (F : FFmt) (b : Nat) : 0 ≤ F.mag b :=
  (mag_zero F).symm.le.trans ((mag_strictMono F).monotone (Nat.zero_le b))

/-! #### What magnitude bits decode to -/

theorem maxMag_lt (hF : F.Proper) : F.maxMag < 2 ^ (F.e + F.m) := by
  have hE : 2 ≤ 2 ^ F.e := Nat.le_pow hF.e
  have hM : 0 < 2 ^ F.m := Nat.two_pow_pos _
  have : 2 ≤ 2 ^ F.e * 2 ^ F.m := le_trans hE (Nat.le_mul_of_pos_right _ hM)
  unfold FFmt.maxMag
  rw [pow_add]
  cases F.sp
  · have := Nat.sub_mul (2 ^ F.e) 1 (2 ^ F.m)
    dsimp only
    omega
  · dsimp only; omega
  · dsimp only; omega

theorem signed_testBit {b : Nat} (neg : Bool) (hb : b < 2 ^ (F.e + F.m)) :
    (F.signed neg b).testBit (F.e + F.m) = neg := by
  unfold FFmt.signed
  cases neg
  · simpa using Nat.testBit_lt_two_pow hb
  · simp [Nat.testBit_two_pow_add_eq, Nat.testBit_lt_two_pow hb]

theorem signed_div {b : Nat} (neg : Bool) (hb : b < 2 ^ (F.e + F.m)) :
    F.signed neg b / 2 ^ F.m % 2 ^ F.e = b / 2 ^ F.m := by
  have hP : 0 < 2 ^ F.m := Nat.two_pow_pos _
  have hE : b / 2 ^ F.m < 2 ^ F.e := Nat.div_lt_of_lt_mul (by rwa [mul_comm, ← pow_add])
  unfold FFmt.signed
  cases neg
  · simp [Nat.mod_eq_of_lt hE]
  · rw [if_pos rfl, pow_add, Nat.add_comm, Nat.add_mul_div_right _ _ hP, Nat.add_mod_right, Nat.mod_eq_of_lt hE]

theorem signed_mod (b : Nat) (neg : Bool) : F.signed neg b % 2 ^ F.m = b % 2 ^ F.m := by
  unfold FFmt.signed
  cases neg
  · simp
  · rw [if_pos rfl, pow_add, Nat.add_comm, Nat.add_mul_mod_self_right]

/-- Magnitude bits up to the largest finite ones, with a sign, stand for a number. -/
theorem decode_signed (hF : F.Proper) {b : Nat} (neg : Bool) (hb : b ≤ F.maxMag) :
    F.decode false (F.signed neg b) =
      .num neg (if b < 2 ^ F.m then b else 2 ^ F.m + b % 2 ^ F.m) (F.minExp + (b / 2 ^ F.m - 1 : Nat)) := by
  have hlt : b < 2 ^ (F.e + F.m) := lt_of_le_of_lt hb (maxMag_lt hF)
  have hP : 0 < 2 ^ F.m := Nat.two_pow_pos _
  have hdm := Nat.div_add_mod b (2 ^ F.m)
  unfold FFmt.decode
  simp only [signed_testBit neg hlt, signed_div neg hlt, signed_mod, Bool.false_and, Bool.false_eq_true, if_false]
  have hieee : ¬ (F.sp = .ieee ∧ b / 2 ^ F.m = 2 ^ F.e - 1) := by
    rintro ⟨hs, hd⟩
    have : F.maxMag = (2 ^ F.e - 1) * 2 ^ F.m - 1 := by simp [FFmt.maxMag, hs]
    have hE : 2 ≤ 2 ^ F.e := Nat.le_pow hF.e
    have h1 : 0 < (2 ^ F.e - 1) * 2 ^ F.m := Nat.mul_pos (by omega) hP
    rw [hd, Nat.mul_comm] at hdm
    omega
  have hnan : ¬ (F.sp = .nanOnly ∧ b / 2 ^ F.m = 2 ^ F.e - 1 ∧ b % 2 ^ F.m = 2 ^ F.m - 1) := by
    rintro ⟨hs, hd, hm⟩
    have : F.maxMag = 2 ^ (F.e + F.m) - 2 := by simp [FFmt.maxMag, hs]
    have h1 : 2 ^ F.m * (2 ^ F.e - 1) = 2 ^ (F.e + F.m) - 2 ^ F.m := by
      rw [Nat.mul_sub, pow_add, mul_comm (2 ^ F.e)]; simp
    rw [hd, hm, h1] at hdm
    have h2 : 2 ^ F.m ≤ 2 ^ (F.e + F.m) := Nat.pow_le_pow_right (by norm_num) (by omega)
    have h3 : 2 ≤ 2 ^ F.m := Nat.le_pow hF.m
    omega
  rw [if_neg hieee, if_neg hnan]
  rcases lt_or_ge b (2 ^ F.m) with h | h
  · simp [Nat.div_eq_of_lt h, h, Nat.mod_eq_of_lt h]
  · have h1 : b / 2 ^ F.m ≠ 0 := by
      have := Nat.div_pos h hP
      omega
    rw [if_neg h1, if_neg (by omega)]

theorem rat_decode_signed (hF : F.Proper) {b : Nat} (neg : Bool) (hb : b ≤ F.maxMag) :
    Claim.rat (F.decode false (F.signed neg b)) = withSign neg (F.mag b) := by
  rw [decode_signed hF neg hb, rat_num, FFmt.mag]

theorem finite_decode_signed (hF : F.Proper) {b : Nat} (neg : Bool) (hb : b ≤ F.maxMag) :
    Claim.finite (F.decode false (F.signed neg b)) := by
  rw [decode_signed hF neg hb]
  trivial

/-- Encodings are magnitude bits with a sign. -/
theorem exists_signed {v : Nat} (hv : v < 2 ^ F.bits) : ∃ neg b, b < 2 ^ (F.e + F.m) ∧ v = F.signed neg b := by
  have h2 : 2 ^ F.bits = 2 * 2 ^ (F.e + F.m) := by rw [FFmt.bits, add_assoc, pow_add, pow_one]
  rcases lt_or_ge v (2 ^ (F.e + F.m)) with h | h
  · exact ⟨false, v, h, by simp [FFmt.signed]⟩
  · exact ⟨true, v - 2 ^ (F.e + F.m), by omega, by simp [FFmt.signed]; omega⟩

/-- Only magnitude bits up to the largest finite ones stand for numbers. -/
theorem le_maxMag_of_finite {b : Nat} {neg ftz : Bool} (hb : b < 2 ^ (F.e + F.m))
    (h : Claim.finite (F.decode ftz (F.signed neg b))) : b ≤ F.maxMag := by
  have hP : 0 < 2 ^ F.m := Nat.two_pow_pos _
  have hdm := Nat.div_add_mod b (2 ^ F.m)
  by_contra hlt
  have hE : b / 2 ^ F.m < 2 ^ F.e := Nat.div_lt_of_lt_mul (by rwa [mul_comm, ← pow_add])
  unfold FFmt.decode at h
  simp only [signed_testBit neg hb, signed_div neg hb, signed_mod] at h
  have hpow : 2 ^ (F.e + F.m) = 2 ^ F.e * 2 ^ F.m := pow_add _ _ _
  cases hs : F.sp
  · have hd : b / 2 ^ F.m = 2 ^ F.e - 1 := by
      have h1 : (2 ^ F.e - 1) * 2 ^ F.m ≤ b := by
        simp only [FFmt.maxMag, hs] at hlt
        omega
      have := (Nat.le_div_iff_mul_le hP).2 h1
      omega
    rw [if_pos ⟨hs, hd⟩] at h
    split at h <;> exact h
  · have hbv : b = 2 ^ (F.e + F.m) - 1 := by
      simp only [FFmt.maxMag, hs] at hlt
      omega
    have hd : b / 2 ^ F.m = 2 ^ F.e - 1 := by
      have h1 : (2 ^ F.e - 1) * 2 ^ F.m ≤ b := by
        rw [hbv, hpow, Nat.sub_mul]
        omega
      have := (Nat.le_div_iff_mul_le hP).2 h1
      omega
    have hm : b % 2 ^ F.m = 2 ^ F.m - 1 := by
      rw [hd, Nat.mul_sub, Nat.mul_comm, ← hpow] at hdm
      have h2 : 2 ^ F.m ≤ 2 ^ (F.e + F.m) := Nat.pow_le_pow_right (by norm_num) (by omega)
      omega
    rw [if_neg (by simp [hs]), if_pos ⟨hs, hd, hm⟩] at h
    exact h
  · simp only [FFmt.maxMag, hs] at hlt
    omega

/-- An encoding that stands for a number is magnitude bits up to the largest finite ones, with a sign. -/
theorem exists_signed_of_finite {v : Nat} (hv : v < 2 ^ F.bits)
    (h : Claim.finite (F.decode false v)) : ∃ neg b, b ≤ F.maxMag ∧ v = F.signed neg b := by
  obtain ⟨neg, b, hb, rfl⟩ := exists_signed hv
  exact ⟨neg, b, le_maxMag_of_finite hb h, rfl⟩

end Sys2Proof.Machine

namespace Sys2Proof.Machine

/-! ### Rounding to quanta (R84) -/

/-- A mode takes a magnitude `n + t` quanta with `0 < t < 1` to `n + 1` (R84). -/
def RMode.goesUp (r : RMode) (neg : Bool) (n : Nat) (t : ℚ) : Prop :=
  match r with
  | .rne => 1 / 2 < t ∨ t = 1 / 2 ∧ n % 2 = 1
  | .rtz => False
  | .rdn => neg = true
  | .rup => neg = false
  | .rmm => 1 / 2 ≤ t

theorem RMode.goesUp_congr (r : RMode) (neg : Bool) {n k : Nat} (t : ℚ) (h : n % 2 = k % 2) :
    r.goesUp neg n t ↔ r.goesUp neg k t := by
  cases r <;> simp [RMode.goesUp, h]

theorem two_zpow_pos (e : Int) : (0 : ℚ) < 2 ^ e := zpow_pos (by norm_num) e

/-- A power of two taken apart at a smaller exponent. -/
theorem two_zpow_split {e q : Int} (h : q ≤ e) : (2 : ℚ) ^ e = 2 ^ (e - q).toNat * 2 ^ q := by
  rw [← zpow_natCast, Int.toNat_of_nonneg (by omega), ← zpow_add₀ (by norm_num)]
  congr 1
  ring

/-- A whole number of quanta is rounded to itself. -/
theorem roundQuanta_exact {mant n : Nat} {exp q : Int} (h : (mant : ℚ) * 2 ^ exp = n * 2 ^ q) (r : Rounding)
    (neg : Bool) : roundQuanta r neg mant exp q = (n, false) := by
  unfold roundQuanta
  split
  · rename_i hq
    rw [two_zpow_split hq, ← mul_assoc, mul_left_inj' (two_zpow_pos q).ne'] at h
    rw [Prod.mk.injEq]
    exact ⟨by exact_mod_cast h, rfl⟩
  · rename_i hq
    rw [two_zpow_split (show exp ≤ q by omega), ← mul_assoc, mul_left_inj' (two_zpow_pos exp).ne'] at h
    have h : mant = n * 2 ^ (q - exp).toNat := by exact_mod_cast h
    simp [h, Rounding.up]

/-- A number between two whole numbers of quanta is rounded to one of them, as its mode says. -/
theorem roundQuanta_inexact {mant n : Nat} {exp q : Int} {t : ℚ} (h0 : 0 < t) (h1 : t < 1)
    (h : (mant : ℚ) * 2 ^ exp = (n + t) * 2 ^ q) (r : RMode) (neg : Bool) [Decidable (r.goesUp neg n t)] :
    roundQuanta (.mode r) neg mant exp q = (if r.goesUp neg n t then n + 1 else n, true) := by
  unfold roundQuanta
  split
  · rename_i hq
    rw [two_zpow_split hq, ← mul_assoc, mul_left_inj' (two_zpow_pos q).ne'] at h
    have hl : (n : ℚ) < (mant * 2 ^ (exp - q).toNat : Nat) := by push_cast; linarith
    have hr : ((mant * 2 ^ (exp - q).toNat : Nat) : ℚ) < (n + 1 : Nat) := by push_cast; linarith
    have hl := Nat.cast_lt.1 hl
    have hr := Nat.cast_lt.1 hr
    omega
  · rename_i hq
    rw [two_zpow_split (show exp ≤ q by omega), ← mul_assoc, mul_left_inj' (two_zpow_pos exp).ne'] at h
    generalize (q - exp).toNat = sh at h
    have hsh : (0 : ℚ) < 2 ^ sh := by positivity
    have hdm : ((2 ^ sh * (mant / 2 ^ sh) + mant % 2 ^ sh : Nat) : ℚ) = (n + t) * 2 ^ sh := by
      rw [Nat.div_add_mod, h]
    have hdiv : mant / 2 ^ sh = n := by
      refine Nat.div_eq_of_lt_le ?_ ?_
      · have : ((n * 2 ^ sh : Nat) : ℚ) ≤ mant := by push_cast; rw [h]; nlinarith
        exact_mod_cast this
      · have : (mant : ℚ) < ((n + 1) * 2 ^ sh : Nat) := by push_cast; rw [h]; nlinarith
        exact_mod_cast this
    have hrem : ((mant % 2 ^ sh : Nat) : ℚ) = t * 2 ^ sh := by
      rw [hdiv] at hdm
      push_cast at hdm ⊢
      linarith
    simp only [hdiv]
    generalize mant % 2 ^ sh = rem at hrem
    have hrem0 : rem ≠ 0 := by
      rintro rfl
      rw [Nat.cast_zero] at hrem
      exact (mul_pos h0 hsh).ne hrem
    have hlt : 2 ^ sh < 2 * rem ↔ 1 / 2 < t := by
      rw [← Nat.cast_lt (α := ℚ)]
      push_cast
      rw [hrem]
      exact ⟨fun _ => by nlinarith, fun _ => by nlinarith⟩
    have heq : 2 * rem = 2 ^ sh ↔ t = 1 / 2 := by
      rw [← Nat.cast_inj (R := ℚ)]
      push_cast
      rw [hrem]
      constructor
      · intro h; nlinarith
      · rintro rfl; ring
    have hle : 2 ^ sh ≤ 2 * rem ↔ 1 / 2 ≤ t := by
      rw [← Nat.cast_le (α := ℚ)]
      push_cast
      rw [hrem]
      exact ⟨fun _ => by nlinarith, fun _ => by nlinarith⟩
    have hup : Rounding.up (.mode r) neg n rem sh = true ↔ r.goesUp neg n t := by
      unfold Rounding.up RMode.goesUp
      rw [if_neg hrem0]
      cases r <;> simp [hlt, heq, hle]
    simp [hup, hrem0]

/-- Magnitudes are whole numbers of quanta and a part of one. -/
theorem exists_floor (x : ℚ) (q : Int) (h : 0 ≤ x) :
    ∃ (n : Nat) (t : ℚ), 0 ≤ t ∧ t < 1 ∧ x = (n + t) * 2 ^ q := by
  have hp := two_zpow_pos q
  have hx : 0 ≤ x / 2 ^ q := by positivity
  refine ⟨⌊x / 2 ^ q⌋₊, x / 2 ^ q - ⌊x / 2 ^ q⌋₊, sub_nonneg.2 (Nat.floor_le hx), ?_, ?_⟩
  · linarith [Nat.lt_floor_add_one (x / 2 ^ q)]
  · rw [add_sub_cancel, div_mul_cancel₀ _ hp.ne']

/-! ### Rounding to a format (R84, R88) -/

variable {F : FFmt}

/-- A magnitude that is not zero, in quanta of the binade in which it is rounded. -/
theorem roundMag_quanta (F : FFmt) {mant : Nat} (hm : mant ≠ 0) (exp : Int) :
    ∃ (n off : Nat) (t : ℚ), 0 ≤ t ∧ t < 1 ∧ n < 2 ^ (F.m + 1) ∧ (off = 0 ∨ 2 ^ F.m ≤ n) ∧
      (mant : ℚ) * 2 ^ exp = (n + t) * 2 ^ (F.minExp + off) ∧
      ∀ r neg, (F.roundMag r neg mant exp).1 = (roundQuanta r neg mant exp (F.minExp + off)).1 + off * 2 ^ F.m ∧
        (F.roundMag r neg mant exp).2.1 = (roundQuanta r neg mant exp (F.minExp + off)).2 := by
  set qu : Int := exp + Nat.log2 mant - F.m with hqu
  obtain ⟨off, ho⟩ : ∃ off : Nat, max qu F.minExp = F.minExp + off :=
    ⟨(max qu F.minExp - F.minExp).toNat, by rw [Int.toNat_of_nonneg (by omega)]; ring⟩
  have hX : (0 : ℚ) ≤ mant * 2 ^ exp := by have := two_zpow_pos exp; positivity
  obtain ⟨n, t, h0, h1, hx⟩ := exists_floor _ (F.minExp + off) hX
  have hp := two_zpow_pos (F.minExp + off)
  have hlo : (2 : ℚ) ^ F.m * 2 ^ qu ≤ mant * 2 ^ exp := by
    rw [hqu, ← zpow_natCast, ← zpow_add₀ (by norm_num),
      show (F.m : Int) + (exp + Nat.log2 mant - F.m) = Nat.log2 mant + exp by ring, zpow_add₀ (by norm_num),
      zpow_natCast]
    have := Nat.log2_self_le hm
    gcongr
    exact_mod_cast this
  have hhi : (mant : ℚ) * 2 ^ exp < 2 ^ (F.m + 1) * 2 ^ qu := by
    rw [hqu, ← zpow_natCast, ← zpow_add₀ (by norm_num),
      show ((F.m + 1 : Nat) : Int) + (exp + Nat.log2 mant - F.m) = (Nat.log2 mant + 1 : Nat) + exp by push_cast; ring,
      zpow_add₀ (by norm_num), zpow_natCast]
    have := Nat.lt_log2_self (n := mant)
    gcongr
    exact_mod_cast this
  have hq : (2 : ℚ) ^ qu ≤ 2 ^ (F.minExp + off) := by
    rw [← ho]
    exact zpow_le_zpow_right₀ (by norm_num) (le_max_left _ _)
  refine ⟨n, off, t, h0, h1, ?_, ?_, hx, fun r neg => ?_⟩
  · have : (n : ℚ) * 2 ^ (F.minExp + off) < 2 ^ (F.m + 1) * 2 ^ (F.minExp + off) := by
      calc (n : ℚ) * 2 ^ (F.minExp + off) ≤ mant * 2 ^ exp := by rw [hx]; gcongr; linarith
        _ < _ := hhi
        _ ≤ _ := by gcongr
    exact_mod_cast (mul_lt_mul_iff_left₀ hp).1 this
  · rcases Nat.eq_zero_or_pos off with h | h
    · exact .inl h
    · have hqe : qu = F.minExp + off := by omega
      rw [hqe, hx] at hlo
      have := (mul_le_mul_iff_left₀ hp).1 hlo
      have : (2 : ℚ) ^ F.m < (n + 1 : Nat) := by push_cast; linarith
      have : 2 ^ F.m < n + 1 := by exact_mod_cast this
      exact .inr (by omega)
  · unfold FFmt.roundMag
    simp only [← hqu, ho, add_sub_cancel_left, Int.toNat_natCast, and_self]

/-- The magnitude that rounding takes up to the next one lies between two neighbouring magnitudes. -/
theorem mag_between {n off : Nat} (hn : n < 2 ^ (F.m + 1)) (ho : off = 0 ∨ 2 ^ F.m ≤ n) (t : ℚ) :
    ((n : ℚ) + t) * 2 ^ (F.minExp + off) = F.mag (n + off * 2 ^ F.m) +
      t * (F.mag (n + off * 2 ^ F.m + 1) - F.mag (n + off * 2 ^ F.m)) := by
  rw [show n + off * 2 ^ F.m + 1 = (n + 1) + off * 2 ^ F.m by ring, mag_quanta hn.le ho,
    mag_quanta hn (ho.imp_right fun h => by omega)]
  push_cast
  ring

/-- How a number is rounded in the end: where a random value could take it beyond the largest finite one, to nearest (R86). -/
def FFmt.settled (F : FFmt) (r : Rounding) (neg : Bool) (mant : Nat) (exp : Int) : Rounding :=
  match r with
  | .stoch _ => if F.maxMag < (F.roundMag (.mode .rtz) neg mant exp).1
        || ((F.roundMag (.mode .rtz) neg mant exp).1 == F.maxMag && (F.roundMag (.mode .rtz) neg mant exp).2.1)
      then .mode .rne else r
  | .mode _ => r

/-- A number that is not zero, whose magnitude is rounded within the format. -/
theorem round_of_roundMag {mant : Nat} (hm : mant ≠ 0) {exp : Int} {r : Rounding} {neg sat : Bool} {b : Nat}
    {inexact : Bool} (hb : b ≤ F.maxMag) (h1 : (F.roundMag (F.settled r neg mant exp) neg mant exp).1 = b)
    (h2 : (F.roundMag (F.settled r neg mant exp) neg mant exp).2.1 = inexact) :
    ∃ tiny, F.round r sat false (.num neg mant exp) =
      (F.signed neg b, flIf inexact flNX ||| flIf (inexact && tiny) flUF) := by
  obtain ⟨k, rfl⟩ := Nat.exists_eq_succ_of_ne_zero hm
  have hround : F.round r sat false (.num neg (k + 1) exp) =
      let p := F.roundMag (F.settled r neg (k + 1) exp) neg (k + 1) exp
      if F.maxMag < p.1 then
        if sat || F.sp == .finite then (F.signed neg F.maxMag, flOF ||| flNX ||| flSAT)
        else if (F.settled r neg (k + 1) exp).base.toInf neg then
          (if F.sp = .nanOnly then F.nan else F.inf neg, flOF ||| flNX)
        else (F.signed neg F.maxMag, flOF ||| flNX)
      else if false && F.flushes && decide (0 < p.1 ∧ p.1 < 2 ^ F.m) then (F.signed neg 0, flUF ||| flNX)
      else (F.signed neg p.1, flIf p.2.1 flNX ||| flIf (p.2.1 && p.2.2) flUF) := by
    cases r <;> rfl
  rw [Nat.succ_eq_add_one] at h1 h2
  refine ⟨(F.roundMag (F.settled r neg (k + 1) exp) neg (k + 1) exp).2.2, ?_⟩
  simp only [hround, h1, h2]
  rw [if_neg (by omega)]
  simp

/-- A number that a format holds is rounded to its own encoding, with no flag (R84, R88). -/
theorem round_exact {mant b : Nat} {exp : Int} (hb : b ≤ F.maxMag)
    (h : (mant : ℚ) * 2 ^ exp = F.mag b) (r : Rounding) (neg sat : Bool) :
    F.round r sat false (.num neg mant exp) = (F.signed neg b, 0) := by
  rcases eq_or_ne mant 0 with rfl | hm
  · have : F.mag b = F.mag 0 := by simpa using h.symm
    rw [(mag_strictMono F).injective this]
    rfl
  · obtain ⟨n, off, t, h0, h1, hn, ho, hx, hr⟩ := roundMag_quanta F hm exp
    have hlt := mag_strictMono F (Nat.lt_succ_self (n + off * 2 ^ F.m))
    have hbt := h
    rw [hx, mag_between hn ho] at hbt
    have hle : n + off * 2 ^ F.m ≤ b := (mag_strictMono F).le_iff_le.1 (by nlinarith)
    have hge : b < n + off * 2 ^ F.m + 1 := (mag_strictMono F).lt_iff_lt.1 (by rw [← Nat.succ_eq_add_one]; nlinarith)
    obtain rfl : b = n + off * 2 ^ F.m := by omega
    have hq : ∀ r neg, roundQuanta r neg mant exp (F.minExp + off) = (n, false) :=
      roundQuanta_exact (by rw [h, mag_quanta hn.le ho])
    obtain ⟨tiny, ht⟩ := round_of_roundMag (F := F) (r := r) (neg := neg) (sat := sat) hm hb
      (by rw [(hr _ neg).1, hq]) (by rw [(hr _ neg).2, hq])
    simpa [flIf] using ht

/-- A number that a format does not hold, but whose magnitude is within it, lies between two neighbouring magnitudes,
and is rounded to one of them as its mode says, with NX (R84, R88). -/
theorem round_inexact (hF : F.Proper) (neg : Bool) (mant : Nat) (exp : Int)
    (h : (mant : ℚ) * 2 ^ exp ≤ F.mag F.maxMag) (hne : ∀ b ≤ F.maxMag, (mant : ℚ) * 2 ^ exp ≠ F.mag b) :
    ∃ (b : Nat) (t : ℚ), b < F.maxMag ∧ 0 < t ∧ t < 1 ∧
      (mant : ℚ) * 2 ^ exp = F.mag b + t * (F.mag (b + 1) - F.mag b) ∧
      ∀ (m : RMode) [Decidable (m.goesUp neg b t)], ∃ tiny, F.round (.mode m) false false (.num neg mant exp) =
        (F.signed neg (if m.goesUp neg b t then b + 1 else b), flNX ||| flIf tiny flUF) := by
  have hm : mant ≠ 0 := by
    rintro rfl
    exact hne 0 (Nat.zero_le _) (by simp)
  obtain ⟨n, off, t, h0, h1, hn, ho, hx, hr⟩ := roundMag_quanta F hm exp
  have hlt := mag_strictMono F (Nat.lt_succ_self (n + off * 2 ^ F.m))
  rw [Nat.succ_eq_add_one] at hlt
  have hb : n + off * 2 ^ F.m ≤ F.maxMag := by
    rw [hx, mag_between hn ho] at h
    exact (mag_strictMono F).le_iff_le.1 (by nlinarith)
  have ht : 0 < t := by
    refine h0.lt_of_ne ?_
    rintro rfl
    exact hne _ hb (by rw [hx, mag_between hn ho]; ring)
  have hb : n + off * 2 ^ F.m < F.maxMag := by
    rw [hx, mag_between hn ho] at h
    refine (mag_strictMono F).lt_iff_lt.1 (lt_of_lt_of_le ?_ h)
    nlinarith
  refine ⟨_, t, hb, ht, h1, hx.trans (mag_between hn ho t), fun m _ => ?_⟩
  have hpar : n % 2 = (n + off * 2 ^ F.m) % 2 := by
    obtain ⟨k, hk⟩ := Nat.exists_eq_succ_of_ne_zero hF.m.ne'
    rw [hk, pow_succ, ← mul_assoc]
    omega
  have hup := m.goesUp_congr neg t hpar
  classical
  have hq := roundQuanta_inexact ht h1 hx m neg
  obtain ⟨tiny, hout⟩ := round_of_roundMag (F := F) (r := .mode m) (neg := neg) (sat := false) hm
    (b := if m.goesUp neg (n + off * 2 ^ F.m) t then n + off * 2 ^ F.m + 1 else n + off * 2 ^ F.m)
    (inexact := true) (by split <;> omega) (by
      rw [FFmt.settled, (hr _ neg).1, hq]
      simp only [hup]
      split <;> ring) (by rw [FFmt.settled, (hr _ neg).2, hq])
  exact ⟨tiny, by simpa [flIf] using hout⟩

end Sys2Proof.Machine

namespace Sys2Proof.Machine

/-! ### What each mode makes of a number within a format (R84) -/

variable {F : FFmt}

/-- A number within the format that every mode is asked to round to it. -/
abbrev FFmt.rounded (F : FFmt) (neg : Bool) (mant : Nat) (exp : Int) (r : RMode) : Nat × Flags :=
  F.round (.mode r) false false (.num neg mant exp)

theorem flNX_of_inexact (tiny : Bool) : (flNX ||| flIf tiny flUF) &&& flNX ≠ 0 := by
  cases tiny <;> decide

/-- What the modes make of a number that the format does not hold, between the magnitudes `b` and `b + 1`. -/
structure FFmt.Between (F : FFmt) (neg : Bool) (mant : Nat) (exp : Int) (b : Nat) (t : ℚ) : Prop where
  pos : 0 < t
  lt : t < 1
  eq : (mant : ℚ) * 2 ^ exp = F.mag b + t * (F.mag (b + 1) - F.mag b)
  finite : ∀ r, Claim.finite (F.decode false (F.rounded neg mant exp r).1)
  nx : ∀ r, (F.rounded neg mant exp r).2 &&& flNX ≠ 0
  up : ∀ r, r.goesUp neg b t → (F.rounded neg mant exp r).1 = F.signed neg (b + 1) ∧
    Claim.rat (F.decode false (F.rounded neg mant exp r).1) = withSign neg (F.mag (b + 1))
  down : ∀ r, ¬ r.goesUp neg b t → (F.rounded neg mant exp r).1 = F.signed neg b ∧
    Claim.rat (F.decode false (F.rounded neg mant exp r).1) = withSign neg (F.mag b)

theorem exists_between (hF : F.Proper) (neg : Bool) (mant : Nat) (exp : Int)
    (h : (mant : ℚ) * 2 ^ exp ≤ F.mag F.maxMag) (hne : ∀ b ≤ F.maxMag, (mant : ℚ) * 2 ^ exp ≠ F.mag b) :
    ∃ b t, F.Between neg mant exp b t := by
  classical
  obtain ⟨b, t, hb, h0, h1, hx, hr⟩ := round_inexact hF neg mant exp h hne
  have hup : ∀ r : RMode, r.goesUp neg b t → (F.rounded neg mant exp r).1 = F.signed neg (b + 1) := fun r hg => by
    obtain ⟨_, e⟩ := hr r
    rw [FFmt.rounded, e, if_pos hg]
  have hdown : ∀ r : RMode, ¬ r.goesUp neg b t → (F.rounded neg mant exp r).1 = F.signed neg b := fun r hg => by
    obtain ⟨_, e⟩ := hr r
    rw [FFmt.rounded, e, if_neg hg]
  refine ⟨b, t, h0, h1, hx, fun r => ?_, fun r => ?_, fun r hg => ⟨hup r hg, ?_⟩, fun r hg => ⟨hdown r hg, ?_⟩⟩
  · by_cases hg : r.goesUp neg b t
    · exact hup r hg ▸ finite_decode_signed hF neg hb
    · exact hdown r hg ▸ finite_decode_signed hF neg hb.le
  · obtain ⟨tiny, e⟩ := hr r
    rw [FFmt.rounded, e]
    exact flNX_of_inexact tiny
  · rw [hup r hg, rat_decode_signed hF neg hb]
  · rw [hdown r hg, rat_decode_signed hF neg hb.le]

/-- No value of a format lies strictly between two neighbouring magnitudes. -/
theorem mag_gap (F : FFmt) (b c : Nat) (neg : Bool) :
    withSign neg (F.mag c) ≤ F.mag b ∨ F.mag (b + 1) ≤ withSign neg (F.mag c) := by
  cases neg
  · exact (le_or_gt c b).imp (fun h => (mag_strictMono F).monotone h) (fun h => (mag_strictMono F).monotone h)
  · have hb := mag_nonneg F b
    have hc := mag_nonneg F c
    simp only [withSign, if_true]
    exact .inl (by linarith)

theorem signed_even (hF : F.Proper) (neg : Bool) (b : Nat) : F.signed neg b % 2 = b % 2 := by
  obtain ⟨k, hk⟩ := Nat.exists_eq_succ_of_ne_zero (show F.e + F.m ≠ 0 by have := hF.m; omega)
  have : F.signed neg b = (if neg then 2 ^ k else 0) * 2 + b := by
    unfold FFmt.signed
    rw [hk, pow_succ]
    split <;> ring
  omega

/-! #### The results are the neighbours of the exact number -/

section
variable {neg : Bool} {mant b : Nat} {exp : Int} {t : ℚ}

/-- The neighbour below the exact number and the one above it. -/
def FFmt.below (F : FFmt) (neg : Bool) (b : Nat) : ℚ := if neg then -F.mag (b + 1) else F.mag b
def FFmt.above (F : FFmt) (neg : Bool) (b : Nat) : ℚ := if neg then -F.mag b else F.mag (b + 1)

/-- The exact number, on a scale from one neighbouring magnitude to the other. -/
theorem FFmt.Between.scale (h : F.Between neg mant exp b t) : 0 < F.mag (b + 1) - F.mag b ∧
    0 < t * (F.mag (b + 1) - F.mag b) ∧ t * (F.mag (b + 1) - F.mag b) < F.mag (b + 1) - F.mag b := by
  have hd : 0 < F.mag (b + 1) - F.mag b := sub_pos.2 (mag_strictMono F (Nat.lt_succ_self b))
  exact ⟨hd, mul_pos h.pos hd, mul_lt_of_lt_one_left hd h.lt⟩

theorem FFmt.Between.inside (h : F.Between neg mant exp b t) :
    F.below neg b < Claim.rat (.num neg mant exp) ∧ Claim.rat (.num neg mant exp) < F.above neg b := by
  obtain ⟨-, h0, h1⟩ := h.scale
  rw [rat_num, h.eq]
  cases neg <;> simp only [FFmt.below, FFmt.above, withSign, Bool.false_eq_true, if_true, if_false] <;>
    constructor <;> linarith

theorem FFmt.Between.rdn (h : F.Between neg mant exp b t) :
    Claim.rat (F.decode false (F.rounded neg mant exp .rdn).1) = F.below neg b := by
  cases neg
  · exact (h.down .rdn (by simp [RMode.goesUp])).2
  · exact (h.up .rdn (by simp [RMode.goesUp])).2

theorem FFmt.Between.rup (h : F.Between neg mant exp b t) :
    Claim.rat (F.decode false (F.rounded neg mant exp .rup).1) = F.above neg b := by
  cases neg
  · exact (h.up .rup (by simp [RMode.goesUp])).2
  · exact (h.down .rup (by simp [RMode.goesUp])).2

/-- Every mode gives one of the two neighbours. -/
theorem FFmt.Between.neighbour (h : F.Between neg mant exp b t) (r : RMode) :
    let out := Claim.rat (F.decode false (F.rounded neg mant exp r).1)
    out = F.below neg b ∨ out = F.above neg b := by
  by_cases hu : r.goesUp neg b t
  · cases neg
    · exact .inr (h.up r hu).2
    · exact .inl (h.up r hu).2
  · cases neg
    · exact .inl (h.down r hu).2
    · exact .inr (h.down r hu).2

/-- A number on one side of the exact one is beyond the neighbour on that side. -/
theorem FFmt.Between.gap (h : F.Between neg mant exp b t) (hF : F.Proper) {v : Nat} (hv : v < 2 ^ F.bits)
    (hfin : Claim.finite (F.decode false v)) :
    Claim.rat (F.decode false v) ≤ F.below neg b ∨ F.above neg b ≤ Claim.rat (F.decode false v) := by
  obtain ⟨n, c, hc, rfl⟩ := exists_signed_of_finite hv hfin
  rw [rat_decode_signed hF n hc]
  cases neg
  · exact mag_gap F b c n
  · have := mag_gap F b c (!n)
    have hs : withSign (!n) (F.mag c) = -withSign n (F.mag c) := by cases n <;> simp [withSign]
    rw [hs] at this
    exact this.symm.imp le_neg_of_le_neg neg_le_of_neg_le

/-- Rounding towards zero gives the neighbour that is nearer to zero. -/
theorem FFmt.Between.rtz (h : F.Between neg mant exp b t) :
    Claim.rat (F.decode false (F.rounded neg mant exp .rtz).1) =
      if Claim.rat (.num neg mant exp) < 0 then F.above neg b else F.below neg b := by
  obtain ⟨-, h0, -⟩ := h.scale
  have hb := mag_nonneg F b
  rw [(h.down .rtz (by simp [RMode.goesUp])).2, rat_num, h.eq]
  cases neg
  · rw [if_neg (by simp only [withSign, Bool.false_eq_true, if_false]; linarith)]
    rfl
  · rw [if_pos (by simp only [withSign, if_true]; linarith)]
    rfl

/-- How far the exact number is from its neighbours. -/
theorem FFmt.Between.far (h : F.Between neg mant exp b t) :
    let d := F.mag (b + 1) - F.mag b
    Claim.rat (.num neg mant exp) - F.below neg b = (if neg then 1 - t else t) * d ∧
      F.above neg b - Claim.rat (.num neg mant exp) = (if neg then t else 1 - t) * d := by
  rw [rat_num, h.eq]
  cases neg <;> simp only [FFmt.below, FFmt.above, withSign, Bool.false_eq_true, if_true, if_false] <;>
    constructor <;> ring

/-- Rounding to nearest gives the nearer neighbour. -/
theorem FFmt.Between.nearest (h : F.Between neg mant exp b t) {r : RMode} (hr : r ∈ [RMode.rne, .rmm]) :
    let x := Claim.rat (.num neg mant exp)
    let out := Claim.rat (F.decode false (F.rounded neg mant exp r).1)
    (x - F.below neg b < F.above neg b - x → out = F.below neg b) ∧
      (F.above neg b - x < x - F.below neg b → out = F.above neg b) := by
  have hd := h.scale.1
  have hdown : t < 1 / 2 → ¬ r.goesUp neg b t := fun ht => by
    simp only [List.mem_cons, List.not_mem_nil, or_false] at hr
    rcases hr with rfl | rfl
    · rintro (hu | ⟨hu, -⟩) <;> linarith
    · exact not_le.2 ht
  have hup : 1 / 2 < t → r.goesUp neg b t := fun ht => by
    simp only [List.mem_cons, List.not_mem_nil, or_false] at hr
    rcases hr with rfl | rfl
    · exact .inl ht
    · exact ht.le
  dsimp only
  rw [h.far.1, h.far.2, mul_lt_mul_iff_left₀ hd, mul_lt_mul_iff_left₀ hd]
  cases neg
  · exact ⟨fun hlt => (h.down r (hdown (by simp at hlt; linarith))).2,
      fun hlt => (h.up r (hup (by simp at hlt; linarith))).2⟩
  · exact ⟨fun hlt => (h.up r (hup (by simp at hlt; linarith))).2,
      fun hlt => (h.down r (hdown (by simp at hlt; linarith))).2⟩

/-- At a tie, rounding to nearest gives the even encoding (RNE), or the neighbour farther from zero (RMM). -/
theorem FFmt.Between.tie (h : F.Between neg mant exp b t) (hF : F.Proper)
    (he : F.above neg b - Claim.rat (.num neg mant exp) = Claim.rat (.num neg mant exp) - F.below neg b) :
    let out (r : RMode) := Claim.rat (F.decode false (F.rounded neg mant exp r).1)
    (out .rne = F.below neg b ∨ out .rne = F.above neg b) ∧ (F.rounded neg mant exp .rne).1 % 2 = 0 ∧
      out .rmm = if Claim.rat (.num neg mant exp) < 0 then F.below neg b else F.above neg b := by
  obtain ⟨hd, h0, -⟩ := h.scale
  have hb := mag_nonneg F b
  have ht : t = 1 / 2 := by
    rw [h.far.1, h.far.2, mul_left_inj' hd.ne'] at he
    cases neg <;> simp at he <;> linarith
  dsimp only
  refine ⟨h.neighbour .rne, ?_, ?_⟩
  · by_cases hodd : b % 2 = 1
    · rw [(h.up .rne (.inr ⟨ht, hodd⟩)).1, signed_even hF]
      omega
    · rw [(h.down .rne (by simp [RMode.goesUp, ht, hodd])).1, signed_even hF]
      omega
  · rw [(h.up .rmm ht.ge).2, rat_num, h.eq]
    cases neg
    · rw [if_neg (by simp only [withSign, Bool.false_eq_true, if_false]; linarith)]
      rfl
    · rw [if_pos (by simp only [withSign, if_true]; linarith)]
      rfl

end

/-- The formats of R77 have exponent and fraction bits. -/
theorem formats_proper : ∀ F ∈ [fmtF64, fmtF32, fmtF16, fmtBf16, fmtE4m3, fmtE5m2, fmtE2m3, fmtE3m2, fmtE2m1],
    F.Proper := by
  simp only [List.forall_mem_cons, List.not_mem_nil, false_implies, implies_true, and_true]
  exact ⟨⟨by decide, by decide⟩, ⟨by decide, by decide⟩, ⟨by decide, by decide⟩, ⟨by decide, by decide⟩,
    ⟨by decide, by decide⟩, ⟨by decide, by decide⟩, ⟨by decide, by decide⟩, ⟨by decide, by decide⟩,
    ⟨by decide, by decide⟩⟩

end Sys2Proof.Machine

section
open Sys2Proof Sys2Proof.Machine

/-- Settles O20: a number lies at a magnitude of the format, and is kept, or between two neighbouring ones, of which the
mode names one. -/
theorem roundingOfValues : Obligations.RoundingOfValues := by
  refine ⟨fun F hF r sat v hv hfin => ?_, fun F hF neg m e => ?_⟩
  · obtain ⟨neg, b, hb, rfl⟩ := exists_signed_of_finite hv hfin
    rw [decode_signed (formats_proper F hF) neg hb]
    exact round_exact hb rfl r neg sat
  · intro x hx out
    have hF := formats_proper F (by simp at hF ⊢; tauto)
    have hX : (0 : ℚ) ≤ m * 2 ^ e := mul_nonneg (Nat.cast_nonneg m) (two_zpow_pos e).le
    have hx : (m : ℚ) * 2 ^ e ≤ F.mag F.maxMag := by
      have hmax : Claim.rat (F.decode false F.maxMag) = F.mag F.maxMag := by
        simpa [FFmt.signed, withSign] using rat_decode_signed hF false le_rfl
      have hxx : |x| = m * 2 ^ e := by rw [show x = _ from rat_num neg m e, abs_withSign neg hX]
      rwa [hmax, hxx] at hx
    by_cases hex : ∃ b ≤ F.maxMag, (m : ℚ) * 2 ^ e = F.mag b
    · obtain ⟨b, hb, he⟩ := hex
      have hfin : ∀ r, Claim.finite (out r) := fun r => by
        simp only [out, round_exact hb he]
        exact finite_decode_signed hF neg hb
      have hrat : ∀ r, Claim.rat (out r) = x := fun r => by
        simp only [out, x, round_exact hb he, rat_num, he]
        exact rat_decode_signed hF neg hb
      have hfl : ∀ r, (F.round (.mode r) false false (.num neg m e)).2 = 0 := fun r => by rw [round_exact hb he]
      simp [hfin, hrat, hfl]
    · push Not at hex
      obtain ⟨b, t, h⟩ := exists_between hF neg m e hx hex
      have hin := h.inside
      have hlo : Claim.rat (out .rdn) = F.below neg b := h.rdn
      have hhi : Claim.rat (out .rup) = F.above neg b := h.rup
      have hne : ∀ r, Claim.rat (out r) ≠ x := fun r hr =>
        (h.neighbour r).elim (fun e => hin.1.ne (e.symm.trans hr)) (fun e => hin.2.ne (hr.symm.trans e))
      rw [hlo, hhi]
      refine ⟨h.finite .rdn, hin.1.le, h.finite .rup, hin.2.le, fun v hv hfin => ⟨fun hy => ?_, fun hy => ?_⟩,
        ⟨h.finite .rtz, h.rtz, fun r hr => ⟨h.finite r, h.nearest hr⟩, fun _ he => h.tie hF he⟩,
        fun r => iff_of_false (h.nx r) (hne r)⟩
      · exact (h.gap hF hv hfin).resolve_right fun hg => absurd (hin.2.trans_le hg) (not_lt.2 hy)
      · exact (h.gap hF hv hfin).resolve_left fun hg => absurd (hin.1.trans_le' hg) (not_lt.2 hy)
end

namespace Sys2Proof.Machine

/-! ### What a floating form writes, by the kind of its exact result (R84, R88) -/

theorem scalarFmt_cases (f : Nat) : scalarFmt f ∈ [fmtF64, fmtF32, fmtF16, fmtBf16] := by
  unfold scalarFmt
  split <;> simp

theorem scalarFmt_ieee (f : Nat) : (scalarFmt f).sp = .ieee := by
  unfold scalarFmt
  split <;> rfl

theorem scalarFmt_proper (f : Nat) : (scalarFmt f).Proper :=
  formats_proper _ (by have := scalarFmt_cases f; simp at this ⊢; tauto)

section
variable {i : Instr} {s : State} {f : Nat} {d : Reg} {r : BitVec 3} {v : FVal × Flags}
  (h : exec i s = .next (s.putF (scalarFmt f) d (s.roundF (scalarFmt f) r v)))
include h

theorem writesF_nan {fl : Flags} (hv : v = (.nan false, fl)) :
    Claim.WritesF i s (scalarFmt f) d (scalarFmt f).nan fl := by
  subst hv
  rw [Claim.WritesF, h, State.putF, State.roundF, FFmt.round]
  simp [scalarFmt_ieee]

theorem writesF_inf {n : Bool} {fl : Flags} (hv : v = (.inf n, fl)) :
    Claim.WritesF i s (scalarFmt f) d ((scalarFmt f).inf n) fl := by
  subst hv
  rw [Claim.WritesF, h, State.putF, State.roundF, FFmt.round]
  simp [scalarFmt_ieee]

/-- A number, with no flag of the operation, is rounded once. -/
theorem writesF_rounded {x : FVal} (hv : v = (x, 0)) : let p := (scalarFmt f).round (.mode (s.me.rmode r)) false s.me.ftz x
    Claim.WritesF i s (scalarFmt f) d p.1 p.2 := by
  subst hv
  dsimp only
  rw [Claim.WritesF, h, State.putF, State.roundF]
  simp

end

/-! ### The exact operations over numbers (R79) -/

theorem exists_num {v : FVal} (h : Claim.finite v) : ∃ n m e, v = .num n m e := by
  cases v with
  | num n m e => exact ⟨n, m, e, rfl⟩
  | _ => exact h.elim

theorem mantAt_rat (neg : Bool) (m : Nat) {e e' : Int} (h : e' ≤ e) :
    (mantAt neg m e e' : ℚ) * 2 ^ e' = Claim.rat (.num neg m e) := by
  rw [rat_num, two_zpow_split h]
  cases neg <;> simp [mantAt, withSign, mul_assoc]

theorem mantAt_zero_iff (neg : Bool) (m : Nat) (e e' : Int) : mantAt neg m e e' = 0 ↔ m = 0 := by
  cases neg <;> simp [mantAt]

/-- An integer at an exponent, as a sign and a magnitude. -/
theorem rat_ofMant (t : Int) (e : Int) : Claim.rat (.num (decide (t < 0)) t.natAbs e) = t * 2 ^ e := by
  have ht : (t.natAbs : ℚ) = |(t : ℚ)| := by rw [Nat.cast_natAbs, Int.cast_abs]
  rw [rat_num, ht]
  by_cases h : t < 0
  · have : (t : ℚ) < 0 := by exact_mod_cast h
    simp [h, withSign, abs_of_neg this]
  · have : (0 : ℚ) ≤ t := by exact_mod_cast not_lt.1 h
    simp [h, withSign, abs_of_nonneg this]

/-- The exact sum of numbers, and the sign of one that is zero (R84). -/
theorem add_num (rdn : Bool) {a b : FVal} (ha : Claim.finite a) (hb : Claim.finite b) :
    ∃ n m e, a.add rdn b = (.num n m e, 0) ∧ Claim.rat (.num n m e) = Claim.rat a + Claim.rat b ∧
      (m = 0 → n = if Claim.negative a = Claim.negative b then Claim.negative a else rdn) := by
  obtain ⟨na, ma, ea, rfl⟩ := exists_num ha
  obtain ⟨nb, mb, eb, rfl⟩ := exists_num hb
  have hsum : ((mantAt na ma ea (min ea eb) + mantAt nb mb eb (min ea eb) : Int) : ℚ) * 2 ^ min ea eb =
      Claim.rat (.num na ma ea) + Claim.rat (.num nb mb eb) := by
    rw [Int.cast_add, add_mul, mantAt_rat na ma (min_le_left _ _), mantAt_rat nb mb (min_le_right _ _)]
  simp only [FVal.add]
  generalize mantAt na ma ea (min ea eb) + mantAt nb mb eb (min ea eb) = t at hsum
  by_cases ht : t = 0
  · refine ⟨_, 0, min ea eb, if_pos ht, ?_, fun _ => rfl⟩
    rw [← hsum, ht, rat_num]
    cases na <;> cases nb <;> cases rdn <;> simp [withSign]
  · exact ⟨_, _, min ea eb, if_neg ht, (rat_ofMant t _).trans hsum, fun h => absurd (Int.natAbs_eq_zero.1 h) ht⟩

/-- The exact product of numbers. -/
theorem mul_num {a b : FVal} (ha : Claim.finite a) (hb : Claim.finite b) :
    ∃ m e, a.mul b = (.num (Claim.negative a != Claim.negative b) m e, 0) ∧
      Claim.rat (.num (Claim.negative a != Claim.negative b) m e) = Claim.rat a * Claim.rat b := by
  obtain ⟨na, ma, ea, rfl⟩ := exists_num ha
  obtain ⟨nb, mb, eb, rfl⟩ := exists_num hb
  refine ⟨ma * mb, ea + eb, rfl, ?_⟩
  rw [rat_num, rat_num, rat_num, zpow_add₀ (by norm_num)]
  push_cast
  cases na <;> cases nb <;> simp [Claim.negative, withSign] <;> ring

theorem finite_neg {a : FVal} : Claim.finite a.neg ↔ Claim.finite a := by cases a <;> rfl

theorem rat_neg (a : FVal) : Claim.rat a.neg = -Claim.rat a := by
  cases a with
  | num n m e => cases n <;> simp [FVal.neg, Claim.rat]
  | _ => simp [FVal.neg, Claim.rat]

theorem negative_neg {a : FVal} (h : a.isNan = false) : Claim.negative a.neg = !Claim.negative a := by
  cases a with
  | nan q => cases h
  | _ => rfl

@[simp] theorem sig_neg (a : FVal) : a.neg.sig = a.sig := by
  cases a <;> rfl

@[simp] theorem isNan_neg (a : FVal) : a.neg.isNan = a.isNan := by
  cases a <;> rfl

@[simp] theorem isZero_neg (a : FVal) : a.neg.isZero = a.isZero := by
  cases a with
  | num n m e => cases m <;> rfl
  | _ => rfl

@[simp] theorem neg_inf (n : Bool) : (FVal.inf n).neg = .inf (!n) := rfl

/-! #### Operands that are no numbers -/

theorem add_nan (rdn : Bool) {a b : FVal} (h : a.isNan ∨ b.isNan) : a.add rdn b = (.nan false, a.sig ||| b.sig) := by
  cases a <;> cases b <;> simp_all [FVal.add, FVal.isNan]

theorem mul_nan {a b : FVal} (h : a.isNan ∨ b.isNan) : a.mul b = (.nan false, a.sig ||| b.sig) := by
  cases a <;> cases b <;> simp_all [FVal.mul, FVal.isNan]

theorem div_nan {a b : FVal} (h : a.isNan ∨ b.isNan) : a.div b = (.nan false, a.sig ||| b.sig) := by
  cases a <;> cases b <;> simp_all [FVal.div, FVal.isNan]

theorem add_inf_left (rdn x : Bool) {b : FVal} (h : Claim.finite b ∨ b = .inf x) :
    (FVal.inf x).add rdn b = (.inf x, 0) := by
  rcases h with h | rfl
  · obtain ⟨n, m, e, rfl⟩ := exists_num h
    rfl
  · simp [FVal.add]

theorem add_inf_right (rdn y : Bool) {a : FVal} (h : Claim.finite a) : a.add rdn (.inf y) = (.inf y, 0) := by
  obtain ⟨n, m, e, rfl⟩ := exists_num h
  rfl

theorem add_inf_opposite (rdn x : Bool) : (FVal.inf x).add rdn (.inf !x) = (.nan false, flNV) := by
  simp [FVal.add]

theorem mul_inf_zero (x : Bool) {b : FVal} (h : b.isZero = true) : (FVal.inf x).mul b = (.nan false, flNV) := by
  cases b with
  | num n m e => cases m <;> simp_all [FVal.isZero, FVal.mul]
  | _ => simp [FVal.isZero] at h

theorem mul_inf_left (x : Bool) {b : FVal} (h0 : b.isZero = false) (hn : b.isNan = false) :
    (FVal.inf x).mul b = (.inf (x != Claim.negative b), 0) := by
  cases b with
  | nan q => cases hn
  | inf y => rfl
  | num n m e => cases m <;> simp_all [FVal.isZero, FVal.mul, Claim.negative]

theorem mul_zero_inf (y : Bool) {a : FVal} (h : a.isZero = true) : a.mul (.inf y) = (.nan false, flNV) := by
  cases a with
  | num n m e => cases m <;> simp_all [FVal.isZero, FVal.mul]
  | _ => simp [FVal.isZero] at h

theorem mul_inf_right (y : Bool) {a : FVal} (h0 : a.isZero = false) (hn : a.isNan = false) :
    a.mul (.inf y) = (.inf (Claim.negative a != y), 0) := by
  cases a with
  | nan q => cases hn
  | inf x => rfl
  | num n m e => cases m <;> simp_all [FVal.isZero, FVal.mul, Claim.negative]

theorem isNan_of_finite {a : FVal} (h : Claim.finite a) : a.isNan = false := by
  obtain ⟨n, m, e, rfl⟩ := exists_num h
  rfl

end Sys2Proof.Machine

section
open Sys2Proof Sys2Proof.Machine

/-- Settles O21: the form rounds the exact result of its operation, whose kind its operands decide. -/
theorem floatSumsAndProducts : Obligations.FloatSumsAndProducts := by
  intro s d a b r f F A B out
  let rdn := s.me.rmode r == .rdn
  have hadd : exec (.fadd d a b r f) s = .next (s.putF F d (s.roundF F r (A.add rdn B))) := rfl
  have hsub : exec (.fsub d a b r f) s = .next (s.putF F d (s.roundF F r (A.add rdn B.neg))) := rfl
  have hmul : exec (.fmul d a b r f) s = .next (s.putF F d (s.roundF F r (A.mul B))) := rfl
  have hdiv : exec (.fdiv d a b r f) s = .next (s.putF F d (s.roundF F r (A.div B))) := rfl
  refine ⟨fun hn => ?_, fun hA hB => ⟨?_, ?_, ?_⟩, fun x hx => ?_, fun y hA hB => ?_⟩
  · simp only [List.forall_mem_cons, List.not_mem_nil, false_implies, implies_true, and_true]
    refine ⟨writesF_nan hadd (add_nan _ hn), ?_, writesF_nan hmul (mul_nan hn), writesF_nan hdiv (div_nan hn)⟩
    have := add_nan rdn (a := A) (b := B.neg) (by simpa using hn)
    exact writesF_nan hsub (by simpa using this)
  · obtain ⟨n, m, e, hv, hrat, h0⟩ := add_num rdn hA hB
    exact ⟨n, m, e, writesF_rounded hadd hv, hrat, h0⟩
  · obtain ⟨n, m, e, hv, hrat, h0⟩ := add_num rdn hA (finite_neg.2 hB)
    rw [rat_neg, ← sub_eq_add_neg] at hrat
    rw [negative_neg (isNan_of_finite hB)] at h0
    exact ⟨n, m, e, writesF_rounded hsub hv, hrat, h0⟩
  · obtain ⟨m, e, hv, hrat⟩ := mul_num hA hB
    exact ⟨_, m, e, writesF_rounded hmul hv, hrat, rfl⟩
  · rw [hx] at hadd hsub hmul
    refine ⟨fun hB => writesF_inf hadd (add_inf_left rdn x hB), fun hB => ?_, fun hB => ?_, fun hB => ?_,
      fun hB => writesF_nan hmul (mul_inf_zero x hB), fun h0 hn => writesF_inf hmul (mul_inf_left x h0 hn)⟩
    · exact writesF_nan hadd (hB ▸ add_inf_opposite rdn x)
    · refine writesF_inf hsub (add_inf_left rdn x (hB.imp finite_neg.2 fun e => ?_))
      rw [e, neg_inf, Bool.not_not]
    · exact writesF_nan hsub (by rw [hB]; exact add_inf_opposite rdn x)
  · rw [hB] at hadd hsub hmul
    exact ⟨writesF_inf hadd (add_inf_right rdn y hA), writesF_inf hsub (add_inf_right rdn (!y) hA),
      fun h0 => writesF_nan hmul (mul_zero_inf y h0),
      fun h0 => writesF_inf hmul (mul_inf_right y h0 (isNan_of_finite hA))⟩

end

namespace Sys2Proof.Machine

/-! ### The exact fused result (R221) -/

/-- A value with its sign changed, or as it is. -/
def FVal.flip (minus : Bool) (v : FVal) : FVal := if minus then v.neg else v

@[simp] theorem finite_flip {minus : Bool} {v : FVal} : Claim.finite (v.flip minus) ↔ Claim.finite v := by
  cases minus
  · rfl
  · exact finite_neg

@[simp] theorem sig_flip (minus : Bool) (v : FVal) : (v.flip minus).sig = v.sig := by cases minus <;> simp [FVal.flip]

@[simp] theorem isNan_flip (minus : Bool) (v : FVal) : (v.flip minus).isNan = v.isNan := by
  cases minus <;> simp [FVal.flip]

@[simp] theorem isZero_flip (minus : Bool) (v : FVal) : (v.flip minus).isZero = v.isZero := by
  cases minus <;> simp [FVal.flip]

@[simp] theorem flip_inf (minus n : Bool) : (FVal.inf n).flip minus = .inf (n != minus) := by
  cases minus <;> simp [FVal.flip]

theorem negative_flip (minus : Bool) {v : FVal} (h : v.isNan = false) :
    Claim.negative (v.flip minus) = (Claim.negative v != minus) := by
  cases minus <;> simp [FVal.flip, negative_neg h]

theorem rat_flip (minus : Bool) (v : FVal) : Claim.rat (v.flip minus) = (if minus then -1 else 1) * Claim.rat v := by
  cases minus <;> simp [FVal.flip, rat_neg]

theorem sig_of_not_nan {v : FVal} (h : v.isNan = false) : v.sig = 0 := by
  cases v with
  | nan q => cases h
  | _ => rfl

/-- A product that is a NaN makes the fused result a NaN. -/
theorem fma_mul_nan {rdn q : Bool} {a b c : FVal} {fl : Flags} (h : a.mul b = (.nan q, fl)) :
    a.fma rdn b c = (.nan false, fl ||| c.sig) := by
  simp only [FVal.fma, h]

/-- A product that is no NaN is added to the third operand. -/
theorem fma_mul {rdn : Bool} {a b c p : FVal} (h : a.mul b = (p, 0)) (hp : p.isNan = false) :
    a.fma rdn b c = p.add rdn c := by
  cases p with
  | nan q => cases hp
  | _ => simp [FVal.fma, h]

theorem flNV_or_sig (c : FVal) : flNV ||| c.sig = flNV := by
  cases c with
  | nan q => cases q <;> decide
  | _ => exact BitVec.or_zero

theorem negative_num (n : Bool) (m : Nat) (e : Int) : Claim.negative (.num n m e) = n := rfl

/-- The exact fused result of numbers. -/
theorem fma_num (rdn mp mc : Bool) {a b c : FVal} (ha : Claim.finite a) (hb : Claim.finite b) (hc : Claim.finite c) :
    ∃ n m e, (a.flip mp).fma rdn b (c.flip mc) = (.num n m e, 0) ∧
      Claim.rat (.num n m e) = (if mp then -1 else 1) * (Claim.rat a * Claim.rat b) + (if mc then -1 else 1) * Claim.rat c ∧
      (m = 0 → n = if ((Claim.negative a != Claim.negative b) != mp) = (Claim.negative c != mc)
        then (Claim.negative a != Claim.negative b) != mp else rdn) := by
  obtain ⟨k, j, hmul, hp⟩ := mul_num (finite_flip (minus := mp).2 ha) hb
  obtain ⟨n, m, e, hadd, hs, h0⟩ := add_num rdn (a := .num _ k j) trivial (finite_flip (minus := mc).2 hc)
  refine ⟨n, m, e, (fma_mul hmul rfl).trans hadd, ?_, ?_⟩
  · rw [hs, hp, rat_flip, rat_flip, mul_assoc]
  · have hsign : ∀ x y z : Bool, ((x != z) != y) = ((x != y) != z) := by decide
    rw [negative_flip mc (isNan_of_finite hc)] at h0
    rwa [negative_num, negative_flip mp (isNan_of_finite ha), ← hsign] at h0

/-- The product is an infinity with the sign of R221. -/
theorem mul_flip_inf (mp : Bool) {a b : FVal} (h : (∃ y, a = .inf y ∧ b.isNan = false ∧ b.isZero = false) ∨
    (∃ y, b = .inf y ∧ a.isNan = false ∧ a.isZero = false)) :
    (a.flip mp).mul b = (.inf ((Claim.negative a != Claim.negative b) != mp), 0) := by
  have hsign : ∀ x y z : Bool, ((x != z) != y) = ((x != y) != z) := by decide
  rcases h with ⟨y, rfl, hn, h0⟩ | ⟨y, rfl, hn, h0⟩
  · rw [flip_inf, mul_inf_left _ h0 hn, hsign]
    rfl
  · rw [mul_inf_right y (by simpa using h0) (by simpa using hn), negative_flip mp hn, hsign]
    rfl

/-- An infinite product and a NaN, or a product of numbers and a NaN. -/
theorem fma_nan_third (rdn mp mc : Bool) {a b c : FVal} (h : ((∃ y, a = .inf y ∧ b.isNan = false ∧ b.isZero = false) ∨
    (∃ y, b = .inf y ∧ a.isNan = false ∧ a.isZero = false)) ∨ (Claim.finite a ∧ Claim.finite b)) (hc : c.isNan = true) :
    (a.flip mp).fma rdn b (c.flip mc) = (.nan false, c.sig) := by
  have hp : ∃ p, (a.flip mp).mul b = (p, 0) ∧ p.isNan = false := by
    rcases h with h | ⟨ha, hb⟩
    · exact ⟨_, mul_flip_inf mp h, rfl⟩
    · obtain ⟨m, e, hmul, -⟩ := mul_num (finite_flip (minus := mp).2 ha) hb
      exact ⟨_, hmul, rfl⟩
  obtain ⟨p, hmul, hp⟩ := hp
  rw [fma_mul hmul hp, add_nan rdn (.inr (by simpa using hc)), sig_of_not_nan hp]
  simp

end Sys2Proof.Machine

section
open Sys2Proof Sys2Proof.Machine

/-- Settles O23: each form is the exact fused result of operands with their signs changed, rounded once. -/
theorem fusedMultiplyAdd : Obligations.FusedMultiplyAdd := by
  intro s d a b c f r F A B C forms sg ps cs
  let rdn := s.me.rmode r == .rdn
  have hforms : ∀ x ∈ forms, exec x.1 s =
      .next (s.putF F d (s.roundF F r ((A.flip x.2.1).fma rdn B (C.flip x.2.2)))) := by
    simp only [forms, List.forall_mem_cons, List.not_mem_nil, false_implies, implies_true, and_true]
    exact ⟨rfl, rfl, rfl, rfl⟩
  refine ⟨fun hA hB hC x hx => ?_, fun h x hx => ?_, fun h x hx => ?_, fun h hC x hx => ?_, fun h x hx => ⟨fun hC => ?_,
    fun z hC => ⟨fun e => ?_, fun e => ?_⟩⟩, fun z hA hB hC x hx => ?_⟩
  · obtain ⟨n, m, e, hv, hrat, h0⟩ := fma_num rdn x.2.1 x.2.2 hA hB hC
    exact ⟨n, m, e, hrat, h0, writesF_rounded (hforms x hx) hv⟩
  · have hmul : (A.flip x.2.1).mul B = (.nan false, flNV) := by
      rcases h with ⟨y, hA, h0⟩ | ⟨y, hB, h0⟩
      · rw [hA, flip_inf, mul_inf_zero _ h0]
      · rw [hB, mul_zero_inf y (by simpa using h0)]
    exact writesF_nan (hforms x hx) ((fma_mul_nan hmul).trans (by rw [flNV_or_sig]))
  · have hmul := mul_nan (a := A.flip x.2.1) (b := B) (by simpa using h)
    exact writesF_nan (hforms x hx) ((fma_mul_nan hmul).trans (by simp))
  · exact writesF_nan (hforms x hx) (fma_nan_third rdn _ _ h hC)
  · exact writesF_inf (hforms x hx) ((fma_mul (mul_flip_inf x.2.1 h) rfl).trans
      (add_inf_left rdn _ (.inl (finite_flip.2 hC))))
  · refine writesF_inf (hforms x hx) ((fma_mul (mul_flip_inf x.2.1 h) rfl).trans (add_inf_left rdn _ (.inr ?_)))
    rw [hC, flip_inf]
    simp only [cs, hC] at e
    exact congrArg FVal.inf e
  · refine writesF_nan (hforms x hx) ((fma_mul (mul_flip_inf x.2.1 h) rfl).trans ?_)
    have hsign : (z != x.2.2) = !ps x.2.1 := by
      simp only [cs, hC] at e
      exact Bool.eq_not_of_ne e
    rw [hC, flip_inf, hsign]
    exact add_inf_opposite rdn _
  · obtain ⟨m, e, hmul, -⟩ := mul_num (finite_flip (minus := x.2.1).2 hA) hB
    rw [show cs x.2.2 = (z != x.2.2) by simp only [cs, hC]; rfl]
    refine writesF_inf (hforms x hx) ((fma_mul hmul rfl).trans ?_)
    rw [hC, flip_inf]
    exact add_inf_right rdn _ trivial

end

namespace Sys2Proof.Machine

/-! ### Quotients and roots: a last bit that stands for the rest

The model's quotient and root hold the exact result down to a unit `2 ^ t`, and one bit more, which is set where something
is left. A number with few bits is a whole number of units or smaller than the result, so it lies on the same side of both. -/

/-- A number with few bits is a whole number of units, or smaller than `q` units. -/
theorem grid_or_small {K q : Nat} (hq : 2 ^ K ≤ q) {k : Int} (hk : |k| < 2 ^ K) (j t : Int) :
    (∃ i : Int, (k : ℚ) * 2 ^ j = i * 2 ^ t) ∨ |(k : ℚ) * 2 ^ j| < q * 2 ^ t := by
  rcases le_or_gt t j with h | h
  · exact .inl ⟨k * 2 ^ (j - t).toNat, by rw [two_zpow_split h]; push_cast; ring⟩
  · refine .inr ?_
    have hj : (2 : ℚ) ^ j ≤ 2 ^ t := zpow_le_zpow_right₀ (by norm_num) h.le
    have hkq : (|k| : ℚ) < q := by
      have h1 : (|k| : ℚ) < 2 ^ K := by exact_mod_cast hk
      have h2 : (2 : ℚ) ^ K ≤ q := by exact_mod_cast hq
      linarith
    rw [abs_mul, abs_of_pos (two_zpow_pos j)]
    exact (mul_le_mul_of_nonneg_left hj (abs_nonneg _)).trans_lt (mul_lt_mul_of_pos_right hkq (two_zpow_pos t))

/-- Where a whole number of units stands against `q` units and the last bit. -/
theorem unit_lt_sticky {q st : Nat} (hst : st ≤ 1) (i t : Int) :
    ((i : ℚ) * 2 ^ t < (2 * q + st : Nat) * 2 ^ (t - 1) ↔ i < q + st) ∧
      (((2 * q + st : Nat) : ℚ) * 2 ^ (t - 1) < i * 2 ^ t ↔ q < i) := by
  have ht : (2 : ℚ) ^ t = 2 * 2 ^ (t - 1) := by
    rw [← zpow_one_add₀ (by norm_num)]
    congr 1
    ring
  have hp := two_zpow_pos (t - 1)
  rw [ht, ← mul_assoc, mul_lt_mul_iff_left₀ hp, mul_lt_mul_iff_left₀ hp]
  constructor
  · rw [show ((i : ℚ) * 2 < (2 * q + st : Nat)) ↔ (i * 2 < (2 * q + st : Nat)) by exact_mod_cast Iff.rfl]
    omega
  · rw [show (((2 * q + st : Nat) : ℚ) < (i : ℚ) * 2) ↔ (((2 * q + st : Nat) : Int) < i * 2) by exact_mod_cast Iff.rfl]
    omega

theorem small_lt_sticky {q : Nat} (st : Nat) {t : Int} {y : ℚ} (h : |y| < q * 2 ^ t) :
    y < (2 * q + st : Nat) * 2 ^ (t - 1) := by
  have ht : (2 : ℚ) ^ t = 2 * 2 ^ (t - 1) := by
    rw [← zpow_one_add₀ (by norm_num)]
    congr 1
    ring
  have hp := two_zpow_pos (t - 1)
  have := (le_abs_self y).trans_lt h
  rw [ht] at this
  push_cast
  have hs : (0 : ℚ) ≤ st * 2 ^ (t - 1) := by positivity
  linarith

/-! #### Quotients -/

/-- Where a whole number stands against a quotient: the last bit makes up for what division leaves. -/
theorem lt_quotient {N d : Nat} (hd : 0 < d) (i : Int) :
    (i * d < N ↔ i < (N / d : Nat) + (if N % d = 0 then 0 else 1 : Nat)) ∧ ((N : Int) < i * d ↔ (N / d : Nat) < i) := by
  have hd : (0 : Int) < d := by exact_mod_cast hd
  have hdm : (N : Int) = d * (N / d : Nat) + (N % d : Nat) := by exact_mod_cast (Nat.div_add_mod N d).symm
  refine ⟨?_, by rw [Int.natCast_div]; exact (Int.ediv_lt_iff_lt_mul hd).symm⟩
  rw [hdm]
  split
  · rename_i hr
    rw [hr, Nat.cast_zero, add_zero, add_zero, mul_comm (d : Int)]
    exact mul_lt_mul_iff_left₀ hd
  · rename_i hr
    have h0 : (0 : Int) < (N % d : Nat) := by exact_mod_cast Nat.pos_of_ne_zero hr
    have h1 : ((N % d : Nat) : Int) < d := by exact_mod_cast Nat.mod_lt N (by exact_mod_cast hd)
    rw [Nat.cast_one, Int.lt_add_one_iff]
    exact ⟨fun h => by by_contra hc; nlinarith, fun h => by nlinarith⟩

/-- A number with few bits lies on the same side of the model's quotient as of the exact one. -/
theorem quotient_sides {K N d : Nat} (hd : 0 < d) (hq : 2 ^ K ≤ N / d) {k : Int} (hk : |k| < 2 ^ K) (j t : Int) :
    let y := (k : ℚ) * 2 ^ j
    let v := ((2 * (N / d) + (if N % d = 0 then 0 else 1) : Nat) : ℚ) * 2 ^ (t - 1)
    let w := (N : ℚ) / d * 2 ^ t
    (y < v ↔ y < w) ∧ (v < y ↔ w < y) := by
  have hdq : (0 : ℚ) < d := by exact_mod_cast hd
  have hst : (if N % d = 0 then 0 else 1) ≤ 1 := by split <;> omega
  have hp := two_zpow_pos t
  dsimp only
  rcases grid_or_small hq hk j t with ⟨i, hi⟩ | hs
  · obtain ⟨h1, h2⟩ := unit_lt_sticky (q := N / d) hst i t
    obtain ⟨h3, h4⟩ := lt_quotient (N := N) hd i
    rw [hi, h1, h2, mul_lt_mul_iff_left₀ hp, mul_lt_mul_iff_left₀ hp, lt_div_iff₀ hdq, div_lt_iff₀ hdq, ← h3, ← h4]
    exact ⟨by exact_mod_cast Iff.rfl, by exact_mod_cast Iff.rfl⟩
  · have hv := small_lt_sticky (if N % d = 0 then 0 else 1) hs
    have hw : (k : ℚ) * 2 ^ j < N / d * 2 ^ t := by
      refine ((le_abs_self _).trans_lt hs).trans_le ?_
      have : ((N / d : Nat) : ℚ) ≤ N / d := Nat.cast_div_le
      gcongr
    exact ⟨iff_of_true hv hw, iff_of_false hv.not_gt hw.not_gt⟩

/-- The same for numbers with a sign. -/
theorem withSign_sides {K : Nat} {v w : ℚ} (h : ∀ k j : Int, |k| < 2 ^ K →
      ((k : ℚ) * 2 ^ j < v ↔ (k : ℚ) * 2 ^ j < w) ∧ (v < (k : ℚ) * 2 ^ j ↔ w < (k : ℚ) * 2 ^ j)) (neg : Bool) (k j : Int)
    (hk : |k| < 2 ^ K) :
    ((k : ℚ) * 2 ^ j < withSign neg v ↔ (k : ℚ) * 2 ^ j < withSign neg w) ∧
      (withSign neg v < (k : ℚ) * 2 ^ j ↔ withSign neg w < (k : ℚ) * 2 ^ j) := by
  cases neg
  · exact h k j hk
  · obtain ⟨h1, h2⟩ := h (-k) j (by rwa [abs_neg])
    push_cast at h1 h2
    simp only [withSign, if_true]
    rw [lt_neg, lt_neg (b := w), neg_lt, neg_lt (a := w), ← neg_mul]
    exact ⟨h2, h1⟩

theorem isZero_num {n : Bool} {m : Nat} {e : Int} : (FVal.num n m e).isZero = false ↔ m ≠ 0 := by
  cases m <;> simp [FVal.isZero]

/-- The quotient of numbers, with its sign, lies on the same side of each number with up to 129 bits as the exact one. -/
theorem div_num {a b : FVal} (ha : Claim.finite a) (hb : Claim.finite b) (h0 : b.isZero = false) {K : Nat} (hK : K ≤ 129) :
    ∃ m e, a.div b = (.num (Claim.negative a != Claim.negative b) m e, 0) ∧ ∀ k j : Int, |k| < 2 ^ K →
      let v := Claim.rat (.num (Claim.negative a != Claim.negative b) m e)
      let w := Claim.rat a / Claim.rat b
      ((k : ℚ) * 2 ^ j < v ↔ (k : ℚ) * 2 ^ j < w) ∧ (v < (k : ℚ) * 2 ^ j ↔ w < (k : ℚ) * 2 ^ j) := by
  obtain ⟨na, ma, ea, rfl⟩ := exists_num ha
  obtain ⟨nb, mb, eb, rfl⟩ := exists_num hb
  have hmb := isZero_num.1 h0
  have hw : Claim.rat (.num na ma ea) / Claim.rat (.num nb mb eb) = withSign (na != nb)
      (((ma * 2 ^ (130 + Nat.log2 mb) : Nat) : ℚ) / mb * 2 ^ (ea - eb - (130 + Nat.log2 mb : Nat))) := by
    have hq : ((ma * 2 ^ (130 + Nat.log2 mb) : Nat) : ℚ) / mb * 2 ^ (ea - eb - (130 + Nat.log2 mb : Nat)) =
        ma * 2 ^ ea / (mb * 2 ^ eb) := by
      rw [zpow_sub₀ (by norm_num), zpow_sub₀ (by norm_num), zpow_natCast]
      have := two_zpow_pos eb
      have : (mb : ℚ) ≠ 0 := by exact_mod_cast hmb
      push_cast
      field_simp
    rw [hq, rat_num, rat_num]
    cases na <;> cases nb <;> simp [withSign, neg_div, div_neg]
  refine ⟨_, _, by simp only [FVal.div, if_neg hmb]; rfl, fun k j hk => ?_⟩
  dsimp only
  simp only [Claim.negative]
  rw [hw, rat_num]
  refine withSign_sides (K := K) (fun k j hk => ?_) _ k j hk
  rcases Nat.eq_zero_or_pos ma with rfl | hma
  · simp
  · refine quotient_sides (K := K) (Nat.pos_of_ne_zero hmb) ?_ hk j _
    rw [Nat.le_div_iff_mul_le (Nat.pos_of_ne_zero hmb)]
    have hlog : mb < 2 ^ (Nat.log2 mb + 1) := Nat.lt_log2_self
    calc 2 ^ K * mb ≤ 2 ^ 129 * 2 ^ (Nat.log2 mb + 1) :=
          Nat.mul_le_mul (Nat.pow_le_pow_right (by norm_num) hK) hlog.le
      _ = 2 ^ (130 + Nat.log2 mb) := by rw [← pow_add]; congr 1; omega
      _ ≤ ma * 2 ^ (130 + Nat.log2 mb) := Nat.le_mul_of_pos_left _ hma

/-! #### Roots -/

/-- The square root from bit `k - 1` down, of a number below the square of what those bits reach. -/
theorem isqrt_spec {n : Nat} (k r : Nat) (hlo : r * r ≤ n) (hhi : n < (r + 2 ^ k) * (r + 2 ^ k)) :
    isqrt n k r * isqrt n k r ≤ n ∧ n < (isqrt n k r + 1) * (isqrt n k r + 1) := by
  induction k generalizing r with
  | zero => exact ⟨hlo, hhi⟩
  | succ k ih =>
    unfold isqrt
    split
    · rename_i h
      exact ih _ h (by rwa [add_assoc, ← two_mul, ← pow_succ'])
    · rename_i h
      exact ih _ hlo (not_le.1 h)

/-- Where a whole number that is not negative stands against a root: the last bit makes up for what is left. -/
theorem lt_root {n r : Nat} (hlo : r * r ≤ n) (hhi : n < (r + 1) * (r + 1)) {i : Int} (hi : 0 ≤ i) :
    (i * i < n ↔ i < r + (if r * r = n then 0 else 1 : Nat)) ∧ ((n : Int) < i * i ↔ r < i) := by
  lift i to Nat using hi
  have hmono : ∀ x y : Nat, x * x < y * y ↔ x < y := fun x y => Nat.mul_self_lt_mul_self_iff
  norm_cast
  split
  · subst_vars
    exact ⟨hmono _ _, hmono _ _⟩
  · rename_i hne
    refine ⟨⟨fun h => (hmono _ _).1 (h.trans hhi), fun h => ?_⟩, fun h => (hmono _ _).1 (hlo.trans_lt h), fun h => ?_⟩
    · exact (Nat.mul_self_le_mul_self (Nat.lt_succ_iff.1 h)).trans_lt (lt_of_le_of_ne hlo hne)
    · exact hhi.trans_le (Nat.mul_self_le_mul_self h)

/-- A number with few bits that is not negative lies on the same side of the model's root as of the exact one. -/
theorem root_sides {K n r : Nat} (hlo : r * r ≤ n) (hhi : n < (r + 1) * (r + 1)) (hr : 2 ^ K ≤ r) {k : Int} (h0 : 0 ≤ k)
    (hk : k < 2 ^ K) (j t : Int) :
    let y := (k : ℚ) * 2 ^ j
    let v := ((2 * r + (if r * r = n then 0 else 1) : Nat) : ℚ) * 2 ^ (t - 1)
    let w := (n : ℚ) * (2 ^ t) ^ 2
    (y < v ↔ y ^ 2 < w) ∧ (v < y ↔ w < y ^ 2) := by
  have hst : (if r * r = n then 0 else 1) ≤ 1 := by split <;> omega
  have hp := two_zpow_pos t
  have hy : (0 : ℚ) ≤ (k : ℚ) * 2 ^ j := mul_nonneg (by exact_mod_cast h0) (two_zpow_pos j).le
  dsimp only
  rcases grid_or_small hr (by rwa [abs_of_nonneg h0]) j t with ⟨i, hi⟩ | hs
  · have hi0 : 0 ≤ i := by
      rw [hi] at hy
      exact_mod_cast nonneg_of_mul_nonneg_left hy hp
    obtain ⟨h1, h2⟩ := unit_lt_sticky (q := r) hst i t
    obtain ⟨h3, h4⟩ := lt_root hlo hhi hi0
    have hp2 : (0 : ℚ) < (2 ^ t) ^ 2 := by positivity
    rw [hi, h1, h2, mul_pow, mul_lt_mul_iff_left₀ hp2, mul_lt_mul_iff_left₀ hp2, ← h3, ← h4, sq]
    exact ⟨by exact_mod_cast Iff.rfl, by exact_mod_cast Iff.rfl⟩
  · have hv := small_lt_sticky (if r * r = n then 0 else 1) hs
    have hw : ((k : ℚ) * 2 ^ j) ^ 2 < n * (2 ^ t) ^ 2 := by
      rw [abs_of_nonneg hy] at hs
      have hlo : (r : ℚ) ^ 2 ≤ n := by rw [sq]; exact_mod_cast hlo
      calc ((k : ℚ) * 2 ^ j) ^ 2 < (r * 2 ^ t) ^ 2 := by gcongr
        _ = (r : ℚ) ^ 2 * (2 ^ t) ^ 2 := mul_pow _ _ _
        _ ≤ _ := by gcongr
    exact ⟨iff_of_true hv hw, iff_of_false hv.not_gt hw.not_gt⟩

/-- The root of a positive number with at most 64 bits. -/
theorem sqrt_num {m : Nat} (hm : 0 < m) (hlt : m < 2 ^ 64) (e : Int) {K : Nat} (hK : K ≤ 64) :
    ∃ m' e', (FVal.num false m e).sqrt = (.num false m' e', 0) ∧ ∀ k j : Int, 0 ≤ k → k < 2 ^ K →
      let v := Claim.rat (.num false m' e')
      let w := Claim.rat (.num false m e)
      ((k : ℚ) * 2 ^ j < v ↔ ((k : ℚ) * 2 ^ j) ^ 2 < w) ∧ (v < (k : ℚ) * 2 ^ j ↔ w < ((k : ℚ) * 2 ^ j) ^ 2) := by
  have hmod : e.emod 2 = e % 2 := rfl
  obtain ⟨sh, hsh, h130, h131⟩ : ∃ sh : Nat, 130 + e.emod 2 = sh ∧ 130 ≤ sh ∧ sh ≤ 131 :=
    ⟨(130 + e.emod 2).toNat, by omega, by omega, by omega⟩
  have hsqrt : (FVal.num false m e).sqrt = (.num false (2 * isqrt (m * 2 ^ sh) 128 0 +
      (if isqrt (m * 2 ^ sh) 128 0 * isqrt (m * 2 ^ sh) 128 0 = m * 2 ^ sh then 0 else 1)) ((e - sh) / 2 - 1), 0) := by
    simp only [FVal.sqrt, if_neg hm.ne', hsh, Int.toNat_natCast, Bool.false_eq_true, if_false]
  have hlow : 2 ^ 130 ≤ m * 2 ^ sh :=
    (Nat.pow_le_pow_right (by norm_num) h130).trans (Nat.le_mul_of_pos_left _ hm)
  have hhigh : m * 2 ^ sh < 2 ^ 195 :=
    calc m * 2 ^ sh < 2 ^ 64 * 2 ^ sh := Nat.mul_lt_mul_of_pos_right hlt (Nat.two_pow_pos _)
      _ ≤ 2 ^ 64 * 2 ^ 131 := Nat.mul_le_mul_left _ (Nat.pow_le_pow_right (by norm_num) h131)
      _ = 2 ^ 195 := by norm_num
  have hw : Claim.rat (.num false m e) = (m * 2 ^ sh : Nat) * (2 ^ ((e - sh) / 2)) ^ 2 := by
    have hT : e = (e - sh) / 2 * 2 + sh := by omega
    have hpow : (2 : ℚ) ^ e = (2 ^ ((e - sh) / 2)) ^ 2 * 2 ^ sh := by
      conv_lhs => rw [hT]
      rw [zpow_add₀ (by norm_num), zpow_natCast, zpow_mul, ← zpow_natCast _ 2]
      rfl
    rw [rat_num, hpow]
    push_cast
    simp only [withSign, Bool.false_eq_true, if_false]
    ring
  generalize m * 2 ^ sh = n at hlow hhigh hw hsqrt
  obtain ⟨hlo, hhi⟩ := isqrt_spec (n := n) 128 0 (Nat.zero_le n) (by omega)
  have hr : 2 ^ K ≤ isqrt n 128 0 := by
    refine (Nat.pow_le_pow_right (by norm_num) hK).trans (not_lt.1 fun hc => ?_)
    have : (isqrt n 128 0 + 1) * (isqrt n 128 0 + 1) ≤ 2 ^ 64 * 2 ^ 64 := Nat.mul_le_mul hc hc
    omega
  refine ⟨_, _, hsqrt, fun k j h0 hk => ?_⟩
  dsimp only
  rw [hw, rat_num]
  exact root_sides hlo hhi hr h0 hk j _

/-! #### Special operands -/

theorem div_zero_num {a b : FVal} (ha : Claim.finite a) (h0 : a.isZero = false) (hb : b.isZero = true) :
    a.div b = (.inf (Claim.negative a != Claim.negative b), flDZ) := by
  obtain ⟨n, m, e, rfl⟩ := exists_num ha
  rw [isZero_num] at h0
  cases b with
  | num n' m' e' => cases m' <;> simp_all [FVal.isZero, FVal.div, Claim.negative]
  | _ => simp [FVal.isZero] at hb

theorem zero_div_zero {a b : FVal} (ha : a.isZero = true) (hb : b.isZero = true) : a.div b = (.nan false, flNV) := by
  cases a with
  | num n m e =>
    cases b with
    | num n' m' e' => cases m <;> cases m' <;> simp_all [FVal.isZero, FVal.div]
    | _ => simp [FVal.isZero] at hb
  | _ => simp [FVal.isZero] at ha

theorem inf_div (x : Bool) {b : FVal} (hb : Claim.finite b) : (FVal.inf x).div b = (.inf (x != Claim.negative b), 0) := by
  obtain ⟨n, m, e, rfl⟩ := exists_num hb
  rfl

theorem div_inf (y : Bool) {a : FVal} (ha : Claim.finite a) :
    ∃ e, a.div (.inf y) = (.num (Claim.negative a != y) 0 e, 0) := by
  obtain ⟨n, m, e, rfl⟩ := exists_num ha
  exact ⟨e, rfl⟩

theorem sqrt_nan {a : FVal} (h : a.isNan) : a.sqrt = (.nan false, a.sig) := by
  cases a with
  | nan q => rfl
  | _ => simp [FVal.isNan] at h

theorem sqrt_zero {a : FVal} (h : a.isZero = true) : ∃ e, a.sqrt = (.num (Claim.negative a) 0 e, 0) := by
  cases a with
  | num n m e => cases m <;> simp_all [FVal.isZero, FVal.sqrt, Claim.negative]
  | _ => simp [FVal.isZero] at h

theorem sqrt_negative {a : FVal} (h : Claim.rat a < 0) : a.sqrt = (.nan false, flNV) := by
  cases a with
  | num n m e =>
    have h0 : (0 : ℚ) ≤ m * 2 ^ e := mul_nonneg (Nat.cast_nonneg m) (two_zpow_pos e).le
    have hm : m ≠ 0 := by rintro rfl; simp [Claim.rat] at h
    cases n
    · simp [rat_num, withSign] at h
      linarith
    · simp [FVal.sqrt, hm]
  | _ => simp [Claim.rat] at h

theorem exists_of_rat_pos {a : FVal} (h : 0 < Claim.rat a) : ∃ m e, 0 < m ∧ a = .num false m e := by
  cases a with
  | num n m e =>
    have h0 : (0 : ℚ) ≤ m * 2 ^ e := mul_nonneg (Nat.cast_nonneg m) (two_zpow_pos e).le
    cases n
    · exact ⟨m, e, Nat.pos_of_ne_zero (by rintro rfl; simp [Claim.rat] at h), rfl⟩
    · simp [rat_num, withSign] at h
      linarith
  | _ => simp [Claim.rat] at h

/-! ### Numbers that a format holds -/

variable {F : FFmt}

/-- The integer of a decoded number has no more bits than the format has fraction bits, and one. -/
theorem decode_mant_lt {ftz : Bool} {v : Nat} {n : Bool} {m : Nat} {e : Int} (h : F.decode ftz v = .num n m e) :
    m < 2 ^ (F.m + 1) := by
  have hmod : v % 2 ^ F.m < 2 ^ F.m := Nat.mod_lt _ (Nat.two_pow_pos _)
  simp only [FFmt.decode] at h
  rw [pow_succ]
  split at h
  · split at h <;> cases h
  · split at h
    · cases h
    · split at h
      · simp only [FVal.num.injEq] at h
        obtain ⟨-, rfl, -⟩ := h
        split <;> omega
      · simp only [FVal.num.injEq] at h
        obtain ⟨-, rfl, -⟩ := h
        omega

/-- The root of a positive number that a format holds. -/
theorem sqrt_decode (hF : F.m ≤ 52) {ftz : Bool} {q : Nat} (h : 0 < Claim.rat (F.decode ftz q)) :
    ∃ m e, (F.decode ftz q).sqrt = (.num false m e, 0) ∧ ∀ k j : Int, 0 ≤ k → k < 2 ^ (F.m + 3) →
      let v := Claim.rat (.num false m e)
      let w := Claim.rat (F.decode ftz q)
      ((k : ℚ) * 2 ^ j < v ↔ ((k : ℚ) * 2 ^ j) ^ 2 < w) ∧ (v < (k : ℚ) * 2 ^ j ↔ w < ((k : ℚ) * 2 ^ j) ^ 2) := by
  obtain ⟨m, e, hpos, he⟩ := exists_of_rat_pos h
  have hlt : m < 2 ^ 64 := (decode_mant_lt he).trans_le (Nat.pow_le_pow_right (by norm_num) (by omega))
  rw [he]
  exact sqrt_num hpos hlt e (by omega)

/-- A number that a format holds has few bits. -/
theorem rat_decode_bits {v : Nat} (h : Claim.finite (F.decode false v)) :
    ∃ k j : Int, |k| < 2 ^ (F.m + 1) ∧ Claim.rat (F.decode false v) = k * 2 ^ j := by
  obtain ⟨n, m, e, hd⟩ := exists_num h
  have hm : (m : Int) < 2 ^ (F.m + 1) := by exact_mod_cast decode_mant_lt hd
  refine ⟨if n then -m else m, e, ?_, ?_⟩
  · split <;> simpa using hm
  · rw [hd, rat_num]
    cases n <;> simp [withSign]

/-- A number with the sign and the value of an encoding is rounded to that encoding, with no flag (R88). -/
theorem round_of_rat (hF : F.Proper) {q : Nat} (hq : q < 2 ^ F.bits) (hfin : Claim.finite (F.decode false q))
    {n : Bool} {m : Nat} {e : Int} (hn : F.signBit q = n) (h : Claim.rat (.num n m e) = Claim.rat (F.decode false q))
    (r : Rounding) (sat : Bool) : F.round r sat false (.num n m e) = (q, 0) := by
  obtain ⟨k, b, hb, rfl⟩ := exists_signed_of_finite hq hfin
  rw [FFmt.signBit, signed_testBit k (hb.trans_lt (maxMag_lt hF))] at hn
  subst hn
  rw [rat_decode_signed hF k hb, rat_num] at h
  exact round_exact hb (withSign_injective k h) r k sat

/-- A positive number has a clear sign bit. -/
theorem signBit_of_rat_pos (hF : F.Proper) {q : Nat} (hq : q < 2 ^ F.bits) (hfin : Claim.finite (F.decode false q))
    (h : 0 < Claim.rat (F.decode false q)) : F.signBit q = false := by
  obtain ⟨k, b, hb, rfl⟩ := exists_signed_of_finite hq hfin
  rw [rat_decode_signed hF k hb] at h
  rw [FFmt.signBit, signed_testBit k (hb.trans_lt (maxMag_lt hF))]
  cases k
  · rfl
  · have := mag_nonneg F b
    simp [withSign] at h
    linarith

theorem round_zero (r : Rounding) (sat ftz n : Bool) (e : Int) : F.round r sat ftz (.num n 0 e) = (F.signed n 0, 0) := rfl

theorem scalarFmt_m_le (f : Nat) : (scalarFmt f).m ≤ 52 := by
  unfold scalarFmt
  split <;> decide

end Sys2Proof.Machine

section
open Sys2Proof Sys2Proof.Machine

/-- Settles O22: a number with few bits lies on the same side of the model's quotient or root as of the exact one, and a
number that the format holds is equal to it exactly where it is to the exact one. -/
theorem floatQuotientsAndRoots : Obligations.FloatQuotientsAndRoots := by
  intro s d a b r f F A B sign
  have hF : F.Proper := scalarFmt_proper _
  have hm : F.m ≤ 52 := scalarFmt_m_le _
  have hdiv : exec (.fdiv d a b r f) s = .next (s.putF F d (s.roundF F r (A.div B))) := rfl
  have hsqrt : exec (.fsqrt d a r f) s = .next (s.putF F d (s.roundF F r A.sqrt)) := rfl
  have hquot := fun (hA : Claim.finite A) (hB : Claim.finite B) (h0 : B.isZero = false) =>
    div_num hA hB h0 (K := F.m + 3) (by omega)
  have hroot : 0 < Claim.rat A → _ := sqrt_decode hm
  refine ⟨⟨_, _, hdiv⟩, ⟨_, _, hsqrt⟩, fun hA h0 hB => writesF_inf hdiv (div_zero_num hA h0 hB),
    fun hA hB => writesF_nan hdiv (zero_div_zero hA hB), fun x y hA hB => writesF_nan hdiv (by rw [hA, hB]; rfl),
    fun x hA hB => ?_, fun y hA hB => ?_, ⟨fun hA hB h0 => ?_, fun hA hpos => ?_⟩,
    fun hA => writesF_inf hsqrt (by rw [hA]; rfl), fun hA => writesF_nan hsqrt (by rw [hA]; rfl),
    fun hA => writesF_nan hsqrt (sqrt_nan hA), fun q hq hftz hA hB h0 hfin hrat hsign => ?_,
    fun hA hneg => writesF_nan hsqrt (sqrt_negative hneg), fun h0 => ?_,
    fun q hq hftz hA hpos hfin hqpos hrat => ?_⟩
  · have := inf_div x hB
    rw [← hA] at this
    exact writesF_inf hdiv (by rw [this]; simp only [sign, hA]; rfl)
  · obtain ⟨e, he⟩ := div_inf y hA
    rw [← hB] at he
    have hs : sign = (Claim.negative A != y) := by simp only [sign, hB]; rfl
    have := writesF_rounded hdiv he
    rwa [round_zero, ← hs] at this
  · obtain ⟨m, e, hv, hsides⟩ := hquot hA hB h0
    exact ⟨m, e, writesF_rounded hdiv hv, hsides⟩
  · obtain ⟨m, e, hv, hsides⟩ := hroot hpos
    exact ⟨m, e, writesF_rounded hsqrt hv, hsides⟩
  · obtain ⟨m, e, hv, hsides⟩ := hquot hA hB h0
    obtain ⟨k, j, hk, hkj⟩ := rat_decode_bits hfin
    have hB0 : Claim.rat B ≠ 0 := by
      obtain ⟨n, mb, eb, hBe⟩ := exists_num hB
      rw [hBe] at h0 ⊢
      have := two_zpow_pos eb
      have hmb : (mb : ℚ) ≠ 0 := by exact_mod_cast isZero_num.1 h0
      cases n <;> simp [rat_num, withSign, hmb, this.ne']
    have hkv : (k : ℚ) * 2 ^ j = Claim.rat A / Claim.rat B := by rw [← hkj, ← hrat, mul_div_cancel_right₀ _ hB0]
    obtain ⟨h1, h2⟩ := hsides k j (hk.trans_le (pow_le_pow_right₀ (by norm_num) (by omega)))
    rw [hkv] at h1 h2
    have heq := le_antisymm (not_lt.1 (mt h1.1 (lt_irrefl _))) (not_lt.1 (mt h2.1 (lt_irrefl _)))
    have := writesF_rounded hdiv hv
    rw [hftz, round_of_rat hF hq hfin hsign (by rw [hkj, hkv, heq])] at this
    exact this
  · obtain ⟨e, he⟩ := sqrt_zero h0
    have := writesF_rounded hsqrt he
    rwa [round_zero] at this
  · obtain ⟨m, e, hv, hsides⟩ := hroot hpos
    obtain ⟨k, j, hk, hkj⟩ := rat_decode_bits hfin
    have hk0 : 0 ≤ k := by
      rw [hkj] at hqpos
      exact_mod_cast (pos_of_mul_pos_left hqpos (two_zpow_pos j).le).le
    rw [abs_of_nonneg hk0] at hk
    obtain ⟨h1, h2⟩ := hsides k j hk0 (hk.trans_le (pow_le_pow_right₀ (by norm_num) (by omega)))
    rw [← hkj, hrat] at h1 h2
    have heq := le_antisymm (not_lt.1 (mt h1.1 (lt_irrefl _))) (not_lt.1 (mt h2.1 (lt_irrefl _)))
    have := writesF_rounded hsqrt hv
    rw [hftz, round_of_rat hF hq hfin (signBit_of_rat_pos hF hq hfin hqpos) heq] at this
    exact this

end

namespace Sys2Proof.Machine

/-! ### The order of values (R91) -/

theorem compare_mantAt (na nb : Bool) (ma mb : Nat) (ea eb : Int) :
    let x := mantAt na ma ea (min ea eb)
    let y := mantAt nb mb eb (min ea eb)
    (x < y ↔ Claim.rat (.num na ma ea) < Claim.rat (.num nb mb eb)) ∧
      (y < x ↔ Claim.rat (.num nb mb eb) < Claim.rat (.num na ma ea)) := by
  have hp := two_zpow_pos (min ea eb)
  dsimp only
  rw [← mantAt_rat na ma (min_le_left ea eb), ← mantAt_rat nb mb (min_le_right ea eb), mul_lt_mul_iff_left₀ hp,
    mul_lt_mul_iff_left₀ hp, Int.cast_lt, Int.cast_lt]
  exact ⟨Iff.rfl, Iff.rfl⟩

/-- How two values that are no NaN compare. -/
theorem cmp_spec {a b : FVal} (ha : a.isNan = false) (hb : b.isNan = false) :
    (a.cmp b = some .lt ∧ Claim.below a b) ∨ (a.cmp b = some .gt ∧ Claim.below b a) ∨
      (a.cmp b = some .eq ∧ ¬ Claim.below a b ∧ ¬ Claim.below b a) := by
  cases a with
  | nan q => cases ha
  | inf x =>
    cases b with
    | nan q => cases hb
    | inf y => cases x <;> cases y <;> simp [FVal.cmp, Claim.below]
    | num n m e => cases x <;> simp [FVal.cmp, Claim.below]
  | num na ma ea =>
    cases b with
    | nan q => cases hb
    | inf y => cases y <;> simp [FVal.cmp, Claim.below]
    | num nb mb eb =>
      obtain ⟨hlt, hgt⟩ := compare_mantAt na nb ma mb ea eb
      simp only [FVal.cmp, Claim.below, ← hlt, ← hgt, Option.some.injEq, compare_lt_iff_lt, compare_gt_iff_gt,
        compare_eq_iff_eq]
      omega

theorem below_asymm {a b : FVal} (ha : a.isNan = false) (hb : b.isNan = false) (h : Claim.below a b) :
    ¬ Claim.below b a := by
  cases a with
  | nan q => cases ha
  | inf x =>
    cases b with
    | nan q => cases hb
    | inf y => cases x <;> cases y <;> simp_all [Claim.below]
    | num n m e => cases x <;> simp_all [Claim.below]
  | num na ma ea =>
    cases b with
    | nan q => cases hb
    | inf y => cases y <;> simp_all [Claim.below]
    | num nb mb eb => exact not_lt.2 (le_of_lt h)

theorem cmp_of_below {a b : FVal} (ha : a.isNan = false) (hb : b.isNan = false) (h : Claim.below a b) :
    a.cmp b = some .lt := by
  rcases cmp_spec ha hb with ⟨e, -⟩ | ⟨-, h'⟩ | ⟨-, h', -⟩
  · exact e
  · exact absurd h' (below_asymm ha hb h)
  · exact absurd h h'

theorem cmp_of_above {a b : FVal} (ha : a.isNan = false) (hb : b.isNan = false) (h : Claim.below b a) :
    a.cmp b = some .gt := by
  rcases cmp_spec ha hb with ⟨-, h'⟩ | ⟨e, -⟩ | ⟨-, -, h'⟩
  · exact absurd h' (below_asymm hb ha h)
  · exact e
  · exact absurd h h'

theorem cmp_of_level {a b : FVal} (ha : a.isNan = false) (hb : b.isNan = false) (h : ¬ Claim.below a b)
    (h' : ¬ Claim.below b a) : a.cmp b = some .eq := by
  rcases cmp_spec ha hb with ⟨-, k⟩ | ⟨-, k⟩ | ⟨e, -⟩
  · exact absurd k h
  · exact absurd k h'
  · exact e

theorem cmp_nan {a b : FVal} (h : a.isNan ∨ b.isNan) : a.cmp b = none := by
  cases a <;> cases b <;> simp_all [FVal.cmp, FVal.isNan]

/-- `less` is the order of R91, where −0 is less than +0. -/
theorem less_iff {a b : FVal} (ha : a.isNan = false) (hb : b.isNan = false) : a.less b = true ↔
    Claim.below a b ∨ (a.isZero = true ∧ b.isZero = true ∧ Claim.negative a = true ∧ Claim.negative b = false) := by
  have hzero : a.isZero = true → b.isZero = true → ¬ Claim.below a b ∧ ¬ Claim.below b a := fun h h' => by
    cases a with
    | num na ma ea =>
      cases b with
      | num nb mb eb => cases ma <;> cases mb <;> simp_all [FVal.isZero, Claim.below, Claim.rat]
      | _ => simp [FVal.isZero] at h'
    | _ => simp [FVal.isZero] at h
  rcases cmp_spec ha hb with ⟨e, h⟩ | ⟨e, h⟩ | ⟨e, h, h'⟩
  · simp [FVal.less, e, h]
  · simp only [FVal.less, e, below_asymm hb ha h, Bool.false_eq_true, false_or, false_iff]
    exact fun ⟨z, z', _⟩ => (hzero z z').2 h
  · simp only [FVal.less, e, h, false_or]
    cases a with
    | nan q => cases ha
    | inf x => simp [FVal.isZero]
    | num na ma ea =>
      cases b with
      | nan q => cases hb
      | inf y => simp [FVal.isZero]
      | num nb mb eb => cases ma <;> cases mb <;> simp [FVal.isZero, Claim.negative]

/-! ### Comparison forms (R220) -/

section
variable {i : Instr} {s : State} {d : Reg} {quiet : Bool} {p : Ordering → Bool} {a b : FVal}
  (h : exec i s = .next (s.putX d (boolWord (FVal.test quiet p a b).1) (FVal.test quiet p a b).2))
include h

theorem writesX_cmp {o : Ordering} {w : Word} (ho : a.cmp b = some o) (hw : boolWord (p o) = w) :
    Claim.WritesX i s d w 0 := by
  rw [Claim.WritesX, h, State.putX, FVal.test, ho, ← hw]

theorem writesX_nan (hn : a.isNan ∨ b.isNan) : Claim.WritesX i s d 0 (if quiet then a.sig ||| b.sig else flNV) := by
  rw [Claim.WritesX, h, State.putX, FVal.test, cmp_nan hn]
  rfl

end

/-! ### Encodings taken as they stand (R91, R219, R220) -/

variable {F : FFmt}

theorem scalarFmt_nan_lt (f : Nat) : (scalarFmt f).nan < 2 ^ (scalarFmt f).bits := by
  unfold scalarFmt
  split <;> decide

theorem unbox_lt (f : Nat) (w : Word) : unbox (scalarFmt f) w < 2 ^ (scalarFmt f).bits := by
  unfold unbox
  split
  · rename_i h
    rw [h]
    exact w.isLt
  · split
    · exact Nat.mod_lt _ (Nat.two_pow_pos _)
    · exact scalarFmt_nan_lt f

/-- An encoding of a zero is a sign. -/
theorem eq_signed_of_zero (hF : F.Proper) {v : Nat} (hv : v < 2 ^ F.bits) {n : Bool} {e : Int}
    (h : F.decode false v = .num n 0 e) : v = F.signed n 0 := by
  obtain ⟨k, b, hb, rfl⟩ := exists_signed_of_finite hv (by rw [h]; trivial)
  have hrat := rat_decode_signed hF k hb
  rw [h, rat_num, Nat.cast_zero, zero_mul] at hrat
  have hmag : F.mag b = F.mag 0 := by
    have := congrArg abs hrat
    rw [abs_withSign n le_rfl, abs_withSign k (mag_nonneg F b)] at this
    rw [← this, mag_zero]
  rw [(mag_strictMono F).injective hmag] at h ⊢
  rw [decode_signed hF k (Nat.zero_le _)] at h
  obtain ⟨rfl, -⟩ := FVal.num.inj h
  rfl

/-- What minimum and maximum make of the operand that they return: a zero, where it counts as one (R90, R91). -/
def FFmt.kept (F : FFmt) (v : FVal) (x : Nat) : Nat :=
  match v with
  | .num n 0 _ => F.signed n 0
  | _ => x

/-- Where FTZ is clear, the operand is returned as it is. -/
theorem kept_decode (hF : F.Proper) {v : Nat} (hv : v < 2 ^ F.bits) : F.kept (F.decode false v) v = v := by
  unfold FFmt.kept
  split
  · rename_i h
    exact (eq_signed_of_zero hF hv h).symm
  · rfl

theorem minmax_eq (F : FFmt) (ftz isMax : Bool) (x y : Nat) : F.minmax ftz isMax x y =
    let a := F.decode ftz x
    let b := F.decode ftz y
    (if a.isNan then (if b.isNan then F.nan else F.kept b y)
      else if b.isNan || a.less b != isMax then F.kept a x else F.kept b y, a.sig ||| b.sig) := by
  unfold FFmt.minmax
  dsimp only
  generalize F.decode ftz x = a
  generalize F.decode ftz y = b
  cases a with
  | nan q => cases b <;> rfl
  | inf n =>
    cases b with
    | nan q => rfl
    | _ => simp only [FVal.isNan]; split <;> simp_all <;> rfl
  | num n m e =>
    cases b with
    | nan q => rfl
    | _ => simp only [FVal.isNan]; split <;> simp_all <;> rfl

section
variable (hF : F.Proper) {x y : Nat} (hx : x < 2 ^ F.bits) (hy : y < 2 ^ F.bits)
include hF hx hy

/-- Where FTZ is clear, minimum and maximum return an operand as it is, or the canonical NaN. -/
theorem minmax_encodings (isMax : Bool) : F.minmax false isMax x y =
    let a := F.decode false x
    let b := F.decode false y
    (if a.isNan then (if b.isNan then F.nan else y) else if b.isNan || a.less b != isMax then x else y,
      a.sig ||| b.sig) := by
  simp only [minmax_eq, kept_decode hF hx, kept_decode hF hy]

/-- Two zeros with set sign bits are one encoding. -/
theorem eq_of_negative_zeros (ha : (F.decode false x).isZero = true) (hb : (F.decode false y).isZero = true)
    (hn : Claim.negative (F.decode false x) = true) (hn' : Claim.negative (F.decode false y) = true) : x = y := by
  have key : ∀ v < 2 ^ F.bits, (F.decode false v).isZero = true → Claim.negative (F.decode false v) = true →
      v = F.signed true 0 := fun v hv hz hneg => by
    generalize hd : F.decode false v = w at hz hneg
    cases w with
    | num n m e =>
      obtain rfl : m = 0 := by cases m <;> simp_all [FVal.isZero]
      obtain rfl : n = true := hneg
      exact eq_signed_of_zero hF hv hd
    | _ => simp [FVal.isZero] at hz
  rw [key x hx ha hn, key y hy hb hn']

/-- The operand that stands under the other is the minimum, and the other the maximum (R91). -/
theorem minmax_numbers (ha : (F.decode false x).isNan = false) (hb : (F.decode false y).isNan = false) (isMax : Bool) :
    let a := F.decode false x
    let b := F.decode false y
    let under := Claim.below a b ∨ (a.isZero = true ∧ b.isZero = true ∧ Claim.negative a = true)
    (under → F.minmax false isMax x y = (if isMax then y else x, 0)) ∧
      (¬ under → F.minmax false isMax x y = (if isMax then x else y, 0)) := by
  have hsel : F.minmax false isMax x y =
      (if (F.decode false x).less (F.decode false y) != isMax then x else y, 0) := by
    rw [minmax_encodings hF hx hy]
    simp [ha, hb, sig_of_not_nan]
  refine ⟨fun h => ?_, fun h => ?_⟩
  · have hu : (F.decode false x).less (F.decode false y) = true ∨ x = y := by
      rcases h with h | ⟨hz, hz', hn⟩
      · exact .inl ((less_iff ha hb).2 (.inl h))
      · by_cases hn' : Claim.negative (F.decode false y) = true
        · exact .inr (eq_of_negative_zeros hF hx hy hz hz' hn hn')
        · exact .inl ((less_iff ha hb).2 (.inr ⟨hz, hz', hn, by simpa using hn'⟩))
    rw [hsel]
    rcases hu with hu | hu
    · cases isMax <;> simp [hu]
    · simp [hu]
  · have hu : (F.decode false x).less (F.decode false y) = false := Bool.eq_false_iff.2 fun hl =>
      h (((less_iff ha hb).1 hl).imp_right fun ⟨hz, hz', hn, _⟩ => ⟨hz, hz', hn⟩)
    rw [hsel, hu]
    cases isMax <;> rfl

/-- A NaN gives way to the other operand, and two NaNs give the canonical one (R91). -/
theorem minmax_nan (isMax : Bool) :
    let a := F.decode false x
    let b := F.decode false y
    (a.isNan = true → b.isNan = false → F.minmax false isMax x y = (y, a.sig)) ∧
      (a.isNan = false → b.isNan = true → F.minmax false isMax x y = (x, b.sig)) ∧
      (a.isNan = true → b.isNan = true → F.minmax false isMax x y = (F.nan, a.sig ||| b.sig)) := by
  simp only [minmax_encodings hF hx hy]
  refine ⟨fun ha hb => ?_, fun ha hb => ?_, fun ha hb => ?_⟩
  · simp [ha, hb, sig_of_not_nan hb]
  · simp [ha, hb, sig_of_not_nan ha]
  · simp [ha, hb]

end

/-! #### Sign bits and classes -/

theorem half_eq (F : FFmt) : 2 ^ (F.bits - 1) = 2 ^ (F.e + F.m) := by
  rw [FFmt.bits, Nat.add_assoc, Nat.add_sub_cancel_left]

theorem signBit_eq {v : Nat} (hv : v < 2 ^ F.bits) : (if F.signBit v then 1 else 0) = v / 2 ^ (F.e + F.m) := by
  obtain ⟨n, b, hb, rfl⟩ := exists_signed hv
  rw [FFmt.signBit, signed_testBit n hb]
  unfold FFmt.signed
  cases n
  · simp [Nat.div_eq_of_lt hb]
  · simp [Nat.add_div_left, Nat.div_eq_of_lt hb]

theorem classify_eq (F : FFmt) (v : Nat) : F.classify v = 2 ^ (match F.decode false v with
    | .inf n => if n then 0 else 7
    | .num n m _ => if m = 0 then (if n then 3 else 4)
      else if m < 2 ^ F.m then (if n then 2 else 5) else (if n then 1 else 6)
    | .nan g => if g then 8 else 9) := by
  unfold FFmt.classify
  generalize F.decode false v = w
  cases w with
  | nan q => cases q <;> rfl
  | inf n => cases n <;> rfl
  | num n m e => simp only [apply_ite (fun k => 2 ^ k)]

theorem inject_eq {x y : Nat} (g : Bool → Bool → Bool) : F.inject g x y =
    x % 2 ^ (F.e + F.m) + (if g (F.signBit x) (F.signBit y) then 1 else 0) * 2 ^ (F.e + F.m) := by
  rw [FFmt.inject, FFmt.signed, Nat.add_comm]
  split <;> simp

end Sys2Proof.Machine

section
open Sys2Proof Sys2Proof.Machine

/-- Settles O24: a comparison follows the order of its operands; minimum, maximum, the sign forms, `fclass` and the moves
act on encodings as they stand. -/
theorem floatComparisonsAndSelections : Obligations.FloatComparisonsAndSelections := by
  refine ⟨fun s d a b f => ?_, fun s d a b f => ?_⟩
  · intro F A B
    have hfeq : exec (.feq d a b f) s = .next (s.putX d (boolWord (FVal.test true (· == .eq) A B).1)
      (FVal.test true (· == .eq) A B).2) := rfl
    have hflt : exec (.flt d a b f) s = .next (s.putX d (boolWord (FVal.test false (· == .lt) A B).1)
      (FVal.test false (· == .lt) A B).2) := rfl
    have hfle : exec (.fle d a b f) s = .next (s.putX d (boolWord (FVal.test false (· != .gt) A B).1)
      (FVal.test false (· != .gt) A B).2) := rfl
    refine ⟨fun hn => ⟨by simpa using writesX_nan hfeq hn, by simpa using writesX_nan hflt hn, by simpa using writesX_nan hfle hn⟩,
      fun hA hB => ⟨fun h => ?_, fun h => ?_, fun h h' => ?_⟩⟩
    · have hc := cmp_of_below hA hB h
      exact ⟨writesX_cmp hfeq hc rfl, writesX_cmp hflt hc rfl, writesX_cmp hfle hc rfl⟩
    · have hc := cmp_of_above hA hB h
      exact ⟨writesX_cmp hfeq hc rfl, writesX_cmp hflt hc rfl, writesX_cmp hfle hc rfl⟩
    · have hc := cmp_of_level hA hB h h'
      exact ⟨writesX_cmp hfeq hc rfl, writesX_cmp hflt hc rfl, writesX_cmp hfle hc rfl⟩
  · intro F x y A B half under
    have hF : F.Proper := scalarFmt_proper _
    have hx : x < 2 ^ F.bits := unbox_lt _ _
    have hy : y < 2 ^ F.bits := unbox_lt _ _
    have hmin : exec (.fmin d a b f) s = .next (s.putF F d (F.minmax s.me.ftz false x y)) := rfl
    have hmax : exec (.fmax d a b f) s = .next (s.putF F d (F.minmax s.me.ftz true x y)) := rfl
    have hhalf : half = 2 ^ (F.e + F.m) := half_eq F
    refine ⟨fun hftz => ?_, ?_, ?_, ?_, ?_, ?_, rfl⟩
    · rw [hftz] at hmin hmax
      refine ⟨fun hA hB => ⟨fun hu => ?_, fun hu => ?_⟩, fun hA hB => ?_, fun hA hB => ?_, fun hA hB => ?_⟩
      · have h := fun m => (minmax_numbers hF hx hy hA hB m).1 hu
        exact ⟨hmin.trans (by rw [h]; rfl), hmax.trans (by rw [h]; rfl)⟩
      · have h := fun m => (minmax_numbers hF hx hy hA hB m).2 hu
        exact ⟨hmin.trans (by rw [h]; rfl), hmax.trans (by rw [h]; rfl)⟩
      · have h := fun m => (minmax_nan hF hx hy m).1 hA hB
        exact ⟨hmin.trans (by rw [h]; rfl), hmax.trans (by rw [h]; rfl)⟩
      · have h := fun m => (minmax_nan hF hx hy m).2.1 hA hB
        exact ⟨hmin.trans (by rw [h]; rfl), hmax.trans (by rw [h]; rfl)⟩
      · have h := fun m => (minmax_nan hF hx hy m).2.2 hA hB
        exact ⟨hmin.trans (by rw [h]; rfl), hmax.trans (by rw [h]; rfl)⟩
    · have h : exec (.fsgnj d a b f) s = .next (s.putF F d (F.inject (fun _ q => q) x y, 0)) := rfl
      rw [inject_eq, signBit_eq hy, ← hhalf] at h
      exact h
    · have h : exec (.fsgnjn d a b f) s = .next (s.putF F d (F.inject (fun _ q => !q) x y, 0)) := rfl
      have hn : (if !F.signBit y then 1 else 0) = 1 - y / half := by
        rw [hhalf, ← signBit_eq hy]
        cases F.signBit y <;> rfl
      rw [inject_eq, hn, ← hhalf] at h
      exact h
    · have h : exec (.fsgnjx d a b f) s = .next (s.putF F d (F.inject (fun p q => p != q) x y, 0)) := rfl
      have hn : (if F.signBit x != F.signBit y then 1 else 0) = (x / half + y / half) % 2 := by
        rw [hhalf, ← signBit_eq hx, ← signBit_eq hy]
        cases F.signBit x <;> cases F.signBit y <;> rfl
      rw [inject_eq, hn, ← hhalf] at h
      exact h
    · have h : exec (.fclass d a f) s = .next (s.putX d (BitVec.ofNat 64 (F.classify x)) 0) := rfl
      rw [classify_eq] at h
      exact h
    · have h : exec (.fmvX d a f) s = .next (s.putX d (sextNat F.bits x) 0) := rfl
      rw [sextNat, Nat.mod_eq_of_lt hx] at h
      exact h

end

namespace Sys2Proof.Machine

/-! ### Numbers rounded to integers (R84, R89) -/

/-- A whole number with a sign. -/
def signInt (neg : Bool) (q : Nat) : Int := if neg then -(q : Int) else q

theorem signInt_cast (neg : Bool) (q : Nat) : (signInt neg q : ℚ) = withSign neg q := by
  cases neg <;> simp [signInt, withSign]

theorem abs_withSign_sub (neg : Bool) (x y : ℚ) : |withSign neg x - withSign neg y| = |x - y| := by
  cases neg
  · rfl
  · simp only [withSign, if_true]
    rw [neg_sub_neg, abs_sub_comm]

/-- A number rounded to an integer, with whether that changed it. -/
def FVal.toInteger (r : RMode) : FVal → Int × Bool
  | .num neg m e => (signInt neg (roundQuanta (.mode r) neg m e 0).1, (roundQuanta (.mode r) neg m e 0).2)
  | _ => (0, false)

/-- A number that is an integer is kept. -/
theorem toInteger_exact {a : FVal} {i : Int} (ha : Claim.finite a) (h : Claim.rat a = i) (r : RMode) :
    a.toInteger r = (i, false) := by
  obtain ⟨neg, m, e, rfl⟩ := exists_num ha
  have hX : (0 : ℚ) ≤ m * 2 ^ e := mul_nonneg (Nat.cast_nonneg m) (two_zpow_pos e).le
  have habs : (m : ℚ) * 2 ^ e = i.natAbs := by
    rw [← abs_withSign neg hX, ← rat_num, h, Nat.cast_natAbs, Int.cast_abs]
  have hi : signInt neg i.natAbs = i := by
    rw [rat_num, habs, ← signInt_cast] at h
    exact_mod_cast h
  rw [FVal.toInteger, roundQuanta_exact (n := i.natAbs) (by simpa using habs), hi]

/-- A number between two integers becomes the one that its mode names. -/
theorem toInteger_inexact {a : FVal} (ha : Claim.finite a) (h : ∀ i : Int, Claim.rat a ≠ i) :
    ∃ (neg : Bool) (n : Nat) (t : ℚ), 0 < t ∧ t < 1 ∧ Claim.rat a = withSign neg (n + t) ∧
      ∀ (r : RMode) [Decidable (r.goesUp neg n t)],
        a.toInteger r = (signInt neg (if r.goesUp neg n t then n + 1 else n), true) := by
  obtain ⟨neg, m, e, rfl⟩ := exists_num ha
  obtain ⟨n, t, h0, h1, hx⟩ := exists_floor ((m : ℚ) * 2 ^ e) 0 (mul_nonneg (Nat.cast_nonneg m) (two_zpow_pos e).le)
  have ht : 0 < t := h0.lt_of_ne fun h' => h (signInt neg n) (by
    rw [rat_num, hx, ← h', add_zero, zpow_zero, mul_one, signInt_cast])
  refine ⟨neg, n, t, ht, h1, by rw [rat_num, hx, zpow_zero, mul_one], fun r _ => ?_⟩
  simp only [FVal.toInteger, roundQuanta_inexact ht h1 hx r neg]

/-- What rounding a number to an integer has to give (R84). -/
structure RoundsTo (r : RMode) (x : ℚ) (i : Int) : Prop where
  near : |(i : ℚ) - x| < 1
  rdn : r = .rdn → i = ⌊x⌋
  rup : r = .rup → i = ⌈x⌉
  rtz : r = .rtz → i = if x < 0 then ⌈x⌉ else ⌊x⌋
  nearest : r = .rne ∨ r = .rmm → |(i : ℚ) - x| ≤ 1 / 2
  even : r = .rne → |(i : ℚ) - x| = 1 / 2 → i % 2 = 0
  away : r = .rmm → |(i : ℚ) - x| = 1 / 2 → |x| < |(i : ℚ)|

theorem roundsTo_self (r : RMode) (i : Int) : RoundsTo r i i := by
  constructor <;> norm_num

theorem floor_withSign (neg : Bool) (n : Nat) {t : ℚ} (h0 : 0 < t) (h1 : t < 1) :
    ⌊withSign neg (n + t)⌋ = signInt neg (if neg then n + 1 else n) := by
  rw [Int.floor_eq_iff, signInt_cast]
  cases neg <;> simp [withSign] <;> constructor <;> linarith

theorem ceil_withSign (neg : Bool) (n : Nat) {t : ℚ} (h0 : 0 < t) (h1 : t < 1) :
    ⌈withSign neg (n + t)⌉ = signInt neg (if neg then n else n + 1) := by
  rw [Int.ceil_eq_iff, signInt_cast]
  cases neg <;> simp [withSign] <;> constructor <;> linarith

theorem withSign_neg_iff {neg : Bool} {x : ℚ} (h : 0 < x) : withSign neg x < 0 ↔ neg = true := by
  cases neg <;> simp [withSign, h, h.le]

theorem signInt_even (neg : Bool) (q : Nat) : signInt neg q % 2 = 0 ↔ q % 2 = 0 := by
  cases neg <;> simp only [signInt, Bool.false_eq_true, if_false, if_true] <;> omega

/-- The integer that a mode names between two has the properties of that mode. -/
theorem roundsTo_between (r : RMode) (neg : Bool) (n : Nat) {t : ℚ} (h0 : 0 < t) (h1 : t < 1)
    [Decidable (r.goesUp neg n t)] :
    RoundsTo r (withSign neg (n + t)) (signInt neg (if r.goesUp neg n t then n + 1 else n)) := by
  have hpos : (0 : ℚ) < n + t := by positivity
  have herr : |(signInt neg (if r.goesUp neg n t then n + 1 else n) : ℚ) - withSign neg (n + t)| =
      if r.goesUp neg n t then 1 - t else t := by
    rw [signInt_cast, abs_withSign_sub]
    split
    · push_cast
      rw [show (n : ℚ) + 1 - (n + t) = 1 - t by ring, abs_of_pos (by linarith)]
    · rw [show (n : ℚ) - (n + t) = -t by ring, abs_neg, abs_of_pos h0]
  constructor
  · rw [herr]
    split <;> linarith
  · rintro rfl
    rw [floor_withSign neg n h0 h1]
    cases neg <;> simp [RMode.goesUp]
  · rintro rfl
    rw [ceil_withSign neg n h0 h1]
    cases neg <;> simp [RMode.goesUp]
  · rintro rfl
    simp only [withSign_neg_iff hpos, ceil_withSign neg n h0 h1, floor_withSign neg n h0 h1]
    cases neg <;> simp [RMode.goesUp]
  · intro hr
    rw [herr]
    rcases hr with rfl | rfl
    · by_cases hu : RMode.goesUp .rne neg n t
      · rw [if_pos hu]
        rcases hu with hu | ⟨hu, -⟩ <;> linarith
      · rw [if_neg hu]
        exact not_lt.1 fun h => hu (.inl h)
    · by_cases hu : RMode.goesUp .rmm neg n t
      · rw [if_pos hu]
        have hu : 1 / 2 ≤ t := hu
        linarith
      · rw [if_neg hu]
        exact (not_le.1 hu).le
  · rintro rfl he
    rw [herr] at he
    rw [signInt_even]
    by_cases hu : RMode.goesUp .rne neg n t
    · rw [if_pos hu] at he ⊢
      rcases hu with hu | ⟨-, hu⟩
      · linarith
      · omega
    · rw [if_neg hu] at he ⊢
      have : ¬ n % 2 = 1 := fun h => hu (.inr ⟨he, h⟩)
      omega
  · rintro rfl he
    have hu : RMode.goesUp .rmm neg n t := by
      by_contra hu
      rw [herr, if_neg hu] at he
      exact hu he.ge
    rw [if_pos hu, signInt_cast, abs_withSign neg hpos.le, abs_withSign neg (by positivity)]
    push_cast
    linarith

/-- A number rounded to an integer, and whether that changed it. -/
theorem toInteger_spec {a : FVal} (ha : Claim.finite a) (r : RMode) :
    RoundsTo r (Claim.rat a) (a.toInteger r).1 ∧ ((a.toInteger r).2 = false ↔ ((a.toInteger r).1 : ℚ) = Claim.rat a) := by
  classical
  by_cases hex : ∃ i : Int, Claim.rat a = i
  · obtain ⟨i, hi⟩ := hex
    rw [toInteger_exact ha hi, hi]
    exact ⟨roundsTo_self r i, iff_of_true rfl rfl⟩
  · push Not at hex
    obtain ⟨neg, n, t, h0, h1, hx, hr⟩ := toInteger_inexact ha hex
    refine ⟨?_, ?_⟩
    · rw [hr, hx]
      exact roundsTo_between r neg n h0 h1
    · rw [hr]
      exact iff_of_false (by simp) fun h => hex _ h.symm

/-! #### Integer types (R89, R220) -/

theorem sextNat_zero (n : Nat) : sextNat n 0 = 0 := by
  simp [sextNat, signedNat]

theorem sextNat_wrapInt_64 (i : Int) : sextNat 64 (wrapInt 64 i) = BitVec.ofInt 64 i := by
  unfold sextNat signedNat wrapInt
  apply BitVec.eq_of_toInt_eq
  simp only [BitVec.toInt_ofInt]
  split <;> simp only [Int.bmod_def] <;> omega

theorem sextNat_wrapInt_32 (i : Int) : sextNat 32 (wrapInt 32 i) = (BitVec.ofInt 32 i).signExtend 64 := by
  unfold sextNat signedNat wrapInt
  apply BitVec.eq_of_toInt_eq
  rw [BitVec.toInt_signExtend_of_le (by decide), BitVec.toInt_ofInt, BitVec.toInt_ofInt]
  split <;> simp only [Int.bmod_def] <;> omega

/-- The low bits of an integer of either width, sign-extended. -/
theorem sextNat_wrapInt (wide : Bool) (i : Int) : let n := if wide then 64 else 32
    sextNat n (wrapInt n i) = if n = 64 then BitVec.ofInt 64 i else (BitVec.ofInt 32 i).signExtend 64 := by
  cases wide
  · exact sextNat_wrapInt_32 i
  · exact sextNat_wrapInt_64 i

theorem intMin_not (n : Nat) (natural : Bool) : intMin n (!natural) = if natural then 0 else -2 ^ (n - 1) := by
  cases natural <;> simp [intMin]

theorem intMax_not (n : Nat) (natural : Bool) :
    intMax n (!natural) = if natural then 2 ^ n - 1 else 2 ^ (n - 1) - 1 := by
  cases natural <;> simp [intMax]

/-- A number converted to an integer of `n` bits, out of range or not (R89). -/
theorem toInt_finite {a : FVal} (ha : Claim.finite a) (r : RMode) (n : Nat) (signed : Bool) :
    a.toInt (.mode r) n signed false = (wrapInt n (a.toInteger r).1,
      if (a.toInteger r).1 < intMin n signed ∨ intMax n signed < (a.toInteger r).1 then flNV
      else if ((a.toInteger r).1 : ℚ) = Claim.rat a then 0 else flNX) := by
  have hex := (toInteger_spec ha r).2
  obtain ⟨neg, m, e, rfl⟩ := exists_num ha
  have heq : (FVal.num neg m e).toInt (.mode r) n signed false =
      let p := (FVal.num neg m e).toInteger r
      if intMin n signed ≤ p.1 ∧ p.1 ≤ intMax n signed then (wrapInt n p.1, flIf p.2 flNX) else (wrapInt n p.1, flNV) :=
    rfl
  rw [heq]
  generalize (FVal.num neg m e).toInteger r = p at hex ⊢
  simp only [← hex]
  by_cases hr : intMin n signed ≤ p.1 ∧ p.1 ≤ intMax n signed
  · rw [if_pos hr, if_neg (by omega)]
    cases p.2 <;> rfl
  · rw [if_neg hr, if_pos (by omega)]

theorem toInt_special {a : FVal} (ha : ¬ Claim.finite a) (r : RMode) (n : Nat) (signed : Bool) :
    a.toInt (.mode r) n signed false = (0, flNV) := by
  cases a with
  | num n m e => exact absurd trivial ha
  | _ => rfl

/-! #### Numbers from integers (R89, R220) -/

theorem rat_ofInt (i : Int) : Claim.rat (FVal.ofInt i) = i := by
  rw [FVal.ofInt, rat_ofMant, zpow_zero, mul_one]

theorem ofInt_zero {i : Int} (h : Claim.rat (FVal.ofInt i) = 0) : Claim.negative (FVal.ofInt i) = false := by
  rw [rat_ofInt] at h
  obtain rfl : i = 0 := by exact_mod_cast h
  rfl

theorem cvtSource_eq (t : BitVec 2) (w : Word) : cvtSource t w = if t.getLsbD 1 then ((w.toNat % 2 ^ cvtBits t : Nat) : Int)
    else if cvtBits t = 64 then w.toInt else (w.setWidth 32).toInt := by
  have hw := w.isLt
  unfold cvtSource cvtSigned cvtBits signedNat
  cases t.getLsbD 1
  · cases t.getLsbD 0
    · simp [BitVec.toInt_eq_toNat_cond]
      omega
    · simp [BitVec.toInt_eq_toNat_cond, Nat.mod_eq_of_lt hw]
      omega
  · rfl

/-! ### Boxes (R219) -/

theorem box_parts (k : Nat) (hk : k ≤ 64) (v : Nat) : let w : Word := setFld (BitVec.allOnes 64) 0 (BitVec.ofNat k v)
    w.toNat % 2 ^ k = v % 2 ^ k ∧ w.toNat / 2 ^ k = 2 ^ (64 - k) - 1 := by
  intro w
  have hk2 : 0 < 2 ^ k := Nat.two_pow_pos k
  have h64 : 2 ^ 64 = 2 ^ (64 - k) * 2 ^ k := by rw [← pow_add, Nat.sub_add_cancel hk]
  have hlow : (fld w 0 k).toNat = v % 2 ^ k := by
    rw [fld_setFld_same _ _ (by omega), BitVec.toNat_ofNat]
  have hhigh : (fld w k (64 - k)).toNat = 2 ^ (64 - k) - 1 := by
    have hones : (2 ^ 64 - 1) / 2 ^ k = 2 ^ (64 - k) - 1 := by
      rw [h64]
      have : 0 < 2 ^ (64 - k) := Nat.two_pow_pos _
      refine Nat.div_eq_of_lt_le ?_ ?_
      · rw [Nat.sub_mul]
        omega
      · rw [Nat.sub_add_cancel this]
        exact Nat.sub_lt (Nat.mul_pos this hk2) one_pos
    rw [fld_setFld_above _ _ (by omega), fld, BitVec.extractLsb'_toNat, BitVec.toNat_allOnes, Nat.shiftRight_eq_div_pow,
      hones, Nat.mod_eq_of_lt (Nat.sub_lt (Nat.two_pow_pos _) one_pos)]
  refine ⟨by simpa [fld, BitVec.extractLsb'_toNat] using hlow, ?_⟩
  have hlt : w.toNat / 2 ^ k < 2 ^ (64 - k) := Nat.div_lt_of_lt_mul (by rw [mul_comm, ← h64]; exact w.isLt)
  rw [← hhigh, fld, BitVec.extractLsb'_toNat, Nat.shiftRight_eq_div_pow, Nat.mod_eq_of_lt hlt]

/-- A value that was boxed is read back. -/
theorem unbox_box {F : FFmt} (hb : F.bits / 8 * 8 = F.bits) (h64 : F.bits ≤ 64) {v : Nat} (hv : v < 2 ^ F.bits) :
    unbox F (box F v) = v := by
  have hbox : box F v = setFld (BitVec.allOnes 64) 0 (BitVec.ofNat (8 * (F.bits / 8)) v) := rfl
  rw [show 8 * (F.bits / 8) = F.bits by omega] at hbox
  obtain ⟨hlow, hhigh⟩ := box_parts F.bits h64 v
  rw [← hbox, Nat.mod_eq_of_lt hv] at hlow
  rw [← hbox] at hhigh
  have h1 : 0 < 2 ^ (64 - F.bits) := Nat.two_pow_pos _
  unfold unbox
  by_cases h : F.bits = 64
  · rw [h, Nat.mod_eq_of_lt (box F v).isLt] at hlow
    rw [if_pos h, hlow]
  · rw [if_neg h, hhigh, hlow, if_pos (by omega)]

/-- Upper bits that are all ones make a box (R219). -/
theorem unbox_narrow {F : FFmt} (h : F.bits < 64) (w : Word) :
    unbox F w = if w.toNat / 2 ^ F.bits = 2 ^ (64 - F.bits) - 1 then w.toNat % 2 ^ F.bits else F.nan := by
  have h1 : 0 < 2 ^ (64 - F.bits) := Nat.two_pow_pos _
  have hiff : w.toNat / 2 ^ F.bits + 1 = 2 ^ (64 - F.bits) ↔ w.toNat / 2 ^ F.bits = 2 ^ (64 - F.bits) - 1 := by omega
  unfold unbox
  rw [if_neg (by omega)]
  simp only [hiff]

end Sys2Proof.Machine

section
open Sys2Proof Sys2Proof.Machine

/-- Settles O25: conversions to an integer round once and keep the low bits, those to a format are one rounding, and a
box is read by its upper bits. -/
theorem floatConversionsAndBoxing : Obligations.FloatConversionsAndBoxing := by
  refine ⟨fun s d a t src r f => ?_, fun F hF v w => ?_⟩
  · intro F A n lo hi ext out
    have hto : exec (.fcvtToInt d a t r f) s = .next (s.putX d
        (sextNat (cvtBits t) (A.toInt (.mode (s.me.rmode r)) (cvtBits t) (cvtSigned t) false).1)
        (A.toInt (.mode (s.me.rmode r)) (cvtBits t) (cvtSigned t) false).2) := rfl
    have hfrom : exec (.fcvtFromInt d a t r f) s =
      .next (s.putF F d (s.roundF F r (FVal.ofInt (cvtSource t (s.getX a)), 0))) := rfl
    refine ⟨fun hA => ?_, fun hA => ?_, ?_, rfl⟩
    · obtain ⟨h, -⟩ := toInteger_spec hA (s.me.rmode r)
      refine ⟨(A.toInteger (s.me.rmode r)).1, h.near, h.rdn, h.rup, h.rtz, h.nearest, h.even, h.away, ?_⟩
      rw [toInt_finite hA] at hto
      generalize (A.toInteger (s.me.rmode r)).1 = i at hto
      have hlo : intMin (cvtBits t) (cvtSigned t) = lo := intMin_not _ _
      have hhi : intMax (cvtBits t) (cvtSigned t) = hi := intMax_not _ _
      have hw : sextNat (cvtBits t) (wrapInt (cvtBits t) i) = if n = 64 then BitVec.ofInt 64 i else ext i :=
        sextNat_wrapInt _ i
      rw [hlo, hhi, hw] at hto
      exact hto
    · rw [toInt_special hA, sextNat_zero] at hto
      exact hto
    · refine ⟨FVal.ofInt (cvtSource t (s.getX a)), trivial, ofInt_zero, ?_, writesF_rounded hfrom rfl⟩
      rw [rat_ofInt, cvtSource_eq]
      rfl
  · have hbits : F.bits / 8 * 8 = F.bits ∧ F.bits ≤ 64 := by
      simp only [List.mem_cons, List.not_mem_nil, or_false] at hF
      rcases hF with rfl | rfl | rfl | rfl <;> decide
    exact ⟨unbox_box hbits.1 hbits.2, fun h hw => (unbox_narrow h w).trans (if_neg hw),
      fun h hw => (unbox_narrow h w).trans (if_pos hw)⟩

end

namespace Sys2Proof.Machine

/-! ### Fields of words -/

theorem fld_setFld_below {n lo len k m : Nat} (w : BitVec n) (v : BitVec len) (h : k + m ≤ lo) :
    fld (setFld w lo v) k m = fld w k m := by
  refine BitVec.eq_of_getLsbD_eq fun i hi => ?_
  have hk : k + i < lo := by omega
  have hb : (setFld w lo v).getLsbD (k + i) = w.getLsbD (k + i) := by
    by_cases hn : k + i < n
    · simp [setFld, hn, hk]
    · rw [BitVec.getLsbD_of_ge _ _ (by omega), BitVec.getLsbD_of_ge _ _ (by omega)]
  simp [fld, hi, hb]

theorem fld_and {n lo len : Nat} (w m : BitVec n) : fld (w &&& m) lo len = fld w lo len &&& fld m lo len := by
  refine BitVec.eq_of_getLsbD_eq fun i hi => ?_
  simp [fld, hi]

theorem fld_and_keep {n lo len : Nat} (w : BitVec n) {m : BitVec n} (h : fld m lo len = BitVec.allOnes len) :
    fld (w &&& m) lo len = fld w lo len := by
  rw [fld_and, h, BitVec.and_allOnes]

theorem fld_and_clear {n lo len : Nat} (w : BitVec n) {m : BitVec n} (h : fld m lo len = 0) :
    fld (w &&& m) lo len = 0 := by
  rw [fld_and, h]
  exact BitVec.and_zero

/-! ### Writes of FSTAT, VCFG and SSTAT (R85, R217, R232, R418) -/

theorem fstatWrite_reserved (old w : Word) : fld (fstatWrite old w) 11 53 = 0 := by
  have h : fld (w &&& 0x7FF#64) 11 53 = 0 := fld_and_clear w (by decide)
  unfold fstatWrite
  dsimp only
  split
  · rw [fld_setFld_above _ _ (by decide), h]
  · exact h

theorem fstatWrite_flags (old w : Word) : fld (fstatWrite old w) 0 7 = fld w 0 7 := by
  have h : fld (w &&& 0x7FF#64) 0 7 = fld w 0 7 := fld_and_keep w (by decide)
  unfold fstatWrite
  dsimp only
  split
  · rw [fld_setFld_below _ _ (by decide), h]
  · exact h

theorem fstatWrite_rm (old w : Word) :
    fld (fstatWrite old w) 7 3 = if (fld w 7 3).toNat ≤ 4 then fld w 7 3 else fld old 7 3 := by
  have h : fld (w &&& 0x7FF#64) 7 3 = fld w 7 3 := fld_and_keep w (by decide)
  unfold fstatWrite
  dsimp only
  rw [h]
  split
  · rw [fld_setFld_same _ _ (by decide), if_neg (by omega)]
  · rw [h, if_pos (by omega)]

/-- VCFG as it is written before VL is clamped: MODE and a reserved SCOPE stay. -/
def Hart.vcfgKept (H : Hart) (w : Word) : Word :=
  let v := setFld (w &&& 0xFFFFFF#64) 22 (fld H.csr.vcfg 22 2)
  if 6 ≤ (fld v 18 3).toNat then setFld v 18 (fld H.csr.vcfg 18 3) else v

theorem vcfgWrite_eq (H : Hart) (w : Word) : H.vcfgWrite w = setFld (H.vcfgKept w) 0
    (BitVec.ofNat 16 (Nat.min (fld (H.vcfgKept w) 0 16).toNat (H.vlmax (fld (H.vcfgKept w) 16 2).toNat))) := rfl

theorem vcfgKept_low (H : Hart) (w : Word) {lo len : Nat} (h : lo + len ≤ 18)
    (hm : fld (0xFFFFFF#64) lo len = BitVec.allOnes len) : fld (H.vcfgKept w) lo len = fld w lo len := by
  have hv : fld (setFld (w &&& 0xFFFFFF#64) 22 (fld H.csr.vcfg 22 2)) lo len = fld w lo len := by
    rw [fld_setFld_below _ _ (by omega), fld_and_keep w hm]
  unfold Hart.vcfgKept
  dsimp only
  split
  · rw [fld_setFld_below _ _ h, hv]
  · exact hv

theorem vcfgKept_mode (H : Hart) (w : Word) : fld (H.vcfgKept w) 22 2 = fld H.csr.vcfg 22 2 := by
  unfold Hart.vcfgKept
  dsimp only
  split
  · rw [fld_setFld_above _ _ (by decide), fld_setFld_same _ _ (by decide)]
  · rw [fld_setFld_same _ _ (by decide)]

theorem vcfgKept_reserved (H : Hart) (w : Word) : fld (H.vcfgKept w) 24 40 = 0 := by
  have hv : fld (setFld (w &&& 0xFFFFFF#64) 22 (fld H.csr.vcfg 22 2)) 24 40 = 0 := by
    rw [fld_setFld_above _ _ (by decide), fld_and_clear w (by decide)]
  unfold Hart.vcfgKept
  dsimp only
  split
  · rw [fld_setFld_above _ _ (by decide), hv]
  · exact hv

theorem vcfgWrite_above (H : Hart) (w : Word) {lo len : Nat} (h : 16 ≤ lo) :
    fld (H.vcfgWrite w) lo len = fld (H.vcfgKept w) lo len := by
  rw [vcfgWrite_eq, fld_setFld_above _ _ (by omega)]

theorem vcfgWrite_vl (H : Hart) (w : Word) :
    (fld (H.vcfgWrite w) 0 16).toNat = min (fld w 0 16).toNat (H.vlmax (fld w 16 2).toNat) := by
  rw [vcfgWrite_eq, fld_setFld_same _ _ (by decide), vcfgKept_low H w (by decide) (by decide),
    vcfgKept_low H w (by decide) (by decide), BitVec.toNat_ofNat]
  exact Nat.mod_eq_of_lt ((Nat.min_le_left _ _).trans_lt (fld w 0 16).isLt)

/-- Bit by bit: what stays, what is written, and what clears where 1 is written. -/
theorem sstatWrite_bit (old w : Word) (i : Nat) : (sstatWrite old w).getLsbD i =
    ((old.getLsbD i && (0x1000000#64).getLsbD i) || (w.getLsbD i && (0x1F0122#64).getLsbD i) ||
      (old.getLsbD i && (decide (i < 64) && !w.getLsbD i) && (0x18000000#64).getLsbD i)) := by
  simp [sstatWrite]

theorem csrWrite_vdirty (H : Hart) (w : Word) {k : Nat} (hk : k < 32) : H.csrWrite (0x020 + k) w =
    if (fld w 0 3).toNat ≤ 4 then { H with vdirty := H.vdirty.setIfInBounds k (fld w 0 3) } else H := by
  unfold Hart.csrWrite
  dsimp only
  split <;> try omega
  rw [if_pos (by omega), Nat.add_sub_cancel_left]

end Sys2Proof.Machine

section
open Sys2Proof Sys2Proof.Machine

/-- Settles O27: each CSR is written field by field. -/
theorem csrFieldRules : Obligations.CsrFieldRules := by
  intro H w
  refine ⟨⟨fstatWrite_reserved _ w, fstatWrite_flags _ w, fstatWrite_rm _ w⟩, ⟨?_, vcfgWrite_vl H w, ?_, ?_⟩,
    ⟨rfl, rfl, rfl⟩, ⟨?_, ?_, ?_⟩, ⟨rfl, ?_⟩, fun k hk => ?_⟩
  · exact congrArg BitVec.toNat ((vcfgWrite_above H w (by decide)).trans (vcfgKept_mode H w))
  · exact (vcfgWrite_above H w (by decide)).trans (vcfgKept_low H w (by decide) (by decide))
  · exact (vcfgWrite_above H w (by decide)).trans (vcfgKept_reserved H w)
  · intro i hi
    refine (sstatWrite_bit H.csr.sstat w i).trans ?_
    fin_cases hi <;> simp
  · intro i hi
    refine (sstatWrite_bit H.csr.sstat w i).trans ?_
    fin_cases hi <;> simp
  · refine (sstatWrite_bit H.csr.sstat w 24).trans ?_
    simp
  · show (setBit H.csr.sstat 24 false).getLsbD 24 = false
    simp [setBit, setFld]
  · rw [csrWrite_vdirty H w hk]
    split
    · simp [hk]
    · rfl

end

section
open Sys2Proof Sys2Proof.Machine

/-- Settles O2: memory after reset lists no byte. -/
theorem resetMemoryCanonical : Obligations.ResetMemoryCanonical := by
  unfold Obligations.ResetMemoryCanonical
  rw [reset_mem]
  rfl

end

/-! ### Canonical memory (log 2) -/

namespace Sys2Proof.Machine

/-! #### What it is for a result to be canonical -/

/-- The memory of a state is in its canonical form. -/
def State.Canon (s : State) : Prop := Memory.wf s.mem = true

/-- The state that an outcome goes on with, if it goes on, is canonical. -/
def OutcomeCanon : Host.Outcome State Fault Refusal → Prop
  | .next t => t.Canon
  | _ => True

/-- The state that a step of an operation leaves is canonical, whether the operation goes on or stops. -/
def AfterCanon {α : Type} : EStateM.Result Stop State α → Prop
  | .ok _ t => t.Canon
  | .error _ t => t.Canon

theorem AfterCanon.of_ok {α : Type} {r : EStateM.Result Stop State α} {a : α} {t : State} (hr : AfterCanon r)
    (e : r = .ok a t) : t.Canon := by
  rw [e] at hr
  exact hr

theorem AfterCanon.of_error {α : Type} {r : EStateM.Result Stop State α} {x : Stop} {t : State} (hr : AfterCanon r)
    (e : r = .error x t) : t.Canon := by
  rw [e] at hr
  exact hr

/-- An operation keeps memory canonical. -/
structure Op.Canon {α : Type} (x : Op α) : Prop where
  after : ∀ s : State, s.Canon → AfterCanon (x s)

/-- An operation of a slot in a group keeps memory canonical. -/
structure GOp.Canon {α : Type} (x : GOp α) : Prop where
  run : ∀ G : Grp, Op.Canon (x G)

/-- A transfer leaves memory canonical, where it does not fault. -/
def Moved.Canon {α : Type} : Moved α → Prop
  | .done t _ => t.Canon
  | .fault _ _ => True
  | .blocked t => t.Canon

/-- The state in an optional result is canonical. -/
def SomeCanon {α : Type} (f : α → State) : Option α → Prop
  | some a => (f a).Canon
  | none => True

/-- The state that a transfer of an element goes on with is canonical. -/
def OkCanon {ε α : Type} : Except ε (State × α) → Prop
  | .ok p => p.1.Canon
  | .error _ => True

/-! #### Choices and folds -/

theorem State.Canon.fst_of_eq {α : Type} {p : State × α} {t : State} {a : α} (hp : p.1.Canon) (e : p = (t, a)) :
    t.Canon := by
  rw [e] at hp
  exact hp

theorem State.Canon.snd_of_eq {α : Type} {p : α × State} {t : State} {a : α} (hp : p.2.Canon) (e : p = (a, t)) :
    t.Canon := by
  rw [e] at hp
  exact hp

theorem OkCanon.of_eq {ε α : Type} {x : Except ε (State × α)} {p : State × α} (hx : OkCanon x) (e : x = .ok p) :
    p.1.Canon := by
  rw [e] at hx
  exact hx

theorem SomeCanon.of_eq {α : Type} {f : α → State} {x : Option α} {a : α} (hx : SomeCanon f x) (e : x = some a) :
    (f a).Canon := by
  rw [e] at hx
  exact hx

theorem Moved.Canon.of_eq {α : Type} {m : Moved α} {t : State} {a : α} (hm : m.Canon) (e : m = .done t a) :
    t.Canon := by
  rw [e] at hm
  exact hm

theorem Moved.Canon.of_blocked {α : Type} {m : Moved α} {t : State} (hm : m.Canon) (e : m = .blocked t) :
    t.Canon := by
  rw [e] at hm
  exact hm

theorem OkCanon.ite {ε α : Type} {c : Prop} [Decidable c] {a b : Except ε (State × α)} (ha : OkCanon a)
    (hb : OkCanon b) : OkCanon (ite c a b) := by
  split
  · exact ha
  · exact hb

theorem dite_canon {c : Prop} [Decidable c] {a : c → State} {b : ¬ c → State} (ha : ∀ h, (a h).Canon)
    (hb : ∀ h, (b h).Canon) : (dite c a b).Canon := by
  split
  · exact ha _
  · exact hb _

theorem ite_canon {c : Prop} [Decidable c] {a b : State} (ha : a.Canon) (hb : b.Canon) : (ite c a b).Canon := by
  split
  · exact ha
  · exact hb

theorem State.Canon.of_mem {s t : State} (hs : s.Canon) (e : t.mem = s.mem) : t.Canon := by
  unfold State.Canon
  rw [e]
  exact hs

theorem SomeCanon.map {α β : Type} {f : α → State} {g : β → α} (hg : ∀ b, (f (g b)).Canon) {o : Option β} :
    SomeCanon f (o.map g) := by
  cases o with
  | none => trivial
  | some b => exact hg b

theorem State.Canon.some_fst {α : Type} {s : State} {a : α} (hs : s.Canon) : SomeCanon Prod.fst (some (s, a)) := hs

theorem SomeCanon.map_of {α β : Type} {f : α → State} {f' : β → State} {g : α → β} {o : Option α}
    (ho : SomeCanon f o) (hg : ∀ a, (f a).Canon → (f' (g a)).Canon) : SomeCanon f' (o.map g) := by
  cases o with
  | none => trivial
  | some a => exact hg a ho

theorem SomeCanon.bind {α β : Type} {f : α → State} {f' : β → State} {g : α → Option β} {o : Option α}
    (ho : SomeCanon f o) (hg : ∀ a, (f a).Canon → SomeCanon f' (g a)) : SomeCanon f' (o.bind g) := by
  cases o with
  | none => trivial
  | some a => exact hg a ho

theorem SomeCanon.getD {o : Option State} {s : State} (ho : SomeCanon id o) (hs : s.Canon) : (o.getD s).Canon := by
  cases o with
  | none => exact hs
  | some t => exact ho

theorem SomeCanon.foldl {α β : Type} {f : β → State} {g : Option β → α → Option β}
    (hg : ∀ o x, SomeCanon f o → SomeCanon f (g o x)) {l : List α} {o : Option β} (ho : SomeCanon f o) :
    SomeCanon f (l.foldl g o) := by
  induction l generalizing o with
  | nil => exact ho
  | cons x l ih => exact ih (hg o x ho)

theorem ite_fst_canon {α : Type} {c : Prop} [Decidable c] {a b : State × α} (ha : a.1.Canon) (hb : b.1.Canon) :
    (ite c a b).1.Canon := by
  split
  · exact ha
  · exact hb

theorem ite_snd_canon {α : Type} {c : Prop} [Decidable c] {a b : α × State} (ha : a.2.Canon) (hb : b.2.Canon) :
    (ite c a b).2.Canon := by
  split
  · exact ha
  · exact hb

theorem OutcomeCanon.ite {c : Prop} [Decidable c] {a b : Host.Outcome State Fault Refusal} (ha : OutcomeCanon a)
    (hb : OutcomeCanon b) : OutcomeCanon (ite c a b) := by
  split
  · exact ha
  · exact hb

theorem SomeCanon.ite {α : Type} {f : α → State} {c : Prop} [Decidable c] {a b : Option α} (ha : SomeCanon f a)
    (hb : SomeCanon f b) : SomeCanon f (ite c a b) := by
  split
  · exact ha
  · exact hb

theorem foldl_canon {α : Type} {f : State → α → State} (hf : ∀ s x, s.Canon → (f s x).Canon) {l : List α}
    {s : State} (hs : s.Canon) : (l.foldl f s).Canon := by
  induction l generalizing s with
  | nil => exact hs
  | cons x l ih => exact ih (hf s x hs)

theorem foldl_fst_canon {α β : Type} {f : State × β → α → State × β} (hf : ∀ p x, p.1.Canon → (f p x).1.Canon)
    {l : List α} {p : State × β} (hp : p.1.Canon) : (l.foldl f p).1.Canon := by
  induction l generalizing p with
  | nil => exact hp
  | cons x l ih => exact ih (hf p x hp)

/-! #### Operations -/

namespace Op.Canon

variable {α β : Type}

theorem pure {a : α} : Op.Canon (Pure.pure a : Op α) := ⟨fun _ hs => hs⟩

theorem throw {e : Stop} : Op.Canon (MonadExcept.throw e : Op α) := ⟨fun _ hs => hs⟩

theorem set {t : State} (ht : t.Canon) : Op.Canon (MonadStateOf.set t : Op Unit) := ⟨fun _ _ => ht⟩

theorem update {f : State → State} (hf : ∀ s, s.Canon → (f s).Canon) : Op.Canon (modify f : Op Unit) := ⟨hf⟩

theorem bind {x : Op α} {f : α → Op β} (hx : Op.Canon x) (hf : ∀ a, Op.Canon (f a)) : Op.Canon (x >>= f) := by
  refine ⟨fun s hs => ?_⟩
  have h := hx.after s hs
  change AfterCanon (EStateM.bind x f s)
  unfold EStateM.bind
  split
  · rename_i e
    rw [e] at h
    exact (hf _).after _ h
  · rename_i e
    rw [e] at h
    exact h

theorem get_bind {f : State → Op β} (hf : ∀ s, s.Canon → Op.Canon (f s)) : Op.Canon (MonadState.get >>= f) :=
  ⟨fun s hs => (hf s hs).after s hs⟩

theorem ite {c : Prop} [Decidable c] {x y : Op α} (hx : Op.Canon x) (hy : Op.Canon y) :
    Op.Canon (if c then x else y) := by
  split
  · exact hx
  · exact hy

theorem trapOp {c : Cause} {v : Word} : Op.Canon (Machine.trapOp c v : Op α) := .throw

theorem waitOp {w : Wait} : Op.Canon (Machine.waitOp w : Op α) := .throw

theorem waitOp_bind {w : Wait} {f : α → Op β} : Op.Canon (Machine.waitOp w >>= f) := ⟨fun _ hs => hs⟩

end Op.Canon

theorem runOp_canon {x : Op Unit} {s : State} (hs : s.Canon) (hx : Op.Canon x) : OutcomeCanon (runOp x s) := by
  have h := hx.after s hs
  unfold runOp
  split
  all_goals
    rename_i e
    rw [e] at h
    exact h

/-! #### Operations of a group -/

namespace GOp.Canon

variable {α β : Type}

theorem pure {a : α} : GOp.Canon (Pure.pure a : GOp α) := ⟨fun _ => ⟨fun _ hs => hs⟩⟩

theorem get : GOp.Canon (MonadState.get : GOp Grp) := ⟨fun _ => ⟨fun _ hs => hs⟩⟩

theorem update {f : Grp → Grp} : GOp.Canon (modify f : GOp Unit) := ⟨fun _ => ⟨fun _ hs => hs⟩⟩

theorem gTrap {c : Cause} {v : Word} : GOp.Canon (Machine.gTrap c v : GOp α) := ⟨fun _ => ⟨fun _ hs => hs⟩⟩

theorem gWait {w : Wait} : GOp.Canon (Machine.gWait w : GOp α) := ⟨fun _ => ⟨fun _ hs => hs⟩⟩

theorem set {G : Grp} : GOp.Canon (MonadStateOf.set G : GOp Unit) := ⟨fun _ => ⟨fun _ hs => hs⟩⟩

theorem gLift {x : Op α} (hx : Op.Canon x) : GOp.Canon (Machine.gLift x) := by
  refine ⟨fun G => ⟨fun s hs => ?_⟩⟩
  have h := hx.after s hs
  unfold Machine.gLift
  split
  all_goals
    rename_i e
    rw [e] at h
    exact h

theorem bind {x : GOp α} {f : α → GOp β} (hx : GOp.Canon x) (hf : ∀ a, GOp.Canon (f a)) : GOp.Canon (x >>= f) :=
  ⟨fun G => Op.Canon.bind (hx.run G) fun p => (hf p.1).run p.2⟩

theorem gState_bind {f : State → GOp β} (hf : ∀ s, s.Canon → GOp.Canon (f s)) : GOp.Canon (gState >>= f) :=
  ⟨fun G => ⟨fun s hs => ((hf s hs).run G).after s hs⟩⟩

theorem unpairedTrap : GOp.Canon (Machine.unpairedTrap : GOp α) := gState_bind fun _ _ => gTrap

theorem unpairedTrap_bind {f : α → GOp β} : GOp.Canon (Machine.unpairedTrap >>= f) := ⟨fun _ => ⟨fun _ hs => hs⟩⟩

theorem gWait_bind {w : Wait} {f : α → GOp β} : GOp.Canon (Machine.gWait w >>= f) := ⟨fun _ => ⟨fun _ hs => hs⟩⟩

theorem ite {c : Prop} [Decidable c] {x y : GOp α} (hx : GOp.Canon x) (hy : GOp.Canon y) :
    GOp.Canon (if c then x else y) := by
  split
  · exact hx
  · exact hy

theorem forM {f : α → GOp PUnit} (hf : ∀ a, GOp.Canon (f a)) {l : List α} : GOp.Canon (l.forM f) := by
  induction l with
  | nil => exact .pure
  | cons a l ih => exact .bind (hf a) fun _ => ih

theorem mapM {f : α → GOp β} (hf : ∀ a, GOp.Canon (f a)) {l : List α} : GOp.Canon (l.mapM f) := by
  induction l with
  | nil => rw [List.mapM_nil]; exact .pure
  | cons a l ih =>
    rw [List.mapM_cons]
    exact .bind (hf a) fun _ => .bind ih fun _ => .pure

theorem filterMapM {f : α → GOp (Option β)} (hf : ∀ a, GOp.Canon (f a)) {l : List α} :
    GOp.Canon (l.filterMapM f) := by
  induction l with
  | nil => rw [List.filterMapM_nil]; exact .pure
  | cons a l ih =>
    rw [List.filterMapM_cons]
    refine .bind (hf a) fun o => ?_
    cases o with
    | none => exact ih
    | some b => exact .bind ih fun _ => .pure

end GOp.Canon

/-! #### Transfers -/

theorem Moved.Canon.andThen {α β : Type} {m : Moved α} {f : State → α → Moved β} (hm : m.Canon)
    (hf : ∀ t a, t.Canon → (f t a).Canon) : (m.andThen f).Canon := by
  cases m with
  | done t a => exact hf t a hm
  | fault c va => trivial
  | blocked t => exact hm

theorem Moved.Canon.ite {α : Type} {c : Prop} [Decidable c] {a b : Moved α} (ha : a.Canon) (hb : b.Canon) :
    (ite c a b).Canon := by
  split
  · exact ha
  · exact hb

end Sys2Proof.Machine

/-! ### Canonical memory: state, memory and delayed stores -/

namespace Sys2Proof.Machine

theorem State.Canon.updHart {s : State} {h : HartId} {f : Hart → Hart} (hs : s.Canon) :
    (s.updHart h f).Canon :=
  hs

theorem State.Canon.updMe {s : State} {f : Hart → Hart} (hs : s.Canon) : (s.updMe f).Canon := hs.updHart

theorem State.Canon.updTile {s : State} {t : Fin 224} {f : Tile → Tile} (hs : s.Canon) :
    (s.updTile t f).Canon :=
  hs

theorem State.Canon.updDie {s : State} {d : Fin 4} {f : Die → Die} (hs : s.Canon) : (s.updDie d f).Canon :=
  hs

theorem State.Canon.updLanding {s : State} {d : Fin 8} {f : Landing → Landing} (hs : s.Canon) :
    (s.updLanding d f).Canon :=
  hs

theorem State.Canon.setX {s : State} {r : Reg} {w : Word} (hs : s.Canon) : (s.setX r w).Canon := hs.updMe

theorem State.Canon.setF {s : State} {r : Reg} {w : Word} (hs : s.Canon) : (s.setF r w).Canon := hs.updMe

theorem State.Canon.goTo {s : State} {w : Word} (hs : s.Canon) : (s.goTo w).Canon := hs.updMe

theorem State.Canon.advance {s : State} (hs : s.Canon) : s.advance.Canon := hs.goTo

theorem State.Canon.waitIn {s : State} {w : Wait} (hs : s.Canon) : (s.waitIn w).Canon := hs.updMe

theorem State.Canon.trap {s : State} {c : Cause} {tval : Word} (hs : s.Canon) : (s.trap c tval).Canon :=
  hs.updMe

theorem check_canon {b : Bool} {c : Cause} {tval : Word} : Op.Canon (check b c tval) := .ite .pure .trapOp

theorem getMe_canon : Op.Canon getMe := .get_bind fun _ _ => .pure

theorem updMe_canon {f : Hart → Hart} : Op.Canon (updMe f) := .update fun _ ht => ht.updMe

theorem retire_canon : Op.Canon retire := .update fun _ ht => ht.advance

theorem retireX_canon {r : Reg} {w : Word} : Op.Canon (retireX r w) := .update fun _ ht => ht.setX.advance

theorem State.Canon.putByte {s : State} {cell key : Nat} {b : Byte} (hs : s.Canon) : (s.putByte cell key b).Canon :=
  putByte_wf hs cell key b

theorem State.Canon.putBytes {s : State} {cell key : Nat} {bs : List Byte} (hs : s.Canon) :
    (s.putBytes cell key bs).Canon :=
  putBytes_wf hs cell key bs

theorem State.Canon.putSome {s : State} {cell key : Nat} {bs : List (Option Byte)} (hs : s.Canon) :
    (s.putSome cell key bs).Canon :=
  putSome_wf hs cell key bs

theorem State.Canon.noteWrite {s : State} {cell n : Nat} (hs : s.Canon) : (s.noteWrite cell n).Canon :=
  ite_canon hs hs

theorem State.Canon.noteRelease {s : State} {who : Agent} {scope cell n : Nat} (hs : s.Canon) :
    (s.noteRelease who scope cell n).Canon :=
  hs

theorem State.Canon.performStore {s : State} {d : Delayed} (hs : s.Canon) : (s.performStore d).Canon := by
  unfold State.performStore
  dsimp only
  split
  · exact foldl_canon (fun _ _ ht => ht.noteRelease) (.putSome (foldl_canon (fun _ _ ht => ht.noteWrite) hs))
  · exact .putSome (foldl_canon (fun _ _ ht => ht.noteWrite) hs)

theorem State.Canon.drain {s : State} {p : Delayed → Bool} (hs : s.Canon) : (s.drain p).Canon := by
  unfold State.drain
  dsimp only
  split
  · exact hs
  · exact foldl_canon (fun _ _ ht => ht.performStore) hs

theorem State.Canon.writeSome {s : State} {v : Viewer} {cell key : Nat} {bs : List (Option Byte)}
    (hs : s.Canon) : (s.writeSome v cell key bs).Canon :=
  hs.drain.noteWrite.putSome

theorem State.Canon.write {s : State} {v : Viewer} {cell key : Nat} {bs : List Byte} (hs : s.Canon) :
    (s.write v cell key bs).Canon :=
  hs.drain.noteWrite.putBytes

theorem State.Canon.forgetWhere {s : State} {p : Early → Bool} (hs : s.Canon) : (s.forgetWhere p).Canon :=
  ite_canon hs hs

theorem State.Canon.forget {s : State} {h : HartId} {scalarOnly : Bool} (hs : s.Canon) :
    (s.forget h scalarOnly).Canon :=
  hs.forgetWhere

theorem State.Canon.forgetAt {s : State} {h : HartId} {scalar : Bool} {cell n : Nat} (hs : s.Canon) :
    (s.forgetAt h scalar cell n).Canon :=
  hs.forgetWhere

theorem State.Canon.takeEarly {s : State} {h : HartId} {scalar : Bool} {cell key n : Nat} (hs : s.Canon) :
    SomeCanon Prod.snd (s.takeEarly h scalar cell key n) := by
  unfold State.takeEarly
  split
  · exact hs
  · exact trivial

theorem State.Canon.store {s : State} {h : HartId} {scalar : Bool} {cell key : Nat} {bs : List (Option Byte)}
    {rel : Option Nat}
    (hs : s.Canon) : (s.store h scalar cell key bs rel).Canon := by
  unfold State.store
  dsimp only
  split
  · exact State.Canon.of_mem hs.forgetAt rfl
  · exact hs.forgetAt.updHart.drain.performStore

theorem State.Canon.raise {s : State} {p : Delayed → Bool} {scope : Nat} (hs : s.Canon) :
    (s.raise p scope).Canon :=
  ite_canon hs (ite_canon hs.drain hs)

theorem State.Canon.drainHart {s : State} {h : HartId} (hs : s.Canon) : (s.drainHart h).Canon := hs.drain

theorem State.Canon.observe {s : State} {h : HartId} {cell n : Nat} (hs : s.Canon) :
    (s.observe h cell n).Canon :=
  ite_canon hs hs

theorem State.Canon.release {s : State} {h : HartId} {scalarOnly : Bool} {scope : Nat} (hs : s.Canon) :
    (s.release h scalarOnly scope).Canon :=
  hs.raise

theorem State.Canon.update {s : State} {h : HartId} {scalar : Bool} {cell key size : Nat} {f : Nat → Nat}
    {rel : Option Nat}
    (hs : s.Canon) : (s.update h scalar cell key size f rel).2.Canon := by
  unfold State.update
  dsimp only
  split
  · exact hs.forgetAt.drain.putBytes.noteRelease
  · exact hs.forgetAt.drain.putBytes

theorem State.Canon.acquireFrom {s : State} {h : HartId} {scalarOnly : Bool} {scope : Nat} {rs : List (Agent
    × Nat)}
    (hs : s.Canon) : (s.acquireFrom h scalarOnly scope rs).Canon :=
  ite_canon hs hs.forget

theorem State.Canon.acquire {s : State} {h : HartId} {scalarOnly : Bool} {scope cell n : Nat} (hs : s.Canon) :
    (s.acquire h scalarOnly scope cell n).Canon :=
  ite_canon hs hs.acquireFrom

theorem State.Canon.notePast {s : State} {h : HartId} {num serial cell n : Nat} (hs : s.Canon) :
    (s.notePast h num serial cell n).Canon :=
  ite_canon hs hs

theorem State.Canon.forgetPast {s : State} {h : HartId} {num serial : Nat} (hs : s.Canon) :
    (s.forgetPast h num serial).Canon :=
  hs.forgetWhere

theorem State.Canon.setFull {s : State} {pa : Nat} {b : Bool} (hs : s.Canon) : (s.setFull pa b).Canon := hs

theorem State.Canon.updSlice {s : State} {d : Fin 4} {line : Nat} {f : Slice → Slice} (hs : s.Canon) :
    (s.updSlice d line f).Canon :=
  hs.updDie

theorem State.Canon.dropLine {s : State} {line : Nat} {d : Fin 4} (hs : s.Canon) : (s.dropLine line d).Canon
    :=
  ite_canon hs.updSlice hs

theorem State.Canon.dropLines {s : State} {line : Nat} {holders : List (Fin 4)} (hs : s.Canon) :
    (s.dropLines line holders).Canon :=
  foldl_canon (fun _ _ ht => ht.dropLine) hs

theorem State.Canon.touchSlice {s : State} {d : Fin 4} {pa : Nat} {write : Bool} (hs : s.Canon) :
    (s.touchSlice d pa write).Canon :=
  ite_canon hs.updSlice hs

theorem State.Canon.putDir {s : State} {e : DirLine} (hs : s.Canon) : (s.putDir e).Canon := .dropLines hs

theorem State.Canon.snoopHost {s : State} {line : Nat} (hs : s.Canon) : (s.snoopHost line).Canon := by
  unfold State.snoopHost
  split
  · exact hs.putDir
  · exact hs

theorem State.Canon.touchLine {s : State} {t : Fin 224} {pa key : Nat} {write : Bool} (hs : s.Canon) :
    (s.touchLine t pa key write).Canon := by
  unfold State.touchLine
  split
  · exact hs.putDir.touchSlice
  · exact hs

theorem State.Canon.snoopAll {s : State} {lines : List Nat} (hs : s.Canon) : (s.snoopAll lines).Canon :=
  foldl_canon (fun _ _ ht => ht.snoopHost) hs

theorem State.Canon.homeLine {s : State} {key : Nat} {write : Bool} {line : Nat} (hs : s.Canon) :
    (s.homeLine key write line).Canon := by
  unfold State.homeLine
  split
  · exact hs.putDir
  · exact hs

theorem State.Canon.homeLines {s : State} {key : Nat} {write : Bool} {lines : List Nat} (hs : s.Canon) :
    (s.homeLines key write lines).Canon :=
  foldl_canon (fun _ _ ht => ht.homeLine) hs

theorem State.Canon.cacheLine {s : State} {t : Fin 224} {line key : Nat} {owned : Bool} (hs : s.Canon) :
    (s.cacheLine t line key owned).Canon :=
  ite_canon hs.putDir hs

theorem State.Canon.sliceFill {s : State} {t : Fin 224} {line unit : Nat} {valid : BitVec 4} (hs : s.Canon) :
    (s.sliceFill t line unit valid).Canon := by
  unfold State.sliceFill
  dsimp only
  split
  · exact ite_canon hs.updSlice hs
  · exact hs

theorem State.Canon.cacheAtHost {s : State} {line : Nat} {owned : Bool} (hs : s.Canon) :
    (s.cacheAtHost line owned).Canon :=
  hs.putDir

theorem State.Canon.evictLine {s : State} {line : Nat} (hs : s.Canon) : (s.evictLine line).Canon := by
  unfold State.evictLine
  dsimp only
  split
  · exact hs.putDir
  · exact hs

theorem State.Canon.snoopDone {s : State} {line : Nat} (hs : s.Canon) : (s.snoopDone line).Canon := by
  unfold State.snoopDone
  split
  · exact ite_canon hs.putDir hs
  · exact hs

theorem State.Canon.dropFrames {s : State} {asid : BitVec 16} {va : Option Nat} {ds : List (Fin 8)}
    (hs : s.Canon) : (s.dropFrames asid va ds).Canon :=
  foldl_canon (fun _ _ ht => ite_canon ht ht.updLanding) hs

theorem State.Canon.askFor {s : State} {asid : BitVec 16} {page : Nat} (hs : s.Canon) :
    (s.askFor asid page).Canon :=
  hs

theorem State.Canon.placeWindow {s : State} {t : Fin 224} {n : Nat} (hs : s.Canon) :
    SomeCanon Prod.fst (s.placeWindow t n) := by
  unfold State.placeWindow
  dsimp only
  split
  · exact trivial
  · split
    · exact trivial
    · exact hs.updDie

theorem State.Canon.freeWindow {s : State} {gs : List (Nat × Nat)} (hs : s.Canon) : (s.freeWindow gs).Canon :=
  foldl_canon (fun _ _ ht => ht.updDie) hs

theorem State.Canon.updBank {s : State} {t : Fin 224} {b : Nat} {f : Bank → Bank} (hs : s.Canon) :
    (s.updBank t b f).Canon :=
  hs.updTile

theorem State.Canon.claimOutside {s : State} {t : Fin 224} (hs : s.Canon) :
    SomeCanon Prod.fst (s.claimOutside t) := by
  unfold State.claimOutside
  dsimp only
  split
  · exact hs.updBank
  · refine .ite trivial (.map fun _ => ?_)
    exact hs.updBank

theorem State.Canon.claimFifo {s : State} {t : Fin 224} (hs : s.Canon) : SomeCanon Prod.fst (s.claimFifo
    t) := by
  unfold State.claimFifo
  split
  · exact hs.updBank
  · exact trivial

theorem State.Canon.freeFifo {s : State} {t : Fin 224} {b : Nat} (hs : s.Canon) : (s.freeFifo t b).Canon :=
  hs.updBank

theorem State.Canon.fifoToCache {s : State} {t : Fin 224} {b : Nat} (hs : s.Canon) :
    (s.fifoToCache t b).Canon :=
  hs.updBank

end Sys2Proof.Machine

/-! ### Canonical memory: streams, windows and extents -/

namespace Sys2Proof.Machine

theorem State.Canon.fillWord {t : Stream} {s : State} {d : Delayed} (hs : s.Canon) :
    (State.fillWord t s d).Canon :=
  hs.notePast.writeSome.setFull

theorem State.Canon.writeElem {s : State} {h : HartId} {t : Stream} {j v : Nat} (hs : s.Canon) :
    OkCanon (s.writeElem h t j v) := by
  unfold State.writeElem
  dsimp only
  split
  · exact trivial
  · refine .ite trivial ?_
    split
    · exact .ite (.ite hs (foldl_canon (fun _ _ ht => ht.fillWord) hs)) hs.notePast.write
    · exact trivial
    · exact trivial

theorem State.Canon.fillParts {s : State} {t : Stream} (hs : s.Canon) : (s.fillParts t).1.Canon :=
  foldl_canon (fun _ _ ht => ht.fillWord) hs

theorem State.Canon.writeElems {s : State} {h : HartId} {t : Stream} {j : Nat} {vs : List Nat} (hs : s.Canon) :
    (s.writeElems h t j vs).1.Canon := by
  induction vs generalizing s t j with
  | nil => exact hs
  | cons v vs ih =>
    have hk := hs.writeElem (h := h) (t := t) (j := j) (v := v)
    unfold State.writeElems
    split
    · exact hs
    · rename_i e; rw [e] at hk
      exact ih hk

theorem State.Canon.cleanStrips {s : State} {h : HartId} {t : Stream} {j n : Nat} (hs : s.Canon) :
    (s.cleanStrips h t j n).1.Canon :=
  ite_fst_canon hs hs

theorem State.Canon.mapEntries {s : State} {f : Rsv → Option Rsv} (hs : s.Canon) : (s.mapEntries f).Canon :=
  hs

theorem State.Canon.setStateAt {s : State} {ds : List (Nat × Nat)} {st : Nat} (hs : s.Canon) :
    (s.setStateAt ds st).Canon :=
  hs

theorem State.Canon.freeAt {s : State} {ds : List (Nat × Nat)} (hs : s.Canon) : (s.freeAt ds).Canon := hs

theorem State.Canon.tellPeers {s : State} {es : List Extent} {k : MsgKind} (hs : s.Canon) :
    (s.tellPeers es k).Canon := by
  unfold State.tellPeers
  refine foldl_canon (fun _ _ ht => ?_) hs
  split
  · exact ht
  · exact ht

theorem State.Canon.setEntries {s : State} {t : Stream} {st : Nat} (hs : s.Canon) :
    (s.setEntries t st).Canon :=
  hs.setStateAt.tellPeers

theorem State.Canon.putAt {s : State} {p : StreamAt} {t : Stream} (hs : s.Canon) : (s.putAt p t).Canon := by
  unfold State.putAt
  split
  · exact hs.updHart
  · exact hs.updHart
  · exact hs

theorem State.Canon.relPeers {s : State} {es : List Extent} (hs : s.Canon) : (s.relPeers es).Canon := by
  unfold State.relPeers
  refine .tellPeers (foldl_canon (fun _ _ ht => ?_) hs)
  split
  · exact ht
  · exact ht

theorem State.Canon.passed {s : State} {t : Stream} {front : Nat} (hs : s.Canon) :
    (s.passed t front).1.Canon := by
  unfold State.passed
  dsimp only
  exact foldl_canon (fun _ _ ht => foldl_canon (fun _ _ hu => dite_canon (fun _ => hu.updLanding) fun _ =>
      hu) ht) hs.freeAt.relPeers

theorem State.Canon.stopAtFault {s : State} {h : HartId} {n : Nat} {t : Stream} {f va : Nat} {c : Cause}
    (hs : s.Canon) : (s.stopAtFault h n t f va c).1.Canon :=
  hs.setEntries.updHart

theorem State.Canon.drainStream {s : State} {h : HartId} {t : Stream} {k : Nat} (hs : s.Canon) :
    (s.drainStream h t k).1.Canon := by
  unfold State.drainStream
  dsimp only
  exact ite_fst_canon hs.writeElems.cleanStrips hs

theorem State.Canon.leavePeers {s : State} {t : Stream} (hs : s.Canon) : (s.leavePeers t).1.Canon :=
  hs.relPeers

theorem State.Canon.splitStream {s : State} {hold : Bool} {h : HartId} {n : Nat} {t : Stream} (hs : s.Canon) :
    (s.splitStream hold h n t).1.Canon := by
  unfold State.splitStream
  dsimp only
  split
  · exact hs.drainStream.leavePeers
  · exact hs.drainStream.leavePeers.stopAtFault
  · exact ite_fst_canon hs.drainStream.askFor hs.drainStream.askFor.leavePeers

theorem State.Canon.stopSaved {s : State} {p : StreamAt} {t : Stream} {f va : Nat} {c : Cause} (hs : s.Canon)
    :
    (s.stopSaved p t f va c).1.Canon := by
  unfold State.stopSaved
  dsimp only
  split
  · exact hs.setEntries.updHart
  · exact hs.setEntries.updHart
  · exact State.Canon.of_mem hs.setEntries rfl

theorem State.Canon.homeSaved {s : State} {p : StreamAt} {t : Stream} {k : Nat} (hs : s.Canon) :
    (s.homeSaved p t k).1.Canon := by
  induction k generalizing s t with
  | zero => exact hs
  | succ k ih =>
    unfold State.homeSaved
    split
    · exact hs
    · refine ite_fst_canon hs ?_
      split
      · exact ih hs.write
      · exact hs
      · exact ite_fst_canon hs hs.stopSaved

theorem State.Canon.cutAt {s : State} {ds : List (Nat × Nat)} (hs : s.Canon) : (s.cutAt ds).Canon := hs

theorem State.Canon.onHolder {s : State} {d k : Nat} {r : Rsv} {f : State → StreamAt → Stream → State × Stream × Bool}
    (hs : s.Canon) (hf : ∀ s p t, s.Canon → (f s p t).1.Canon) : (s.onHolder d k r f).1.Canon := by
  unfold State.onHolder
  split
  · exact (hf _ _ _ hs).putAt
  · exact hs

theorem State.Canon.tellCut {s : State} {ds : List (Nat × Nat)} (hs : s.Canon) : (s.tellCut ds).Canon := hs

theorem State.Canon.splitAt {s : State} {hold : Bool} {p : StreamAt} {n : Nat} {t : Stream} (hs : s.Canon) :
    (s.splitAt hold p n t).1.Canon := by
  unfold State.splitAt
  dsimp only
  exact ite_fst_canon hs.homeSaved.leavePeers hs.splitStream

theorem State.Canon.splitEntry {s : State} {hold : Bool} {d k : Nat} {r : Rsv} (hs : s.Canon) :
    (s.splitEntry hold d k r).1.Canon := by
  unfold State.splitEntry
  dsimp only
  exact ite_fst_canon hs.tellCut.cutAt (ite_canon (.cutAt (hs.onHolder fun _ _ _ ht =>
      ht.splitAt)) (hs.onHolder fun _ _ _ ht => ht.splitAt))

theorem State.Canon.earlyEntry {s : State} {d k : Nat} {r : Rsv} (hs : s.Canon) :
    (s.earlyEntry d k r).1.Canon := by
  unfold State.earlyEntry
  dsimp only
  refine ite_fst_canon hs (hs.onHolder fun _ _ _ ht => ite_fst_canon ht.homeSaved ?_)
  split
  · exact ht.drainStream.askFor
  · exact ht.drainStream

theorem State.Canon.emptyWindow {s : State} {h : HartId} {t : Stream} (hs : s.Canon) :
    (s.emptyWindow h t).1.Canon := by
  unfold State.emptyWindow
  dsimp only
  exact ite_fst_canon hs.drainStream.passed hs

theorem State.Canon.flushWindows {s : State} {hit : Leaf → Bool} (hs : s.Canon) : (s.flushWindows
    hit).Canon := by
  unfold State.flushWindows
  dsimp only
  refine ite_canon hs (foldl_canon (fun _ _ ht => ?_) hs)
  split
  · exact ite_canon ht.emptyWindow.putAt ht
  · exact ht

theorem onClash_canon {who : Requester} {write : Bool} {f : State → Nat → Nat → Rsv → State × Bool} {a : State × Bool}
    {c : Nat × Fin 8 × Nat × Rsv} (ha : a.1.Canon) (hf : ∀ s d k r, s.Canon → (f s d k r).1.Canon) :
    (State.onClash who write f a c).1.Canon := by
  unfold State.onClash
  split
  · exact hf _ _ _ _ ha
  · exact ha

theorem State.Canon.meetAll {s : State} {who : Requester} {lines : List Nat} {key : Nat} {write : Bool}
    (hs : s.Canon) : (s.meetAll who lines key write).1.Canon := by
  have hf : ∀ {l l' : List (Nat × Fin 8 × Nat × Rsv)},
      (l'.foldl (State.onClash who write State.earlyEntry)
        (l.foldl (State.onClash who write fun s => s.splitEntry who.held) (s, true))).1.Canon :=
    foldl_fst_canon (fun _ _ ht => onClash_canon ht fun _ _ _ _ hu => hu.earlyEntry)
      (foldl_fst_canon (fun _ _ ht => onClash_canon ht fun _ _ _ _ hu => hu.splitEntry) hs)
  unfold State.meetAll
  dsimp only
  refine ite_fst_canon hs ?_
  split
  · exact hf
  · exact ite_fst_canon hf.flushWindows hf

theorem State.Canon.unpark {s : State} {who : Parker} (hs : s.Canon) : (s.unpark who).Canon :=
  ite_canon hs hs

theorem State.Canon.unparkHart {s : State} {h : HartId} (hs : s.Canon) : (s.unparkHart h).Canon :=
  ite_canon hs hs

theorem State.Canon.park {s : State} {who : Parker} {d : Fin 8} {entry line : Nat} (hs : s.Canon) :
    (s.park who d entry line).Canon := by
  unfold State.park
  dsimp only
  refine ite_canon hs ?_
  split
  · refine ite_canon (.updLanding ?_) ?_
    · split
      · exact hs
      · exact hs.unpark
    · split
      · exact hs
      · exact hs.unpark
  · split
    · exact hs
    · exact hs.unpark

theorem State.Canon.unparkAt {s : State} {who : Parker} {lines : List Nat} (hs : s.Canon) :
    (s.unparkAt who lines).Canon :=
  ite_canon hs hs

theorem State.Canon.meetInTurn {s : State} {p : Parker} {who : Requester} {lines : List Nat} {key : Nat}
    {write : Bool}
    (hs : s.Canon) : (s.meetInTurn p who lines key write).1.Canon := by
  unfold State.meetInTurn
  refine ite_fst_canon hs ?_
  split
  · rename_i e
    exact .unparkAt ((hs.meetAll.fst_of_eq e))
  · rename_i e
    exact .park ((hs.meetAll.fst_of_eq e))
  · exact hs.meetAll

end Sys2Proof.Machine

/-! ### Canonical memory: scalar instructions and streams of a hart -/

namespace Sys2Proof.Machine

theorem State.Canon.setStreamEntries {s : State} {h : HartId} {st : Stream → Nat} (hs : s.Canon) :
    (s.setStreamEntries h st).Canon :=
  foldl_canon (fun _ _ ht => ht.setEntries) hs

theorem State.Canon.resumeHalted {s : State} {h : HartId} (hs : s.Canon) : (s.resumeHalted h).Canon :=
  ite_canon hs.setStreamEntries.updHart hs

theorem State.Canon.dbgReg {s : State} {h : HartId} {write : Bool} {regno : Nat} (hs : s.Canon) :
    (s.dbgReg h write regno).Canon :=
  ite_canon hs.updHart (ite_canon (ite_canon hs.updHart hs.updHart) (ite_canon (ite_canon hs.updHart
      hs.updHart) hs.updHart))

theorem State.Canon.dbgWrite {s : State} {h : HartId} {off : Nat} {v : Word} (hs : s.Canon) :
    (s.dbgWrite h off v).Canon := by
  unfold State.dbgWrite
  dsimp only
  refine ite_canon hs ?_
  split
  · exact ite_canon (.resumeHalted (ite_canon hs.updHart.updHart hs.updHart)) (ite_canon hs.updHart.updHart
      hs.updHart)
  · exact ite_canon hs.updHart hs
  · exact ite_canon hs.updHart (ite_canon hs.dbgReg (ite_canon hs.dbgReg (ite_canon hs.updHart hs.updHart)))
  · exact hs.updHart
  · exact hs

theorem State.Canon.setRoute {s : State} {r : Route} (hs : s.Canon) : (s.setRoute r).Canon := hs

theorem State.Canon.devWrite {s : State} {off : Nat} {v : Word} (hs : s.Canon) : (s.devWrite off
    v).Canon := by
  unfold State.devWrite
  dsimp only
  refine ite_canon (ite_canon hs.setRoute (ite_canon hs.setRoute hs)) (ite_canon hs (ite_canon hs.updDie
      (ite_canon ?_ (ite_canon ?_ hs))))
  · split
    · split
      · exact hs.updHart
      · exact hs.updHart
      · exact hs
    · exact hs
  · split
    · exact hs.dbgWrite
    · exact hs

theorem waitBehind_canon : Op.Canon waitBehind := by
  unfold waitBehind
  refine .get_bind fun _ _ => ?_
  split
  · exact .waitOp
  · exact .waitOp

theorem takeLine_canon {s : State} {pa key : Nat} {write : Bool} (hs : s.Canon) :
    Op.Canon (takeLine s pa key write) :=
  .ite (.bind (.set hs.snoopHost) fun _ => .waitOp) (.set hs.touchLine)

theorem checkLine_canon {pa key : Nat} {va : Word} {write : Bool} : Op.Canon (checkLine pa key va write) := by
  unfold checkLine
  refine .get_bind fun _ ht => .ite .waitOp ?_
  split
  · rename_i e2
    exact takeLine_canon ((ht.meetInTurn.fst_of_eq e2))
  · exact .trapOp
  · rename_i e2
    exact .bind (.set ((ht.meetInTurn.fst_of_eq e2))) fun _ => .waitOp
  · exact waitBehind_canon

theorem State.Canon.askHost {s : State} {page : Nat} (hs : s.Canon) : (s.askHost page).Canon := hs.askFor

theorem State.Canon.endFailed {s : State} {h : HartId} {va : Nat} (hs : s.Canon) : (s.endFailed h va).Canon :=
  ite_canon hs hs

theorem askHost_canon {page : Nat} : Op.Canon (askHost page) :=
  .bind (.update fun _ ht => ht.askHost) fun _ => .waitOp

theorem reachAs_canon {sup : Bool} {kind : Kind} {va : Word} {size : Nat} :
    Op.Canon (reachAs sup kind va size) := by
  unfold reachAs
  refine .bind check_canon fun _ => .get_bind fun _ _ => ?_
  split
  · exact .pure
  · exact .bind (.update fun _ hu => hu.endFailed) fun _ => .trapOp
  · exact .bind askHost_canon fun _ => .pure

theorem reachOp_canon {kind : Kind} {va : Word} {size : Nat} : Op.Canon (reachOp kind va size) :=
  .get_bind fun _ _ => reachAs_canon

theorem readScalar_canon {va : Word} {l : Leaf} {c size : Nat} {acq : Option Nat} :
    Op.Canon (readScalar va l c size acq) := by
  unfold readScalar
  refine .get_bind fun s hs => ?_
  have hk : SomeCanon Prod.snd (if acq.isSome then none else s.takeEarly s.cur true c l.key size) :=
    .ite trivial hs.takeEarly
  split
  · rename_i e
    exact .bind (.set (hk.of_eq e)) fun _ => .pure
  · refine .bind checkLine_canon fun _ => .get_bind fun _ hv => .bind check_canon fun _ => .bind (.set ?_) fun _ => .pure
    split
    · exact hv.forgetAt.acquire
    · exact hv.forgetAt

theorem loadScalar_canon {va : Word} {size : Nat} {atomic : Bool} {acq : Option Nat} :
    Op.Canon (loadScalar va size atomic acq) := by
  unfold loadScalar
  dsimp only
  refine .get_bind fun _ _ => ?_
  split
  · exact .pure
  · exact .bind reachOp_canon fun _ => .bind check_canon fun _ => readScalar_canon

theorem State.Canon.releaseAt {s : State} {rel : Option Nat} (hs : s.Canon) : (s.releaseAt rel).Canon := by
  unfold State.releaseAt
  split
  · exact hs.release
  · exact hs

theorem storeScalar_canon {va : Word} {size v : Nat} {rel : Option Nat} :
    Op.Canon (storeScalar va size v rel) := by
  unfold storeScalar
  dsimp only
  refine .get_bind fun _ ht => ?_
  split
  · exact .set ht.releaseAt.devWrite
  · exact .bind reachOp_canon fun _ => .bind checkLine_canon fun _ => .update fun _ hu => hu.releaseAt.store

theorem loadShadow_canon {va : Word} : Op.Canon (loadShadow va) :=
  .bind reachOp_canon fun _ => .bind readScalar_canon fun _ => .pure

theorem storeShadow_canon {va v : Word} : Op.Canon (storeShadow va v) :=
  .bind reachOp_canon fun _ => .bind checkLine_canon fun _ => .update fun _ ht => ht.store

theorem atomicScalar_canon {va : Word} {size : Nat} {f : Nat → Nat} {acq rel : Option Nat} :
    Op.Canon (atomicScalar va size f acq rel) := by
  unfold atomicScalar
  dsimp only
  refine .bind reachOp_canon fun _ => .get_bind fun _ _ => .bind check_canon fun _ =>
      .bind checkLine_canon fun _ => .get_bind fun _ hu => .bind check_canon fun _ =>
      .bind (.set (.update ?_)) fun _ => .pure
  split
  · exact hu.releaseAt.acquire
  · exact hu.releaseAt

theorem feWord_canon {kind : Kind} {va : Word} : Op.Canon (feWord kind va) := by
  unfold feWord
  refine .bind check_canon fun _ => .get_bind fun _ _ => ?_
  split
  · exact .bind (.update fun _ hu => hu.endFailed) fun _ => .trapOp
  · exact .bind askHost_canon fun _ => .pure
  · refine .ite .trapOp (.ite ?_ .trapOp)
    split
    · exact .pure
    · exact .trapOp
    · exact .trapOp

theorem State.Canon.illegal {s : State} {i : Instr} (hs : s.Canon) : (s.illegal i).Canon := hs.trap

theorem legal_canon {b : Bool} {i : Instr} : Op.Canon (legal b i) := check_canon

theorem loadX_canon {size : Nat} {ext : Nat → Word} {d a : Reg} {i : BitVec 12} {s : State} (hs : s.Canon) :
    OutcomeCanon (loadX size ext d a i s) :=
  runOp_canon hs (.bind loadScalar_canon fun _ => retireX_canon)

theorem loadF_canon {size : Nat} {d a : Reg} {i : BitVec 12} {s : State} (hs : s.Canon) :
    OutcomeCanon (loadF size d a i s) :=
  runOp_canon hs (.bind loadScalar_canon fun _ => .update fun _ ht => ht.setF.advance)

theorem storeW_canon {size : Nat} {v : Word} {a : Reg} {i : BitVec 12} {s : State} (hs : s.Canon) :
    OutcomeCanon (storeW size v a i s) :=
  runOp_canon hs (.bind storeScalar_canon fun _ => retire_canon)

theorem amo_canon {f : Nat → Nat → Nat → Nat} {d a b : Reg} {q l z : BitVec 1} {p : BitVec 3} {s : State}
    (hs : s.Canon) : OutcomeCanon (amo f d a b q l z p s) :=
  runOp_canon hs (.bind atomicScalar_canon fun _ => retireX_canon)

theorem State.Canon.dropCode {s : State} {t : Fin 224} (hs : s.Canon) : (s.dropCode t).Canon :=
  ite_canon hs hs.updTile

theorem execLda_canon {d a : Reg} {z : BitVec 1} {n : BitVec 2} {p : BitVec 3} {s : State} (hs : s.Canon) :
    OutcomeCanon (execLda d a z n p s) :=
  runOp_canon hs (.bind loadScalar_canon fun _ => retireX_canon)

theorem execStl_canon {a b : Reg} {n : BitVec 2} {p : BitVec 3} {s : State} (hs : s.Canon) :
    OutcomeCanon (execStl a b n p s) :=
  runOp_canon hs (.bind storeScalar_canon fun _ => retire_canon)

theorem State.Canon.clearRange {s : State} {a n : Nat} (hs : s.Canon) : (s.clearRange a n).Canon :=
  clearRange_wf hs a n

theorem State.Canon.changeRole {s : State} {t : Fin 224} {b : Nat} {r : Role} (hs : s.Canon) :
    (s.changeRole t b r).Canon := by
  unfold State.changeRole
  dsimp only
  split
  · exact hs
  · exact ite_canon hs (.updBank (ite_canon (.clearRange (ite_canon hs hs)) (ite_canon hs hs)))

theorem bankCfg_canon {r : Role} {d a : Reg} {s : State} (hs : s.Canon) : OutcomeCanon (bankCfg r d a s) :=
  .ite hs.trap (.ite hs.setX.advance (.ite hs.setX.advance (.ite hs.setX.advance (.advance (.setX
      (foldl_canon (fun _ _ ht => ht.changeRole) hs))))))

theorem feWords_canon {tile : Option Nat} {va : Word} {n : Nat} : Op.Canon (feWords tile va n) := by
  induction n generalizing tile va with
  | zero => exact .pure
  | succ n ih => exact .bind feWord_canon fun _ => .bind check_canon fun _ => .bind ih fun _ => .pure

theorem feInit_canon {i : Instr} {full : Bool} {a b : Reg} {s : State} (hs : s.Canon) :
    OutcomeCanon (feInit i full a b s) :=
  runOp_canon hs (.bind legal_canon fun _ => .bind check_canon fun _ => .bind feWords_canon fun _ =>
      .bind (.update fun _ ht => foldl_canon (fun _ _ hu => hu.setFull) ht) fun _ => retire_canon)

theorem feWait_canon {word : Nat} {full : Bool} {va : Word} : Op.Canon (feWait word full va) := by
  unfold feWait
  refine .get_bind fun _ ht => ?_
  split
  · exact .ite .waitOp (.bind (.set ht) fun _ => .waitOp)
  · exact .bind (.set ht) fun _ => .waitOp

theorem ldfOp_canon {clr : Bool} {d a : Reg} {p : BitVec 3} {s : State} (hs : s.Canon) :
    OutcomeCanon (ldfOp clr d a p s) :=
  runOp_canon hs (.bind feWord_canon fun _ => .ite feWait_canon (.set (.advance (.setX (ite_canon
      hs.forgetAt.forgetAt.acquire.setFull hs.forgetAt.forgetAt.acquire)))))

theorem stfOp_canon {wait : Bool} {a b : Reg} {p : BitVec 3} {s : State} (hs : s.Canon) :
    OutcomeCanon (stfOp wait a b p s) :=
  runOp_canon hs (.bind feWord_canon fun _ => .ite feWait_canon (.set
      hs.release.forgetAt.write.noteRelease.setFull.advance))

theorem ringPages_canon {va stop n : Nat} : Op.Canon (ringPages va stop n) := by
  induction n generalizing va with
  | zero => exact .pure
  | succ n ih =>
    refine .ite .pure (.get_bind fun _ _ => ?_)
    split
    · exact .bind (.update fun _ ht => ht.endFailed) fun _ => .trapOp
    · exact .bind askHost_canon fun _ => .pure
    · exact .bind check_canon fun _ => .bind ih fun _ => .pure

theorem ringConfigure_canon {q : BitVec 3} {base shape : Word} : Op.Canon (ringConfigure q base shape) :=
  .bind check_canon fun _ => .bind ringPages_canon fun _ => .get_bind fun _ _ => .bind check_canon fun _ =>
      updMe_canon

theorem execRingCfg_canon {q : BitVec 3} {a b : Reg} {s : State} (hs : s.Canon) :
    OutcomeCanon (execRingCfg q a b s) :=
  runOp_canon hs (.bind ringConfigure_canon fun _ => retire_canon)

theorem execRingAdvTail_canon {q : BitVec 3} {a : Reg} {p : BitVec 3} {s : State} (hs : s.Canon) :
    OutcomeCanon (execRingAdvTail q a p s) :=
  runOp_canon hs (.bind check_canon fun _ => .bind check_canon fun _ =>
      .ite .waitOp_bind (.ite (.bind (.update fun _ ht => ht.release.forgetWhere.updMe) fun _ =>
      retire_canon) retire_canon))

theorem execRingAdvHead_canon {q : BitVec 3} {a : Reg} {_p : BitVec 3} {s : State} (hs : s.Canon) :
    OutcomeCanon (execRingAdvHead q a _p s) :=
  runOp_canon hs (.bind check_canon fun _ => .bind check_canon fun _ => .bind updMe_canon fun _ =>
      retire_canon)

theorem execRingStat_canon {d : Reg} {q : BitVec 3} {s : State} (hs : s.Canon) :
    OutcomeCanon (execRingStat d q s) :=
  .ite hs.setX.advance hs.trap

theorem execRingStatWait_canon {d : Reg} {q : BitVec 3} {b : Reg} {s : State} (hs : s.Canon) :
    OutcomeCanon (execRingStatWait d q b s) :=
  .ite hs.trap (.ite hs.trap (.ite hs.waitIn hs.setX.advance))

theorem State.Canon.logEvent {s : State} {source : Nat} {claimed : Bool} {detail : List Byte} (hs : s.Canon) :
    (s.logEvent source claimed detail).Canon :=
  hs

theorem State.Canon.logOwn {s : State} {detail : List Byte} (hs : s.Canon) : (s.logOwn detail).Canon :=
  .logEvent hs

theorem State.Canon.noteStep {s : State} (hs : s.Canon) : s.noteStep.Canon := .logOwn hs

end Sys2Proof.Machine

/-! ### Canonical memory: engines, rings and fetch -/

namespace Sys2Proof.Machine

theorem moved_canon {α : Type} {s : State} {h : HartId} {e : ElemStop} (hs : s.Canon) :
    (e.moved s h : Moved α).Canon := by
  cases e with
  | fault c va => trivial
  | ask p => exact hs.askFor

theorem State.Canon.pastHost {s : State} {lines : List Nat} {key : Nat} {write : Bool} {f : State → State}
    (hs : s.Canon) (hf : ∀ t, t.Canon → (f t).Canon) : (s.pastHost lines key write f).Canon := by
  unfold State.pastHost
  split
  · exact hf s hs
  · exact hs.snoopAll

theorem State.Canon.engineMeets {s : State} {h : HartId} {k : Nat} {l : Leaf} {n va : Nat} {write : Bool}
    (hs : s.Canon) : Moved.Canon (s.engineMeets h k l n va write) := by
  unfold State.engineMeets
  dsimp only
  refine .ite hs ?_
  split
  · rename_i e
    exact State.Canon.pastHost ((hs.meetInTurn.fst_of_eq e)) fun _ hu => foldl_canon (fun _ _ hv =>
        hv.touchLine) hu
  · exact trivial
  · rename_i e
    exact (hs.meetInTurn.fst_of_eq e)

theorem State.Canon.engineReach {s : State} {h : HartId} {t : Stream} {kind : Kind} {va : Nat} (hs : s.Canon)
    :
    Moved.Canon (s.engineReach h t kind va) := by
  unfold State.engineReach
  split
  · exact hs
  · exact trivial
  · exact hs.askFor

theorem State.Canon.indexMeets {s : State} {h : HartId} {t : Stream} {j : Nat} (hs : s.Canon) :
    Moved.Canon (s.indexMeets h t j) :=
  .ite hs (.andThen hs.engineReach fun _ _ ht => ht.engineMeets)

theorem State.Canon.findElem {s : State} {h : HartId} {t : Stream} {kind : Kind} {j : Nat} (hs : s.Canon) :
    Moved.Canon (s.findElem h t kind j) := by
  unfold State.findElem
  refine .andThen hs.indexMeets fun _ _ ht => ?_
  split
  · exact moved_canon ht
  · exact .andThen ht.engineReach fun _ _ hu => hu

theorem State.Canon.elemMeets {s : State} {h : HartId} {t : Stream} {kind : Kind} {j : Nat} (hs : s.Canon) :
    Moved.Canon (s.elemMeets h t kind j) :=
  .andThen hs.findElem fun _ _ ht => .ite trivial (.ite (ht.pastHost fun _ hu => hu.homeLines) ht.engineMeets)

theorem State.Canon.fetchElem {s : State} {h : HartId} {t : Stream} {j : Nat} (hs : s.Canon) :
    Moved.Canon (s.fetchElem h t j) := by
  unfold State.fetchElem
  refine .andThen hs.elemMeets fun _ _ ht => ?_
  split
  · exact ht
  · exact moved_canon ht

theorem State.Canon.homeElem {s : State} {h : HartId} {t : Stream} {j v : Nat} (hs : s.Canon) :
    Moved.Canon (s.homeElem h t j v) := by
  unfold State.homeElem
  refine .andThen hs.elemMeets fun _ _ ht => ?_
  split
  · rename_i e2
    exact (ht.writeElem.of_eq e2)
  · exact moved_canon ht

theorem State.Canon.fetchRun {s : State} {h : HartId} {t : Stream} {j n : Nat} (hs : s.Canon) :
    (s.fetchRun h t j n).1.Canon := by
  induction n generalizing s j with
  | zero => exact hs
  | succ n ih =>
    unfold State.fetchRun
    split
    · exact hs
    · rename_i e
      exact hs.fetchElem.of_blocked e
    · rename_i e
      exact ih (hs.fetchElem.of_eq e)

theorem State.Canon.homeRun {s : State} {h : HartId} {t : Stream} {j : Nat} {vs : List Nat} (hs : s.Canon) :
    (s.homeRun h t j vs).1.Canon := by
  induction vs generalizing s t j with
  | nil => exact hs
  | cons v vs ih =>
    unfold State.homeRun
    split
    · exact hs
    · rename_i e
      exact hs.homeElem.of_blocked e
    · rename_i e
      exact ih (hs.homeElem.of_eq e)

theorem State.Canon.registerAt {s : State} {r : Rsv} {ds : List (Fin 8)} (hs : s.Canon) :
    SomeCanon Prod.fst (s.registerAt r ds) := by
  unfold State.registerAt
  refine .map_of (f := Prod.fst) (.foldl (fun o d ho => ?_) hs) fun _ ht => ht.drain.homeLines
  split
  · trivial
  · refine .ite trivial ?_
    split
    · trivial
    · exact State.Canon.updLanding ho

theorem State.Canon.stopStream {s : State} {h : HartId} {n : Nat} {t : Stream} {f va : Nat} {c : Cause}
    (hs : s.Canon) : (s.stopStream h n t f va c).1.Canon :=
  hs.endFailed.stopAtFault

theorem State.Canon.putStream {s : State} {h : HartId} {n : Nat} {t : Stream} (hs : s.Canon) :
    (s.putStream h n t).Canon :=
  hs.updHart

theorem State.Canon.giveWindow {s : State} {h : HartId} {t : Stream} (hs : s.Canon) :
    (s.giveWindow h t).1.Canon := by
  unfold State.giveWindow
  refine ite_fst_canon ?_ hs
  split
  · rename_i e
    exact (hs.placeWindow.of_eq e)
  · exact hs

theorem State.Canon.askPeer {s : State} {w : PeerWin} {r : Rsv} (hs : s.Canon) : (s.askPeer w r).Canon :=
  hs

theorem State.Canon.registerExtent {s : State} {h : HartId} {n : Nat} {t : Stream} {st : Nat} (hs : s.Canon) :
    (s.registerExtent h n t st).1.Canon := by
  unfold State.registerExtent
  dsimp only
  split
  · rename_i e
    exact (hs.findElem.of_blocked e)
  · exact hs.stopStream
  · rename_i e
    refine ite_fst_canon (.giveWindow ((hs.findElem.of_eq e))) ?_
    split
    · split
      · split
        · rename_i e2
          exact ((State.Canon.registerAt (.giveWindow ((hs.findElem.of_eq e)))).of_eq e2)
        · exact .giveWindow ((hs.findElem.of_eq e))
      · exact .snoopAll (.giveWindow ((hs.findElem.of_eq e)))
    · split
      · split
        · rename_i e2
          exact ((State.Canon.registerAt (.giveWindow ((hs.findElem.of_eq e)))).of_eq e2)
        · exact .giveWindow ((hs.findElem.of_eq e))
      · exact .snoopAll (.giveWindow ((hs.findElem.of_eq e)))
    · split
      · exact ite_fst_canon (.askPeer (.giveWindow ((hs.findElem.of_eq e)))) (.giveWindow ((hs.findElem.of_eq
          e)))
      · exact .giveWindow ((hs.findElem.of_eq e))
    · exact .giveWindow ((hs.findElem.of_eq e))

theorem State.Canon.fetchStrip {s : State} {h : HartId} {n : Nat} {t : Stream} (hs : s.Canon) :
    (s.fetchStrip h n t).1.Canon := by
  unfold State.fetchStrip
  dsimp only
  refine ite_fst_canon hs ?_
  split
  · exact hs.fetchRun.passed
  · exact hs.fetchRun.passed.stopStream

theorem State.Canon.homeMade {s : State} {h : HartId} {t : Stream} {k : Nat} (hs : s.Canon) :
    (s.homeMade h t k).1.Canon := by
  unfold State.homeMade
  dsimp only
  exact hs.homeRun.cleanStrips.passed

theorem State.Canon.acceptStrip {s : State} {h : HartId} {n : Nat} {t : Stream} {k : Nat} (hs : s.Canon) :
    (s.acceptStrip h n t k).1.Canon := by
  unfold State.acceptStrip
  dsimp only
  split
  · exact hs.homeMade
  · exact hs.homeMade.stopStream

theorem State.Canon.beginRelease {s : State} {h : HartId} {n : Nat} (hs : s.Canon) :
    (s.beginRelease h n).Canon := by
  unfold State.beginRelease
  dsimp only
  refine ite_canon hs (.updHart (ite_fst_canon hs.unpark.freeAt.relPeers ?_))
  split
  · exact hs.unpark.freeAt.relPeers
  · exact hs.unpark.setEntries

theorem State.Canon.finishRelease {s : State} {h : HartId} {k : Nat} {t : Stream} (hs : s.Canon) :
    (s.finishRelease h k t).Canon := by
  unfold State.finishRelease
  dsimp only
  exact hs.fillParts.unpark.freeWindow.freeFifo.updHart

theorem State.Canon.homeAll {s : State} {h : HartId} {t : Stream} {st n : Nat} (hs : s.Canon) :
    (s.homeAll h t st n).1.Canon := by
  induction n generalizing s t with
  | zero => exact hs
  | succ n ih =>
    unfold State.homeAll
    dsimp only
    generalize (match t.stopAt with
      | some (f, _, _) => Nat.min t.made.length (f - t.home)
      | none => t.made.length) = k
    split
    · exact hs.homeMade.stopStream
    · exact ite_fst_canon hs.homeMade
        (ite_fst_canon hs.homeMade.registerExtent (ih hs.homeMade.registerExtent))

theorem State.Canon.drainRelease {s : State} {h : HartId} {k : Nat} {t : Stream} (hs : s.Canon) :
    (s.drainRelease h k t).1.Canon := by
  unfold State.drainRelease
  dsimp only
  exact hs.homeAll.updHart

theorem State.Canon.advanceRelease {s : State} {h : HartId} {k : Nat} (hs : s.Canon) :
    (s.advanceRelease h k).Canon := by
  unfold State.advanceRelease
  dsimp only
  split
  · exact hs
  · exact ite_canon hs (ite_canon hs.drainRelease (ite_canon
      hs.drainRelease.freeAt.relPeers.updHart.finishRelease hs.drainRelease.freeAt.relPeers.updHart))

theorem loadBytes_canon {va : Word} {n : Nat} : Op.Canon (loadBytes va n) :=
  .bind reachOp_canon fun _ => .bind readScalar_canon fun _ => .pure

theorem execStrmCfg_canon {d a : Reg} {n : BitVec 4} {s : State} (hs : s.Canon) :
    OutcomeCanon (execStrmCfg d a n s) := by
  unfold execStrmCfg
  dsimp only
  refine runOp_canon hs (.bind check_canon fun _ => .bind loadBytes_canon fun _ => .bind check_canon fun _ =>
      .bind (.update fun _ ht => ht.release) fun _ => .get_bind fun _ ht =>
      .ite retireX_canon (.ite retireX_canon ?_))
  split
  · exact retireX_canon
  · rename_i e2
    exact .bind (.set (.putStream ((ht.claimFifo.of_eq e2)))) fun _ => retireX_canon

theorem releaseOp_canon {n : BitVec 4} : Op.Canon (releaseOp n) := by
  unfold releaseOp
  dsimp only
  refine .get_bind fun _ ht => .ite ?_ .pure
  split
  · exact .set ht.beginRelease
  · exact .bind check_canon fun _ => .set ht.beginRelease.beginRelease

theorem execStrmRel_canon {n : BitVec 4} {s : State} (hs : s.Canon) : OutcomeCanon (execStrmRel n s) :=
  runOp_canon hs (.bind releaseOp_canon fun _ => retire_canon)

theorem execStrmRelWait_canon {n : BitVec 4} {s : State} (hs : s.Canon) : OutcomeCanon (execStrmRelWait n s)
    :=
  runOp_canon hs (.get_bind fun _ ht => .ite (.bind releaseOp_canon fun _ =>
      .waitOp) (.ite .waitOp (.ite (.bind (.set ht.forgetPast) fun _ => retire_canon) retire_canon)))

theorem strmChecks_canon {t : Stream} {dir : Bool} {n : Word} : Op.Canon (strmChecks t dir n) :=
  .bind check_canon fun _ => .bind check_canon fun _ => .bind check_canon fun _ => check_canon

theorem execStrmPop_canon {d : Reg} {n : BitVec 4} {s : State} (hs : s.Canon) :
    OutcomeCanon (execStrmPop d n s) := by
  unfold execStrmPop
  dsimp only
  refine runOp_canon hs (.bind strmChecks_canon fun _ => ?_)
  split
  · exact .waitOp
  · exact .bind (.update fun _ ht => ht.putStream) fun _ => retireX_canon

theorem execStrmPush_canon {a : Reg} {n : BitVec 4} {s : State} (hs : s.Canon) :
    OutcomeCanon (execStrmPush a n s) :=
  runOp_canon hs (.bind strmChecks_canon fun _ => .bind check_canon fun _ =>
      .ite .waitOp_bind (.bind (.update fun _ ht => ht.putStream) fun _ => retire_canon))

theorem execStrmCopy_canon {d sn : BitVec 4} {s : State} (hs : s.Canon) : OutcomeCanon (execStrmCopy d sn s)
    :=
  runOp_canon hs (.bind check_canon fun _ => .bind check_canon fun _ => .get_bind fun _ ht =>
      .bind (.set (.updMe ht)) fun _ => retire_canon)

theorem State.Canon.resumeStream {s : State} {h : HartId} {n : Nat} (hs : s.Canon) :
    (s.resumeStream h n).Canon :=
  ite_canon hs.setEntries.updHart hs

theorem execStrmResume_canon {a : Reg} {n : BitVec 4} {s : State} (hs : s.Canon) :
    OutcomeCanon (execStrmResume a n s) := by
  unfold execStrmResume
  refine .ite hs.illegal ?_
  split
  · exact hs.trap
  · exact hs.resumeStream.advance

theorem State.Canon.saveHome {s : State} {h : HartId} {n : Nat} (hs : s.Canon) : (s.saveHome h n).Canon := by
  unfold State.saveHome
  dsimp only
  exact ite_canon hs.homeAll.putStream hs

theorem State.Canon.saveStream {s : State} {h : HartId} {n : Nat} (hs : s.Canon) :
    (s.saveStream h n).1.Canon := by
  unfold State.saveStream
  dsimp only
  exact .updHart (ite_canon hs.fillParts.setEntries.unpark.freeFifo
      hs.fillParts.setEntries.unpark.freeFifo.freeWindow)

theorem State.Canon.dropKept {s : State} {p : StreamAt} (hs : s.Canon) : (s.dropKept p).Canon := by
  unfold State.dropKept
  split
  · exact hs
  · exact hs.updHart
  · exact hs

theorem State.Canon.relabel {s : State} {t : Stream} {h : HartId} (hs : s.Canon) : (s.relabel t h).Canon :=
  hs

theorem State.Canon.rewindow {s : State} {h : HartId} {t : Stream} (hs : s.Canon) : (s.rewindow h
    t).1.Canon := by
  unfold State.rewindow
  dsimp only
  exact ite_fst_canon hs.giveWindow.freeAt.relPeers hs.giveWindow

theorem State.Canon.restoreStream {s : State} {h : HartId} {n : Nat} {d : Desc} {pos : Nat} {status : Word}
    {kept : Option Stream}
    (hs : s.Canon) : SomeCanon id (s.restoreStream h n d pos status kept) := by
  unfold State.restoreStream
  dsimp only
  refine .ite trivial ?_
  split
  · exact trivial
  · rename_i e
    exact .updHart (.putStream (.rewindow (.relabel (.setEntries ((hs.claimFifo.of_eq e))))))

theorem saveTarget_canon {t a : Reg} : Op.Canon (saveTarget t a) := by
  unfold saveTarget
  refine .get_bind fun _ _ => ?_
  split
  · exact .trapOp
  · exact .bind check_canon fun _ => .pure

theorem execStrmSave_canon {t a : Reg} {n : BitVec 4} {s : State} (hs : s.Canon) :
    OutcomeCanon (execStrmSave t a n s) :=
  runOp_canon hs (.bind legal_canon fun _ => .bind saveTarget_canon fun _ => .get_bind fun _ _ =>
      .bind check_canon fun _ => .bind check_canon fun _ => .bind reachOp_canon fun _ =>
      .bind reachOp_canon fun _ => .bind checkLine_canon fun _ => .bind checkLine_canon fun _ =>
      .bind (.update fun _ hu => hu.saveHome) fun _ => .get_bind fun _ hu =>
      .ite .waitOp_bind (.bind (.set hu.saveStream.store.store) fun _ => retire_canon))

theorem execStrmRest_canon {t a : Reg} {n : BitVec 4} {s : State} (hs : s.Canon) :
    OutcomeCanon (execStrmRest t a n s) := by
  unfold execStrmRest
  dsimp only
  refine runOp_canon hs (.bind legal_canon fun _ => .bind saveTarget_canon fun _ => .get_bind fun _ _ =>
      .bind check_canon fun _ => .bind loadBytes_canon fun _ => .bind loadBytes_canon fun _ =>
      .get_bind fun _ hu => ?_)
  split
  · exact .trapOp
  · rename_i e3
    refine .bind (.set ?_) fun _ => retire_canon
    split
    · exact .dropKept ((hu.restoreStream.of_eq e3))
    · exact (hu.restoreStream.of_eq e3)

theorem execExtentRegister_canon {h : HartId} {sn : BitVec 4} {s : State} (hs : s.Canon) :
    OutcomeCanon (execExtentRegister h sn s) :=
  ite_canon hs.registerExtent.putStream hs

theorem execStripFetch_canon {h : HartId} {sn : BitVec 4} {s : State} (hs : s.Canon) :
    OutcomeCanon (execStripFetch h sn s) :=
  ite_canon hs.fetchStrip.putStream hs

theorem execStripArrival_canon {h : HartId} {sn : BitVec 4} {s : State} (hs : s.Canon) :
    OutcomeCanon (execStripArrival h sn s) :=
  ite_canon hs.updHart hs

theorem State.Canon.acceptNext {s : State} {h : HartId} {n k : Nat} (hs : s.Canon) :
    (s.acceptNext h n k).Canon := by
  unfold State.acceptNext
  dsimp only
  refine ite_canon hs (ite_canon (ite_canon hs.acceptStrip.putStream.updHart hs) ?_)
  split
  · exact hs.acceptStrip.updHart
  · exact hs

theorem execStreamFault_canon {h : HartId} {sn : BitVec 4} {s : State} (hs : s.Canon) :
    OutcomeCanon (execStreamFault h sn s) := by
  unfold execStreamFault
  dsimp only
  refine ite_canon hs (ite_canon (ite_canon hs ?_) ?_)
  · split
    · exact hs
    · split
      · exact hs.stopStream.putStream
      · exact hs
  · split
    · exact hs.stopStream.putStream
    · exact hs

theorem execReleaseComplete_canon {h : HartId} {k : Nat} {s : State} (hs : s.Canon) :
    OutcomeCanon (execReleaseComplete h k s) := by
  unfold execReleaseComplete
  refine ite_canon hs ?_
  split
  · exact hs.advanceRelease
  · exact hs

theorem execCopyComplete_canon {h : HartId} {sn : BitVec 4} {s : State} (hs : s.Canon) :
    OutcomeCanon (execCopyComplete h sn s) := by
  unfold execCopyComplete
  dsimp only
  split
  · exact ite_canon hs.updHart.beginRelease.beginRelease hs.updHart
  · exact hs.updHart

theorem execCircuitOpen_canon {h : HartId} {sn : BitVec 4} {granted : Bool} {s : State} (hs : s.Canon) :
    OutcomeCanon (execCircuitOpen h sn granted s) :=
  ite_canon hs.putStream hs

theorem execFaultRecordWrite_canon {h : HartId} {s : State} (hs : s.Canon) :
    OutcomeCanon (execFaultRecordWrite h s) := by
  unfold execFaultRecordWrite
  dsimp only
  split
  · exact hs
  · refine ite_canon hs ?_
    split
    · exact ite_canon hs.noteStep hs.write.updHart
    · exact hs.noteStep

theorem State.Canon.updGang {s : State} {g : Nat} {f : Gang → Gang} (hs : s.Canon) : (s.updGang g f).Canon :=
  hs

theorem State.Canon.fcAdd {s : State} {g up down : Nat} (hs : s.Canon) : (s.fcAdd g up down).Canon :=
  hs.updGang

theorem State.Canon.imageWrite {s : State} {k : Saved} {off : Nat} {bs : List Byte} (hs : s.Canon) :
    (s.imageWrite k off bs).Canon :=
  hs.putBytes

theorem State.Canon.updSaved {s : State} {g r : Nat} {f : Saved → Saved} (hs : s.Canon) :
    (s.updSaved g r f).Canon :=
  hs.updGang

theorem State.Canon.refStep {s : State} {rs : List (HartId × Nat)} {a : CtrRef} (hs : s.Canon) :
    (s.refStep rs a).Canon := by
  unfold State.refStep
  split
  · exact hs
  · exact hs.updHart
  · split
    · split
      · exact hs.imageWrite.updSaved
      · exact hs.updHart
    · exact hs

theorem execVsetvl_canon {d a b : Reg} {e : BitVec 1} {w : BitVec 2} {p : BitVec 3} {s : State} (hs :
    s.Canon) :
    OutcomeCanon (execVsetvl d a b e w p s) :=
  ite_canon hs.illegal hs.updMe.setX.advance

theorem State.Canon.takeClusters {s : State} {h : HartId} {n : Nat} (hs : s.Canon) :
    (s.takeClusters h n).Canon :=
  hs.updHart

theorem execLpart_canon {d a : Reg} {s : State} (hs : s.Canon) : OutcomeCanon (execLpart d a s) :=
  ite_canon hs.illegal (ite_canon hs.trap (.advance (.setX (ite_canon hs hs.takeClusters))))

theorem State.Canon.haltHart {s : State} {h : HartId} {cause : Nat} (hs : s.Canon) :
    (s.haltHart h cause).Canon :=
  hs.setStreamEntries.updHart

theorem execHaltreq_canon {h : HartId} {s : State} (hs : s.Canon) : OutcomeCanon (execHaltreq h s) :=
  ite_canon hs hs.updHart

theorem execHaltAck_canon {h : HartId} {s : State} (hs : s.Canon) : OutcomeCanon (execHaltAck h s) :=
  ite_canon hs.haltHart hs

theorem execDbgcmdRead_canon {h : HartId} {regno : BitVec 16} {s : State} (hs : s.Canon) :
    OutcomeCanon (execDbgcmdRead h regno s) :=
  ite_canon hs hs.dbgReg

theorem execDbgcmdWrite_canon {h : HartId} {regno : BitVec 16} {s : State} (hs : s.Canon) :
    OutcomeCanon (execDbgcmdWrite h regno s) :=
  ite_canon hs hs.dbgReg

theorem execEbreak_canon {s : State} (hs : s.Canon) : OutcomeCanon (execEbreak s) :=
  ite_canon hs.haltHart hs.trap

theorem execSret_canon {s : State} (hs : s.Canon) : OutcomeCanon (execSret s) :=
  ite_canon hs.updMe hs.illegal

theorem execWfi_canon {s : State} (hs : s.Canon) : OutcomeCanon (execWfi s) :=
  ite_canon hs.waitIn hs.advance

theorem execInterruptEntry_canon {s : State} (hs : s.Canon) : OutcomeCanon (execInterruptEntry s) := by
  unfold execInterruptEntry
  refine ite_canon ?_ hs
  split
  · exact hs.updMe
  · exact hs

theorem State.Canon.codeFill {s : State} {h : HartId} {va : Nat} (hs : s.Canon) : (s.codeFill h
    va).Canon := by
  unfold State.codeFill
  dsimp only
  split
  · exact ite_canon hs hs.updTile
  · exact hs

end Sys2Proof.Machine

/-! ### Canonical memory: vector groups -/

namespace Sys2Proof.Machine

theorem gHart_canon : GOp.Canon gHart := .bind .get fun _ => .pure

theorem gMod_canon {f : Hart → Hart} : GOp.Canon (gMod f) := .update

theorem gCheck_canon {b : Bool} {c : Cause} {tval : Word} : GOp.Canon (gCheck b c tval) := .ite .pure .gTrap

theorem mapElems_canon {w : VFields} {width : Nat} {f : Hart → Nat → Nat × Flags} {lo hi : Nat} :
    GOp.Canon (mapElems w width f lo hi) :=
  gMod_canon

theorem mapBits_canon {w : VFields} {f : Hart → Nat → Bool × Flags} {lo hi : Nat} :
    GOp.Canon (mapBits w f lo hi) :=
  gMod_canon

theorem reply_canon {float : Bool} {r : Nat} {v : Word} : GOp.Canon (reply float r v) := .update

theorem reachEach_canon {kind : Kind} {size : Nat} {addr : Nat → Word} {atomic : Bool} {is : List Nat} :
    GOp.Canon (reachEach kind size addr atomic is) := by
  induction is with
  | nil => exact .pure
  | cons i rest ih =>
    exact .bind (.gLift reachOp_canon) fun _ => .gState_bind fun _ _ => .bind gCheck_canon fun _ =>
      .bind gCheck_canon fun _ => .bind ih fun _ => .pure

theorem checkLines_canon {write : Bool} {ps : List At} : GOp.Canon (checkLines write ps) :=
  .forM fun _ => .gLift checkLine_canon

theorem reachAll_canon {kind : Kind} {size : Nat} {addr : Nat → Word} {atomic : Bool} {is : List Nat} :
    GOp.Canon (reachAll kind size addr atomic is) :=
  .bind reachEach_canon fun _ => .bind checkLines_canon fun _ => .pure

theorem readAt_canon {p : At} {size : Nat} : GOp.Canon (readAt p size) := by
  unfold readAt
  refine .gState_bind fun _ _ => .bind .get fun _ => .bind .set fun _ => .bind (.gLift (.update fun _ hu =>
      hu.observe)) fun _ => ?_
  split
  · exact .pure
  · exact .bind gCheck_canon fun _ => .pure

theorem readNow_canon {ps : List At} {size : Nat} : GOp.Canon (readNow ps size) :=
  .gLift (.update fun _ ht => foldl_canon (fun _ _ hu => hu.forgetAt) ht)

theorem hold_canon {c : Ctx} {p : At} {size v : Nat} {how : How} {rel : Bool} :
    GOp.Canon (hold c p size v how rel) :=
  .gState_bind fun _ _ => .update

theorem State.Canon.storeNow {s : State} {d : Delayed} (hs : s.Canon) : (s.storeNow d).Canon :=
  hs.forgetAt.drain.performStore

theorem State.Canon.performHeld {s : State} {e : Held} (hs : s.Canon) : (s.performHeld e).Canon := by
  unfold State.performHeld
  split
  · exact hs.update
  · exact hs.storeNow.setFull
  · exact hs.storeNow

theorem State.Canon.flushStores {s : State} {ds : List Delayed} (hs : s.Canon) : (s.flushStores ds).Canon :=
  foldl_canon (fun _ _ ht => ite_canon ht.storeNow ht.store) hs

theorem State.Canon.commitHeld {s : State} {acc : List Delayed} {slot : Nat} {es : List Held} (hs : s.Canon) :
    (s.commitHeld acc slot es).Canon := by
  induction es generalizing s acc slot with
  | nil => exact hs.flushStores
  | cons e es ih =>
    have hf : (if (e.slot != slot) = true then s.flushStores acc else s).Canon := ite_canon hs.flushStores hs
    have hr : (match e.d.rel with
        | some scope => if (e.slot != slot) = true then
            (if (e.slot != slot) = true then s.flushStores acc else s).release
              (if (e.slot != slot) = true then s.flushStores acc else s).cur false scope
            else (if (e.slot != slot) = true then s.flushStores acc else s)
        | none => (if (e.slot != slot) = true then s.flushStores acc else s) : State).Canon := by
      split
      · exact ite_canon hf.release hf
      · exact hf
    exact ite_canon (ih hr) (ih hr.performHeld)

theorem State.Canon.sendItem {s : State} {port : Nat} {it : Item} (hs : s.Canon) :
    (s.sendItem port it).Canon := by
  unfold State.sendItem
  split
  · exact hs.updHart
  · exact hs

theorem State.Canon.commitGroup {s : State} {G : Grp} (hs : s.Canon) : (s.commitGroup G).Canon :=
  foldl_canon (fun _ _ ht => ht.sendItem) hs.updMe.forgetWhere.commitHeld

theorem State.Canon.putF {s : State} {f : FFmt} {d : Reg} {r : Nat × Flags} (hs : s.Canon) :
    (s.putF f d r).Canon :=
  hs.setF.updMe.advance

theorem State.Canon.putX {s : State} {d : Reg} {w : Word} {fl : Flags} (hs : s.Canon) :
    (s.putX d w fl).Canon :=
  hs.setX.updMe.advance

theorem fpBin_canon {op : Bool → FVal → FVal → FVal × Flags} {d a b : Reg} {r f : BitVec 3} {s : State}
    (hs : s.Canon) : OutcomeCanon (fpBin op d a b r f s) :=
  hs.putF

theorem fpMinMax_canon {isMax : Bool} {d a b : Reg} {f : BitVec 3} {s : State} (hs : s.Canon) :
    OutcomeCanon (fpMinMax isMax d a b f s) :=
  hs.putF

theorem fpSign_canon {g : Bool → Bool → Bool} {d a b : Reg} {f : BitVec 3} {s : State} (hs : s.Canon) :
    OutcomeCanon (fpSign g d a b f s) :=
  hs.putF

theorem fpCmp_canon {quiet : Bool} {p : Ordering → Bool} {d a b : Reg} {f : BitVec 3} {s : State}
    (hs : s.Canon) : OutcomeCanon (fpCmp quiet p d a b f s) :=
  hs.putX

theorem fpFma_canon {negProd negC : Bool} {d a b c : Reg} {f : BitVec 1} {r : BitVec 3} {s : State}
    (hs : s.Canon) : OutcomeCanon (fpFma negProd negC d a b c f r s) :=
  hs.putF

theorem intForm_canon {f : Nat → Bool → Nat → Nat → Nat × Flags} {w : VFields} {lo hi : Nat} :
    GOp.Canon (intForm f w lo hi) :=
  mapElems_canon

theorem maccForm_canon {w : VFields} {lo hi : Nat} : GOp.Canon (maccForm w lo hi) := mapElems_canon

theorem cmpForm_canon {quiet ne : Bool} {p : Ordering → Bool} {w : VFields} {lo hi : Nat} :
    GOp.Canon (cmpForm quiet ne p w lo hi) :=
  mapBits_canon

theorem maskForm_canon {f : Bool → Bool → Bool} {w : VFields} {lo hi : Nat} : GOp.Canon (maskForm f w lo hi)
    :=
  mapBits_canon

theorem mtovForm_canon {w : VFields} {lo hi : Nat} : GOp.Canon (mtovForm w lo hi) := mapElems_canon

theorem vtomForm_canon {w : VFields} {lo hi : Nat} : GOp.Canon (vtomForm w lo hi) := mapBits_canon

theorem popForm_canon {c : Ctx} {w : VFields} : GOp.Canon (popForm c w) :=
  .bind gHart_canon fun _ => reply_canon

theorem firstForm_canon {c : Ctx} {w : VFields} : GOp.Canon (firstForm c w) :=
  .bind gHart_canon fun _ => reply_canon

theorem bqForm_canon {any : Bool} {c : Ctx} {w : VFields} : GOp.Canon (bqForm any c w) :=
  .bind gHart_canon fun _ => .update

theorem fpForm_canon {f : Bool → FVal → FVal → FVal × Flags} {w : VFields} {lo hi : Nat} :
    GOp.Canon (fpForm f w lo hi) :=
  mapElems_canon

theorem fpExtreme_canon {isMax : Bool} {w : VFields} {lo hi : Nat} : GOp.Canon (fpExtreme isMax w lo hi) :=
  mapElems_canon

theorem fpInject_canon {g : Bool → Bool → Bool} {w : VFields} {lo hi : Nat} : GOp.Canon (fpInject g w lo hi)
    :=
  mapElems_canon

theorem fpClassForm_canon {w : VFields} {lo hi : Nat} : GOp.Canon (fpClassForm w lo hi) := mapElems_canon

theorem fmaForm_canon {negProd negC : Bool} {w : VFields} {lo hi : Nat} :
    GOp.Canon (fmaForm negProd negC w lo hi) :=
  mapElems_canon

theorem selForm_canon {w : VFields} {lo hi : Nat} : GOp.Canon (selForm w lo hi) := mapElems_canon

theorem vidForm_canon {w : VFields} {lo hi : Nat} : GOp.Canon (vidForm w lo hi) := mapElems_canon

theorem acquireAt_canon {w : VFields} {size : Nat} {ps : List At} : GOp.Canon (acquireAt w size ps) :=
  .bind gHart_canon fun _ => .ite (.gLift (.update fun _ ht => foldl_canon (fun _ _ hu =>
      hu.acquire) ht)) .pure

theorem releaseFirst_canon {w : VFields} : GOp.Canon (releaseFirst w) :=
  .bind gHart_canon fun _ => .ite (.gLift (.update fun _ ht => ht.release)) .pure

theorem State.Canon.broadcast {s : State} {ls : List FrameList} (hs : s.Canon) : (s.broadcast ls).Canon :=
  foldl_canon (fun _ _ ht => foldl_canon (fun _ _ hu => hu.updLanding) ht) hs

theorem viaFrames_canon {write : Bool} {ps : List At} : GOp.Canon (viaFrames write ps) :=
  .bind gHart_canon fun _ => .bind (.gLift (.update fun _ ht => ht.broadcast)) fun _ =>
      .gState_bind fun _ _ => .bind (.forM fun _ => gCheck_canon) fun _ => .bind checkLines_canon fun _ =>
      .pure

theorem loadForm_canon {addr : Hart → VFields → Nat → Word} {w : VFields} {lo hi : Nat} {lists : Bool} :
    GOp.Canon (loadForm addr w lo hi lists) :=
  .bind gHart_canon fun _ => .bind reachAll_canon fun _ => .ite (.bind viaFrames_canon fun _ =>
      .bind (.mapM fun _ => .bind readAt_canon fun _ => .pure) fun _ => .bind acquireAt_canon fun _ =>
      gMod_canon) (.bind .pure fun _ => .bind (.mapM fun _ => .bind readAt_canon fun _ => .pure) fun _ =>
      .bind acquireAt_canon fun _ => gMod_canon)

theorem storeForm_canon {addr : Hart → VFields → Nat → Word} {c : Ctx} {w : VFields} {lo hi : Nat} {lists :
    Bool}
     : GOp.Canon (storeForm addr c w lo hi lists) :=
  .bind gHart_canon fun _ => .bind reachAll_canon fun _ => .ite (.bind viaFrames_canon fun _ =>
      .forM fun _ => hold_canon) (.bind .pure fun _ => .forM fun _ => hold_canon)

theorem imageForm_canon {load : Bool} {c : Ctx} {w : VFields} {g : Nat} : GOp.Canon (imageForm load c w g) :=
  .bind gHart_canon fun _ => .bind gCheck_canon fun _ => .ite .pure (.bind reachAll_canon fun _ =>
      .ite (.bind (.mapM fun _ => .bind readAt_canon fun _ => .pure) fun _ => .bind acquireAt_canon fun _ =>
      gMod_canon) (.forM fun _ => hold_canon))

theorem maskImage_canon {load : Bool} {c : Ctx} {w : VFields} : GOp.Canon (maskImage load c w) :=
  .bind gHart_canon fun _ => .bind gCheck_canon fun _ => .bind reachAll_canon fun _ =>
      .ite (.bind (.mapM fun _ => .bind readAt_canon fun _ => .pure) fun _ => gMod_canon) (.forM fun _ =>
      hold_canon)

theorem streamCheck_canon {dir : Bool} {w : VFields} : GOp.Canon (streamCheck dir w) :=
  .bind gHart_canon fun _ => .bind gCheck_canon fun _ => .bind gCheck_canon fun _ =>
      .bind gCheck_canon fun _ => gCheck_canon

theorem touchStream_canon {pc : Word} {slot n : Nat} : GOp.Canon (touchStream pc slot n) := gMod_canon

theorem streamTrim_canon {w : VFields} {vl : Nat} : GOp.Canon (streamTrim w vl) :=
  .bind gHart_canon fun _ => .ite .pure (.ite .gWait .pure)

theorem streamLoad_canon {w : VFields} {lo hi : Nat} : GOp.Canon (streamLoad w lo hi) :=
  .bind gHart_canon fun _ => .ite .gWait_bind gMod_canon

theorem streamStore_canon {w : VFields} {lo hi : Nat} : GOp.Canon (streamStore w lo hi) :=
  .bind gHart_canon fun _ => .bind gCheck_canon fun _ => .ite .gWait_bind gMod_canon

theorem windowCheck_canon {w : VFields} : GOp.Canon (windowCheck w) :=
  .bind gHart_canon fun _ => gCheck_canon

theorem copyAt_canon {x : Window} {va : Word} : GOp.Canon (copyAt x va) := by
  unfold copyAt
  refine .gState_bind fun _ _ => ?_
  split
  · exact .pure
  · exact .bind (.gLift (.update fun _ hu => hu.endFailed)) fun _ => .gTrap
  · exact .bind (.gLift askHost_canon) fun _ => .gTrap

theorem accForm_canon {c : Ctx} {w : VFields} {lo hi : Nat} : GOp.Canon (accForm c w lo hi) :=
  .bind gHart_canon fun _ => .forM fun _ => .bind gCheck_canon fun _ => .bind copyAt_canon fun _ =>
      .gState_bind fun _ _ => .bind .get fun _ => .bind hold_canon fun _ => gMod_canon

theorem askPages_canon {kind : Kind} {va stop n : Nat} : GOp.Canon (askPages kind va stop n) := by
  induction n generalizing va with
  | zero => exact .pure
  | succ n ih =>
    refine .ite .pure (.gState_bind fun _ _ => ?_)
    split
    · exact .bind (.gLift askHost_canon) fun _ => .pure
    · exact ih

theorem winForm_canon {op : WinOp} {c : Ctx} {w : VFields} : GOp.Canon (winForm op c w) := by
  unfold winForm
  dsimp only
  refine .bind gHart_canon fun _ => .gState_bind fun _ _ => .bind gCheck_canon fun _ =>
      .bind askPages_canon fun _ => ?_
  split
  · exact .gTrap
  · exact .bind (.gLift (.update fun _ hu => hu)) fun _ => gMod_canon

theorem mergePages_canon {sup : Bool} {va stop n : Nat} : GOp.Canon (mergePages sup va stop n) := by
  induction n generalizing va with
  | zero => exact .pure
  | succ n ih =>
    refine .ite .pure (.gState_bind fun _ _ => ?_)
    split
    · exact ih
    · exact .bind (.gLift (.update fun _ ht => ht.endFailed)) fun _ => .gTrap
    · exact .bind (.gLift askHost_canon) fun _ => ih

theorem touchedCopies_canon {x : Window} {size j : Nat} {ls : List Nat} :
    GOp.Canon (touchedCopies x size j ls) := by
  induction ls with
  | nil => exact .pure
  | cons l rest ih =>
    exact .bind copyAt_canon fun _ => .gState_bind fun _ _ => .bind ih fun _ =>
      .ite (.bind .get fun _ => .pure) .pure

theorem mergeSlot_canon {c : Ctx} {w : VFields} {x : Window} {j : Nat} : GOp.Canon (mergeSlot c w x j) := by
  unfold mergeSlot
  dsimp only
  exact .bind touchedCopies_canon fun _ => .ite .pure <| .bind (.gLift reachAs_canon) fun _ =>
    .gState_bind fun _ _ => .bind gCheck_canon fun _ => .bind (.gLift checkLine_canon) fun _ =>
    .gState_bind fun _ hu => .bind gCheck_canon fun _ => .bind gHart_canon fun _ =>
    .bind (.gLift (.set (.updMe (foldl_canon (fun _ _ hv => hv.setFull) hu.update)))) fun _ => gMod_canon

theorem vamoForm_canon {o : VOp} {c : Ctx} {w : VFields} {lo hi : Nat} : GOp.Canon (vamoForm o c w lo hi) :=
  .bind gHart_canon fun _ => .bind reachAll_canon fun _ => .gState_bind fun _ _ => .bind (.forM fun _ =>
      gCheck_canon) fun _ => .bind releaseFirst_canon fun _ => .bind acquireAt_canon fun _ =>
      .bind readNow_canon fun _ => .gState_bind fun _ _ => .bind (.forM fun _ => .bind .get fun _ =>
      .bind hold_canon fun _ => gMod_canon) fun _ => .ite gMod_canon .pure

theorem waitForm_canon {c : Ctx} {w : VFields} : GOp.Canon (waitForm c w) :=
  .bind gHart_canon fun _ => .bind reachAll_canon fun _ => .bind readNow_canon fun _ =>
  .bind (.filterMapM fun _ => .bind readAt_canon fun _ => .pure) fun _ => .ite .gWait_bind <|
  .ite (.bind (.gLift (.update fun _ ht => foldl_canon (fun _ _ hu => hu.acquire) ht)) fun _ => gMod_canon) gMod_canon

theorem execMmodeOn_canon {s : State} (hs : s.Canon) : OutcomeCanon (execMmodeOn s) :=
  ite_canon hs.illegal (ite_canon hs.advance (ite_canon hs.trap hs.updMe.advance))

theorem execMmodeOff_canon {s : State} (hs : s.Canon) : OutcomeCanon (execMmodeOff s) :=
  ite_canon hs.illegal (ite_canon hs.advance (ite_canon hs.trap hs.updMe.advance))

theorem execTshape_canon {d a : Reg} {s : State} (hs : s.Canon) : OutcomeCanon (execTshape d a s) :=
  ite_canon hs.illegal (ite_canon hs.trap hs.updMe.setX.advance)

theorem State.Canon.setPort {s : State} {h : HartId} {k : Nat} {p : Port} (hs : s.Canon) :
    (s.setPort h k p).Canon :=
  hs.updHart

theorem State.Canon.openCrossingBy {claim : State → Fin 224 → Option (State × Nat)} {s : State} {h : HartId} {k : Nat}
    {e : BitVec 32} {p : HartId} {j : Nat} {f : BitVec 32} {paired : Bool} (hs : s.Canon)
    (hc : ∀ s t, s.Canon → SomeCanon Prod.fst (claim s t)) :
    SomeCanon id (s.openCrossingBy claim h k e p j f paired) := by
  refine .ite trivial ?_
  split
  · trivial
  · rename_i e
    have ht := (hc _ _ hs).of_eq e
    split
    · trivial
    · rename_i e
      exact ((hc _ _ ht).of_eq e).setPort.setPort

theorem State.Canon.openCrossing {s : State} {h : HartId} {k : Nat} {e : BitVec 32} {p : HartId} {j : Nat} {f
    : BitVec 32} {paired : Bool}
    (hs : s.Canon) : SomeCanon id (s.openCrossing h k e p j f paired) :=
  hs.openCrossingBy fun _ _ ht => ht.claimFifo

theorem State.Canon.closeCrossingBy {free : State → Fin 224 → Nat → State} {s : State} {h : HartId} {k : Nat}
    (hs : s.Canon) (hf : ∀ s t b, s.Canon → (free s t b).Canon) : (s.closeCrossingBy free h k).Canon :=
  ite_canon (ite_canon (hf _ _ _ (hf _ _ _ hs).setPort).setPort (hf _ _ _ hs).setPort) hs

theorem State.Canon.closeCrossing {s : State} {h : HartId} {k : Nat} (hs : s.Canon) :
    (s.closeCrossing h k).Canon :=
  hs.closeCrossingBy fun _ _ _ ht => ht.freeFifo

theorem State.Canon.mpairDone {s : State} {h : HartId} {d : Reg} {w code : Word} (hs : s.Canon) :
    (s.mpairDone h d w code).Canon :=
  hs.updHart

theorem execMpair_canon {d a : Reg} {s : State} (hs : s.Canon) : OutcomeCanon (execMpair d a s) := by
  unfold execMpair
  dsimp only
  refine ite_canon hs.illegal ?_
  split
  · exact hs.trap
  · refine ite_canon hs.setX.advance ?_
    split
    · refine ite_canon hs.mpairDone (ite_canon ?_ hs.waitIn)
      split
      · rename_i e
        refine .mpairDone (.mpairDone (SomeCanon.of_eq (f := id) ?_ e))
        exact .ite hs.openCrossing trivial
      · exact hs.mpairDone.mpairDone
    · exact ite_canon hs.mpairDone hs.waitIn

theorem execMpairTimeout_canon {h : HartId} {s : State} (hs : s.Canon) : OutcomeCanon (execMpairTimeout h
    s) := by
  unfold execMpairTimeout
  dsimp only
  split
  · exact ite_canon hs.mpairDone hs
  · exact hs

theorem execMpairOff_canon {s : State} (hs : s.Canon) : OutcomeCanon (execMpairOff s) :=
  ite_canon (.advance (.updMe (ite_canon hs.closeCrossing.updHart hs.closeCrossing))) hs.advance

theorem readVa_canon {va : Word} {size n : Nat} : GOp.Canon (readVa va size n) :=
  .bind reachAll_canon fun _ => .bind (.mapM fun _ => .bind readAt_canon fun _ => .pure) fun _ => .pure

theorem ringCheck_canon {q need : Nat} {pair : Bool} : GOp.Canon (ringCheck q need pair) :=
  .bind gHart_canon fun _ => .bind gCheck_canon fun _ => .bind gCheck_canon fun _ =>
      .bind gCheck_canon fun _ => .ite .gWait .pure

theorem ringEntry_canon {q need : Nat} : GOp.Canon (ringEntry q need) :=
  .bind gHart_canon fun _ => readVa_canon

theorem popRing_canon {q : Nat} : GOp.Canon (popRing q) := gMod_canon

theorem pairLost_canon {pair : Bool} : GOp.Canon (pairLost pair) :=
  .gState_bind fun _ _ => .ite .unpairedTrap .pure

theorem itemA_canon {fmt : BitVec 5} : GOp.Canon (itemA fmt) := by
  unfold itemA
  dsimp only
  refine .bind gHart_canon fun _ => .gState_bind fun _ _ => ?_
  split
  · exact .bind gCheck_canon fun _ => .bind gMod_canon fun _ => .pure
  · exact .gTrap
  · exact .ite .gTrap .gWait

theorem mmaChecks_canon {w : VFields} {pair : Bool} : GOp.Canon (mmaChecks w pair) :=
  .bind pairLost_canon fun _ => .bind gHart_canon fun _ => .ite (.bind ringCheck_canon fun _ =>
      .bind ringCheck_canon fun _ => .ite .unpairedTrap .pure) (.bind ringCheck_canon fun _ =>
      .ite .unpairedTrap .pure)

theorem operandA_canon {w : VFields} {pair : Bool} : GOp.Canon (operandA w pair) :=
  .bind gHart_canon fun _ => .ite itemA_canon (.bind ringEntry_canon fun _ =>
      .ite (.bind popRing_canon fun _ => .pure) .pure)

theorem sendA_canon {w : VFields} {pair : Bool} {A : List Byte} : GOp.Canon (sendA w pair A) :=
  .bind gHart_canon fun _ => .ite (.gState_bind fun _ _ => .ite .gWait_bind .update) .pure

theorem mmaForm_canon {integer : Bool} {w : VFields} : GOp.Canon (mmaForm integer w) :=
  .bind gHart_canon fun _ => .bind mmaChecks_canon fun _ => .bind operandA_canon fun _ =>
      .bind ringEntry_canon fun _ => .ite (.bind popRing_canon fun _ => .bind sendA_canon fun _ =>
      gMod_canon) (.bind sendA_canon fun _ => gMod_canon)

theorem mzeroForm_canon : GOp.Canon mzeroForm :=
  .bind gHart_canon fun _ => .bind gCheck_canon fun _ => gMod_canon

theorem mstForm_canon {c : Ctx} {w : VFields} : GOp.Canon (mstForm c w) :=
  .bind gHart_canon fun _ => .bind reachAll_canon fun _ => .bind (.forM fun _ => .bind hold_canon fun _ =>
      gMod_canon) fun _ => .ite gMod_canon .pure

theorem mxchgForm_canon {w : VFields} : GOp.Canon (mxchgForm w) := by
  unfold mxchgForm
  dsimp only
  refine .bind gHart_canon fun _ => .ite .unpairedTrap_bind (.gState_bind fun _ _ => ?_)
  split
  · exact .gTrap
  · split
    · exact .ite (.ite (.bind (.gLift (.update fun _ hu => hu.updHart)) fun _ =>
        gMod_canon) (.bind (.gLift (.update fun _ hu => hu.updHart)) fun _ => .gTrap)) .gWait
    · exact .gWait

theorem recordCheck_canon {va : Word} : GOp.Canon (recordCheck va) := by
  unfold recordCheck
  dsimp only
  refine .bind gCheck_canon fun _ => .gState_bind fun _ _ => .forM fun _ => .ite ?_ .pure
  split
  · exact .bind (.gLift (.update fun _ hu => hu.endFailed)) fun _ => .gTrap
  · exact .bind (.gLift askHost_canon) fun _ => .pure
  · exact .bind gCheck_canon fun _ => gCheck_canon

theorem holdWords_canon {c : Ctx} {va : Word} {vs : List Nat} : GOp.Canon (holdWords c va vs) :=
  .bind gHart_canon fun _ => .bind reachAll_canon fun _ => .forM fun _ => hold_canon

theorem msoundForm_canon {c : Ctx} {w : VFields} : GOp.Canon (msoundForm c w) :=
  .bind gHart_canon fun _ => .bind ringCheck_canon fun _ => .bind ringCheck_canon fun _ =>
      .bind recordCheck_canon fun _ => .bind ringEntry_canon fun _ => .bind ringEntry_canon fun _ =>
      .ite (.bind popRing_canon fun _ => .ite (.bind popRing_canon fun _ => .bind gMod_canon fun _ =>
      .bind gHart_canon fun _ => .bind holdWords_canon fun _ => .bind holdWords_canon fun _ =>
      holdWords_canon) (.bind gMod_canon fun _ => .bind gHart_canon fun _ => .bind holdWords_canon fun _ =>
      .bind holdWords_canon fun _ => holdWords_canon)) (.ite (.bind popRing_canon fun _ =>
      .bind gMod_canon fun _ => .bind gHart_canon fun _ => .bind holdWords_canon fun _ =>
      .bind holdWords_canon fun _ => holdWords_canon) (.bind gMod_canon fun _ => .bind gHart_canon fun _ =>
      .bind holdWords_canon fun _ => .bind holdWords_canon fun _ => holdWords_canon))

theorem mcheckForm_canon {c : Ctx} {w : VFields} : GOp.Canon (mcheckForm c w) :=
  .bind gHart_canon fun _ => .bind recordCheck_canon fun _ => .bind gCheck_canon fun _ =>
      .bind readVa_canon fun _ => .bind gCheck_canon fun _ => .bind readVa_canon fun _ =>
      .bind readVa_canon fun _ => .bind readVa_canon fun _ => .bind holdWords_canon fun _ =>
      .bind holdWords_canon fun _ => .ite gMod_canon .pure

end Sys2Proof.Machine

/-! ### Canonical memory: matrix and fabric -/

namespace Sys2Proof.Machine

theorem permForm_canon {f : Hart → Nat → Option Nat} {c : Ctx} {w : VFields} : GOp.Canon (permForm f c w) :=
  gMod_canon

theorem compressForm_canon {c : Ctx} {w : VFields} : GOp.Canon (compressForm c w) := gMod_canon

theorem expandForm_canon {c : Ctx} {w : VFields} : GOp.Canon (expandForm c w) := gMod_canon

theorem redForm_canon {f : Hart → Combine} {tree : Bool} {c : Ctx} {w : VFields} :
    GOp.Canon (redForm f tree c w) :=
  gMod_canon

theorem scanForm_canon {f : Hart → Combine} {tree : Bool} {c : Ctx} {w : VFields} :
    GOp.Canon (scanForm f tree c w) :=
  gMod_canon

theorem setNextVl_canon {n : Nat} : GOp.Canon (setNextVl n) := .update

theorem setlfForm_canon {c : Ctx} {w : VFields} : GOp.Canon (setlfForm c w) :=
  .bind gHart_canon fun _ => .bind gMod_canon fun _ => .bind setNextVl_canon fun _ => reply_canon

theorem intersectForm_canon {c : Ctx} {w : VFields} : GOp.Canon (intersectForm c w) := gMod_canon

theorem uniteForm_canon {merge : Bool} {c : Ctx} {w : VFields} : GOp.Canon (uniteForm merge c w) :=
  .bind gHart_canon fun _ => .bind gMod_canon fun _ => .bind setNextVl_canon fun _ => reply_canon

theorem extForm_canon {c : Ctx} {w : VFields} : GOp.Canon (extForm c w) :=
  .bind gHart_canon fun _ => .ite reply_canon reply_canon

theorem insForm_canon {w : VFields} {lo hi : Nat} : GOp.Canon (insForm w lo hi) := gMod_canon

theorem openPort_canon {k : Nat} : GOp.Canon (openPort k) := by
  unfold openPort
  refine .bind gHart_canon fun _ => ?_
  split
  · exact .ite .pure .gTrap
  · exact .gTrap

theorem sendForm_canon {c : Ctx} {w : VFields} {g : Nat} : GOp.Canon (sendForm c w g) :=
  .bind openPort_canon fun _ => .gState_bind fun _ _ => .bind .get fun _ => .ite .gWait_bind .set

theorem recvForm_canon {w : VFields} {g lo hi : Nat} : GOp.Canon (recvForm w g lo hi) := by
  unfold recvForm
  dsimp only
  refine .bind openPort_canon fun _ => .gState_bind fun _ _ => ?_
  split
  · exact gMod_canon
  · exact .gWait

theorem State.Canon.putRegion {s : State} {h : HartId} {r : FabRun} (hs : s.Canon) : (s.putRegion h
    r).Canon := by
  unfold State.putRegion
  dsimp only
  split
  · exact hs
  · exact hs.updHart

theorem unitStep_canon {o : UOp} {u : UFields} {s : State} (hs : s.Canon) : OutcomeCanon (unitStep o u
    s) := by
  unfold unitStep
  split
  · split
    · exact hs.putRegion
    · exact hs
  · exact hs

theorem operatorStep_canon {kind page slot : Nat} {s : State} (hs : s.Canon) :
    OutcomeCanon (operatorStep kind page slot s) := by
  unfold operatorStep
  split
  · split
    · exact hs.putRegion
    · exact hs
  · exact hs

theorem State.Canon.stopRegion {s : State} {h : HartId} {a : ActiveSet} {page slot va : Nat} {c : Cause}
    (hs : s.Canon) : (s.stopRegion h a page slot va c).Canon :=
  hs.endFailed.updHart

/-- The state in the result of an access of a fabric region is canonical. -/
def RegionAccess.Canon : RegionAccess → Prop
  | .go t _ _ => t.Canon
  | .wait t => t.Canon
  | .fault _ => True

theorem State.Canon.regionAccess {s : State} {h : HartId} {a : ActiveSet} {write : Bool} {va size : Nat}
    (hs : s.Canon) : (s.regionAccess h a write va size).Canon := by
  unfold State.regionAccess
  split
  · trivial
  · split
    · trivial
    · exact hs.askHost
    · split
      · exact hs
      · split
        · trivial
        · rename_i e
          exact hs.meetInTurn.fst_of_eq e
        · rename_i e
          exact hs.meetInTurn.fst_of_eq e
        · rename_i e
          have ht := hs.meetInTurn.fst_of_eq e
          split
          · exact ht.snoopHost
          · split
            · trivial
            · exact ht.touchLine

theorem State.Canon.performOp {s : State} {page slot : Nat} {m : MemOp} (hs : s.Canon) :
    (s.performOp page slot m).Canon := by
  unfold State.performOp
  split
  · exact hs
  · split
    · rename_i r _ _ va x _
      dsimp only
      have hk := hs.regionAccess (h := s.cur) (a := r.a) (write := m.kind = 2) (va := va.toNat)
        (size := 2 ^ (fld m.sz 0 2).toNat)
      split
      · exact hs.stopRegion
      · rename_i e
        rw [e] at hk
        exact hk
      · rename_i e
        rw [e] at hk
        exact ite_canon (State.Canon.store hk).putRegion (State.Canon.putRegion hk)
    · exact hs

theorem memStep_canon {store : Bool} {s : State} (hs : s.Canon) : (memStep store s).Canon := by
  unfold memStep
  dsimp only
  split
  · exact hs
  · split
    · exact hs
    · refine ite_canon hs (ite_canon hs.putRegion ?_)
      split
      · exact hs.putRegion.performOp.putRegion
      · exact hs.putRegion.performOp

theorem memEvent_canon {store : Bool} {s : State} (hs : s.Canon) : (memEvent store s).Canon :=
  ite_canon hs (memStep_canon hs)

theorem State.Canon.dropToken {s : State} {k : Nat} (hs : s.Canon) : (s.dropToken k).Canon := hs

theorem State.Canon.tokenToRegion {s : State} {k : Nat} {t : Token} (hs : s.Canon) :
    (s.tokenToRegion k t).Canon := by
  unfold State.tokenToRegion
  dsimp only
  split
  · exact hs
  · split
    · refine ite_canon hs ?_
      split
      · exact hs
      · exact ite_canon hs.dropToken.updGang.fcAdd hs.dropToken.updGang
    · refine ite_canon hs ?_
      split
      · exact hs
      · refine ite_canon hs.dropToken.updHart.fcAdd ?_
        split
        · exact ite_canon hs.dropToken.updHart.putRegion hs.dropToken.updHart
        · exact hs.dropToken.updHart

theorem execControlTokenArrival_canon {k : Nat} {s : State} (hs : s.Canon) :
    OutcomeCanon (execControlTokenArrival k s) := by
  unfold execControlTokenArrival
  split
  · exact ite_canon hs.tokenToRegion hs
  · exact hs

theorem execPageMove_canon {page cluster : Nat} {s : State} (hs : s.Canon) :
    OutcomeCanon (execPageMove page cluster s) := by
  unfold execPageMove
  dsimp only
  split
  · exact hs
  · split
    · exact hs
    · exact ite_canon hs (ite_canon hs (.updMe (ite_canon hs.updDie hs)))

theorem execFmodeOn_canon {d a b : Reg} {s : State} (hs : s.Canon) : OutcomeCanon (execFmodeOn d a b s) :=
  ite_canon hs.illegal (ite_canon hs.setX.advance (ite_canon hs.trap (ite_canon hs.trap
      hs.updMe.setX.advance)))

theorem State.Canon.dropSets {s : State} (hs : s.Canon) : s.dropSets.Canon := by
  unfold State.dropSets
  dsimp only
  split
  · exact hs.updMe.fcAdd
  · exact hs.updMe

theorem execFmodeOff_canon {d a : Reg} {s : State} (hs : s.Canon) : OutcomeCanon (execFmodeOff d a s) :=
  ite_canon hs.illegal (ite_canon hs.setX.advance (ite_canon hs.trap (ite_canon hs.waitIn
      hs.dropSets.updMe.setX.advance)))

theorem floadForm_canon {w : VFields} : GOp.Canon (floadForm w) := by
  unfold floadForm
  dsimp only
  refine .bind gHart_canon fun _ => .bind gCheck_canon fun _ => .bind readVa_canon fun _ =>
      .ite (.bind (.mapM fun _ => readVa_canon) fun _ => ?_) (.bind .pure fun _ => ?_)
  · split
    · exact .gTrap
    · exact gMod_canon
  · split
    · exact .gTrap
    · exact gMod_canon

theorem fgoForm_canon : GOp.Canon fgoForm := by
  unfold fgoForm
  dsimp only
  refine .bind gHart_canon fun _ => ?_
  split
  · exact .gTrap
  · refine .bind gCheck_canon fun _ => .ite .gWait_bind (.bind (.gLift (.update fun _ ht =>
      ht.release)) fun _ => .bind gMod_canon fun _ => .gLift (.update fun _ ht => ?_))
    split
    · exact ht
    · exact ht

theorem fgoResumeForm_canon : GOp.Canon fgoResumeForm := gMod_canon

theorem fdrainForm_canon : GOp.Canon fdrainForm := .bind gHart_canon fun _ => .ite .gWait_bind gMod_canon

theorem fstatForm_canon {w : VFields} : GOp.Canon (fstatForm w) := .bind gHart_canon fun _ => reply_canon

theorem frelForm_canon : GOp.Canon frelForm := by
  unfold frelForm
  dsimp only
  refine .bind gHart_canon fun _ => .ite (.ite .gWait_bind (.bind gMod_canon fun _ =>
      .gLift (.update fun _ ht => ?_))) .pure
  split
  · exact ht.fcAdd
  · exact ht

end Sys2Proof.Machine

/-! ### Canonical memory: kernels, capsules and gangs -/

namespace Sys2Proof.Machine

theorem execCwait_canon {a : Reg} {n : BitVec 4} {p : BitVec 3} {s : State} (hs : s.Canon) :
    OutcomeCanon (execCwait a n p s) :=
  ite_canon hs.acquireFrom.advance hs.waitIn

theorem execTokSend_canon {a b : Reg} {p : BitVec 3} {s : State} (hs : s.Canon) :
    OutcomeCanon (execTokSend a b p s) := by
  unfold execTokSend
  dsimp only
  split
  · exact hs.trap
  · refine ite_canon hs.trap ?_
    split
    · exact hs.trap
    · exact ite_canon hs.waitIn (.advance (State.Canon.of_mem hs.release rfl))

theorem execTokWait_canon {d a : Reg} {p : BitVec 3} {s : State} (hs : s.Canon) :
    OutcomeCanon (execTokWait d a p s) := by
  unfold execTokWait
  dsimp only
  refine ite_canon hs.trap (ite_canon hs.waitIn (.advance (.setX ?_)))
  split
  · exact hs.acquireFrom.updMe.fcAdd
  · exact hs.acquireFrom.updMe

theorem execTokenDelivery_canon {k : Nat} {s : State} (hs : s.Canon) : OutcomeCanon (execTokenDelivery k
    s) := by
  unfold execTokenDelivery
  dsimp only
  split
  · exact hs
  · split
    · exact hs
    · refine ite_canon hs ?_
      split
      · exact hs.dropToken.imageWrite.updSaved
      · exact hs.dropToken.updHart

theorem execGangTermination_canon {g : Nat} {s : State} (hs : s.Canon) :
    OutcomeCanon (execGangTermination g s) := by
  unfold execGangTermination
  split
  · exact ite_canon (foldl_canon (fun _ _ ht => ht.updHart) hs) hs
  · exact hs

theorem execBarArrive_canon {d a : Reg} {p : BitVec 3} {s : State} (hs : s.Canon) :
    OutcomeCanon (execBarArrive d a p s) :=
  runOp_canon hs (.bind atomicScalar_canon fun _ => retireX_canon)

theorem execBarWait_canon {a b : Reg} {p : BitVec 3} {s : State} (hs : s.Canon) :
    OutcomeCanon (execBarWait a b p s) :=
  runOp_canon hs (.bind loadScalar_canon fun _ => .ite .waitOp_bind retire_canon)

theorem State.Canon.rerun {s : State} {h : HartId} (hs : s.Canon) : (s.rerun h).Canon := hs

theorem execWaitResume_canon {h : HartId} {s : State} (hs : s.Canon) : OutcomeCanon (execWaitResume h s) :=
  ite_canon hs.rerun hs

theorem execBarWaitRecheck_canon {h : HartId} {s : State} (hs : s.Canon) :
    OutcomeCanon (execBarWaitRecheck h s) := by
  unfold execBarWaitRecheck
  split
  · exact hs.rerun
  · exact hs

theorem execVwaitRecheck_canon {h : HartId} {s : State} (hs : s.Canon) : OutcomeCanon (execVwaitRecheck h
    s) := by
  unfold execVwaitRecheck
  split
  · exact hs.rerun
  · exact hs

theorem execVwaitTimeout_canon {h : HartId} {s : State} (hs : s.Canon) : OutcomeCanon (execVwaitTimeout h
    s) := by
  unfold execVwaitTimeout
  split
  · exact ite_canon hs.rerun hs
  · exact hs

theorem execKyield_canon {s : State} (hs : s.Canon) : OutcomeCanon (execKyield s) := by
  unfold execKyield
  split
  · exact hs.updGang.advance
  · exact hs.advance

theorem State.Canon.updCap {s : State} {g r : Nat} {f : CapSide → CapSide} (hs : s.Canon) :
    (s.updCap g r f).Canon := by
  unfold State.updCap
  split
  · split
    · exact hs.updGang
    · exact hs.updHart
  · exact hs

theorem State.Canon.recordTo {s : State} {g r : Nat} {mk : Nat → Record} (hs : s.Canon) :
    (s.recordTo g r mk).Canon := by
  unfold State.recordTo
  dsimp only
  split
  · split
    · exact hs.updGang
    · exact hs.updHart
  · exact hs

theorem State.Canon.poolByte {s : State} {p : CapSide} {va : Nat} {b : Byte} (hs : s.Canon) :
    (s.poolByte p va b).Canon := by
  unfold State.poolByte
  split
  · exact hs.putByte
  · exact hs

theorem State.Canon.poolWrite {s : State} {p : CapSide} {va : Nat} {bs : List Byte} (hs : s.Canon) :
    (s.poolWrite p va bs).Canon := by
  induction bs generalizing s va with
  | nil => exact hs
  | cons b t ih => exact ih hs.poolByte

theorem State.Canon.writeSlot {s : State} {c : Capsule} (hs : s.Canon) : (s.writeSlot c).Canon :=
  hs.poolWrite

theorem State.Canon.faultCapsule {s : State} {c : Capsule} (hs : s.Canon) : (s.faultCapsule c).Canon :=
  hs.writeSlot.updCap.recordTo

theorem State.Canon.bounce {s : State} {src : Nat} {c : Capsule} {k fault : Nat} (hs : s.Canon) :
    (s.bounce src c k fault).Canon :=
  ite_canon hs hs.faultCapsule

theorem State.Canon.route {s : State} {src : Nat} {c : Capsule} {k : Nat} (hs : s.Canon) :
    (s.route src c k).Canon := by
  unfold State.route
  split
  · exact hs
  · exact hs.bounce

theorem State.Canon.landCapsule {s : State} {r : Nat} {c : Capsule} (hs : s.Canon) :
    (s.landCapsule r c).Canon :=
  ite_canon hs.updCap hs.writeSlot.updCap

theorem execCapsuleArrival_canon {k : Nat} {s : State} (hs : s.Canon) :
    OutcomeCanon (execCapsuleArrival k s) := by
  unfold execCapsuleArrival
  dsimp only
  split
  · exact hs
  · exact ite_canon hs (ite_canon (.landCapsule hs) (ite_canon (.faultCapsule hs) (.route hs)))

theorem execParkedCapsuleEnter_canon {h : HartId} {s : State} (hs : s.Canon) :
    OutcomeCanon (execParkedCapsuleEnter h s) := by
  unfold execParkedCapsuleEnter
  dsimp only
  split
  · exact ite_canon hs.updHart hs
  · exact hs

theorem State.Canon.withdraw {s : State} (hs : s.Canon) : s.withdraw.Canon := by
  unfold State.withdraw
  dsimp only
  refine ite_canon hs ?_
  split
  · exact hs.changeRole.updBank.updMe
  · exact foldl_canon (fun _ _ ht => ite_canon ht.faultCapsule ht.route) hs.changeRole.updBank.updMe

theorem State.Canon.releasePool {s : State} (hs : s.Canon) : (s.releasePool).1.Canon :=
  ite_fst_canon hs.updMe hs

theorem execCapLandOff_canon {d : Reg} {s : State} (hs : s.Canon) : OutcomeCanon (execCapLandOff d s) :=
  ite_canon hs.trap hs.withdraw.releasePool.setX.advance

theorem poolFrames_canon {va stop n : Nat} : Op.Canon (poolFrames va stop n) := by
  induction n generalizing va with
  | zero => exact .pure
  | succ n ih =>
    refine .ite .pure (.get_bind fun _ _ => ?_)
    dsimp only
    split
    · exact .bind (.update fun _ ht => ht.endFailed) fun _ => .trapOp
    · exact .bind askHost_canon fun _ => .pure
    · exact .bind ih fun _ => .pure

theorem capLand_canon {land : Bool} {d a : Reg} {s : State} (hs : s.Canon) : OutcomeCanon (capLand land d a s) := by
  unfold capLand
  refine runOp_canon hs (.bind check_canon fun _ => .bind check_canon fun _ => .bind loadBytes_canon fun _ =>
    .bind check_canon fun _ => .bind poolFrames_canon fun _ => .ite (.bind ringPages_canon fun _ =>
    .get_bind fun _ _ => .bind check_canon fun _ => .get_bind fun _ hu =>
    .ite retireX_canon (.ite retireX_canon ?_)) (.get_bind fun _ hu => .ite retireX_canon (.ite retireX_canon ?_)))
  all_goals
    dsimp only
    split
    · exact retireX_canon
    · rename_i e
      have ht : State.Canon _ := SomeCanon.of_eq (f := Prod.fst) (.ite hu.claimFifo hu.some_fst) e
      have hw {t : State} (ht : t.Canon) : (if land = true then t else t.withdraw).Canon := ite_canon ht ht.withdraw
      exact .bind (.set (ite_canon (.updMe (hw ht))
        (.updMe (foldl_canon (fun _ _ hv => hv.writeSlot) (.updMe (.updMe (hw ht))))))) fun _ => retireX_canon

theorem loadRun_canon {va : Word} {n : Nat} : Op.Canon (loadRun va n) := by
  induction n generalizing va with
  | zero => exact .pure
  | succ n ih => exact .bind loadScalar_canon fun _ => .bind ih fun _ => .pure

theorem execCapSend_canon {d a : Reg} {p : BitVec 3} {s : State} (hs : s.Canon) :
    OutcomeCanon (execCapSend d a p s) := by
  unfold execCapSend
  dsimp only
  refine runOp_canon hs (.bind check_canon fun _ => .bind check_canon fun _ => .bind loadRun_canon fun _ =>
      .bind loadRun_canon fun _ => .bind check_canon fun _ => .get_bind fun _ ht => ?_)
  split
  · exact .trapOp
  · split
    · exact retireX_canon
    · exact .bind (.set ht.release.fcAdd.updMe.route) fun _ => retireX_canon

theorem bufPieces_canon {kind : Kind} {va : Word} {n : Nat} : Op.Canon (bufPieces kind va n) := by
  induction n generalizing va with
  | zero => exact .pure
  | succ n ih => exact .get_bind fun _ _ => .bind reachAs_canon fun _ => .bind ih fun _ => .pure

theorem State.Canon.layBuf {s : State} {p : Leaf × Nat} {off : Nat} {bs : List Byte} (hs : s.Canon) :
    (s.layBuf p off bs).Canon :=
  hs.drain.forgetAt.forgetAt.write

theorem copyToBuf_canon {bs : List Byte} : Op.Canon (copyToBuf bs) :=
  .get_bind fun _ _ => .bind bufPieces_canon fun _ => .update fun _ hu => foldl_canon (fun _ _ hv =>
      hv.layBuf) hu

theorem execCapRecv_canon {d : Reg} {sc : BitVec 3} {s : State} (hs : s.Canon) :
    OutcomeCanon (execCapRecv d sc s) := by
  unfold execCapRecv
  dsimp only
  refine runOp_canon hs (.bind check_canon fun _ => .bind check_canon fun _ => ?_)
  split
  · exact .bind loadScalar_canon fun _ => .ite (.bind (.update fun _ ht =>
      ite_canon ht.updMe.faultCapsule ht.updMe.bounce) fun _ => .waitOp) (.get_bind fun _ _ =>
      .bind copyToBuf_canon fun _ => .bind (.update fun _ hu => hu.acquireFrom) fun _ =>
      .bind updMe_canon fun _ => retireX_canon)
  · exact .waitOp

theorem readBuf_canon {off n : Nat} : Op.Canon (readBuf off n) :=
  .get_bind fun _ _ => .bind bufPieces_canon fun _ => .get_bind fun _ _ => .pure

theorem heldCapsule_canon : Op.Canon heldCapsule := by
  unfold heldCapsule
  dsimp only
  refine .get_bind fun _ _ => ?_
  split
  · exact .trapOp
  · exact .bind readBuf_canon fun _ => .bind check_canon fun _ => .bind readBuf_canon fun _ => .pure

theorem unhold_canon : Op.Canon unhold := updMe_canon

theorem State.Canon.endCapsule {s : State} {c : Capsule} (hs : s.Canon) : (s.endCapsule c).Canon :=
  hs.updCap.fcAdd

theorem capForward_canon {next : Capsule → Nat} {p : BitVec 3} {s : State} (hs : s.Canon) :
    OutcomeCanon (capForward next p s) :=
  runOp_canon hs (.bind heldCapsule_canon fun _ => .bind (.update fun _ ht => ht.release) fun _ =>
      .bind unhold_canon fun _ => .bind (.update fun _ ht =>
      ite_canon ht.endCapsule (ite_canon ht.bounce ht.route)) fun _ => retire_canon)

theorem editSteps_canon {c : Capsule} {steps : List (BitVec 32)} {n : Nat} : Op.Canon (editSteps c steps n) :=
  .get_bind fun _ _ => .bind reachAs_canon fun _ => .bind (.update fun _ hu => hu.layBuf.layBuf) fun _ =>
      updMe_canon

theorem editable_canon : Op.Canon editable := by
  unfold editable
  refine .get_bind fun _ _ => ?_
  split
  · exact .pure
  · exact .trapOp

theorem execCapIns_canon {d a b : Reg} {s : State} (hs : s.Canon) : OutcomeCanon (execCapIns d a b s) :=
  runOp_canon hs (.bind editable_canon fun _ => .bind check_canon fun _ =>
      .ite retireX_canon (.bind check_canon fun _ => .bind editSteps_canon fun _ => retireX_canon))

theorem execCapDel_canon {d a : Reg} {s : State} (hs : s.Canon) : OutcomeCanon (execCapDel d a s) :=
  runOp_canon hs (.bind editable_canon fun _ => .bind check_canon fun _ => .bind check_canon fun _ =>
      .bind editSteps_canon fun _ => retireX_canon)

theorem execCapSwap_canon {d a b : Reg} {s : State} (hs : s.Canon) : OutcomeCanon (execCapSwap d a b s) :=
  runOp_canon hs (.bind editable_canon fun _ => .bind check_canon fun _ => .bind check_canon fun _ =>
      .bind editSteps_canon fun _ => retireX_canon)

theorem execCapPark_canon {s : State} (hs : s.Canon) : OutcomeCanon (execCapPark s) :=
  runOp_canon hs (.bind heldCapsule_canon fun _ => .bind unhold_canon fun _ => .bind (.update fun _ ht =>
      ht.writeSlot.updMe) fun _ => retire_canon)

theorem execCapParkFlt_canon {a : Reg} {s : State} (hs : s.Canon) : OutcomeCanon (execCapParkFlt a s) :=
  runOp_canon hs (.bind legal_canon fun _ => .bind check_canon fun _ => .bind check_canon fun _ =>
      .bind heldCapsule_canon fun _ => .bind unhold_canon fun _ => .bind (.update fun _ ht =>
      ht.writeSlot.updMe) fun _ => retire_canon)

theorem execCapParkRel_canon {d a : Reg} {s : State} (hs : s.Canon) : OutcomeCanon (execCapParkRel d a s) :=
  runOp_canon hs (.bind legal_canon fun _ => .bind check_canon fun _ => .bind (.update fun _ ht =>
      .updMe (foldl_canon (fun _ _ hu => hu.writeSlot) ht)) fun _ => retireX_canon)

theorem State.Canon.wipe {s : State} {a n key : Nat} (hs : s.Canon) : (s.wipe a n key).Canon := wipe_wf hs a n key

theorem State.Canon.bankOut {s : State} {t : Fin 224} {b base key : Nat} (hs : s.Canon) :
    (s.bankOut t b base key).Canon := by
  unfold State.bankOut
  dsimp only
  split
  · exact ite_canon (.putBytes (foldl_canon (fun _ _ ht => ht.putByte) hs)) hs
  · exact hs

theorem State.Canon.bankIn {s : State} {t : Fin 224} {b base key : Nat} (hs : s.Canon) :
    (s.bankIn t b base key).Canon :=
  foldl_canon (fun _ _ ht => ite_canon ht.setFull ht) hs.clearRange.putBytes

theorem State.Canon.writeImage {s : State} {h : HartId} {areas : List (List Byte)} {rank : HartId → Nat}
    {base key : Nat}
    (hs : s.Canon) : (s.writeImage h areas rank base key).Canon :=
  foldl_canon (fun _ _ ht => ht.bankOut) (foldl_canon (fun _ _ ht => ht.putBytes) hs.wipe)

theorem execDbgcmdSaveImage_canon {h : HartId} {s : State} (hs : s.Canon) :
    OutcomeCanon (execDbgcmdSaveImage h s) :=
  ite_canon hs (ite_canon hs.writeImage.updHart hs.updHart)

theorem execDbgcmdRestoreImage_canon {h : HartId} {s : State} (hs : s.Canon) :
    OutcomeCanon (execDbgcmdRestoreImage h s) := by
  unfold execDbgcmdRestoreImage
  dsimp only
  refine ite_canon hs (ite_canon (foldl_canon (fun _ _ ht => ?_) hs.updHart) hs.updHart)
  split
  · exact ite_canon ht.bankIn ht
  · exact ht

theorem State.Canon.updQueue {s : State} {d : Fin 4} {q : Nat} {f : Queue → Queue} (hs : s.Canon) :
    (s.updQueue d q f).Canon :=
  hs.updDie

theorem State.Canon.post {s : State} {l : Launch} (hs : s.Canon) : (s.post l).Canon := hs

theorem State.Canon.ageQueues {s : State} {d : Fin 4} {n : Nat} (hs : s.Canon) : (s.ageQueues d n).Canon :=
  hs.updDie

theorem execAgingStep_canon {die : Fin 4} {q : BitVec 5} {s : State} (hs : s.Canon) :
    OutcomeCanon (execAgingStep die q s) :=
  ite_canon hs.updQueue hs

theorem loadEach_canon {va : Word} {n : Nat} : Op.Canon (loadEach va n) := by
  induction n generalizing va with
  | zero => exact .pure
  | succ n ih => exact .bind loadScalar_canon fun _ => .bind ih fun _ => .pure

theorem loadImages_canon {va : Word} {n : Nat} : Op.Canon (loadImages va n) := by
  induction n generalizing va with
  | zero => exact .pure
  | succ n ih => exact .bind loadRun_canon fun _ => .bind ih fun _ => .pure

theorem loadParts_canon {va : Word} {asid : BitVec 16 → BitVec 16} : Op.Canon (loadParts va asid) := by
  unfold loadParts
  dsimp only
  refine .bind loadRun_canon fun _ => .bind loadEach_canon fun _ => .get_bind fun _ _ => ?_
  split
  · exact .bind loadEach_canon fun _ => .ite (.bind .pure fun _ => .ite (.bind .pure fun _ =>
      .pure) (.bind loadRun_canon fun _ => .ite (.bind loadImages_canon fun _ => .bind .pure fun _ =>
      .pure) (.bind .pure fun _ => .pure))) (.bind loadEach_canon fun _ =>
      .ite (.bind loadEach_canon fun _ => .bind .pure fun _ => .ite (.bind .pure fun _ =>
      .pure) (.bind loadRun_canon fun _ => .ite (.bind loadImages_canon fun _ => .bind .pure fun _ =>
      .pure) (.bind .pure fun _ => .pure))) (.bind .pure fun _ => .ite (.bind .pure fun _ =>
      .pure) (.bind loadRun_canon fun _ => .ite (.bind loadImages_canon fun _ => .bind .pure fun _ =>
      .pure) (.bind .pure fun _ => .pure))))
  · exact .bind .pure fun _ => .ite (.bind .pure fun _ => .ite (.bind .pure fun _ =>
      .pure) (.bind loadRun_canon fun _ => .ite (.bind loadImages_canon fun _ => .bind .pure fun _ =>
      .pure) (.bind .pure fun _ => .pure))) (.bind loadEach_canon fun _ =>
      .ite (.bind loadEach_canon fun _ => .bind .pure fun _ => .ite (.bind .pure fun _ =>
      .pure) (.bind loadRun_canon fun _ => .ite (.bind loadImages_canon fun _ => .bind .pure fun _ =>
      .pure) (.bind .pure fun _ => .pure))) (.bind .pure fun _ => .ite (.bind .pure fun _ =>
      .pure) (.bind loadRun_canon fun _ => .ite (.bind loadImages_canon fun _ => .bind .pure fun _ =>
      .pure) (.bind .pure fun _ => .pure))))

theorem execKlaunch_canon {d a b : Reg} {s : State} (hs : s.Canon) : OutcomeCanon (execKlaunch d a b s) := by
  unfold execKlaunch
  dsimp only
  refine runOp_canon hs (.bind check_canon fun _ => .bind loadParts_canon fun _ => .bind (.update fun _ ht =>
      ht.raise) fun _ => .get_bind fun _ ht => ?_)
  split
  · exact retireX_canon
  · exact .bind (.set ht.post) fun _ => retireX_canon

theorem State.Canon.noteChosen {s : State} {d : Fin 4} (hs : s.Canon) : (s.noteChosen d).Canon := by
  unfold State.noteChosen
  split
  · exact hs.updDie
  · exact hs.updDie

theorem State.Canon.placeHart {s : State} {l : Launch} {gang inst rank : Nat} {p : Place} (hs : s.Canon) :
    (s.placeHart l gang inst rank p).Canon :=
  hs.updHart

theorem State.Canon.declareRing {s : State} {h : HartId} {r : RingDecl} (hs : s.Canon) :
    (s.declareRing h r).Canon := by
  have hk := (ringConfigure_canon (q := BitVec.ofNat 3 r.ring) (base := r.base) (shape := r.shape)).after
    { s with cur := h } hs
  unfold State.declareRing
  split
  · rename_i e
    rw [e] at hk
    exact hk
  · exact hs

theorem State.Canon.openAll {s : State} {G : Gang} {xs : List Xing} (hs : s.Canon) : (s.openAll G xs).Canon :=
  foldl_canon (fun _ _ ht => SomeCanon.getD (ht.openCrossingBy fun _ _ hu => hu.claimOutside) ht) hs

theorem State.Canon.served {s : State} {d : Fin 4} {q : Nat} {e : QEntry} (hs : s.Canon) :
    (s.served d q e).Canon :=
  hs.updQueue.updQueue.updDie

theorem State.Canon.placeRecord {s : State} {die : Fin 4} {q : Nat} {l : Launch} {places : List Place}
    (hs : s.Canon) : (s.placeRecord die q l places).Canon :=
  .served (.openAll (foldl_canon (fun _ _ ht => foldl_canon (fun _ _ hu =>
      hu.declareRing) ht) (foldl_canon (fun _ _ ht => ht.placeHart) hs)))

theorem execPlaceGang_canon {die : Fin 4} {places : List Place} {s : State} (hs : s.Canon) :
    OutcomeCanon (execPlaceGang die places s) := by
  unfold execPlaceGang
  split
  · split
    · exact ite_canon hs.placeRecord hs.noteChosen
    · exact hs
  · exact hs

theorem State.Canon.passRefs {s : State} {g r : Nat} {h : HartId} (hs : s.Canon) : (s.passRefs g r h).Canon :=
  hs

theorem State.Canon.banksBack {s : State} {h : HartId} (hs : s.Canon) : (s.banksBack h).Canon :=
  foldl_canon (fun _ _ ht => ht.changeRole) hs

theorem State.Canon.finishCrossings {s : State} {h : HartId} (hs : s.Canon) : (s.finishCrossings h).Canon :=
  foldl_canon (fun _ _ ht => ht.closeCrossingBy fun _ _ _ hu => hu.fifoToCache) hs

theorem State.Canon.closeAll {s : State} {h : HartId} (hs : s.Canon) : (s.closeAll h).Canon :=
  foldl_canon (fun _ _ ht => ht.closeCrossing) hs

theorem State.Canon.freeContext {s : State} {h : HartId} (hs : s.Canon) : (s.freeContext h).Canon :=
  hs.finishCrossings.banksBack.unparkHart.updHart

theorem State.Canon.discard {s : State} {G : Gang} (hs : s.Canon) : (s.discard G).Canon :=
  ite_canon hs (.logOwn hs)

theorem State.Canon.instanceDone {s : State} {id : Nat} {rs : List (HartId × Nat)} (hs : s.Canon) :
    (s.instanceDone id rs).Canon := by
  unfold State.instanceDone
  split
  · exact ite_canon (.refStep hs) hs
  · exact hs

theorem State.Canon.finishGang {s : State} {g : Nat} (hs : s.Canon) : (s.finishGang g).Canon := by
  unfold State.finishGang
  dsimp only
  split
  · exact ite_canon (.instanceDone (foldl_canon (fun _ _ ht => ht.freeContext) hs.discard)) hs
  · exact hs

theorem State.Canon.releaseAll {s : State} {h : HartId} (hs : s.Canon) : (s.releaseAll h).Canon := by
  unfold State.releaseAll
  dsimp only
  refine foldl_canon (fun _ _ ht => ite_canon ht ?_) hs
  split
  · exact ht.beginRelease
  · exact ite_canon ht.beginRelease.beginRelease ht

theorem State.Canon.endHart {s : State} (hs : s.Canon) : s.endHart.Canon := by
  unfold State.endHart
  dsimp only
  split
  · exact hs.freeContext
  · exact hs.updMe.fcAdd.updGang.passRefs.finishGang

theorem execKdone_canon {s : State} (hs : s.Canon) : OutcomeCanon (execKdone s) :=
  ite_canon hs.trap (ite_canon hs.withdraw.releasePool.releaseAll.waitIn
      hs.withdraw.releasePool.releaseAll.release.drainHart.forget.endHart)

theorem State.Canon.dropStream {s : State} {h : HartId} {t : Stream} (hs : s.Canon) :
    (s.dropStream h t).Canon :=
  ite_canon hs.freeAt.relPeers.freeWindow.freeFifo hs.freeAt.relPeers.freeWindow

theorem State.Canon.endGang {s : State} {g : Nat} (hs : s.Canon) : (s.endGang g).Canon := by
  unfold State.endGang
  dsimp only
  split
  · exact hs
  · refine foldl_canon (fun _ _ ht => ite_canon ht ht.freeContext) (.discard (foldl_canon (fun _ _ ht =>
      ht.passRefs) (foldl_canon (fun _ _ ht => ?_) hs)))
    split
    · exact .updDie (foldl_canon (fun _ _ hu => ite_canon hu.dropStream hu) ht)
    · exact .updHart (ite_canon (.updBank (foldl_canon (fun _ _ hu =>
        hu.dropStream) (foldl_canon (fun _ _ hu => hu.dropStream) ht))) (foldl_canon (fun _ _ hu =>
        hu.dropStream) (foldl_canon (fun _ _ hu => hu.dropStream) ht)))

theorem State.Canon.heldToSlot {s : State} {h : HartId} (hs : s.Canon) : (s.heldToSlot h).Canon := by
  unfold State.heldToSlot
  dsimp only
  split
  · exact hs
  · refine foldl_canon (fun _ _ ht => ?_) hs
    split
    · exact ht.poolWrite
    · exact ht

theorem State.Canon.slotToHeld {s : State} {h : HartId} {v : Saved} {stays : Bool} (hs : s.Canon) :
    (s.slotToHeld h v stays).Canon := by
  unfold State.slotToHeld
  dsimp only
  split
  · exact hs
  · refine foldl_canon (fun _ _ ht => ?_) hs
    split
    · exact ite_canon ht.putBytes ht
    · exact ht

theorem State.Canon.saveCaps {s : State} {h : HartId} (hs : s.Canon) : (s.saveCaps h).Canon :=
  .updHart (ite_canon (.freeFifo (.heldToSlot (foldl_canon (fun _ _ ht =>
      ht.writeSlot) hs))) (.heldToSlot (foldl_canon (fun _ _ ht => ht.writeSlot) hs)))

theorem State.Canon.saveStreams {s : State} {h : HartId} (hs : s.Canon) : (s.saveStreams h).1.Canon := by
  unfold State.saveStreams
  dsimp only
  generalize List.range 16 = ns
  refine foldl_fst_canon (p := (_, [])) (fun _ _ ht => ?_) (foldl_canon (fun _ _ ht => ht.advanceRelease) hs)
  exact ite_fst_canon ht.saveHome.saveStream ht

theorem State.Canon.saveHart {s : State} {G : Gang} {m : Member} (hs : s.Canon) : (s.saveHart G m).Canon := by
  unfold State.saveHart
  dsimp only
  split
  · exact hs
  · exact hs.drainHart.forget.unparkHart.saveCaps.saveStreams.writeImage.updDie.updGang

theorem State.Canon.vacate {s : State} {G : Gang} (hs : s.Canon) : (s.vacate G).Canon :=
  foldl_canon (fun _ _ ht => ht.freeContext) (foldl_canon (fun _ _ ht =>
      ht.closeAll) (foldl_canon (fun _ _ ht => ht.updHart) hs))

theorem State.Canon.postResume {s : State} {G : Gang} (hs : s.Canon) : (s.postResume G).Canon := hs.updQueue

theorem State.Canon.saveGang {s : State} {G : Gang} (hs : s.Canon) : (s.saveGang G).Canon :=
  .postResume (.updGang (.vacate (foldl_canon (fun _ _ ht => ht.saveHart) hs)))

theorem State.Canon.preempt {s : State} {needs : List Need} {vs : List Gang} (hs : s.Canon) :
    SomeCanon id (s.preempt needs vs) := by
  induction vs generalizing s with
  | nil => trivial
  | cons G rest ih => exact .ite (.ite hs.saveGang (ih hs.saveGang)) (ih hs)

theorem State.Canon.regainBanks {s : State} {t : Fin 224} {base key : Nat} {bs : List (Nat × Nat)} (hs : s.Canon) :
    (bs.foldl (fun s e =>
      match s.img base key (0xEF0 + e.1) 1 with
      | 1 => (s.changeRole t e.2 .spad).bankIn t e.2 (base + 0x84000 + 66560 * e.1) key
      | 2 => s.changeRole t e.2 .fifo
      | _ => s) s).Canon := by
  refine foldl_canon (fun _ _ ht => ?_) hs
  split
  · exact ht.changeRole.bankIn
  · exact ht.changeRole
  · exact ht

theorem State.Canon.restoreStreams {s : State} {h : HartId} {ts : List (Nat × Stream)} (hs : s.Canon) :
    (ts.foldl (fun s e =>
      match s.restoreStream h e.1 e.2.desc e.2.pos e.2.status (some e.2) with
      | some s' => s'
      | none => s.updHart h (fun H => { H with releasing := H.releasing ++ [e.2] })) s).Canon := by
  refine foldl_canon (fun _ _ ht => ?_) hs
  split
  · rename_i e
    exact ht.restoreStream.of_eq e
  · exact ht.updHart

theorem State.Canon.regainCapBank {s : State} {h : HartId} {t : Fin 224} (hs : s.Canon) :
    (match s.claimFifo t with
      | some (s, b) => s.updHart h (fun H => { H with cap := { H.cap with bank := b } })
      | none => s : State).Canon := by
  split
  · rename_i e
    exact .updHart (hs.claimFifo.of_eq e)
  · exact hs

theorem State.Canon.settleRegion {s : State} {h : HartId} (hs : s.Canon) :
    (match (s.hart h).fabric.active with
      | some a => s.putRegion h (FabRun.settle ⟨s.hart h, a, 0, 0⟩)
      | none => s : State).Canon := by
  split
  · exact hs.putRegion
  · exact hs

theorem State.Canon.resumeHart {s : State} {G : Gang} {m : Member} {v : Saved} {p : Place} (hs : s.Canon) :
    (s.resumeHart G m v p).Canon := by
  unfold State.resumeHart
  refine .updDie (.settleRegion (.slotToHeld ?_))
  exact ite_canon (.regainCapBank (.restoreStreams (foldl_canon (fun _ _ ht => ht.relabel) (.regainBanks hs.updHart))))
    (.restoreStreams (foldl_canon (fun _ _ ht => ht.relabel) (.regainBanks hs.updHart)))

theorem State.Canon.reopen {s : State} {old new : Gang} (hs : s.Canon) : (s.reopen old new).Canon := by
  refine foldl_canon (fun _ _ ht => ?_) hs
  split
  · exact ht
  · refine foldl_canon (fun _ _ hu => ?_) ht
    dsimp only
    split
    · exact hu
    · exact .updHart (ite_canon hu (SomeCanon.getD (hu.openCrossingBy fun _ _ hv => hv.claimOutside) hu))

theorem State.Canon.resumePlaced {s : State} {die : Fin 4} {q g : Nat} {G : Gang} {places : List Place}
    (hs : s.Canon) : (s.resumePlaced die q g G places).Canon := by
  unfold State.resumePlaced
  dsimp only
  refine .served (.reopen (.updGang (foldl_canon (fun _ _ ht => ?_) hs)))
  split
  · exact ht.resumeHart
  · exact ht

theorem execResumeGang_canon {die : Fin 4} {places : List Place} {s : State} (hs : s.Canon) :
    OutcomeCanon (execResumeGang die places s) := by
  unfold execResumeGang
  split
  · split
    · split
      · exact ite_canon hs.resumePlaced hs.noteChosen
      · exact hs
    · exact hs
  · exact hs

theorem State.Canon.placeEntry {s : State} {die : Fin 4} {q : Nat} {e : QEntry} {places : List Place}
    (hs : s.Canon) : (s.placeEntry die q e places).Canon := by
  unfold State.placeEntry
  split
  · exact hs.placeRecord
  · split
    · exact hs.resumePlaced
    · exact hs

theorem execPreemption_canon {die : Fin 4} {s : State} (hs : s.Canon) : OutcomeCanon (execPreemption die
    s) := by
  unfold execPreemption
  dsimp only
  split
  · split
    · refine ite_canon hs.noteChosen ?_
      split
      · rename_i e
        exact ite_canon (.placeEntry ((hs.preempt.of_eq e))) hs
      · exact hs.noteChosen
    · exact hs
  · exact hs

theorem State.Canon.tick {s : State} {t : Fin 224} {n : Nat} (hs : s.Canon) : (s.tick t n).Canon :=
  ite_canon (.noteChosen (.ageQueues (foldl_canon (fun _ _ ht =>
      ht.updHart) hs))) (foldl_canon (fun _ _ ht => ht.updHart) hs)

theorem execTimerExpiry_canon {h : HartId} {s : State} (hs : s.Canon) : OutcomeCanon (execTimerExpiry h s) :=
  ite_canon hs.tick hs

end Sys2Proof.Machine

/-! ### Canonical memory: convoys, gangs and events -/

namespace Sys2Proof.Machine

theorem branch_canon {n : Nat} {taken : Bool} {o : BitVec n} {s : State} (hs : s.Canon) :
    OutcomeCanon (branch taken o s) :=
  ite_canon hs.goTo hs.advance

theorem branchPop_canon {want : Bool} {o : BitVec 16} {s : State} (hs : s.Canon) :
    OutcomeCanon (branchPop want o s) := by
  unfold branchPop
  split
  · exact hs.trap
  · exact branch_canon hs.updMe

theorem callTo_canon {target : Word} {s : State} (hs : s.Canon) : OutcomeCanon (callTo target s) :=
  .ite hs.trap hs.updMe.goTo

theorem execJr_canon {a : Reg} {i : BitVec 16} {s : State} (hs : s.Canon) : OutcomeCanon (execJr a i s) :=
  .ite hs.goTo hs.trap

theorem execCallr_canon {a : Reg} {i : BitVec 16} {s : State} (hs : s.Canon) :
    OutcomeCanon (execCallr a i s) :=
  .ite (callTo_canon hs) hs.trap

theorem execRet_canon {s : State} (hs : s.Canon) : OutcomeCanon (execRet s) := by
  unfold execRet
  split
  · exact hs.trap
  · exact .ite hs.updMe.goTo hs.trap

theorem spillLoop_canon {n : Nat} : Op.Canon (spillLoop n) := by
  induction n with
  | zero => exact .pure
  | succ n ih =>
    exact .bind getMe_canon fun _ => .bind storeShadow_canon fun _ => .bind updMe_canon fun _ => ih

theorem fillLoop_canon {n : Nat} : Op.Canon (fillLoop n) := by
  induction n with
  | zero => exact .pure
  | succ n ih =>
    exact .bind getMe_canon fun _ => .bind loadShadow_canon fun _ => .bind updMe_canon fun _ => ih

theorem rasMove_canon {k : Hart → Nat} {loop : Nat → Op Unit} {a d : Reg} {s : State} (hs : s.Canon)
    (hl : ∀ n, Op.Canon (loop n)) : OutcomeCanon (rasMove k loop a d s) := by
  have h := (hl (Nat.min (s.me.getX a).toNat (k s.me))).after s hs
  unfold rasMove
  dsimp only
  split
  · rename_i e
    rw [e] at h
    exact State.Canon.advance (State.Canon.setX h)
  · rename_i e
    rw [e] at h
    exact State.Canon.trap (State.Canon.setX h)
  · rename_i e
    rw [e] at h
    exact State.Canon.waitIn (State.Canon.updMe h)

theorem execRasSpill_canon {a d : Reg} {s : State} (hs : s.Canon) : OutcomeCanon (execRasSpill a d s) :=
  .ite (rasMove_canon hs fun _ => spillLoop_canon) hs.illegal

theorem execRasFill_canon {a d : Reg} {s : State} (hs : s.Canon) : OutcomeCanon (execRasFill a d s) :=
  .ite (rasMove_canon hs fun _ => fillLoop_canon) hs.illegal

theorem execRasDrop_canon {a : Reg} {s : State} (hs : s.Canon) : OutcomeCanon (execRasDrop a s) :=
  .ite hs.trap hs.updMe.advance

theorem hendAt_canon {chain : Bool} {l : BitVec 2} {s : State} (hs : s.Canon) :
    OutcomeCanon (hendAt chain l s) := by
  unfold hendAt
  split
  · exact hs.updMe.goTo
  · exact hs.updMe.advance

theorem execHset_canon {l : BitVec 2} {a : Reg} {f : BitVec 3} {s : State} (hs : s.Canon) :
    OutcomeCanon (execHset l a f s) :=
  .ite hs.trap hs.updMe.advance

theorem cvtForm_canon {w : VFields} {lo hi : Nat} : GOp.Canon (cvtForm w lo hi) := mapElems_canon

theorem cvtToInt4_canon {c : Ctx} {w : VFields} {lo hi : Nat} : GOp.Canon (cvtToInt4 c w lo hi) :=
  .ite .pure gMod_canon

theorem cvtFromInt4_canon {c : Ctx} {w : VFields} {lo hi : Nat} : GOp.Canon (cvtFromInt4 c w lo hi) :=
  .ite .pure mapElems_canon

theorem quantForm_canon {c : Ctx} {w : VFields} {lo hi : Nat} : GOp.Canon (quantForm c w lo hi) := by
  unfold quantForm
  exact gMod_canon

theorem dequantForm_canon {c : Ctx} {w : VFields} {lo hi : Nat} : GOp.Canon (dequantForm c w lo hi) :=
  .ite .pure mapElems_canon

theorem cvtAny_canon {c : Ctx} {w : VFields} {lo hi : Nat} : GOp.Canon (cvtAny c w lo hi) :=
  .ite cvtToInt4_canon (.ite cvtFromInt4_canon cvtForm_canon)

theorem groupOp_canon {c : Ctx} {t : Slot} {g lo hi : Nat} : GOp.Canon (groupOp c t g lo hi) := by
  unfold groupOp
  dsimp only
  split
  case h_1 | h_2 | h_3 | h_4 | h_5 | h_6 | h_7 | h_9 | h_10 | h_11 | h_12 | h_13 | h_14 | h_15 | h_16 | h_17
      | h_18 | h_19 | h_20 | h_21 | h_22 => exact intForm_canon
  case h_8 => exact maccForm_canon
  case h_23 | h_24 | h_25 | h_26 | h_27 | h_28 => exact cmpForm_canon
  case h_29 | h_30 | h_31 | h_32 | h_33 | h_34 | h_35 => exact maskForm_canon
  case h_36 => exact mtovForm_canon
  case h_37 => exact vtomForm_canon
  case h_38 | h_39 | h_40 | h_41 | h_42 => exact fpForm_canon
  case h_43 | h_44 => exact fpExtreme_canon
  case h_45 | h_46 | h_47 => exact fpInject_canon
  case h_48 => exact fpClassForm_canon
  case h_49 | h_50 | h_51 | h_52 => exact fmaForm_canon
  case h_53 => exact cvtAny_canon
  case h_54 => exact quantForm_canon
  case h_55 => exact dequantForm_canon
  case h_56 => exact selForm_canon
  case h_57 => exact vidForm_canon
  case h_58 => exact insForm_canon
  case h_59 => exact sendForm_canon
  case h_60 => exact recvForm_canon
  case h_61 | h_62 | h_63 | h_66 => exact loadForm_canon
  case h_64 | h_65 | h_67 => exact storeForm_canon
  case h_68 | h_69 => exact imageForm_canon
  case h_70 => exact streamLoad_canon
  case h_71 => exact streamStore_canon
  case h_72 => exact accForm_canon
  case h_73 | h_74 | h_75 | h_76 | h_77 | h_78 | h_79 => exact vamoForm_canon
  case h_80 => exact .pure

theorem wholeOp_canon {c : Ctx} {t : Slot} : GOp.Canon (wholeOp c t) := by
  unfold wholeOp
  dsimp only
  split
  case h_1 | h_2 | h_3 | h_4 => exact permForm_canon
  case h_5 => exact compressForm_canon
  case h_6 => exact expandForm_canon
  case h_7 | h_8 | h_9 | h_10 | h_11 | h_12 => exact redForm_canon
  case h_13 | h_14 | h_15 => exact scanForm_canon
  case h_16 => exact popForm_canon
  case h_17 => exact firstForm_canon
  case h_18 | h_19 => exact bqForm_canon
  case h_20 => exact extForm_canon
  case h_21 | h_22 => exact maskImage_canon
  case h_23 => exact setlfForm_canon
  case h_24 => exact intersectForm_canon
  case h_25 | h_26 => exact uniteForm_canon
  case h_27 => exact waitForm_canon
  case h_28 => exact .pure

theorem State.Canon.releaseBeside {s : State} {sl : List Slot} (hs : s.Canon) : (s.releaseBeside sl).Canon :=
  ite_canon hs.release hs

theorem State.Canon.stopConvoy {s : State} {slot elem : Nat} {e : Stop} (hs : s.Canon) :
    (s.stopConvoy slot elem e).Canon := by
  unfold State.stopConvoy
  split
  · exact hs.forget.updMe.trap
  · exact hs.updMe.waitIn
  · exact hs.updMe.waitIn

theorem State.Canon.retireConvoy {s : State} {n : Nat} {G : Grp} (hs : s.Canon) : (s.retireConvoy n G).Canon
    :=
  hs.updMe.goTo

/-- The state in the end of a group is canonical. -/
def Ran.Canon : Ran → Prop
  | .done _ t => t.Canon
  | .stopped _ _ t => t.Canon

theorem runSlots_canon {f : Slot → GOp Unit} {G : Grp} {s : State} {sl : List Slot} (hs : s.Canon)
    (hf : ∀ t, GOp.Canon (f t)) : (runSlots f G s sl).Canon := by
  induction sl generalizing G s with
  | nil => exact hs
  | cons t rest ih =>
    have h := ((hf t).run G).after s hs
    unfold runSlots
    split
    · rename_i e
      rw [e] at h
      exact ih h
    · rename_i e
      rw [e] at h
      exact h

theorem Ran.Canon.of_done {r : Ran} {G : Grp} {t : State} (hr : r.Canon) (e : r = .done G t) : t.Canon := by
  rw [e] at hr
  exact hr

theorem Ran.Canon.of_stopped {r : Ran} {k : Nat} {x : Stop} {t : State} (hr : r.Canon) (e : r = .stopped k x t) :
    t.Canon := by
  rw [e] at hr
  exact hr

theorem runGroup_canon {c : Ctx} {sl : List Slot} {vs g : Nat} {G : Grp} {s : State} (hs : s.Canon) :
    (runGroup c sl vs g G s).Canon := by
  unfold runGroup
  dsimp only
  split
  · rename_i e
    exact (runSlots_canon hs.releaseBeside fun _ => groupOp_canon).of_stopped e
  · rename_i e
    have ht := (runSlots_canon hs.releaseBeside fun _ => groupOp_canon).of_done e
    split
    · exact runSlots_canon ht fun _ => wholeOp_canon
    · exact ht

theorem runGroups_canon {c : Ctx} {sl : List Slot} {vs : Nat} {s : State} {g k : Nat} (hs : s.Canon) :
    (runGroups c sl vs s g k).Canon := by
  induction k generalizing s g with
  | zero => exact hs
  | succ k ih =>
    unfold runGroups
    refine ite_canon hs.updMe ?_
    split
    · rename_i e
      exact ((runGroup_canon hs).of_stopped e).stopConvoy
    · rename_i e
      have ht := (runGroup_canon hs).of_done e
      exact ite_canon ht.commitGroup.updMe.retireConvoy (ih ht.commitGroup.updMe)

theorem trimSearch_canon {c : Ctx} {before : List Slot} {t : Slot} {G : Grp} {s : State} {g k : Nat} (hs : s.Canon) :
    (trimSearch c before t G s g k).2.Canon := by
  induction k generalizing G s g with
  | zero => exact hs
  | succ k ih =>
    unfold trimSearch
    refine ite_snd_canon hs ?_
    split
    · rename_i e
      exact (runSlots_canon hs fun _ => groupOp_canon).of_stopped e
    · rename_i e
      exact (runSlots_canon hs fun _ => groupOp_canon).of_stopped e
    · rename_i e
      have ht := (runSlots_canon hs fun _ => groupOp_canon).of_done e
      split
      · exact ih ht
      · exact ht

theorem issueSlot_canon {c : Ctx} {sl : List Slot} {pc : Word} {vs : Nat} {t : Slot} :
    GOp.Canon (issueSlot c sl pc vs t) := by
  unfold issueSlot
  dsimp only
  split
  · exact .bind streamCheck_canon fun _ => .bind touchStream_canon fun _ =>
      .ite (.bind streamTrim_canon fun _ => .bind gMod_canon fun _ => .pure) .pure
  · exact .bind streamCheck_canon fun _ => .bind touchStream_canon fun _ => .pure
  · refine .ite (.gState_bind fun _ ht => ?_) .pure
    split
    · exact .ite .pure (.bind gMod_canon fun _ => .pure)
    · exact .bind (.gLift askHost_canon) fun _ => .pure
    · rename_i e2
      exact .bind (.gLift (.set (((trimSearch_canon ht).snd_of_eq e2)))) fun _ => .gWait
    · exact .pure
  · exact .bind windowCheck_canon fun _ => .pure
  · exact .ite (.bind windowCheck_canon fun _ => .pure) .pure
  · exact .pure

theorem issueSlots_canon {c : Ctx} {sl : List Slot} {pc : Word} {vs : Nat} {G : Grp} {s : State} {ts : List Slot}
    (hs : s.Canon) : (issueSlots c sl pc vs G s ts).1.Canon := by
  induction ts generalizing c G s with
  | nil => exact hs
  | cons t rest ih =>
    have h := issueSlot_canon (c := c) (sl := sl) (pc := pc) (vs := vs) (t := t) |>.run G |>.after s hs
    unfold issueSlots
    split
    · rename_i e
      rw [e] at h
      exact ih h
    · rename_i e
      rw [e] at h
      exact h

theorem mergeSlots_canon {c : Ctx} {w : VFields} {x : Window} {G : Grp} {s : State} {j n : Nat} (hs : s.Canon) :
    (mergeSlots c w x G s j n).Canon := by
  induction n generalizing G s j with
  | zero => exact hs
  | succ n ih =>
    have h := mergeSlot_canon (c := c) (w := w) (x := x) (j := j) |>.run G |>.after s hs
    unfold mergeSlots
    split
    · rename_i e
      rw [e] at h
      exact h
    · rename_i e
      rw [e] at h
      exact ih h

theorem runMerge_canon {c : Ctx} {w : VFields} {x : Window} {G : Grp} {s : State} {n : Nat} (hs : s.Canon) :
    (match mergeSlots c w x G s 0 n with
      | .stopped _ (.trap cause v) s' => s'.trap cause v
      | .stopped _ (.wait w) s' => s'.waitIn w
      | .done G s' =>
        if n < x.count then s'.updMe (fun H => { H with cut := none })
        else (s'.commitGroup G).retireConvoy 1 G : State).Canon := by
  split
  · rename_i e
    exact ((mergeSlots_canon hs).of_stopped e).trap
  · rename_i e
    exact ((mergeSlots_canon hs).of_stopped e).waitIn
  · rename_i e
    have ht := (mergeSlots_canon hs).of_done e
    exact ite_canon ht.updMe ht.commitGroup.retireConvoy

theorem runOnce_canon {c : Ctx} {t : Slot} {G : Grp} {s : State} (hs : s.Canon) : (runOnce c t G s).Canon := by
  unfold runOnce
  split
  case h_1 =>
    dsimp only
    split
    · rename_i e
      exact .trap (((mergePages_canon.run _).after _ hs).of_error e)
    · rename_i e
      exact .waitIn (((mergePages_canon.run _).after _ hs).of_error e)
    · rename_i e
      have ht := ((mergePages_canon.run _).after _ hs).of_ok e
      exact runMerge_canon (ite_canon ht.release ht)
  case h_5 => exact hs
  all_goals
    dsimp only
    split
    · rename_i e
      exact .retireConvoy (.commitGroup (((winForm_canon.run _).after _ hs).of_ok e))
    · rename_i e
      exact .stopConvoy (((winForm_canon.run _).after _ hs).of_error e)

theorem ite_ran_canon {α : Type} {c : Prop} [Decidable c] {a b : Ran × α} (ha : a.1.Canon) (hb : b.1.Canon) :
    (ite c a b).1.Canon := by
  split
  · exact ha
  · exact hb

theorem State.Canon.runVector {s : State} {sl : List Slot} (hs : s.Canon) : (s.runVector sl).Canon := by
  unfold State.runVector
  dsimp only
  refine ite_canon hs.trap (ite_canon hs.waitIn ?_)
  split
  · rename_i e
    refine .stopConvoy (Ran.Canon.of_stopped ?_ e)
    exact ite_ran_canon (issueSlots_canon hs) hs
  · rename_i e
    have hk := fun hr => Ran.Canon.of_done hr e
    have ht := hk (ite_ran_canon (issueSlots_canon hs) hs)
    refine ite_canon ht.commitGroup.retireConvoy ?_
    split
    · exact ite_canon (ite_canon (runOnce_canon ht.commitGroup) ht.commitGroup.retireConvoy)
        (runGroups_canon ht.commitGroup)
    · exact runGroups_canon ht.commitGroup

theorem oneForm_canon {c : Ctx} {t : Slot} : GOp.Canon (oneForm c t) := by
  unfold oneForm
  dsimp only
  split
  case h_1 | h_2 | h_3 => exact mmaForm_canon
  case h_4 => exact msoundForm_canon
  case h_5 => exact mcheckForm_canon
  case h_6 => exact mzeroForm_canon
  case h_7 => exact mstForm_canon
  case h_8 => exact mxchgForm_canon
  case h_9 => exact floadForm_canon
  case h_10 => exact fgoForm_canon
  case h_11 => exact fgoResumeForm_canon
  case h_12 => exact fdrainForm_canon
  case h_13 => exact fstatForm_canon
  case h_14 => exact frelForm_canon
  case h_15 => exact .pure

theorem State.Canon.runOneGroup {s : State} {sl : List Slot} (hs : s.Canon) : (s.runOneGroup sl).Canon := by
  unfold State.runOneGroup
  dsimp only
  split
  all_goals
    rename_i e
  · exact ((runSlots_canon hs fun _ => oneForm_canon).of_stopped e).stopConvoy
  · exact ((runSlots_canon hs fun _ => oneForm_canon).of_stopped e).waitIn
  · exact ((runSlots_canon hs fun _ => oneForm_canon).of_stopped e).waitIn
  · exact ((runSlots_canon hs fun _ => oneForm_canon).of_done e).commitGroup.retireConvoy

theorem State.Canon.runChecked {s : State} {sl : List Slot} (hs : s.Canon) : (s.runChecked sl).Canon :=
  ite_canon hs.runOneGroup hs.runVector

theorem State.Canon.vecTurn {s : State} {h : HartId} (hs : s.Canon) : (s.vecTurn h).Canon := by
  unfold State.vecTurn
  dsimp only
  split
  · exact hs
  · split
    · exact .runChecked hs
    · exact hs

theorem State.Canon.vecTurns {s : State} {h : HartId} {n : Nat} (hs : s.Canon) : (s.vecTurns h n).Canon := by
  induction n generalizing s with
  | zero => exact hs
  | succ n ih => exact ih hs.vecTurn

theorem State.Canon.drainVector {s : State} {h : HartId} (hs : s.Canon) : (s.drainVector h).Canon :=
  hs.vecTurns

theorem State.Canon.placeConvoy {s : State} {header : BitVec 32} {words : List (BitVec 64)} {sl : List Slot}
    (hs : s.Canon) : (s.placeConvoy header words sl).Canon :=
  ite_canon hs.waitIn hs.updMe.goTo

theorem State.Canon.runConvoy {s : State} {header : BitVec 32} {words : List (BitVec 64)} (hs : s.Canon) :
    (s.runConvoy header words).Canon := by
  unfold State.runConvoy
  split
  · exact hs.trap
  · exact ite_canon hs.placeConvoy hs.drainVector.runChecked

theorem execConvoy_canon {header : BitVec 32} {words : List (BitVec 64)} {s : State} (hs : s.Canon) :
    OutcomeCanon (execConvoy header words s) :=
  .ite hs.runConvoy trivial

theorem solo_canon {o : VOp} {w : VFields} {s : State} (hs : s.Canon) : OutcomeCanon (solo o w s) :=
  hs.runConvoy

theorem csrAccess_canon {i : Instr} {d : Reg} {c : BitVec 12} {write : Bool} {f : Word → Word} {s : State}
    (hs : s.Canon) : OutcomeCanon (csrAccess i d c write f s) :=
  .ite (.advance (.setX (ite_canon hs.updMe hs))) hs.illegal

theorem State.Canon.retranslate {s : State} {h : HartId} {n : Nat} (hs : s.Canon) :
    (s.retranslate h n).Canon := by
  unfold State.retranslate
  dsimp only
  refine ite_canon hs ?_
  split
  · exact hs
  · exact hs.freeAt.relPeers.putStream

theorem State.Canon.dropTranslations {s : State} {asid : BitVec 16} {va : Option Nat} {scope : Nat}
    (hs : s.Canon) : (s.dropTranslations asid va scope).Canon :=
  foldl_canon (fun _ _ ht => foldl_canon (fun _ _ hu => hu.retranslate) ht) (ite_canon (ite_canon
      (foldl_canon (fun _ _ ht => ite_canon ht ht.updTile) hs.drain) (ite_canon (.dropFrames (foldl_canon
      (fun _ _ ht => ite_canon ht ht.updTile) hs.drain)) (.dropFrames (foldl_canon (fun _ _ ht =>
      ite_canon ht ht.updTile) hs.drain)))) (ite_canon (foldl_canon (fun _ _ ht =>
      ite_canon ht ht.updTile) hs.drain) (ite_canon (.dropFrames (foldl_canon (fun _ _ ht =>
      ite_canon ht ht.updTile) hs.drain)) (.dropFrames (foldl_canon (fun _ _ ht =>
      ite_canon ht ht.updTile) hs.drain)))))

theorem execTlbInv_canon {a b : Reg} {p : BitVec 3} {s : State} (hs : s.Canon) :
    OutcomeCanon (execTlbInv a b p s) :=
  ite_canon hs.dropTranslations.advance hs.illegal

end Sys2Proof.Machine

/-! ### Canonical memory: the host and the management complex -/

namespace Sys2Proof.Machine

theorem State.Canon.hostPut {s : State} {a : Nat} {bs : List Byte} (hs : s.Canon) : (s.hostPut a bs).Canon :=
  hostPut_wf hs a bs

theorem State.Canon.signal {s : State} {v : Nat} (hs : s.Canon) : (s.signal v).Canon := hs

theorem State.Canon.postEvent {s : State} {e seq src : Nat} {claimed : Bool} {detail : List Byte}
    (hs : s.Canon) : (s.postEvent e seq src claimed detail).Canon := by
  unfold State.postEvent
  dsimp only
  refine ite_canon hs (ite_canon ?_ (.signal ?_))
  all_goals
    unfold State.Canon
    dsimp only
    exact State.Canon.hostPut hs

theorem State.Canon.raiseEvent {s : State} {src : Nat} {detail : List Byte} (hs : s.Canon) :
    (s.raiseEvent src detail).Canon :=
  ite_canon (.postEvent (ite_canon hs.logEvent.setRoute hs.logEvent)) (ite_canon hs.logEvent.setRoute
      hs.logEvent)

theorem State.Canon.sendEvent {s : State} {detail : List Byte} (hs : s.Canon) : (s.sendEvent detail).Canon :=
  .raiseEvent hs

theorem execDeviceEvent_canon {src : Nat} {detail : List (BitVec 8)} {s : State} (hs : s.Canon) :
    OutcomeCanon (execDeviceEvent src detail s) :=
  ite_canon hs hs.raiseEvent

theorem execEqcfgEnable_canon {e : BitVec 6} {v : BitVec 64} {s : State} (hs : s.Canon) :
    OutcomeCanon (execEqcfgEnable e v s) :=
  ite_canon hs hs

theorem State.Canon.setPair {s : State} {q : Nat} {P : Pair} (hs : s.Canon) : (s.setPair q P).Canon := hs

theorem State.Canon.doorbell {s : State} {q : Nat} {sq : Bool} {v : Word} (hs : s.Canon) :
    (s.doorbell q sq v).Canon :=
  ite_canon hs hs.setPair

theorem execQcfgEnable_canon {pair : BitVec 6} {v : BitVec 64} {s : State} (hs : s.Canon) :
    OutcomeCanon (execQcfgEnable pair v s) :=
  ite_canon hs hs.setPair

theorem State.Canon.submit {s : State} {e : List Byte} (hs : s.Canon) : (s.submit e).1.Canon := by
  unfold State.submit
  dsimp only
  refine ite_fst_canon hs (ite_fst_canon hs ?_)
  split
  · exact hs
  · split
    · exact hs
    · exact hs.post

theorem execHostSubmission_canon {pair : BitVec 6} {s : State} (hs : s.Canon) :
    OutcomeCanon (execHostSubmission pair s) :=
  ite_canon hs hs.submit.hostPut.setPair.signal

theorem State.Canon.serve {s : State} {who : Agent} {v : Viewer} {key : Nat} {r : MemReq} (hs : s.Canon) :
    (s.serve who v key r).Canon := by
  unfold State.serve
  dsimp only
  split
  · exact hs.homeLines.write.noteRelease
  · exact hs.homeLines

theorem execHostSnoop_canon {req : MemReq} {s : State} (hs : s.Canon) : OutcomeCanon (execHostSnoop req
    s) := by
  unfold execHostSnoop
  refine ite_canon hs ?_
  split
  · rename_i e
    exact .serve ((hs.meetAll.fst_of_eq e))
  · rename_i e
    exact (hs.meetAll.fst_of_eq e)

theorem State.Canon.peerPassed {s : State} {module : Nat} {who : Option PeerAgent} {req : MemReq}
    (hs : s.Canon) : (s.peerPassed module who req).Canon := by
  unfold State.peerPassed
  dsimp only
  split
  · exact hs
  · exact foldl_canon (fun _ _ ht => ite_canon ht.updLanding ht) hs

theorem execPeerMemRequest_canon {module : Nat} {who : Option PeerAgent} {req : MemReq} {s : State}
    (hs : s.Canon) : OutcomeCanon (execPeerMemRequest module who req s) := by
  unfold execPeerMemRequest
  dsimp only
  refine ite_canon hs ?_
  split
  · rename_i e
    split
    · exact .serve (.peerPassed ((hs.meetInTurn.fst_of_eq e)))
    · exact .snoopAll ((hs.meetInTurn.fst_of_eq e))
  · rename_i e
    exact (hs.meetInTurn.fst_of_eq e)

theorem execPeerConflictCompletion_canon {h : HartId} {va : BitVec 64} {s : State} (hs : s.Canon) :
    OutcomeCanon (execPeerConflictCompletion h va s) := by
  unfold execPeerConflictCompletion
  dsimp only
  split
  · refine ite_canon hs ?_
    split
    · exact hs.updHart.rerun
    · exact hs.updHart
  · exact hs

theorem execReplayWake_canon {die : Fin 8} {entry : Nat} {s : State} (hs : s.Canon) :
    OutcomeCanon (execReplayWake die entry s) :=
  foldl_canon (fun _ _ ht => ite_canon ht.rerun ht) hs

theorem State.Canon.again {s : State} {a : Act} (hs : s.Canon) : (s.again a).Canon := hs

theorem State.Canon.reserveFor {s : State} {msg : RsvMsg} (hs : s.Canon) : (s.reserveFor msg).Canon := by
  unfold State.reserveFor
  dsimp only
  refine ite_canon hs (ite_canon hs.snoopAll.again ?_)
  split
  · rename_i e
    exact (hs.registerAt.of_eq e)
  · exact hs

theorem State.Canon.answered {s : State} {seq : BitVec 16} {releasing : Bool} (hs : s.Canon) :
    (s.answered seq releasing).Canon :=
  hs

theorem State.Canon.updPeerStream {s : State} {seq : BitVec 16} {f : Stream → Stream} (hs : s.Canon) :
    (s.updPeerStream seq f).Canon := by
  unfold State.updPeerStream
  split
  · exact hs.putAt
  · exact hs

theorem execRsvack_canon {seq : BitVec 16} {s : State} (hs : s.Canon) : OutcomeCanon (execRsvack seq s) :=
  ite_canon hs.answered.updPeerStream hs

theorem State.Canon.peerRefused {s : State} {seq : BitVec 16} (hs : s.Canon) : (s.peerRefused seq).Canon :=
  ite_canon hs.answered.updPeerStream hs

theorem State.Canon.cutBy {s : State} {seq : BitVec 16} {pos : Nat} (hs : s.Canon) : (s.cutBy seq
    pos).Canon := by
  unfold State.cutBy
  dsimp only
  split
  · exact ite_canon hs.splitAt.putAt.cutAt hs.splitAt.putAt.again
  · exact hs

theorem execRsvrel_canon {module : Nat} {seq : BitVec 16} {s : State} (hs : s.Canon) :
    OutcomeCanon (execRsvrel module seq s) :=
  hs

theorem State.Canon.losePeer {s : State} {lost : List Nat} {seqs : List (BitVec 16)} {p : StreamAt}
    (hs : s.Canon) : (s.losePeer lost seqs p).Canon := by
  unfold State.losePeer
  dsimp only
  split
  · exact hs
  · split
    · exact ite_canon hs.putAt hs.stopAtFault.putAt
    · exact ite_canon (ite_canon hs.putAt hs.stopAtFault.putAt) hs

theorem execPortDown_canon {port : Fin 16} {lost : List Nat} {s : State} (hs : s.Canon) :
    OutcomeCanon (execPortDown port lost s) :=
  foldl_canon (fun _ _ ht => ht.losePeer) (.mapEntries hs)

theorem State.Canon.atsEnd {s : State} {r : PageReq} {granted : Option Nat} (hs : s.Canon) :
    (s.atsEnd r granted).Canon :=
  ite_canon hs hs

theorem execAtsTranslationCompletion_canon {asid : BitVec 16} {page : Nat} {granted : Option Nat} {s : State}
    (hs : s.Canon) : OutcomeCanon (execAtsTranslationCompletion asid page granted s) :=
  ite_canon hs (ite_canon hs hs.atsEnd)

theorem execPriResponse_canon {asid : BitVec 16} {page : Nat} {ok : Bool} {s : State} (hs : s.Canon) :
    OutcomeCanon (execPriResponse asid page ok s) :=
  ite_canon hs (ite_canon hs hs.atsEnd)

theorem execPriTimeout_canon {asid : BitVec 16} {page : Nat} {s : State} (hs : s.Canon) :
    OutcomeCanon (execPriTimeout asid page s) :=
  ite_canon hs.atsEnd hs

theorem execAtsInvalidate_canon {asid : BitVec 16} {page count : Nat} {s : State} (hs : s.Canon) :
    OutcomeCanon (execAtsInvalidate asid page count s) :=
  State.Canon.of_mem hs.drain rfl

theorem State.Canon.poisonSector {s : State} {q : Nat} (hs : s.Canon) : (s.poisonSector q).Canon :=
  ite_canon hs hs

theorem execScrub_canon {die : Fin 8} {bad : List Nat} {s : State} (hs : s.Canon) :
    OutcomeCanon (execScrub die bad s) :=
  foldl_canon (fun _ _ ht => ht.poisonSector) hs

theorem aluXX_canon {f : Word → Word → Word} {d a b : Reg} {s : State} (hs : s.Canon) :
    OutcomeCanon (aluXX f d a b s) :=
  hs.setX.advance

theorem aluX_canon {f : Word → Word} {d a : Reg} {s : State} (hs : s.Canon) : OutcomeCanon (aluX f d a s) :=
  hs.setX.advance

theorem State.Canon.spacePut {s : State} {asid : BitVec 16} {va : Nat} {b : Byte} (hs : s.Canon) :
    SomeCanon id (s.spacePut asid va b) := by
  unfold State.spacePut
  split
  · exact trivial
  · refine .ite trivial ?_
    split
    · exact hs.putByte
    · exact trivial

theorem State.Canon.spacePutAll {s : State} {asid : BitVec 16} {va : Nat} {bs : List Byte} (hs : s.Canon) :
    SomeCanon id (s.spacePutAll asid va bs) := by
  induction bs generalizing s va with
  | nil => exact hs
  | cons b t ih => exact .bind hs.spacePut fun _ ht => ih ht

theorem execLoadObject_canon {job : LoadJob} {s : State} (hs : s.Canon) : OutcomeCanon (execLoadObject job s) := by
  unfold execLoadObject
  dsimp only
  refine ite_canon hs ?_
  split
  · exact hs
  · refine ite_canon hs ?_
    split
    · exact hs
    · rename_i e
      have hl := SomeCanon.of_eq (f := id)
        (SomeCanon.foldl (fun _ _ ho => .ite (.bind ho fun _ ht => ht.spacePutAll) ho) (o := some s) hs) e
      exact hl

theorem State.Canon.updMgmt {s : State} {f : Mgmt → Mgmt} (hs : s.Canon) : (s.updMgmt f).Canon := hs

theorem State.Canon.command {s : State} {code : Nat} {arg : BitVec 32} {f : State → State × Nat × Nat} (hs : s.Canon)
    (hf : ∀ t, t.Canon → (f t).1.Canon) : OutcomeCanon (s.command code arg f) :=
  ite_canon hs (State.Canon.updMgmt (hf _ hs.updMgmt))

theorem execMbBegin_canon {arg : BitVec 32} {s : State} (hs : s.Canon) : OutcomeCanon (execMbBegin arg s) :=
  hs.command fun _ ht => ite_fst_canon ht.updMgmt ht

theorem execMbChunk_canon {arg : BitVec 32} {s : State} (hs : s.Canon) : OutcomeCanon (execMbChunk arg
    s) := by
  unfold execMbChunk
  dsimp only
  refine hs.command fun _ ht => ?_
  split
  · exact ite_fst_canon ht ht.updMgmt
  · exact ht

theorem execMbVerify_canon {arg : BitVec 32} {s : State} (hs : s.Canon) : OutcomeCanon (execMbVerify arg
    s) := by
  unfold execMbVerify
  dsimp only
  refine hs.command fun _ ht => ?_
  split
  · exact ite_fst_canon ht.updMgmt ht
  · exact ht

theorem execMbBoot_canon {arg : BitVec 32} {s : State} (hs : s.Canon) : OutcomeCanon (execMbBoot arg s) :=
  hs.command fun _ ht => ite_fst_canon ht (ite_fst_canon ht.updMgmt (ite_fst_canon ht.updMgmt ht))

theorem execMbAbort_canon {arg : BitVec 32} {s : State} (hs : s.Canon) : OutcomeCanon (execMbAbort arg
    s) := by
  unfold execMbAbort
  refine hs.command fun _ ht => ?_
  split
  · exact ht.updMgmt
  · exact ht

theorem execMbLog_canon {arg : BitVec 32} {s : State} (hs : s.Canon) : OutcomeCanon (execMbLog arg s) :=
  hs.command fun _ ht => ht.updMgmt

theorem State.Canon.freeKeyed {s : State} {k : Nat} (hs : s.Canon) : (s.freeKeyed k).Canon := by
  unfold State.freeKeyed
  dsimp only
  refine ite_canon hs.freeAt (foldl_canon (fun _ _ ht => ?_) hs.freeAt)
  split
  · exact ht.putAt
  · exact ht

theorem State.Canon.recallKey {s : State} {k : Nat} (hs : s.Canon) : (s.recallKey k).Canon :=
  foldl_canon (fun _ _ ht => ht.putDir) hs

theorem State.Canon.setKey {s : State} {k : Nat} {K : KeySlot} (hs : s.Canon) : (s.setKey k K).Canon := by
  have hf : (((s.keyedEntries k).foldl (fun s e => (s.splitEntry false e.1 e.2.1 e.2.2).1) s).freeKeyed k).Canon :=
    .freeKeyed (foldl_canon (fun _ _ ht => ht.splitEntry) hs)
  unfold State.setKey State.Canon
  dsimp only
  exact State.Canon.recallKey hf.flushWindows.drain

theorem State.Canon.keyCommand {s : State} {code : Nat} {arg : BitVec 32} {lens types : List Nat}
    {good : State → Bool} {K : State → KeySlot} (hs : s.Canon) :
    OutcomeCanon (s.keyCommand code arg lens types good K) := by
  unfold State.keyCommand
  refine hs.command fun t ht => ?_
  dsimp only
  refine ite_fst_canon ht (ite_fst_canon ht (ite_fst_canon ht ?_))
  unfold State.Canon
  dsimp only
  exact ht.setKey

theorem execAttest_canon {arg : BitVec 32} {s : State} (hs : s.Canon) : OutcomeCanon (execAttest arg s) :=
  hs.command fun _ ht => ite_fst_canon ht (ite_fst_canon ht ht.updMgmt)

theorem execPowerOn_canon {s : State} (hs : s.Canon) : OutcomeCanon (execPowerOn s) := outside_wf hs

theorem State.Canon.tellHost {s : State} (hs : s.Canon) : s.tellHost.Canon := .sendEvent hs

theorem execTrainingComplete_canon {ok : Bool} {part : BitVec 16} {s : State} (hs : s.Canon) :
    OutcomeCanon (execTrainingComplete ok part s) :=
  ite_canon (ite_canon hs hs) (ite_canon hs hs.updMgmt.logOwn)

theorem State.Canon.endHandover {s : State} {f : Mgmt → Mgmt} (hs : s.Canon) : (s.endHandover f).Canon :=
  hs

theorem execHandoverReady_canon {s : State} (hs : s.Canon) : OutcomeCanon (execHandoverReady s) :=
  ite_canon hs.endHandover hs

theorem execHandoverTimeout_canon {s : State} (hs : s.Canon) : OutcomeCanon (execHandoverTimeout s) :=
  ite_canon hs.endHandover hs

theorem State.Canon.wsWrite {s : State} {core : Fin 4} {csr : Nat} {v : Word} (hs : s.Canon) :
    (s.wsWrite core csr v).Canon := by
  unfold State.wsWrite
  dsimp only
  split
  · exact ite_canon hs.updMgmt hs
  · exact ite_canon hs.endHandover hs.updMgmt
  · exact hs.updMgmt
  · exact hs

theorem execWatchdogNotice_canon {h : HartId} {s : State} (hs : s.Canon) :
    OutcomeCanon (execWatchdogNotice h s) :=
  ite_canon hs.updHart.noteStep hs

theorem execWatchdogSave_canon {h : HartId} {s : State} (hs : s.Canon) : OutcomeCanon (execWatchdogSave h
    s) := by
  unfold execWatchdogSave
  refine ite_canon ?_ hs
  split
  · exact ite_canon hs.saveGang.noteStep hs.endGang.tellHost
  · exact hs

theorem execTileQuarantine_canon {t : Fin 224} {s : State} (hs : s.Canon) :
    OutcomeCanon (execTileQuarantine t s) :=
  ite_canon (.noteStep (foldl_canon (fun _ _ ht => ht.updHart) hs.updTile)) hs

theorem State.Canon.resetHart {s : State} {h : HartId} (hs : s.Canon) : (s.resetHart h).Canon :=
  .updHart (.unparkHart (foldl_canon (fun _ _ ht => ht.dropStream) hs))

theorem State.Canon.resetTile {s : State} {t : Fin 224} (hs : s.Canon) : (s.resetTile t).Canon :=
  .updTile (foldl_canon (fun _ _ ht => ht.resetHart) hs)

theorem execIslandReset_canon {t : Fin 224} {s : State} (hs : s.Canon) : OutcomeCanon (execIslandReset t s) :=
  .ite hs (.noteStep (.resetTile (foldl_canon (fun _ _ ht => ht.endGang) hs)))

theorem State.Canon.resetDie {s : State} {d : Fin 4} (hs : s.Canon) : (s.resetDie d).Canon :=
  .updDie (.mapEntries (foldl_canon (fun _ _ ht => ht.resetTile) (foldl_canon (fun _ _ ht => ht.endGang) hs)))

theorem execDieReset_canon {die : Fin 4} {s : State} (hs : s.Canon) : OutcomeCanon (execDieReset die s) :=
  ite_canon hs.resetDie.tellHost hs

theorem execResetRequest_canon {die : Fin 4} {s : State} (hs : s.Canon) :
    OutcomeCanon (execResetRequest die s) :=
  ite_canon hs.tellHost hs

theorem State.Canon.setIsland {s : State} {k mhz mv : Nat} (hs : s.Canon) : (s.setIsland k mhz mv).Canon :=
  ite_canon hs.updMgmt hs

theorem State.Canon.slowIsland {s : State} {k : Nat} (hs : s.Canon) : (s.slowIsland k).Canon :=
  State.Canon.of_mem hs.setIsland rfl

theorem State.Canon.powerSample {s : State} {rails : List Nat} (hs : s.Canon) : (s.powerSample rails).Canon :=
  ite_canon (ite_canon hs.updMgmt.noteStep hs.updMgmt) (foldl_canon (fun _ _ ht =>
      ht.slowIsland) (ite_canon hs.updMgmt.noteStep hs.updMgmt))

theorem State.Canon.sample {s : State} {x : Sample} (hs : s.Canon) : (s.sample x).Canon := by
  unfold State.sample
  dsimp only
  refine ite_canon ?_ (ite_canon (foldl_canon (fun _ _ ht =>
      ht.noteStep) hs.updMgmt) (foldl_canon (fun _ _ ht => ht.noteStep) hs.updMgmt))
  split
  · exact .tellHost (.resetDie (ite_canon (foldl_canon (fun _ _ ht =>
      ht.noteStep) hs.updMgmt) (foldl_canon (fun _ _ ht => ht.noteStep) hs.updMgmt)))
  · exact ite_canon (foldl_canon (fun _ _ ht => ht.noteStep) hs.updMgmt) (foldl_canon (fun _ _ ht =>
      ht.noteStep) hs.updMgmt)

theorem execTelemetrySample_canon {samples : List Sample} {s : State} (hs : s.Canon) :
    OutcomeCanon (execTelemetrySample samples s) :=
  ite_canon hs (foldl_canon (fun _ _ ht => ht.sample) hs)

theorem State.Canon.peerWinWrite {s : State} {off : Nat} {v : Word} (hs : s.Canon) :
    (s.peerWinWrite off v).Canon := by
  unfold State.peerWinWrite
  dsimp only
  split
  · exact hs
  · exact ite_canon hs hs

theorem State.Canon.deviceWrite {s : State} {off : Nat} {v : Word} (hs : s.Canon) :
    (s.deviceWrite off v).Canon :=
  ite_canon hs (ite_canon hs.updMgmt (ite_canon hs.peerWinWrite hs.devWrite))

theorem State.Canon.mailbox {s : State} {code : Nat} {arg : BitVec 32} (hs : s.Canon) :
    OutcomeCanon (s.mailbox code arg) := by
  unfold State.mailbox
  split
  case h_1 => exact execMbBegin_canon hs
  case h_2 => exact execMbChunk_canon hs
  case h_3 => exact execMbVerify_canon hs
  case h_4 => exact execMbBoot_canon hs
  case h_5 => exact execMbAbort_canon hs
  case h_6 => exact execMbLog_canon hs
  case h_7 | h_8 | h_9 => exact hs.keyCommand
  case h_10 => exact execAttest_canon hs
  case h_11 => exact hs.command fun _ ht => ht

theorem State.Canon.windowWrite {s : State} {off : Nat} {v : Word} (hs : s.Canon) :
    OutcomeCanon (s.windowWrite off v) :=
  .ite hs.mailbox (ite_canon hs.updMgmt (ite_canon hs.updMgmt hs))

theorem State.Canon.cfgWrite {s : State} {off : Nat} {v : Word} (hs : s.Canon) : (s.cfgWrite off v).Canon :=
  ite_canon hs.updMgmt (ite_canon hs.updMgmt hs)

theorem State.Canon.bar2Write {s : State} {off : Nat} {v : Word} (hs : s.Canon) :
    OutcomeCanon (s.bar2Write off v) :=
  .ite hs (.ite (.ite hs.doorbell (.ite hs.doorbell hs)) (.ite (.ite (execQcfgEnable_canon hs) (ite_canon hs
      (ite_canon hs.setPair (ite_canon hs.setPair hs)))) (.ite (.ite (execEqcfgEnable_canon hs) (ite_canon hs
      (ite_canon hs hs))) hs)))

theorem State.Canon.firmwareSet {s : State} {k : Nat} {v : Word} (hs : s.Canon) : (s.firmwareSet k
    v).Canon := by
  unfold State.firmwareSet
  dsimp only
  split
  case h_1 | h_2 | h_3 | h_4 => exact ite_canon hs hs
  case h_5 => exact hs
  case h_6 => exact hs

theorem execRegisterWrite_canon {off : Nat} {v : BitVec 64} {s : State} (hs : s.Canon) :
    OutcomeCanon (execRegisterWrite off v s) := by
  unfold execRegisterWrite
  split
  · generalize off - 2 ^ 44 = o
    exact hs.windowWrite
  split
  · exact hs
  split
  · exact hs.deviceWrite
  split
  · generalize off - 2 ^ 45 = o
    exact hs.bar2Write
  split
  · exact hs.firmwareSet
  · exact hs

theorem State.Canon.vectorReady {s : State} {i : Instr} (hs : s.Canon) : (s.vectorReady i).Canon :=
  ite_canon hs hs.drainVector

theorem State.Canon.stepped {h : HartId} {s : State} (hs : s.Canon) : (State.stepped h s).Canon :=
  ite_canon hs.drainVector.haltHart hs

theorem State.Canon.settle {i : Instr} {h : HartId} {s : State} (hs : s.Canon) : (State.settle i h s).Canon :=
  ite_canon hs hs.stepped

end Sys2Proof.Machine

/-! ### Canonical memory: the turn of a step -/

namespace Sys2Proof.Machine

theorem exec_canon {i : Instr} {s : State} (hs : s.Canon) : OutcomeCanon (exec i s) := by
  cases i
  all_goals dsimp only [exec]
  case add | sub | and | or | xor | andn | sll | srl | sra | slt | sltu | min | max | minu | maxu | addw | subw |
      sh1add | sh2add | sh3add | mul | mulh | mulhu | mulhsu | div | divu | rem | remu | mulw | divw | remw =>
    exact aluXX_canon hs
  case clz | ctz | cpop | slli | srli | srai | sextB | sextH | sextW | zextB | zextH | zextW | addi =>
    exact aluX_canon hs
  case lik | pcrel | strmStat | strmStatPos | strmStatAvail | bankStat | cread | tokStat | kid | hget =>
    exact hs.setX.advance
  case ldI8 | ldI16 | ldI32 | ldI64 | ldN8 | ldN16 | ldN32 => exact loadX_canon hs
  case ldF16 | ldF32 | ldF64 => exact loadF_canon hs
  case stI8 | stI16 | stI32 | stI64 | stF16 | stF32 | stF64 => exact storeW_canon hs
  case amoswap | amoadd | amoand | amoor | amoxor | amomin | amomax | amominu | amomaxu | amocas =>
    exact amo_canon hs
  case beq | bne | blt | bge | bltu | bgeu | beqz | bnez | bltz | bgez | blez | bgtz => exact branch_canon hs
  case bqt | bqf => exact branchPop_canon hs
  case j => exact hs.goTo
  case call => exact callTo_canon hs
  case jr => exact execJr_canon hs
  case callr => exact execCallr_canon hs
  case ret => exact execRet_canon hs
  case rasSpill => exact execRasSpill_canon hs
  case rasFill => exact execRasFill_canon hs
  case rasDrop => exact execRasDrop_canon hs
  case fadd | fsub | fmul | fdiv => exact fpBin_canon hs
  case fsqrt | fcvtFromInt | fcvtFmt | fmvF => exact hs.putF
  case fmin | fmax => exact fpMinMax_canon hs
  case fsgnj | fsgnjn | fsgnjx => exact fpSign_canon hs
  case feq | flt | fle => exact fpCmp_canon hs
  case fclass | fcvtToInt | fmvX => exact hs.putX
  case fmadd | fmsub | fnmadd | fnmsub => exact fpFma_canon hs
  case csrr | csrw | csrs | csrc | csrsi | csrci => exact csrAccess_canon hs
  case fence | fenceVs => exact hs.raise.forget.advance
  case fenceSv => exact hs.raise.forgetWhere.advance
  case lda => exact execLda_canon hs
  case stl => exact execStl_canon hs
  case fenceI => exact hs.raise.dropCode.advance
  case ecall | illegalInstruction => exact hs.trap
  case ebreak => exact execEbreak_canon hs
  case sret => exact execSret_canon hs
  case wfi => exact execWfi_canon hs
  case tlbInv => exact execTlbInv_canon hs
  case strmCfg => exact execStrmCfg_canon hs
  case strmRel => exact execStrmRel_canon hs
  case strmRelWait => exact execStrmRelWait_canon hs
  case strmPop => exact execStrmPop_canon hs
  case strmPush => exact execStrmPush_canon hs
  case strmCopy => exact execStrmCopy_canon hs
  case strmResume => exact execStrmResume_canon hs
  case strmSave => exact execStrmSave_canon hs
  case strmRest => exact execStrmRest_canon hs
  case bankCfgCache | bankCfgSpad | bankCfgFifo => exact bankCfg_canon hs
  case feInitEmpty | feInitFull => exact feInit_canon hs
  case ldf | ldfClr => exact ldfOp_canon hs
  case stf | stfWait => exact stfOp_canon hs
  case ringCfg => exact execRingCfg_canon hs
  case ringAdvTail => exact execRingAdvTail_canon hs
  case ringAdvHead => exact execRingAdvHead_canon hs
  case ringStat => exact execRingStat_canon hs
  case ringStatWait => exact execRingStatWait_canon hs
  case cwait => exact execCwait_canon hs
  case cadd => exact hs.release.updMe.advance
  case tokSend => exact execTokSend_canon hs
  case tokWait => exact execTokWait_canon hs
  case barArrive => exact execBarArrive_canon hs
  case barWait => exact execBarWait_canon hs
  case klaunch => exact execKlaunch_canon hs
  case kyield => exact execKyield_canon hs
  case kdone => exact execKdone_canon hs
  case hloop => exact hs.updMe.advance
  case hend | hendC => exact hendAt_canon hs
  case hset => exact execHset_canon hs
  case capLandOff => exact execCapLandOff_canon hs
  case capLandSend | capLandLand => exact capLand_canon hs
  case capSend => exact execCapSend_canon hs
  case capRecv => exact execCapRecv_canon hs
  case capFwd | capFwdStay | capFwdEnd => exact capForward_canon hs
  case capIns => exact execCapIns_canon hs
  case capDel => exact execCapDel_canon hs
  case capSwap => exact execCapSwap_canon hs
  case capPark => exact execCapPark_canon hs
  case capParkFlt => exact execCapParkFlt_canon hs
  case capParkRel => exact execCapParkRel_canon hs
  case vsetvl => exact execVsetvl_canon hs
  case lpart => exact execLpart_canon hs
  case tshape => exact execTshape_canon hs
  case mmodeOn => exact execMmodeOn_canon hs
  case mmodeOff => exact execMmodeOff_canon hs
  case fmodeOn => exact execFmodeOn_canon hs
  case fmodeOff => exact execFmodeOff_canon hs
  case mpair => exact execMpair_canon hs
  case mpairOff => exact execMpairOff_canon hs
  case nop | prefetchRead | prefetchOwn | issuePauseHint | hint => exact hs.advance
  case convoy => exact execConvoy_canon hs
  case unitMov | unitAdd | unitSub | unitMul | unitMin | unitMax | unitAnd | unitOr | unitXor | unitShl |
      unitShr | unitSeq | unitSlt | unitSle | unitFadd | unitFsub | unitFmul | unitFmac | unitFmin | unitFmax |
      unitBamax | unitQcvt => exact unitStep_canon hs
  case vadd | vsub | vrsub | vmin | vmax | vmul | vmulh | vmacc | vsadd | vssub | vabsd | vdiv | vrem | vand |
      vor | vxor | vandn | vsll | vsrl | vsra | vmv | vnot | vmseq | vmsne | vmslt | vmsle | vmsgt | vmsge |
      vmand | vmor | vmxor | vmandn | vmnot | vmset | vmclr | vmtov | vvtom | vpop | vfirst | vbqAny | vbqNone |
      vfadd | vfsub | vfmul | vfdiv | vfsqrt | vfmin | vfmax | vfsgnj | vfsgnjn | vfsgnjx | vfclass | vfmadd |
      vfmsub | vfnmadd | vfnmsub | vcvt | vcvtMx | vcvtDemx | vslideup | vslidedown | vperm | vbcast | vsel |
      vid | vcompress | vexpand | vredsum | vredmin | vredmax | vredand | vredor | vredxor | vscansum | vscanmin |
      vscanmax | vext | vins | vxsend | vxrecv | vldStrm | vstStrm | vld | vlds | vldff | vldr | vldm | vst |
      vsts | vstr | vstm | vgather | vscatter | vsetlf | vxint | vxuni | vxmrg | accwinSum | accwinMin |
      accwinMax | vacc | accmerge | vamoswap | vamoadd | vamoand | vamoor | vamoxor | vamomin | vamomax | mma |
      mmaInt | mtern | msound | mcheck | mzero | mst | mxchg | fload | fgo | fgoResume | fdrain | fstat | frel |
      vwait => exact solo_canon hs
  case steerFire | carryFire | invariantFire | mergeFire => exact operatorStep_canon hs
  case fabricLoad | fabricStore => exact memEvent_canon hs
  case controlTokenArrival => exact execControlTokenArrival_canon hs
  case pageMove => exact execPageMove_canon hs
  case tokenDelivery => exact execTokenDelivery_canon hs
  case gangTermination => exact execGangTermination_canon hs
  case interruptEntry => exact execInterruptEntry_canon hs
  case timerExpiry => exact execTimerExpiry_canon hs
  case waitResume => exact execWaitResume_canon hs
  case barWaitRecheck => exact execBarWaitRecheck_canon hs
  case vwaitTimeout => exact execVwaitTimeout_canon hs
  case mpairTimeout => exact execMpairTimeout_canon hs
  case extentRegister => exact execExtentRegister_canon hs
  case stripFetch => exact execStripFetch_canon hs
  case stripArrival => exact execStripArrival_canon hs
  case writeStripAccept => exact hs.acceptNext
  case streamFault => exact execStreamFault_canon hs
  case faultRecordWrite => exact execFaultRecordWrite_canon hs
  case releaseComplete => exact execReleaseComplete_canon hs
  case copyComplete => exact execCopyComplete_canon hs
  case replayWake => exact execReplayWake_canon hs
  case hostSnoop => exact execHostSnoop_canon hs
  case peerMemRequest => exact execPeerMemRequest_canon hs
  case peerConflictCompletion => exact execPeerConflictCompletion_canon hs
  case rsvreq => exact hs.reserveFor
  case rsvack => exact execRsvack_canon hs
  case rsvnak | rsvreqTimeout => exact hs.peerRefused
  case rsvcut => exact hs.cutBy
  case rsvstate => exact hs.setStateAt
  case rsvrel => exact execRsvrel_canon hs
  case rsvdone => exact hs.answered
  case portDown => exact execPortDown_canon hs
  case circuitOpen => exact execCircuitOpen_canon hs
  case crossingGroupArrival => exact hs.updHart
  case capsuleArrival => exact execCapsuleArrival_canon hs
  case parkedCapsuleEnter => exact execParkedCapsuleEnter_canon hs
  case placeGang => exact execPlaceGang_canon hs
  case agingStep => exact execAgingStep_canon hs
  case preemption => exact execPreemption_canon hs
  case resumeGang => exact execResumeGang_canon hs
  case hostSubmission => exact execHostSubmission_canon hs
  case sqdb | cqdb => exact hs.doorbell
  case qcfgEnable => exact execQcfgEnable_canon hs
  case eqcfgEnable => exact execEqcfgEnable_canon hs
  case deviceEvent => exact execDeviceEvent_canon hs
  case eventAck => exact hs.setRoute
  case atsTranslationCompletion => exact execAtsTranslationCompletion_canon hs
  case priResponse => exact execPriResponse_canon hs
  case priTimeout => exact execPriTimeout_canon hs
  case atsInvalidate => exact execAtsInvalidate_canon hs
  case scrub => exact execScrub_canon hs
  case slcfgWrite | windowUnitReclaim => exact hs.updDie
  case haltreq => exact execHaltreq_canon hs
  case haltAck => exact execHaltAck_canon hs
  case resumereq => exact hs.resumeHalted
  case dbgcmdRead => exact execDbgcmdRead_canon hs
  case dbgcmdWrite => exact execDbgcmdWrite_canon hs
  case dbgcmdSaveImage => exact execDbgcmdSaveImage_canon hs
  case dbgcmdRestoreImage => exact execDbgcmdRestoreImage_canon hs
  case powerOn => exact execPowerOn_canon hs
  case mbBegin => exact execMbBegin_canon hs
  case mbChunk => exact execMbChunk_canon hs
  case mbVerify => exact execMbVerify_canon hs
  case mbBoot => exact execMbBoot_canon hs
  case mbAbort => exact execMbAbort_canon hs
  case mbLog => exact execMbLog_canon hs
  case keyload | keygen | keyclear => exact hs.keyCommand
  case attest => exact execAttest_canon hs
  case trainingComplete => exact execTrainingComplete_canon hs
  case handoverReady => exact execHandoverReady_canon hs
  case handoverTimeout => exact execHandoverTimeout_canon hs
  case wskick | watershedWatchdogExpiry => exact hs.updMgmt
  case watchdogNotice => exact execWatchdogNotice_canon hs
  case watchdogSave => exact execWatchdogSave_canon hs
  case tileQuarantine => exact execTileQuarantine_canon hs
  case islandReset => exact execIslandReset_canon hs
  case dieReset => exact execDieReset_canon hs
  case resetRequest => exact execResetRequest_canon hs
  case telemetrySample => exact execTelemetrySample_canon hs
  case loadObject => exact execLoadObject_canon hs
  case registerWrite => exact execRegisterWrite_canon hs
  case vwaitRecheck => exact execVwaitRecheck_canon hs
  case tileReturn => exact hs.updTile

/-! #### Acts without an instruction -/

theorem State.Canon.drainAll {s : State} (hs : s.Canon) : s.drainAll.Canon :=
  foldl_canon (fun _ _ ht => ht.drainVector) hs

theorem State.Canon.performAt {s : State} {k : Nat} (hs : s.Canon) : (s.performAt k).Canon := by
  unfold State.performAt
  split
  · exact hs
  · exact hs.drain

theorem State.Canon.raiseAt {s : State} {k reach : Nat} (hs : s.Canon) : (s.raiseAt k reach).Canon := hs

theorem State.Canon.readEarly {s : State} {h : HartId} {scalar : Bool} {va size : Nat} (hs : s.Canon) :
    (s.readEarly h scalar va size).Canon := by
  unfold State.readEarly
  split
  · exact ite_canon hs (ite_canon hs hs)
  · exact hs

theorem State.Canon.hostWrite {s : State} {off : Nat} {bs : List Byte} (hs : s.Canon) : (s.hostWrite off bs).Canon :=
  ite_canon hs.write.noteRelease hs

theorem State.Canon.peerWrite {s : State} {module addr : Nat} {bs : List Byte} (hs : s.Canon) :
    (s.peerWrite module addr bs).Canon :=
  hs.write.noteRelease

theorem State.Canon.holdAtPeer {s : State} {module addr : Nat} {held : Bool} (hs : s.Canon) :
    (s.holdAtPeer module addr held).Canon := hs

theorem State.Canon.tlbFill {s : State} {h : HartId} {va : Nat} (hs : s.Canon) : (s.tlbFill h va).Canon := by
  unfold State.tlbFill
  split
  · exact hs.updTile
  · exact hs

theorem State.Canon.frameFill {s : State} {h : HartId} {vas : List Nat} (hs : s.Canon) : (s.frameFill h vas).Canon :=
  foldl_canon (fun _ _ ht => ht.updLanding) hs

theorem State.Canon.hostLine {s : State} {line : Nat} {owned : Bool} (hs : s.Canon) :
    (match s.meetAll .external [line] 0 owned with
      | (s', .served) => s'.cacheAtHost line owned
      | (s', _) => s').Canon := by
  split
  · rename_i e
    exact (hs.meetAll.fst_of_eq e).cacheAtHost
  · rename_i e
    exact hs.meetAll.fst_of_eq e

/-! #### Turns -/

/-- The state that a turn starts an instruction or goes on with is canonical. -/
def TurnCanon : Turn → Prop
  | .run _ s => s.Canon
  | .done s => s.Canon

theorem TurnCanon.ite {c : Prop} [Decidable c] {a b : Turn} (ha : TurnCanon a) (hb : TurnCanon b) :
    TurnCanon (ite c a b) := by
  split
  · exact ha
  · exact hb

theorem State.Canon.hartTurn {s : State} (hs : s.Canon) : TurnCanon s.hartTurn := by
  unfold State.hartTurn
  refine .ite hs (.ite hs.drainVector.haltHart (.ite hs.drainVector (.ite hs.vecTurn ?_)))
  split
  · exact hs.vectorReady
  · exact hs.endFailed.trap.stepped
  · exact hs.askHost.waitIn

theorem State.Canon.act {s : State} {a : Act} (hs : s.Canon) : TurnCanon (s.act a) := by
  cases a with
  | hart h => exact State.Canon.hartTurn (s := { s with cur := h }) hs
  | event i => exact .ite hs.drainAll hs
  | unit h page slot =>
    unfold State.act
    dsimp only
    split
    · exact hs
    · exact hs
  | turnTo | sendMsg | spots => exact hs
  | perform => exact hs.performAt
  | raise => exact hs.raiseAt
  | early => exact hs.readEarly
  | delay | lag | cut => exact hs.updHart
  | land => exact hs.acceptNext
  | hostWrite => exact hs.hostWrite
  | peerWrite => exact hs.peerWrite
  | peerHold => exact hs.holdAtPeer
  | askAgain => exact hs.reserveFor
  | cutAgain => exact hs.cutBy
  | vector => exact hs.vecTurn
  | codeFill => exact hs.codeFill
  | codeEvict | tlbEvict => exact hs.updTile
  | frameFill => exact hs.frameFill
  | cacheLine => exact hs.cacheLine
  | sliceFill => exact hs.sliceFill
  | sliceEvict => exact hs.dropLine
  | hostLine => exact hs.hostLine
  | evictLine => exact hs.evictLine
  | snoopDone => exact hs.snoopDone
  | tlbFill => exact hs.tlbFill
  | tick => exact hs.tick
  | poison => exact hs.poisonSector
  | corrected => exact ite_canon hs.noteStep hs
  | island => exact hs.setIsland
  | power => exact hs.powerSample
  | wsWrite => exact hs.wsWrite
  | cfgWrite => exact hs.cfgWrite

theorem State.Canon.nextTurn {s : State} (hs : s.Canon) : TurnCanon s.nextTurn := by
  unfold State.nextTurn
  split
  · exact hs.hartTurn
  · rename_i a rest _
    exact State.Canon.act (s := { s with agenda := rest }) hs

theorem step_canon {s : State} (hs : s.Canon) : OutcomeCanon (step s) := by
  have ht := hs.nextTurn
  unfold step
  split
  · rename_i e
    rw [e] at ht
    exact ht
  · rename_i i u e
    rw [e] at ht
    have hx : OutcomeCanon (exec i u) := exec_canon ht
    split
    · rename_i e'
      rw [e'] at hx
      exact State.Canon.settle hx
    · exact hx

end Sys2Proof.Machine

section
open Sys2Proof Sys2Proof.Machine

/-- Settles O3: by cases on the turn and on the instruction it executes, each of which writes memory through the
canonical stores alone. -/
theorem stepKeepsMemoryCanonical : Obligations.StepKeepsMemoryCanonical := by
  unfold Obligations.StepKeepsMemoryCanonical
  intro s t hs e
  have hc : OutcomeCanon (step s) := step_canon hs
  rw [e] at hc
  exact hc

end

/-! ### Matrix forms as they issue (R26, R34, R287) -/

namespace Sys2Proof.Machine

/-! #### The word of a form -/

theorem fld_append_low {n m : Nat} (a : BitVec n) (b : BitVec m) {lo len : Nat} (h : lo + len ≤ m) :
    fld (a ++ b) lo len = fld b lo len := by
  unfold fld
  exact BitVec.extractLsb'_append_eq_of_add_le h

theorem fld_append_high {n m : Nat} (a : BitVec n) (b : BitVec m) {lo len : Nat} (h : m ≤ lo) :
    fld (a ++ b) lo len = fld a (lo - m) len := by
  unfold fld
  exact BitVec.extractLsb'_append_eq_of_le h

theorem fld_all {n : Nat} (a : BitVec n) : fld a 0 n = a := by
  unfold fld
  exact BitVec.extractLsb'_eq_self

/-- A vector word as the fields that it strings together, with its length as the sum of theirs. -/
theorem fld_encodeVector (o : VOp) (w : VFields) (lo len : Nat) : fld (encodeVector o w) lo len =
    fld (n := 6 + 6 + 5 + 5 + 5 + 5 + 3 + 3 + 5 + 3 + 18)
      (o.major ++ o.func ++ w.vd ++ w.va ++ w.vb ++ w.vc ++ w.mask ++ w.width ++ w.fmt ++ w.rm ++ w.sel) lo len := rfl

theorem vfieldsOf_encodeVector (o : VOp) (w : VFields) : vfieldsOf (encodeVector o w) = w := by
  obtain ⟨vd, va, vb, vc, mask, width, fmt, rm, sel⟩ := w
  unfold vfieldsOf
  simp [fld_encodeVector, -Nat.reduceAdd, fld_append_low, fld_append_high, fld_all]

theorem fld_encodeVector_major (o : VOp) (w : VFields) : fld (encodeVector o w) 58 6 = o.major := by
  simp [fld_encodeVector, -Nat.reduceAdd, fld_append_high, fld_all]

theorem fld_encodeVector_func (o : VOp) (w : VFields) : fld (encodeVector o w) 52 6 = o.func := by
  simp [fld_encodeVector, -Nat.reduceAdd, fld_append_low, fld_append_high, fld_all]

/-- The forms of matrix mode (R287). -/
def matrixOps : List VOp := [.mma, .mmaInt, .mtern, .msound, .mcheck, .mzero, .mst, .mxchg]

theorem ofCodes_matrix {o : VOp} (h : o ∈ matrixOps) (b : Bool) : VOp.ofCodes o.major o.func b = some o := by
  simp only [matrixOps, List.mem_cons, List.not_mem_nil, or_false] at h
  rcases h with rfl | rfl | rfl | rfl | rfl | rfl | rfl | rfl <;> rfl

theorem decodeVector_encodeVector {o : VOp} (h : o ∈ matrixOps) (w : VFields) :
    decodeVector (encodeVector o w) = some (o, w) := by
  unfold decodeVector
  rw [fld_encodeVector_major, fld_encodeVector_func, vfieldsOf_encodeVector, ofCodes_matrix h]

/-! #### The checks of a convoy of one matrix form (R42) -/

/-- What the header of a convoy of one matrix form says: one slot, of the matrix unit, with no chain bit (R35). -/
theorem soloHeader_matrix {o : VOp} (h : o ∈ matrixOps) : soloHeader o = 0xF8004000#32 := by
  simp only [matrixOps, List.mem_cons, List.not_mem_nil, or_false] at h
  rcases h with rfl | rfl | rfl | rfl | rfl | rfl | rfl | rfl <;> decide

theorem unitOfMajor_matrix {o : VOp} (h : o ∈ matrixOps) : unitOfMajor o.major.toNat = some 4 := by
  simp only [matrixOps, List.mem_cons, List.not_mem_nil, or_false] at h
  rcases h with rfl | rfl | rfl | rfl | rfl | rfl | rfl | rfl <;> rfl

theorem headerFault_matrix {pc : Word} (h : pc.getLsbD 2 = true) : headerFault pc 0xF8004000#32 = none := by
  unfold headerFault
  rw [h]
  decide

theorem matrixForm_matrix {o : VOp} (h : o ∈ matrixOps) (w : VFields) : matrixForm [⟨0, o, w⟩] = true := by
  simp only [matrixOps, List.mem_cons, List.not_mem_nil, or_false] at h
  rcases h with rfl | rfl | rfl | rfl | rfl | rfl | rfl | rfl <;> rfl

theorem oneGroup_matrix {o : VOp} (h : o ∈ matrixOps) (w : VFields) : oneGroup [⟨0, o, w⟩] = true := by
  have hm := matrixForm_matrix h w
  unfold matrixForm at hm
  exact (Bool.and_eq_true_iff.mp hm).1

theorem not_crossing_matrix {o : VOp} (h : o ∈ matrixOps) : (o == .vxsend || o == .vxrecv) = false := by
  simp only [matrixOps, List.mem_cons, List.not_mem_nil, or_false] at h
  rcases h with rfl | rfl | rfl | rfl | rfl | rfl | rfl | rfl <;> rfl

theorem slotFault_matrix {s : State} {o : VOp} {w : VFields} (ho : o ∈ matrixOps) (hi : Claim.Issues s o w) :
    slotFault s.me 4 (encodeVector o w) = .ok (o, w) := by
  unfold slotFault
  rw [fld_encodeVector_major]
  dsimp only
  rw [unitOfMajor_matrix ho, decodeVector_encodeVector ho]
  simp [hi.mode, hi.lanes.ne', hi.fabric, hi.fields, hi.window]

/-- The only slot of a convoy passes the checks of the slots. -/
theorem slotFaults_matrix {s : State} {o : VOp} {w : VFields} (ho : o ∈ matrixOps) (hi : Claim.Issues s o w)
    (gw : Nat) : slotFaults s.me 0xF8004000#32 false gw 0 [encodeVector o w] [] = .ok [⟨0, o, w⟩] := by
  have hu : unitOf 0xF8004000#32 0 = 4 := by decide
  have hc := not_crossing_matrix ho
  unfold slotFaults
  rw [hu, slotFault_matrix ho hi]
  simp [hc, slotFaults]

theorem convoyCheck_matrix {s : State} {o : VOp} {w : VFields} (ho : o ∈ matrixOps) (hi : Claim.Issues s o w) :
    convoyCheck s.me (soloHeader o) [encodeVector o w] = .ok [⟨0, o, w⟩] := by
  have hv : (fld s.me.csr.vstart 0 16).toNat = 0 := by
    rw [hi.start]
    rfl
  have hr : regRule ⟨0, o, w⟩ [] = true := by simp [regRule, hi.distinct]
  have hc : chainOf 0xF8004000#32 0 = false := by decide
  unfold convoyCheck
  rw [soloHeader_matrix ho, headerFault_matrix (pc := s.me.pc) hi.place]
  simp [slotFaults_matrix ho hi, withBefore, hr, hc, chainRule, matrixForm_matrix ho w, hv]

theorem drainVector_empty {s : State} {h : HartId} (hv : (s.hart h).vq = []) : s.drainVector h = s := by
  unfold State.drainVector
  rw [hv]
  rfl

/-- A matrix form that issues runs as the only slot of a convoy of one group (R42, R197, R287). -/
theorem solo_matrix {s : State} {o : VOp} {w : VFields} (ho : o ∈ matrixOps) (hi : Claim.Issues s o w) :
    solo o w s = .next (s.runOneGroup [⟨0, o, w⟩]) := by
  obtain ⟨hvq, hlag⟩ := hi.queue
  have hq : s.me.mayQueue [⟨0, o, w⟩] = false := by simp [Hart.mayQueue, hlag]
  unfold solo State.runConvoy
  rw [convoyCheck_matrix ho hi]
  simp [hq, drainVector_empty (h := s.cur) hvq, State.runChecked, oneGroup_matrix ho w]

/-! #### How a form of one group ends (R48, R287) -/

/-- What one group runs under. -/
def State.oneCtx (s : State) : Ctx := ⟨0, s.me.lanes, 1, 3, 1⟩

theorem runOneGroup_done {s u : State} {o : VOp} {w : VFields} {G : Grp}
    (h : oneForm s.oneCtx ⟨0, o, w⟩ s.openGroup s = .ok ((), G) u) :
    s.runOneGroup [⟨0, o, w⟩] = (u.commitGroup G).retireConvoy 1 G := by
  unfold State.runOneGroup
  simp only [runSlots]
  rw [show ({ (⟨0, s.me.lanes, 1, 3, 1⟩ : Ctx) with slot := 0 }) = s.oneCtx from rfl, h]
  rfl

theorem runOneGroup_wait {s u : State} {o : VOp} {w : VFields} {x : Wait}
    (h : oneForm s.oneCtx ⟨0, o, w⟩ s.openGroup s = .error (.wait x) u) (hx : ∀ va e trim, x ≠ .peer va e trim) :
    s.runOneGroup [⟨0, o, w⟩] = u.waitIn x := by
  unfold State.runOneGroup
  simp only [runSlots]
  rw [show ({ (⟨0, s.me.lanes, 1, 3, 1⟩ : Ctx) with slot := 0 }) = s.oneCtx from rfl, h]
  cases x with
  | peer va e trim => exact absurd rfl (hx va e trim)
  | _ => rfl

theorem runOneGroup_trap {s u : State} {o : VOp} {w : VFields} {c : Cause} {v : Word}
    (h : oneForm s.oneCtx ⟨0, o, w⟩ s.openGroup s = .error (.trap c v) u) :
    s.runOneGroup [⟨0, o, w⟩] = u.stopConvoy 0 0 (.trap c v) := by
  unfold State.runOneGroup
  simp only [runSlots]
  rw [show ({ (⟨0, s.me.lanes, 1, 3, 1⟩ : Ctx) with slot := 0 }) = s.oneCtx from rfl, h]

end Sys2Proof.Machine

/-! ### Stores marked as observed (R340)

A vector load marks the stores of its side that it returns. Nothing that an access meets depends on those marks: every
operation on the way to a served access does the same with them and leaves them. -/

namespace Sys2Proof.Machine

/-- A store marked as observed where a test takes it. -/
def Delayed.mark (o : Delayed → Bool) (d : Delayed) : Delayed := if o d then { d with observed := true } else d

/-- The outstanding stores that a test takes are marked as observed. -/
def State.marks (o : Delayed → Bool) (s : State) : State := { s with delayed := s.delayed.map (Delayed.mark o) }

variable {o : Delayed → Bool}

/-! #### What the marks leave -/

@[simp] theorem marks_cur (s : State) : (s.marks o).cur = s.cur := rfl
@[simp] theorem marks_poison (s : State) : (s.marks o).poison = s.poison := rfl
@[simp] theorem marks_tierGiB (s : State) : (s.marks o).tierGiB = s.tierGiB := rfl
@[simp] theorem marks_hostBytes (s : State) : (s.marks o).hostBytes = s.hostBytes := rfl
@[simp] theorem marks_hostIf (s : State) : (s.marks o).hostIf = s.hostIf := rfl
@[simp] theorem marks_tiles (s : State) : (s.marks o).tiles = s.tiles := rfl
@[simp] theorem marks_dies (s : State) : (s.marks o).dies = s.dies := rfl
@[simp] theorem marks_gangs (s : State) : (s.marks o).gangs = s.gangs := rfl
@[simp] theorem marks_peerHeld (s : State) : (s.marks o).peerHeld = s.peerHeld := rfl
@[simp] theorem marks_mgmt (s : State) : (s.marks o).mgmt = s.mgmt := rfl
@[simp] theorem marks_hart (s : State) (h : HartId) : (s.marks o).hart h = s.hart h := rfl
@[simp] theorem marks_tile (s : State) (t : Fin 224) : (s.marks o).tile t = s.tile t := rfl
@[simp] theorem marks_landing (s : State) (d : Fin 8) : (s.marks o).landing d = s.landing d := rfl
@[simp] theorem marks_peerOf (s : State) (pa : Nat) : (s.marks o).peerOf pa = s.peerOf pa := rfl
@[simp] theorem marks_keyInvalid (s : State) (k : Nat) : (s.marks o).keyInvalid k = s.keyInvalid k := rfl
@[simp] theorem marks_tilesUp (s : State) : (s.marks o).tilesUp = s.tilesUp := rfl
@[simp] theorem marks_roleAt (s : State) (pa : Nat) : (s.marks o).roleAt pa = s.roleAt pa :=
  roleAt_of_tiles (marks_tiles s) pa
@[simp] theorem marks_streamAt (s : State) (p : StreamAt) : (s.marks o).streamAt p = s.streamAt p := rfl
@[simp] theorem marks_hostHart (s : State) (p : StreamAt) : (s.marks o).hostHart p = s.hostHart p := rfl
@[simp] theorem marks_poisoned (s : State) (pa n : Nat) : (s.marks o).poisoned pa n = s.poisoned pa n := by
  simp only [State.poisoned, marks_poison]

@[simp] theorem marks_hostPlace (s : State) (asid : BitVec 16) (off : Nat) :
    (s.marks o).hostPlace asid off = s.hostPlace asid off := by
  unfold State.hostPlace
  rw [marks_hostIf]

@[simp] theorem marks_place (s : State) (asid : BitVec 16) (pa : Nat) : (s.marks o).place asid pa = s.place asid pa := by
  unfold State.place
  rw [marks_mgmt, marks_tierGiB, marks_tilesUp, marks_roleAt, marks_peerOf, marks_hostBytes, marks_hostPlace]

/-! #### Reading and writing memory -/

@[simp] theorem seenBy_mark (d : Delayed) (v : Viewer) : (d.mark o).seenBy v = d.seenBy v := by
  unfold Delayed.mark
  split
  · cases v <;> rfl
  · rfl

@[simp] theorem meets_mark (d : Delayed) (c n : Nat) : (d.mark o).meets c n = d.meets c n := by
  unfold Delayed.mark
  split <;> rfl

theorem performStore_mark (s : State) (d : Delayed) : s.performStore (d.mark o) = s.performStore d := by
  unfold Delayed.mark
  split <;> rfl

@[simp] theorem byteUnder_marks (s : State) (c k : Nat) : (s.marks o).byteUnder c k = s.byteUnder c k := rfl

@[simp] theorem bytesUnder_marks (s : State) (c k n : Nat) : (s.marks o).bytesUnder c k n = s.bytesUnder c k n := by
  induction n generalizing c with
  | zero => rfl
  | succ n ih => simp only [State.bytesUnder, ih, byteUnder_marks]

theorem rekey_marks (s : State) (q k : Nat) : (s.marks o).rekey q k = (s.rekey q k).marks o := by
  unfold State.rekey
  rw [show (s.marks o).sectorKey = s.sectorKey from rfl, bytesUnder_marks]
  split
  · rw [show (s.marks o).key k = s.key k from rfl]
    split
    · rfl
    · simp only [State.marks]
  · rfl

theorem putByte_marks (s : State) (c k : Nat) (b : Byte) : (s.marks o).putByte c k b = (s.putByte c k b).marks o := by
  unfold State.putByte
  rw [rekey_marks]
  split <;> rfl

theorem putBytes_marks (s : State) (c k : Nat) (bs : List Byte) :
    (s.marks o).putBytes c k bs = (s.putBytes c k bs).marks o := by
  induction bs generalizing s c with
  | nil => rfl
  | cons b t ih => simp only [State.putBytes, putByte_marks, ih]

theorem putSome_marks (s : State) (c k : Nat) (bs : List (Option Byte)) :
    (s.marks o).putSome c k bs = (s.putSome c k bs).marks o := by
  induction bs generalizing s c with
  | nil => rfl
  | cons b t ih =>
    cases b with
    | none => simp only [State.putSome, ih]
    | some b => simp only [State.putSome, putByte_marks, ih]

theorem noteWrite_marks (s : State) (c n : Nat) : (s.marks o).noteWrite c n = (s.noteWrite c n).marks o := by
  unfold State.noteWrite
  rw [show (s.marks o).rels = s.rels from rfl]
  split <;> rfl

/-- A fold of operations that each leave the marks alone leaves them alone. -/
theorem foldl_marks {α : Type} {f : State → α → State} (hf : ∀ s a, f (s.marks o) a = (f s a).marks o) (s : State)
    (l : List α) : l.foldl f (s.marks o) = (l.foldl f s).marks o := by
  induction l generalizing s with
  | nil => rfl
  | cons a l ih => rw [List.foldl_cons, List.foldl_cons, hf, ih]

theorem performStore_marks (s : State) (d : Delayed) : (s.marks o).performStore d = (s.performStore d).marks o := by
  unfold State.performStore
  rw [foldl_marks (fun s r => noteWrite_marks s r.1 r.2), putSome_marks]
  split
  · exact foldl_marks (fun _ _ => rfl) _ _
  · rfl

theorem performStores_marks (s : State) (ds : List Delayed) :
    (ds.map (Delayed.mark o)).foldl State.performStore (s.marks o) = (ds.foldl State.performStore s).marks o := by
  induction ds generalizing s with
  | nil => rfl
  | cons d t ih => rw [List.map_cons, List.foldl_cons, List.foldl_cons, performStore_mark, performStore_marks, ih]

theorem seen_marks (s : State) (v : Viewer) (c n : Nat) : (s.marks o).seen v c n = (s.seen v c n).marks o := by
  unfold State.seen
  rw [show (s.marks o).delayed = s.delayed.map (Delayed.mark o) from rfl, List.filter_map,
    show ((fun d => d.seenBy v && d.meets c n) ∘ Delayed.mark o) = fun d => d.seenBy v && d.meets c n by
      funext d; simp]
  exact performStores_marks _ _

@[simp] theorem read_marks (s : State) (v : Viewer) (c k n : Nat) : (s.marks o).read v c k n = s.read v c k n := by
  unfold State.read
  rw [seen_marks, bytesUnder_marks]

theorem markDue_mark {p : Delayed → Bool} (hp : ∀ d, p (d.mark o) = p d) (ds : List Delayed) :
    markDue p (ds.map (Delayed.mark o)) = (markDue p ds).map (fun e => (e.1.mark o, e.2)) := by
  have hpa (d : Delayed) : (d.mark o).pa = d.pa ∧ (d.mark o).bytes = d.bytes := by
    unfold Delayed.mark
    split <;> exact ⟨rfl, rfl⟩
  induction ds with
  | nil => rfl
  | cons d t ih =>
    simp only [List.map_cons, markDue, ih, hp, (hpa d).1, (hpa d).2, List.any_map, Function.comp_def, meets_mark]

theorem drain_marks (s : State) {p : Delayed → Bool} (hp : ∀ d, p (d.mark o) = p d) :
    (s.marks o).drain p = (s.drain p).marks o := by
  unfold State.drain
  rw [show (s.marks o).delayed = s.delayed.map (Delayed.mark o) from rfl]
  cases hd : s.delayed with
  | nil => rfl
  | cons d t =>
    rw [List.map_cons]
    dsimp only
    rw [← List.map_cons, markDue_mark hp, List.filter_map, List.filter_map, List.map_map, List.map_map]
    rw [show ((fun e : Delayed × Bool => e.1) ∘ fun e : Delayed × Bool => (e.1.mark o, e.2)) =
      Delayed.mark o ∘ fun e => e.1 from rfl, ← List.map_map, ← List.map_map]
    rw [show ((fun e : Delayed × Bool => e.2) ∘ fun e : Delayed × Bool => (e.1.mark o, e.2)) = fun e => e.2 from rfl,
      show ((fun e : Delayed × Bool => !e.2) ∘ fun e : Delayed × Bool => (e.1.mark o, e.2)) = fun e => !e.2 from rfl,
      performStores_marks]
    rfl

theorem write_marks (s : State) (v : Viewer) (c k : Nat) (bs : List Byte) :
    (s.marks o).write v c k bs = (s.write v c k bs).marks o := by
  unfold State.write
  rw [drain_marks _ (by simp), noteWrite_marks, putBytes_marks]

theorem writeSome_marks (s : State) (v : Viewer) (c k : Nat) (bs : List (Option Byte)) :
    (s.marks o).writeSome v c k bs = (s.writeSome v c k bs).marks o := by
  unfold State.writeSome
  rw [drain_marks _ (by simp), noteWrite_marks, putSome_marks]

/-! #### Translation -/

@[simp] theorem tableRead_marks (s : State) (asid : BitVec 16) (a key : Nat) :
    (s.marks o).tableRead asid a key = s.tableRead asid a key := by
  simp only [State.tableRead, read_marks, marks_keyInvalid, marks_place, marks_poisoned]

@[simp] theorem groupOk_marks (s : State) (asid : BitVec 16) (a key : Nat) (first : Word) (j : Nat) :
    (s.marks o).groupOk asid a key first j = s.groupOk asid a key first j := by
  induction j with
  | zero => rfl
  | succ j ih => simp only [State.groupOk, ih, tableRead_marks]

@[simp] theorem walkFrom_marks (s : State) (asid : BitVec 16) (va lvl a key : Nat) :
    (s.marks o).walkFrom asid va lvl a key = s.walkFrom asid va lvl a key := by
  induction lvl generalizing a key with
  | zero => unfold State.walkFrom; simp only [tableRead_marks, groupOk_marks]
  | succ n ih => unfold State.walkFrom; simp only [tableRead_marks, groupOk_marks, ih]

@[simp] theorem walk_marks (s : State) (ptbase : Word) (asid : BitVec 16) (va : Nat) :
    (s.marks o).walk ptbase asid va = s.walk ptbase asid va := by
  simp only [State.walk, walkFrom_marks]

@[simp] theorem translate_marks (s : State) (h : HartId) (sup : Bool) (kind : Kind) (va : Nat) :
    (s.marks o).translate h sup kind va = s.translate h sup kind va := by
  unfold State.translate State.tlbHit
  simp only [walk_marks, marks_hart, marks_tile]

@[simp] theorem reach_marks (s : State) (h : HartId) (sup : Bool) (kind : Kind) (va : Nat) :
    (s.marks o).reach h sup kind va = s.reach h sup kind va := by
  simp only [State.reach, translate_marks, marks_keyInvalid, marks_place, marks_hart]

/-! #### Elements of streams -/

@[simp] theorem elemVa_marks (s : State) (h : HartId) (t : Stream) (j : Nat) :
    (s.marks o).elemVa h t j = s.elemVa h t j := by
  simp only [State.elemVa, reach_marks, read_marks, marks_poisoned]

@[simp] theorem inExtent_marks (s : State) (h : HartId) (t : Stream) (e : Extent) (j : Nat) :
    (s.marks o).inExtent h t e j = s.inExtent h t e j := by
  simp only [State.inExtent, elemVa_marks]

@[simp] theorem lostElem_marks (s : State) (h : HartId) (t : Stream) (j : Nat) :
    (s.marks o).lostElem h t j = s.lostElem h t j := by
  simp only [State.lostElem, inExtent_marks]

@[simp] theorem wordGoesOn_marks (s : State) (h : HartId) (t : Stream) (j word : Nat) :
    (s.marks o).wordGoesOn h t j word = s.wordGoesOn h t j word := by
  simp only [State.wordGoesOn, elemVa_marks]

@[simp] theorem inHeld_marks (s : State) (h : HartId) (t : Stream) (j : Nat) :
    (s.marks o).inHeld h t j = s.inHeld h t j := by
  unfold State.inHeld State.entryHolds
  simp only [inExtent_marks, marks_landing]

@[simp] theorem heldCells_marks (s : State) (h : HartId) (t : Stream) (lo hi : Nat) :
    (s.marks o).heldCells h t lo hi = s.heldCells h t lo hi := by
  simp only [State.heldCells, inHeld_marks, elemVa_marks, reach_marks]

@[simp] theorem windowAt_marks (s : State) (h : HartId) (t : Stream) (hit : Leaf → Bool) :
    (s.marks o).windowAt h t hit = s.windowAt h t hit := by
  simp only [State.windowAt, elemVa_marks, translate_marks]

@[simp] theorem reachSaved_marks (s : State) (p : StreamAt) (t : Stream) (kind : Kind) (va : Nat) :
    (s.marks o).reachSaved p t kind va = s.reachSaved p t kind va := by
  unfold State.reachSaved State.imageRead State.imageBase State.imageKey
  simp only [reach_marks, walk_marks, bytesUnder_marks, marks_gangs, marks_keyInvalid, marks_place, marks_dies]

@[simp] theorem savedVa_marks (s : State) (p : StreamAt) (t : Stream) (j : Nat) :
    (s.marks o).savedVa p t j = s.savedVa p t j := by
  simp only [State.savedVa, reachSaved_marks, read_marks, marks_poisoned]

@[simp] theorem savedCell_marks (s : State) (p : StreamAt) (t : Stream) (j : Nat) :
    (s.marks o).savedCell p t j = s.savedCell p t j := by
  simp only [State.savedCell, savedVa_marks, reachSaved_marks]

theorem stopped_marks (s : State) (h : HartId) (t : Stream) (f va : Nat) (c : Cause) :
    (s.marks o).stopped h t f va c = s.stopped h t f va c := by
  simp only [State.stopped, inExtent_marks]

theorem notePast_marks (s : State) (h : HartId) (num serial cell n : Nat) :
    (s.marks o).notePast h num serial cell n = (s.notePast h num serial cell n).marks o := by
  unfold State.notePast
  rw [show (s.marks o).early = s.early from rfl]
  split <;> rfl

theorem fillWord_marks (t : Stream) (s : State) (d : Delayed) :
    State.fillWord t (s.marks o) d = (State.fillWord t s d).marks o := by
  unfold State.fillWord
  rw [notePast_marks, writeSome_marks]
  rfl

/-- A state and what goes with it, with the marks in the state. -/
def withMarks {α : Type} (o : Delayed → Bool) (p : State × α) : State × α := (p.1.marks o, p.2)

theorem writeElem_marks (s : State) (h : HartId) (t : Stream) (j v : Nat) :
    (s.marks o).writeElem h t j v = (s.writeElem h t j v).map (withMarks o) := by
  unfold State.writeElem
  simp only [elemVa_marks, lostElem_marks, reach_marks, wordGoesOn_marks]
  split
  · rfl
  · split
    · rfl
    · split
      · split
        · split
          · rfl
          · rw [foldl_marks (fillWord_marks t)]
            rfl
        · rw [notePast_marks, write_marks]
          rfl
      · rfl
      · rfl

theorem writeElems_marks (s : State) (h : HartId) (t : Stream) (j : Nat) (vs : List Nat) :
    (s.marks o).writeElems h t j vs = withMarks o (s.writeElems h t j vs) := by
  induction vs generalizing s t j with
  | nil => rfl
  | cons v vs ih =>
    unfold State.writeElems
    rw [writeElem_marks]
    cases s.writeElem h t j v with
    | error e => rfl
    | ok p =>
      dsimp only [Except.map, withMarks]
      rw [ih]
      rfl

theorem cleanStrips_marks (s : State) (h : HartId) (t : Stream) (j n : Nat) :
    (s.marks o).cleanStrips h t j n = withMarks o (s.cleanStrips h t j n) := by
  unfold State.cleanStrips
  simp only [heldCells_marks]
  split <;> rfl

theorem drainStream_marks (s : State) (h : HartId) (t : Stream) (k : Nat) :
    (s.marks o).drainStream h t k = withMarks o (s.drainStream h t k) := by
  unfold State.drainStream
  split
  · simp only [writeElems_marks, cleanStrips_marks, withMarks]
  · rfl

theorem tellPeers_marks (s : State) (es : List Extent) (k : MsgKind) :
    (s.marks o).tellPeers es k = (s.tellPeers es k).marks o := by
  unfold State.tellPeers
  refine foldl_marks (fun s e => ?_) s es
  rw [show (s.marks o).peerOf e.page = s.peerOf e.page from rfl]
  split <;> rfl

theorem relPeers_marks (s : State) (es : List Extent) : (s.marks o).relPeers es = (s.relPeers es).marks o := by
  unfold State.relPeers
  rw [foldl_marks (fun s e => ?_) s es, tellPeers_marks]
  rw [marks_peerOf]
  split <;> rfl

theorem leavePeers_marks (s : State) (t : Stream) : (s.marks o).leavePeers t = withMarks o (s.leavePeers t) := by
  unfold State.leavePeers
  rw [relPeers_marks]
  rfl

theorem giveUp_marks (s : State) (t : Stream) (es : List Extent) :
    (s.marks o).giveUp t es = withMarks o (s.giveUp t es) := by
  unfold State.giveUp
  rw [show (s.marks o).freeAt (es.flatMap fun e => e.dies) = (s.freeAt (es.flatMap fun e => e.dies)).marks o from rfl,
    relPeers_marks]
  rfl

theorem passed_marks (s : State) (t : Stream) (front : Nat) :
    (s.marks o).passed t front = withMarks o (s.passed t front) := by
  unfold State.passed
  simp only [giveUp_marks, withMarks]
  congr 1
  refine foldl_marks (fun s e => foldl_marks (f := fun s q => _) (fun s q => ?_) s e.dies) _ _
  split <;> rfl

theorem setEntries_marks (s : State) (t : Stream) (st : Nat) : (s.marks o).setEntries t st = (s.setEntries t st).marks o :=
  tellPeers_marks (s.setStateAt t.entryRefs st) t.extents (.state st)

theorem stopAtFault_marks (s : State) (h : HartId) (n : Nat) (t : Stream) (f va : Nat) (c : Cause) :
    (s.marks o).stopAtFault h n t f va c = withMarks o (s.stopAtFault h n t f va c) := by
  unfold State.stopAtFault
  rw [setEntries_marks, stopped_marks]
  rfl

theorem stopSaved_marks (s : State) (p : StreamAt) (t : Stream) (f va : Nat) (c : Cause) :
    (s.marks o).stopSaved p t f va c = withMarks o (s.stopSaved p t f va c) := by
  unfold State.stopSaved
  dsimp only
  rw [marks_hostHart, stopped_marks, setEntries_marks]
  cases p <;> rfl

theorem homeSaved_marks (s : State) (p : StreamAt) (t : Stream) (k : Nat) :
    (s.marks o).homeSaved p t k = withMarks o (s.homeSaved p t k) := by
  induction k generalizing s t with
  | zero => rfl
  | succ k ih =>
    unfold State.homeSaved
    simp only [savedCell_marks, stopSaved_marks, write_marks, ih]
    split
    · rfl
    · split
      · rfl
      · split
        · rfl
        · rfl
        · split <;> rfl

/-! #### Splits and flushed windows -/

theorem splitStream_marks (s : State) (hold : Bool) (h : HartId) (n : Nat) (t : Stream) :
    (s.marks o).splitStream hold h n t = withMarks o (s.splitStream hold h n t) := by
  unfold State.splitStream
  simp only [drainStream_marks, withMarks]
  obtain ⟨u, t, e⟩ := s.drainStream h t t.made.length
  dsimp only
  cases e with
  | none => simp only [leavePeers_marks, withMarks]
  | some x =>
    obtain ⟨f, e⟩ := x
    cases e with
    | fault c va => simp only [leavePeers_marks, stopAtFault_marks, withMarks]
    | ask p =>
      have ha : (u.marks o).askFor ((u.marks o).hart h).space p = (u.askFor (u.hart h).space p).marks o := rfl
      simp only [ha, leavePeers_marks, withMarks]
      split <;> rfl

theorem splitAt_marks (s : State) (hold : Bool) (p : StreamAt) (n : Nat) (t : Stream) :
    (s.marks o).splitAt hold p n t = withMarks o (s.splitAt hold p n t) := by
  unfold State.splitAt
  simp only [homeSaved_marks, leavePeers_marks, splitStream_marks, withMarks, marks_hostHart]
  split <;> rfl

theorem putAt_marks (s : State) (p : StreamAt) (t : Stream) : (s.marks o).putAt p t = (s.putAt p t).marks o := by
  cases p <;> rfl

theorem onHolder_marks (s : State) (d k : Nat) (r : Rsv) {f : State → StreamAt → Stream → State × Stream × Bool}
    (hf : ∀ s p t, f (s.marks o) p t = withMarks o (f s p t)) :
    (s.marks o).onHolder d k r f = withMarks o (s.onHolder d k r f) := by
  have hh (h : HartId) : (s.marks o).holder h d k = s.holder h d k := rfl
  unfold State.onHolder
  simp only [hh, hf]
  split
  · simp only [withMarks, putAt_marks]
  · rfl

theorem streamRefs_marks (s : State) (r : Rsv) (d k : Nat) : (s.marks o).streamRefs r d k = s.streamRefs r d k := by
  have hh (h : HartId) : (s.marks o).holder h d k = s.holder h d k := rfl
  simp only [State.streamRefs, hh, marks_landing]

theorem splitEntry_marks (s : State) (hold : Bool) (d k : Nat) (r : Rsv) :
    (s.marks o).splitEntry hold d k r = withMarks o (s.splitEntry hold d k r) := by
  unfold State.splitEntry
  have hh := onHolder_marks (o := o) s d k r (f := fun s p t => s.splitAt hold p r.stream t)
    (fun s p t => splitAt_marks s hold p r.stream t)
  simp only [streamRefs_marks, hh]
  generalize s.onHolder d k r (fun s p t => s.splitAt hold p r.stream t) = a
  split
  · rfl
  · obtain ⟨u, done⟩ := a
    cases done <;> rfl

theorem earlyEntry_marks (s : State) (d k : Nat) (r : Rsv) :
    (s.marks o).earlyEntry d k r = withMarks o (s.earlyEntry d k r) := by
  unfold State.earlyEntry
  split
  · rfl
  · refine onHolder_marks s d k r (fun s p t => ?_)
    simp only [homeSaved_marks, drainStream_marks, marks_hostHart]
    generalize s.drainStream (s.hostHart p) t t.made.length = a
    obtain ⟨u, t', e⟩ := a
    dsimp only [withMarks]
    split
    · rfl
    · split
      · rfl
      · rfl

theorem emptyWindow_marks (s : State) (h : HartId) (t : Stream) :
    (s.marks o).emptyWindow h t = withMarks o (s.emptyWindow h t) := by
  unfold State.emptyWindow
  simp only [drainStream_marks, passed_marks, withMarks]
  split <;> rfl

theorem flushWindows_marks (s : State) (hit : Leaf → Bool) :
    (s.marks o).flushWindows hit = (s.flushWindows hit).marks o := by
  have hn : (s.marks o).noWindows = s.noWindows := rfl
  unfold State.flushWindows
  rw [hn]
  split
  · rfl
  · refine foldl_marks (fun s e => ?_) s _
    dsimp only
    rw [marks_streamAt, marks_hostHart]
    split
    · rw [windowAt_marks, emptyWindow_marks]
      split
      · exact putAt_marks _ _ _
      · rfl
    · rfl

/-! #### Meeting entries -/

theorem onClash_marks {who : Requester} {write : Bool} {f : State → Nat → Nat → Rsv → State × Bool}
    (hf : ∀ s d k r, f (s.marks o) d k r = withMarks o (f s d k r)) (a : State × Bool) (c : Nat × Fin 8 × Nat × Rsv) :
    State.onClash who write f (withMarks o a) c = withMarks o (State.onClash who write f a c) := by
  have hc : (a.1.marks o).conflicts who c.1 write = a.1.conflicts who c.1 write := rfl
  unfold State.onClash
  simp only [withMarks, hc, hf]
  split <;> rfl

theorem foldl_withMarks {α β : Type} {f : State × β → α → State × β}
    (hf : ∀ p a, f (withMarks o p) a = withMarks o (f p a)) (p : State × β) (l : List α) :
    l.foldl f (withMarks o p) = withMarks o (l.foldl f p) := by
  induction l generalizing p with
  | nil => rfl
  | cons a l ih => rw [List.foldl_cons, List.foldl_cons, hf, ih]

theorem clashes_marks (s : State) (who : Requester) (lines : List Nat) (write : Bool) :
    (s.marks o).clashes who lines write = s.clashes who lines write := rfl

theorem meetAll_marks (s : State) (who : Requester) (lines : List Nat) (key : Nat) (write : Bool) :
    (s.marks o).meetAll who lines key write = withMarks o (s.meetAll who lines key write) := by
  unfold State.meetAll
  rw [clashes_marks, show (s.marks o, true) = withMarks o (s, true) from rfl]
  dsimp only
  rw [foldl_withMarks (onClash_marks fun s d k r => splitEntry_marks s _ d k r),
    foldl_withMarks (onClash_marks earlyEntry_marks)]
  generalize List.foldl (State.onClash who write State.earlyEntry) _ _ = a
  split
  · rfl
  · simp only [withMarks, clashes_marks, flushWindows_marks]
    split
    · rfl
    · split <;> rfl

theorem unparkAt_marks (s : State) (who : Parker) (lines : List Nat) :
    (s.marks o).unparkAt who lines = (s.unparkAt who lines).marks o := by
  have hp : (s.marks o).isParked who = s.isParked who := rfl
  unfold State.unparkAt
  rw [hp]
  split <;> rfl

/-- A request that is served is served with the marks too, and leaves them. -/
theorem meetInTurn_marks {s u : State} {p : Parker} {who : Requester} {lines : List Nat} {key : Nat} {write : Bool}
    (h : s.meetInTurn p who lines key write = (u, .served)) :
    (s.marks o).meetInTurn p who lines key write = (u.marks o, .served) := by
  have hw : (s.marks o).waitsBehind p = s.waitsBehind p := rfl
  unfold State.meetInTurn at h ⊢
  rw [hw, meetAll_marks]
  generalize s.meetAll who lines key write = a at h ⊢
  obtain ⟨v, c⟩ := a
  split at h
  · cases h
  · rename_i hl
    rw [if_neg hl]
    cases c with
    | served =>
      cases h
      simp only [withMarks, unparkAt_marks]
    | _ => cases h

theorem peerWaits_marks (s : State) (pa : Nat) : (s.marks o).peerWaits pa = s.peerWaits pa := by
  simp only [State.peerWaits, marks_peerOf, marks_peerHeld]

theorem LineFree.marks {s : State} {l : Leaf} {write : Bool} (h : Claim.LineFree s l write) :
    Claim.LineFree (s.marks o) l write :=
  ⟨(peerWaits_marks s l.pa).trans h.there, meetInTurn_marks h.served, h.unheld⟩

theorem Reaches.marks {s : State} {kind : Kind} {size : Nat} {addr : Nat → Word} {on : Nat → Prop} {L : Nat → Leaf}
    {C : Nat → Nat} (h : Claim.Reaches s kind size addr on L C) : Claim.Reaches (s.marks o) kind size addr on L C :=
  ⟨h.aligned, fun k hk => (reach_marks s s.cur s.me.sup kind (addr k).toNat).trans (h.reached k hk),
    fun k hk => LineFree.marks (h.served k hk)⟩

theorem Entry.marks {s : State} {q need : Nat} {bs : List Byte} (h : Claim.Entry s q need bs) :
    Claim.Entry (s.marks o) q need bs := by
  obtain ⟨hon, hneed, hocc, hM, hN, hK, L, C, hr, hp, hb⟩ := h
  refine ⟨hon, hneed, hocc, hM, hN, hK, L, C, Reaches.marks hr, fun k hk => ?_, ?_⟩
  · rw [marks_poisoned]
    exact hp k hk
  · simp only [Claim.vseen, read_marks, marks_cur]
    exact hb

end Sys2Proof.Machine

/-! ### Operations of a group, and what a group reads (R46, R263, R291) -/

namespace Sys2Proof.Machine

/-! #### Operations of a group -/

theorem gop_bind_ok {α β : Type} {x : GOp α} {f : α → GOp β} {G G' : Grp} {s t : State} {a : α}
    (h : x G s = .ok (a, G') t) : (x >>= f) G s = f a G' t := by
  simp only [bind, StateT.bind, EStateM.bind, h]

theorem gop_bind_error {α β : Type} {x : GOp α} {f : α → GOp β} {G : Grp} {s t : State} {e : Stop}
    (h : x G s = .error e t) : (x >>= f) G s = .error e t := by
  simp only [bind, StateT.bind, EStateM.bind, h]

theorem gHart_ok (G : Grp) (s : State) : gHart G s = .ok (G.h, G) s := rfl

theorem gState_ok (G : Grp) (s : State) : gState G s = .ok (s, G) s := rfl

theorem gGet_ok (G : Grp) (s : State) : (get : GOp Grp) G s = .ok (G, G) s := rfl

theorem gSet_ok (G' G : Grp) (s : State) : (set G' : GOp PUnit) G s = .ok (⟨⟩, G') s := rfl

theorem gMod_ok (f : Hart → Hart) (G : Grp) (s : State) : gMod f G s = .ok ((), { G with h := f G.h }) s := rfl

theorem gCheck_ok {b : Bool} (h : b = true) (c : Cause) (v : Word) (G : Grp) (s : State) :
    gCheck b c v G s = .ok ((), G) s := by
  rw [h]
  rfl

theorem gLift_ok {α : Type} {x : Op α} {s t : State} {a : α} (h : x s = .ok a t) (G : Grp) :
    gLift x G s = .ok (a, G) t := by
  simp only [gLift, h]

theorem gPure_ok {α : Type} (a : α) (G : Grp) (s : State) : (pure a : GOp α) G s = .ok (a, G) s := rfl

/-! #### Accesses that nothing stops -/

/-- Where some entry traps a request, the check answers so, and makes no split (R132). -/
theorem meetAll_trap {s : State} {who : Requester} {lines : List Nat} {key : Nat} {write : Bool}
    (h : s.meetsTrap who lines write = true) : s.meetAll who lines key write = (s, .trap) := by
  obtain ⟨c, hc, hv⟩ := List.any_eq_true.mp h
  have hne : ((s.clashes who lines write).filter (fun c => c.2.2.2.verdict who == .trap)).isEmpty = false := by
    rw [List.isEmpty_eq_false_iff]
    exact List.ne_nil_of_mem (List.mem_filter.mpr ⟨hc, hv⟩)
  unfold State.meetAll
  simp only [hne, Bool.not_false, if_true]

theorem LineFree.meetsTrap {s : State} {l : Leaf} {write : Bool} (h : Claim.LineFree s l write) :
    s.meetsTrap (.hart s.cur) [l.pa / 128] write = false := by
  have hm := h.served
  unfold State.meetInTurn at hm
  by_contra ht
  rw [meetAll_trap (by simpa using ht)] at hm
  split at hm <;> cases hm

/-- An access to a free line goes on, and nothing is done for it. -/
theorem LineFree.checkLine {s : State} {l : Leaf} {write : Bool} (h : Claim.LineFree s l write) (va : Word) :
    checkLine l.pa l.key va write s = .ok () s := by
  have hh : s.hostHolds (l.pa / 128) l.key write = false := by simp only [State.hostHolds, h.unheld]
  rw [checkLine_served h.there h.served hh]
  simp only [State.touchLine, h.unheld]

section
variable {s : State} {kind : Kind} {size : Nat} {addr : Nat → Word} {on : Nat → Prop} {L : Nat → Leaf} {C : Nat → Nat}

theorem reachEach_ok (h : Claim.Reaches s kind size addr on L C) (G : Grp) {is : List Nat} (his : ∀ i ∈ is, on i) :
    reachEach kind size addr false is G s = .ok (is.map (fun i => ⟨i, addr i, L i, C i⟩), G) s := by
  induction is with
  | nil => rfl
  | cons i t ih =>
    have hi : on i := his i (by simp)
    have ht := ih fun j hj => his j (by simp [hj])
    unfold reachEach
    rw [gop_bind_ok (gLift_ok (reachOp_to (h.aligned i hi) (h.reached i hi)) G)]
    dsimp only
    have hm : (!s.meetsTrap (.hart s.cur) [(L i).pa / 128] (kind == .write)) = true := by
      rw [LineFree.meetsTrap (h.served i hi)]
      rfl
    rw [gop_bind_ok (gState_ok G s), gop_bind_ok (gCheck_ok (b := !false || s.atomicOk (L i).pa) rfl _ _ G s),
      gop_bind_ok (gCheck_ok hm _ _ G s), gop_bind_ok ht]
    rfl

theorem checkLines_ok (h : Claim.Reaches s kind size addr on L C) (G : Grp) {is : List Nat} (his : ∀ i ∈ is, on i) :
    checkLines (kind == .write) (is.map (fun i => (⟨i, addr i, L i, C i⟩ : At))) G s = .ok ((), G) s := by
  unfold checkLines
  induction is with
  | nil => rfl
  | cons i t ih =>
    have ht := ih fun j hj => his j (by simp [hj])
    rw [List.map_cons, List.forM_eq_forM, List.forM_cons,
      gop_bind_ok (gLift_ok (LineFree.checkLine (h.served i (his i (by simp))) (addr i)) G)]
    exact ht

/-- Accesses that nothing stops are found, and nothing is done for them (R263). -/
theorem reachAll_ok (h : Claim.Reaches s kind size addr on L C) (G : Grp) {is : List Nat} (his : ∀ i ∈ is, on i) :
    reachAll kind size addr false is G s = .ok (is.map (fun i => ⟨i, addr i, L i, C i⟩), G) s := by
  unfold reachAll
  rw [gop_bind_ok (reachEach_ok h G his), gop_bind_ok (checkLines_ok h G his)]
  rfl

end

/-! #### Reads of a group -/

/-- A state that differs at most in which outstanding stores a vector load has returned. -/
def Marked (s t : State) : Prop := ∃ o, t = s.marks o

theorem Marked.refl (s : State) : Marked s s := by
  refine ⟨fun _ => false, ?_⟩
  have hm : Delayed.mark (fun _ => false) = id := by
    funext d
    rfl
  unfold State.marks
  rw [hm, List.map_id]

theorem Marked.trans {s t u : State} (h : Marked s t) (k : Marked t u) : Marked s u := by
  obtain ⟨o, rfl⟩ := h
  obtain ⟨o', rfl⟩ := k
  refine ⟨fun d => o d || o' (d.mark o), ?_⟩
  have hm : Delayed.mark o' ∘ Delayed.mark o = Delayed.mark (fun d => o d || o' (d.mark o)) := by
    funext d
    by_cases ho : o d = true
    · simp only [Function.comp, Delayed.mark, ho, if_true, Bool.true_or]
      split <;> rfl
    · by_cases ho' : o' d = true <;> simp [Function.comp, Delayed.mark, ho, ho']
  unfold State.marks
  rw [List.map_map, hm]

theorem observe_marked (s : State) (h : HartId) (cell n : Nat) : Marked s (s.observe h cell n) := by
  unfold State.observe
  split
  · exact ⟨fun d => d.hart == h && !d.scalar && d.meets cell n, rfl⟩
  · exact .refl s

/-- With no store outstanding there is nothing to mark. -/
theorem Marked.eq_of_none {s t : State} (h : Marked s t) (hd : s.delayed = []) : t = s := by
  obtain ⟨o, rfl⟩ := h
  unfold State.marks
  rw [hd, List.map_nil, ← hd]

theorem overlayAll_nil (c : Nat) (bs : List Byte) : overlayAll [] c bs = bs := by
  induction bs generalizing c with
  | nil => rfl
  | cons b t ih => rw [overlayAll, ih]; rfl

/-- A group with other granules noted as read. -/
def Grp.reading (G : Grp) (us : List Nat) : Grp := { G with used := us }

/-- An element that has not been read early is read as the vector side sees it (R111, R263). -/
theorem readAt_ok {s : State} {p : At} {size : Nat} {G : Grp} (he : s.early = [])
    (hp : s.poisoned p.leaf.pa size = false) (hg : G.held = []) : readAt p size G s =
      .ok (Claim.vseen s p.leaf p.cell size, G.reading (p.cell / 16 * 16 :: G.used)) (s.observe s.cur p.cell size) := by
  have hge : s.earlyGranule p = none := by
    unfold State.earlyGranule
    rw [he]
    split <;> rfl
  have hc : (!s.poisoned p.leaf.pa size) = true := by
    rw [hp]
    rfl
  have hv : G.view s p size = Claim.vseen s p.leaf p.cell size := by
    simp only [Grp.view, hg, List.map_nil, overlayAll_nil]
    rfl
  unfold readAt
  rw [gop_bind_ok (gState_ok G s), gop_bind_ok (gGet_ok G s), gop_bind_ok (gSet_ok _ G s),
    gop_bind_ok (gLift_ok (rfl : (modify (fun s => s.observe s.cur p.cell size) : Op PUnit) s = _) _), hge]
  dsimp only
  rw [gop_bind_ok (gCheck_ok hc _ _ _ _)]
  rw [hv]
  rfl

/-- Elements read one after another: each as the vector side sees it before the first, and the stores returned are
marked (R263, R340). -/
theorem readEach_ok {s : State} {size : Nat} {ps : List At} {G : Grp} (he : s.early = [])
    (hp : ∀ p ∈ ps, s.poisoned p.leaf.pa size = false) (hg : G.held = []) :
    ∃ us t, Marked s t ∧ ps.mapM (fun p => (do return bytesOf size (← readAt p size) : GOp (List Byte))) G s =
      .ok (ps.map (fun p => bytesOf size (Claim.vseen s p.leaf p.cell size)), G.reading us) t := by
  induction ps generalizing s G with
  | nil => exact ⟨G.used, s, .refl s, rfl⟩
  | cons p ps ih =>
    obtain ⟨o, ho⟩ := observe_marked s s.cur p.cell size
    obtain ⟨us, t, hm, ht⟩ := ih (s := s.marks o) (G := G.reading (p.cell / 16 * 16 :: G.used)) he
      (fun q hq => (marks_poisoned s _ _).trans (hp q (by simp [hq]))) hg
    refine ⟨us, t, Marked.trans ⟨o, rfl⟩ hm, ?_⟩
    have hr := readAt_ok (size := size) he (hp p (by simp)) hg
    rw [ho] at hr
    have hb : ((do return bytesOf size (← readAt p size) : GOp (List Byte))) G s =
        .ok (bytesOf size (Claim.vseen s p.leaf p.cell size), G.reading (p.cell / 16 * 16 :: G.used)) (s.marks o) := by
      rw [gop_bind_ok hr]
      rfl
    rw [List.mapM_cons, gop_bind_ok hb, gop_bind_ok ht]
    simp only [Claim.vseen, read_marks, marks_cur]
    rfl

/-- Bytes read from an address up, where nothing stops the reads (R263). -/
theorem readVa_ok {s : State} {va : Word} {n : Nat} {L : Nat → Leaf} {C : Nat → Nat} {G : Grp} (he : s.early = [])
    (hr : Claim.Reaches s .read 4 (fun k => va + BitVec.ofNat 64 (4 * k)) (fun k => k < (n + 3) / 4) L C)
    (hp : ∀ k < (n + 3) / 4, s.poisoned (L k).pa 4 = false) (hg : G.held = []) :
    ∃ us t, Marked s t ∧ readVa va 4 n G s =
      .ok (((List.range ((n + 3) / 4)).flatMap (fun k => bytesOf 4 (Claim.vseen s (L k) (C k) 4))).take n,
        G.reading us) t := by
  have hra := reachAll_ok hr G (is := List.range ((n + 3) / 4)) (fun i hi => List.mem_range.mp hi)
  obtain ⟨us, t, hm, ht⟩ := readEach_ok (size := 4) (G := G)
    (ps := (List.range ((n + 3) / 4)).map (fun i => ⟨i, va + BitVec.ofNat 64 (4 * i), L i, C i⟩)) he
    (fun p hp' => by
      obtain ⟨i, hi, rfl⟩ := List.mem_map.mp hp'
      exact hp i (List.mem_range.mp hi)) hg
  refine ⟨us, t, hm, ?_⟩
  unfold readVa
  rw [show (n + 4 - 1) / 4 = (n + 3) / 4 from rfl, gop_bind_ok hra, gop_bind_ok ht, gPure_ok, List.map_map,
    List.flatMap]
  rfl

/-! #### Rings (R291) -/

theorem ringCheck_ok {s : State} {q need : Nat} {pair : Bool} {bs : List Byte} {G : Grp}
    (h : Claim.Entry s q need bs) (hG : G.h = s.me) : ringCheck q need pair G s = .ok ((), G) s := by
  obtain ⟨hon, hneed, hocc, hM, hN, hK, -⟩ := h
  unfold ringCheck
  rw [gop_bind_ok (gHart_ok G s), hG]
  rw [gop_bind_ok (gCheck_ok hon _ _ _ _), gop_bind_ok (gCheck_ok (decide_eq_true ⟨hM, hN, hK⟩) _ _ _ _),
    gop_bind_ok (gCheck_ok (decide_eq_true hneed) _ _ _ _), if_neg hocc]
  rfl

/-- The entry at the head of a ring is read (R291). -/
theorem ringEntry_ok {s : State} {q need : Nat} {bs : List Byte} {G : Grp} (h : Claim.Entry s q need bs)
    (he : s.early = []) (hG : G.h.ring (BitVec.ofNat 3 q) = s.me.ring (BitVec.ofNat 3 q)) (hg : G.held = []) :
    ∃ us t, Marked s t ∧ ringEntry q need G s = .ok (bs, G.reading us) t := by
  obtain ⟨-, -, -, -, -, -, L, C, hr, hp, rfl⟩ := h
  obtain ⟨us, t, hm, ht⟩ := readVa_ok (G := G) he hr hp hg
  refine ⟨us, t, hm, ?_⟩
  unfold ringEntry
  rw [gop_bind_ok (gHart_ok G s), hG]
  exact ht

end Sys2Proof.Machine

/-! ### Accumulators (R286) -/

namespace Sys2Proof.Machine

theorem popBelow_le (n k : Nat) : popBelow n k ≤ k := by
  induction k with
  | zero => exact Nat.le_refl 0
  | succ k ih =>
    unfold popBelow
    split <;> omega

theorem lanes_le (H : Hart) : H.lanes ≤ 256 := by
  have := popBelow_le (fld H.csr.lpart 0 16).toNat 16
  unfold Hart.lanes popcount
  omega

theorem elemOf_eq_fld (L w : Nat) (v : VReg) (i : Nat) : elemOf L w v i = (fld v (elemPos L w i) (widthBits w)).toNat := by
  unfold elemOf fld
  rw [BitVec.extractLsb'_toNat]

theorem elemOf_setElem_same {L w : Nat} {v : VReg} {i : Nat} (h : elemPos L w i + widthBits w ≤ 65536) (x : Nat) :
    elemOf L w (setElem L w v i x) i = x % 2 ^ widthBits w := by
  rw [elemOf_eq_fld]
  unfold setElem
  rw [fld_setFld_same _ _ h, BitVec.toNat_ofNat]

theorem elemOf_setElem_ne {L w : Nat} {v : VReg} {i j : Nat}
    (h : elemPos L w i + widthBits w ≤ elemPos L w j ∨ elemPos L w j + widthBits w ≤ elemPos L w i) (x : Nat) :
    elemOf L w (setElem L w v i x) j = elemOf L w v j := by
  rw [elemOf_eq_fld, elemOf_eq_fld]
  unfold setElem
  rcases h with h | h
  · rw [fld_setFld_above _ _ h]
  · rw [fld_setFld_below _ _ h]

/-! #### Where an accumulator stands -/

/-- The word of the vector register at which the 32-bit element of row `q` and column `n` stands. -/
def accWord (L q n : Nat) : Nat := q * L + n % L

theorem elemPos_acc {L q n : Nat} (hn : n < 2 * L) :
    elemPos L 2 (q * (2 * L) + n) = accWord L q n * 64 + n / L * 32 := by
  have hE : groupElems L 2 = 2 * L := by
    unfold groupElems
    omega
  have hd : (q * (2 * L) + n) / (2 * L) = q := by
    rw [Nat.mul_comm, Nat.mul_add_div (by omega), Nat.div_eq_of_lt hn]
    rfl
  have hm : (q * (2 * L) + n) % (2 * L) = n := by
    rw [Nat.mul_comm, Nat.mul_add_mod, Nat.mod_eq_of_lt hn]
  unfold elemPos accWord
  dsimp only
  rw [hE, hd, hm]
  rfl

theorem accWord_lt {L q n : Nat} (hq : q < 4) (hn : n < 2 * L) : accWord L q n < 4 * L := by
  have hl : n % L < L := Nat.mod_lt _ (by omega)
  have hq' : q * L ≤ 3 * L := Nat.mul_le_mul_right L (by omega)
  unfold accWord
  omega

theorem half_le {L n : Nat} (hn : n < 2 * L) : n / L ≤ 1 := by
  have : n / L < 2 := (Nat.div_lt_iff_lt_mul (by omega)).mpr hn
  omega

/-- Two accumulators of a register stand at different places. -/
theorem accWord_inj {L q q' n n' : Nat} (hn : n < 2 * L) (hn' : n' < 2 * L) (hw : accWord L q n = accWord L q' n')
    (hh : n / L = n' / L) : q = q' ∧ n = n' := by
  have hl : n % L < L := Nat.mod_lt _ (by omega)
  have hl' : n' % L < L := Nat.mod_lt _ (by omega)
  have hq : accWord L q n / L = q := by
    unfold accWord
    rw [Nat.mul_comm, Nat.mul_add_div (by omega), Nat.div_eq_of_lt hl]
    rfl
  have hq' : accWord L q' n' / L = q' := by
    unfold accWord
    rw [Nat.mul_comm, Nat.mul_add_div (by omega), Nat.div_eq_of_lt hl']
    rfl
  have hqq : q = q' := by rw [← hq, ← hq', hw]
  subst hqq
  unfold accWord at hw
  have hm : n % L = n' % L := by omega
  exact ⟨rfl, by rw [← Nat.div_add_mod n L, ← Nat.div_add_mod n' L, hh, hm]⟩

/-! #### An accumulator written -/

theorem getV_setV_same (H : Hart) {r : Nat} (hr : r < 32) (v : VReg) : (H.setV r v).getV r = v := by
  simp [Hart.getV, Hart.setV, hr]

theorem getV_setV_ne (H : Hart) {r q : Nat} (h : q ≠ r) (v : VReg) : (H.setV r v).getV q = H.getV q := by
  have : r ≠ q := fun e => h e.symm
  simp [Hart.getV, Hart.setV, this]

@[simp] theorem lanes_setAcc (H : Hart) (m n v : Nat) : (H.setAcc m n v).lanes = H.lanes := rfl

/-- Where an accumulator is: its register and its element are among those that a hart has. -/
structure InAcc (H : Hart) (m n : Nat) : Prop where
  row : m < 128
  col : n < 2 * H.lanes

theorem acc_eq (H : Hart) (m n : Nat) : H.acc m n = elemOf H.lanes 2 (H.getV (m / 4)) (m % 4 * (2 * H.lanes) + n) := rfl

theorem getV_setAcc_same {H : Hart} {m n : Nat} (h : InAcc H m n) (v : Nat) : (H.setAcc m n v).getV (m / 4) =
    setElem H.lanes 2 (H.getV (m / 4)) (m % 4 * (2 * H.lanes) + n) v := by
  have hr := h.row
  exact getV_setV_same H (by omega) _

theorem acc_setAcc_same {H : Hart} {m n : Nat} (h : InAcc H m n) (v : Nat) : (H.setAcc m n v).acc m n = v % 2 ^ 32 := by
  have hw := accWord_lt (Nat.mod_lt m (show 0 < 4 by omega)) h.col
  have hl := lanes_le H
  have hh := half_le h.col
  rw [acc_eq, getV_setAcc_same h, lanes_setAcc]
  refine elemOf_setElem_same ?_ v
  rw [elemPos_acc h.col, show widthBits 2 = 32 from rfl]
  omega

theorem acc_setAcc_ne {H : Hart} {m n i j : Nat} (h : InAcc H m n) (k : InAcc H i j) (hne : ¬ (i = m ∧ j = n)) (v : Nat) :
    (H.setAcc m n v).acc i j = H.acc i j := by
  rw [acc_eq, acc_eq, lanes_setAcc]
  by_cases hr : i / 4 = m / 4
  · rw [hr, getV_setAcc_same h]
    refine elemOf_setElem_ne ?_ v
    rw [elemPos_acc h.col, elemPos_acc k.col, show widthBits 2 = 32 from rfl]
    have hh := half_le h.col
    have hh' := half_le k.col
    by_cases hw : accWord H.lanes (m % 4) n = accWord H.lanes (i % 4) j
    · have hd : n / H.lanes ≠ j / H.lanes := fun e => by
        obtain ⟨hq, hn⟩ := accWord_inj h.col k.col hw e
        exact hne ⟨by omega, hn.symm⟩
      omega
    · omega
  · have hg : (H.setAcc m n v).getV (i / 4) = H.getV (i / 4) := getV_setV_ne H hr _
    rw [hg]

/-! #### Accumulators written one after another -/

/-- Two harts that differ at most in vector registers, their high-water marks, and MSTAT. -/
def AccOnly (H K : Hart) : Prop :=
  ∃ v d c, K = { H with v := v, vdirty := d, csr := { H.csr with mstat := c } }

theorem AccOnly.refl (H : Hart) : AccOnly H H := ⟨H.v, H.vdirty, H.csr.mstat, rfl⟩

theorem AccOnly.trans {H K J : Hart} (h : AccOnly H K) (k : AccOnly K J) : AccOnly H J := by
  obtain ⟨v, d, c, rfl⟩ := h
  obtain ⟨v', d', c', rfl⟩ := k
  exact ⟨v', d', c', rfl⟩

theorem setAcc_accOnly (H : Hart) (m n v : Nat) : AccOnly H (H.setAcc m n v) := ⟨_, _, H.csr.mstat, rfl⟩

theorem raiseM_accOnly (H : Hart) (f : Flags) : AccOnly H (H.raiseM f) := ⟨H.v, H.vdirty, _, rfl⟩

theorem AccOnly.lanes {H K : Hart} (h : AccOnly H K) : K.lanes = H.lanes := by
  obtain ⟨v, d, c, rfl⟩ := h
  rfl

theorem AccOnly.inAcc {H K : Hart} (h : AccOnly H K) {m n : Nat} (k : InAcc H m n) : InAcc K m n :=
  ⟨k.row, h.lanes ▸ k.col⟩

/-- Accumulators written one after another, and the flags of each raised. -/
def Hart.fill (H : Hart) (f : Nat × Nat → Nat × Flags) (ps : List (Nat × Nat)) : Hart :=
  ps.foldl (fun H p => (H.setAcc p.1 p.2 (f p).1).raiseM (f p).2) H

theorem fill_cons (H : Hart) (f : Nat × Nat → Nat × Flags) (p : Nat × Nat) (ps : List (Nat × Nat)) :
    H.fill f (p :: ps) = ((H.setAcc p.1 p.2 (f p).1).raiseM (f p).2).fill f ps := rfl

theorem fill_accOnly (H : Hart) (f : Nat × Nat → Nat × Flags) (ps : List (Nat × Nat)) : AccOnly H (H.fill f ps) := by
  induction ps generalizing H with
  | nil => exact .refl H
  | cons p ps ih => exact ((setAcc_accOnly H _ _ _).trans (raiseM_accOnly _ _)).trans (ih _)

@[simp] theorem acc_raiseM (H : Hart) (fl : Flags) (m n : Nat) : (H.raiseM fl).acc m n = H.acc m n := rfl

/-- An accumulator that is not among those written keeps its value. -/
theorem acc_fill_ne {H : Hart} {f : Nat × Nat → Nat × Flags} {ps : List (Nat × Nat)} (hps : ∀ p ∈ ps, InAcc H p.1 p.2)
    {m n : Nat} (hmn : InAcc H m n) (h : (m, n) ∉ ps) : (H.fill f ps).acc m n = H.acc m n := by
  induction ps generalizing H with
  | nil => rfl
  | cons p ps ih =>
    have hk := (setAcc_accOnly H p.1 p.2 (f p).1).trans (raiseM_accOnly _ (f p).2)
    have hp : ¬ (m = p.1 ∧ n = p.2) := fun e => h (by rw [e.1, e.2]; exact List.mem_cons_self)
    rw [fill_cons, ih (fun q hq => hk.inAcc (hps q (List.mem_cons_of_mem _ hq))) (hk.inAcc hmn)
      (fun hm => h (List.mem_cons_of_mem _ hm)), acc_raiseM, acc_setAcc_ne (hps p List.mem_cons_self) hmn hp]

/-- An accumulator among those written takes its value, to 32 bits. -/
theorem acc_fill_mem {H : Hart} {f : Nat × Nat → Nat × Flags} {ps : List (Nat × Nat)} (hps : ∀ p ∈ ps, InAcc H p.1 p.2)
    {m n : Nat} (h : (m, n) ∈ ps) : (H.fill f ps).acc m n = (f (m, n)).1 % 2 ^ 32 := by
  induction ps generalizing H with
  | nil => cases h
  | cons p ps ih =>
    have hk := (setAcc_accOnly H p.1 p.2 (f p).1).trans (raiseM_accOnly _ (f p).2)
    have hps' : ∀ q ∈ ps, InAcc ((H.setAcc p.1 p.2 (f p).1).raiseM (f p).2) q.1 q.2 :=
      fun q hq => hk.inAcc (hps q (List.mem_cons_of_mem _ hq))
    rw [fill_cons]
    by_cases hm : (m, n) ∈ ps
    · exact ih hps' hm
    · have hp : (m, n) = p := (List.mem_cons.mp h).resolve_right hm
      subst hp
      rw [acc_fill_ne hps' (hk.inAcc (hps _ List.mem_cons_self)) hm, acc_raiseM,
        acc_setAcc_same (hps _ List.mem_cons_self)]

theorem mem_region {M N m n : Nat} : (m, n) ∈ region M N ↔ m < M ∧ n < N := by
  simp [region]

/-- The region of a shape that the hart's registers hold. -/
theorem inAcc_region {H : Hart} {M N : Nat} (hM : M ≤ 128) (hN : N ≤ 2 * H.lanes) :
    ∀ p ∈ region M N, InAcc H p.1 p.2 := fun p hp => by
  obtain ⟨hm, hn⟩ := mem_region.mp (show (p.1, p.2) ∈ region M N from hp)
  exact ⟨by omega, by omega⟩

/-- The region takes its values and every other accumulator keeps its own. -/
theorem acc_fill_region {H : Hart} {f : Nat × Nat → Nat × Flags} {M N : Nat} (hM : M ≤ 128) (hN : N ≤ 2 * H.lanes)
    {m n : Nat} (hm : m < 128) (hn : n < 2 * H.lanes) :
    (m < M ∧ n < N → (H.fill f (region M N)).acc m n = (f (m, n)).1 % 2 ^ 32) ∧
      (¬ (m < M ∧ n < N) → (H.fill f (region M N)).acc m n = H.acc m n) :=
  ⟨fun h => acc_fill_mem (inAcc_region hM hN) (mem_region.mpr h),
    fun h => acc_fill_ne (inAcc_region hM hN) ⟨hm, hn⟩ (fun k => h (mem_region.mp k))⟩

theorem raiseM_zero (H : Hart) : H.raiseM 0 = H := by
  unfold Hart.raiseM
  simp

/-- The region set to zero (R298). -/
theorem zeroAcc_eq (H : Hart) : H.zeroAcc = H.fill (fun _ => (0, 0)) (region H.shapeM H.shapeN) := by
  unfold Hart.zeroAcc Hart.fill
  simp only [raiseM_zero]

theorem acc_lt (H : Hart) (m n : Nat) : H.acc m n < 2 ^ 32 := Nat.mod_lt _ (by decide)

end Sys2Proof.Machine

/-! ### A matrix form that retires (R48, R287) -/

namespace Sys2Proof.Machine

theorem updMe_updMe (s : State) (f g : Hart → Hart) : (s.updMe f).updMe g = s.updMe (fun H => g (f H)) := by
  unfold State.updMe
  rw [show (s.updHart s.cur f).cur = s.cur from rfl]
  simp [State.updHart, State.hart]

/-- A group that replies to nobody and leaves the branch queue and VL alone. -/
structure Grp.Plain (G : Grp) : Prop where
  replies : G.replies = []
  pushes : G.pushes = []
  newVl : G.newVl = none

/-- A hart whose one-slot convoy has retired. -/
def Hart.passed (H : Hart) : Hart :=
  { H with
    csr := { H.csr with vstart := 0 }
    cut := none
    pc := H.pc + 12
    run := .running
    wait := .none
    waited := 0
    watchdog := 0
    ladder := 0 }

/-- What a group's hart becomes as its convoy retires: the delays are those of the hart as it stands (R48). -/
def Hart.left (K H : Hart) : Hart := ({ K with delays := H.delays } : Hart).passed

/-- What a hart is replaced by counts for the hart as it is alone. -/
theorem updMe_congr {s : State} {f g : Hart → Hart} (h : f s.me = g s.me) : s.updMe f = s.updMe g := by
  unfold State.updMe State.updHart
  unfold State.me at h
  rw [h]

theorem retireConvoy_plain {s : State} {G : Grp} (hG : G.Plain) : s.retireConvoy 1 G = s.updMe Hart.passed := by
  obtain ⟨hr, hp, hv⟩ := hG
  have hpc (f : Hart → Hart) : (s.updMe f).pc = (f s.me).pc := congrArg Hart.pc (me_updMe s f)
  unfold State.retireConvoy State.goTo
  rw [hr, hp, hv]
  dsimp only
  rw [updMe_updMe]
  refine updMe_congr ?_
  simp only [hpc, Hart.writeReplies, List.foldl_nil, List.append_nil, Hart.setVstart]
  rfl

/-- What the commit and the retirement of a convoy read of the hart that a group leaves. -/
structure Kept (H K : Hart) : Prop where
  pc : K.pc = H.pc
  level : K.sup = H.sup
  cause : K.csr.tcause = H.csr.tcause
  epc : K.csr.tepc = H.csr.tepc

theorem AccOnly.kept {H K : Hart} (h : AccOnly H K) : Kept H K := by
  obtain ⟨v, d, c, rfl⟩ := h
  exact ⟨rfl, rfl, rfl, rfl⟩

theorem AccOnly.x {H K : Hart} (h : AccOnly H K) : K.x = H.x := by
  obtain ⟨v, d, c, rfl⟩ := h
  rfl

theorem retired_of_kept {s t : State} {K H : Hart} (hk : Kept s.me K) (ht : t.me = K.left H) : Claim.Retired s t := by
  obtain ⟨hpc, hl, hc, he⟩ := hk
  refine ⟨?_, ?_, ?_, ?_, ?_, ?_⟩
  all_goals rw [ht]
  · exact congrArg (· + 12) hpc
  · rfl
  · exact hl
  · rfl
  · exact hc
  · exact he

/-! #### The commit of a group that holds no store -/

theorem wholeSector_nil (q : Nat) : wholeSector [] q = false := rfl

theorem flushStores_nil (s : State) : s.flushStores [] = s := by
  have hc : s.poison.filter (fun q => wholeSector [] q) = [] := List.filter_eq_nil_iff.mpr (by simp [wholeSector_nil])
  unfold State.flushStores
  rw [hc]
  simp

/-- The early loads that no group has read are kept. -/
theorem forgetWhere_never {s : State} {p : Early → Bool} (h : s.early = [] ∨ ∀ e, p e = false) : s.forgetWhere p = s := by
  rcases h with h | h
  · exact forgetWhere_none h p
  · unfold State.forgetWhere
    split
    · rfl
    · simp [h]

/-- A group that holds no store leaves its hart and sends its items on. -/
theorem commitGroup_sends {s : State} {G : Grp} (he : s.early = [] ∨ G.used = []) (hh : G.held = []) :
    s.commitGroup G = G.sends.foldl (fun s e => s.sendItem e.1 e.2) (s.updMe (fun H => { G.h with delays := H.delays })) := by
  unfold State.commitGroup
  rw [hh]
  dsimp only
  rw [forgetWhere_never (he.imp (fun he => by rw [updMe_early, he]) (fun hu e => by simp [hu])),
    show ∀ t : State, t.commitHeld [] 4 [] = t from flushStores_nil]

/-- A matrix form whose group holds no store retires with the hart that its group leaves, and its items are sent on. -/
theorem exec_sends {i : Instr} {o : VOp} {w : VFields} {s u : State} {G : Grp} (hx : exec i s = solo o w s)
    (ho : o ∈ matrixOps) (hi : Claim.Issues s o w) (hr : oneForm s.oneCtx ⟨0, o, w⟩ s.openGroup s = .ok ((), G) u)
    (he : u.early = [] ∨ G.used = []) (hh : G.held = []) (hG : G.Plain) :
    exec i s = .next ((G.sends.foldl (fun s e => s.sendItem e.1 e.2)
      (u.updMe (fun H => { G.h with delays := H.delays }))).updMe Hart.passed) := by
  rw [hx, solo_matrix ho hi, runOneGroup_done hr, commitGroup_sends he hh, retireConvoy_plain hG]

/-- A matrix form whose group holds no store and sends nothing retires with the hart that its group leaves. -/
theorem exec_plain {i : Instr} {o : VOp} {w : VFields} {s u : State} {G : Grp} (hx : exec i s = solo o w s)
    (ho : o ∈ matrixOps) (hi : Claim.Issues s o w) (hr : oneForm s.oneCtx ⟨0, o, w⟩ s.openGroup s = .ok ((), G) u)
    (he : u.early = [] ∨ G.used = []) (hh : G.held = []) (hs : G.sends = []) (hG : G.Plain) :
    exec i s = .next (u.updMe G.h.left) := by
  rw [exec_sends hx ho hi hr he hh hG, hs, List.foldl_nil, updMe_updMe]
  rfl

/-! #### `mzero` (R298) -/

theorem mzero_runs {s : State} {w : VFields} (hM : s.me.shapeM ≤ 128) (hN : s.me.shapeN ≤ 2 * s.me.lanes)
    (h0 : 0 < s.me.shapeM) (h1 : 0 < s.me.shapeN) (h2 : 0 < s.me.shapeK) (hi : Claim.Issues s .mzero w) :
    ∃ t, exec (.mzero w) s = .next t ∧ Claim.Retired s t ∧ t.me.x = s.me.x ∧ t.mem = s.mem ∧
      ∀ m n, m < 128 → n < 2 * s.me.lanes → (m < s.me.shapeM ∧ n < s.me.shapeN → t.me.acc m n = 0) ∧
        (¬ (m < s.me.shapeM ∧ n < s.me.shapeN) → t.me.acc m n = s.me.acc m n) := by
  have hz := zeroAcc_eq s.me
  have ha : AccOnly s.me s.me.zeroAcc := hz ▸ fill_accOnly _ _ _
  have hr : oneForm s.oneCtx ⟨0, .mzero, w⟩ s.openGroup s = .ok ((), { s.openGroup with h := s.me.zeroAcc }) s := by
    show mzeroForm s.openGroup s = _
    unfold mzeroForm
    rw [gop_bind_ok (gHart_ok _ _), gop_bind_ok (gCheck_ok (decide_eq_true ⟨h0.ne', h1.ne', h2.ne'⟩) _ _ _ _)]
    rfl
  refine ⟨_, exec_plain rfl (by decide) hi hr (.inr rfl) rfl rfl ⟨rfl, rfl, rfl⟩, ?_, ?_, rfl, ?_⟩
  · exact retired_of_kept ha.kept (me_updMe _ _)
  · rw [me_updMe]
    exact ha.x
  · intro m n hm hn
    have hf := acc_fill_region (f := fun _ => (0, 0)) hM hN hm hn
    rw [← hz] at hf
    rw [me_updMe]
    exact hf

end Sys2Proof.Machine

/-! ### Multiply-accumulate (R99, R100, R293 to R297) -/

namespace Sys2Proof.Machine

/-! #### The word of an accumulator -/

section
variable {F : FFmt}

theorem signed_lt (neg : Bool) {b : Nat} (h : b < 2 ^ (F.e + F.m)) : F.signed neg b < 2 ^ F.bits := by
  have hp : 2 ^ F.bits = 2 * 2 ^ (F.e + F.m) := by
    rw [← pow_succ']
    congr 1
    unfold FFmt.bits
    omega
  unfold FFmt.signed
  split <;> omega

/-- The magnitude bits of an infinity and of a NaN. -/
theorem top_lt {b : Nat} (h : b < 2 ^ F.m) : (2 ^ F.e - 1) * 2 ^ F.m + b < 2 ^ (F.e + F.m) := by
  have hE : 2 ^ F.m ≤ 2 ^ F.e * 2 ^ F.m := Nat.le_mul_of_pos_left _ (Nat.two_pow_pos _)
  rw [pow_add, Nat.sub_mul]
  omega

theorem inf_lt (neg : Bool) : F.inf neg < 2 ^ F.bits :=
  signed_lt neg (top_lt (Nat.two_pow_pos _))

theorem nan_lt (hF : F.Proper) (hs : F.sp = .ieee) : F.nan < 2 ^ F.bits := by
  have hm : F.m - 1 < F.m := Nat.sub_lt hF.m Nat.one_pos
  have hn := signed_lt false (top_lt (Nat.pow_lt_pow_right (by decide) hm))
  unfold FFmt.nan
  rw [hs]
  simpa [FFmt.signed] using hn

/-- What rounding gives fits the format (R84, R88). -/
theorem round_lt (hF : F.Proper) (hs : F.sp = .ieee) (m : RMode) (v : FVal) :
    (F.round (.mode m) false false v).1 < 2 ^ F.bits := by
  have hz : 0 < 2 ^ (F.e + F.m) := Nat.two_pow_pos _
  rcases v with q | neg | ⟨neg, _ | k, exp⟩
  · exact nan_lt hF hs
  · simp only [FFmt.round, hs]
    exact inf_lt neg
  · exact signed_lt neg hz
  · have hmax := signed_lt neg (maxMag_lt hF)
    simp only [FFmt.round, hs, Rounding.base, Bool.false_or, Bool.false_and, Bool.false_eq_true, if_false, beq_iff_eq,
      reduceCtorEq]
    split
    · split
      · exact inf_lt neg
      · exact hmax
    · rename_i h
      exact signed_lt neg (lt_of_le_of_lt (Nat.le_of_not_lt h) (maxMag_lt hF))

end

theorem round_f32_lt (m : RMode) (v : FVal) : (fmtF32.round (.mode m) false false v).1 < 2 ^ 32 :=
  round_lt (by constructor <;> decide) rfl m v

theorem mmaCell_lt {a b : Nat → FVal} {sa sb : Nat → Nat} {acc : Nat} (h : acc < 2 ^ 32) (bs : List Nat) :
    (mmaCell a b sa sb acc bs).1 < 2 ^ 32 := by
  induction bs generalizing acc with
  | nil => exact h
  | cons k ks ih => exact ih (round_f32_lt _ _)

theorem wrapInt_lt (v : Int) : wrapInt 32 v < 2 ^ 32 := by
  unfold wrapInt
  omega

/-- The exact sum of products of an accumulator (R100). -/
theorem dotInt_fst (A B : List Byte) (fa fb K m n : Nat) : (dotInt A B fa fb K m n).1 =
    ((List.range K).map (fun k => (operandInt fa (operandElem A fa K m k)).1 *
      (operandInt fb (operandElem B fb K n k)).1)).sum := by
  have hf (ks : List Nat) (z : Int × Flags) : (ks.foldl (fun acc k =>
      let (x, f) := operandInt fa (operandElem A fa K m k)
      let (y, f') := operandInt fb (operandElem B fb K n k)
      (acc.1 + x * y, acc.2 ||| f ||| f')) z).1 = z.1 + (ks.map (fun k =>
        (operandInt fa (operandElem A fa K m k)).1 * (operandInt fb (operandElem B fb K n k)).1)).sum := by
    induction ks generalizing z with
    | nil => simp
    | cons k ks ih =>
      rw [List.foldl_cons, ih]
      simp [Int.add_assoc]
  unfold dotInt
  rw [hf]
  simp

/-! #### Rings and the crossing -/

/-- A hart with the entry at the head of a ring taken (R291). -/
def Hart.popped (H : Hart) (q : Nat) : Hart :=
  let r := H.ring (BitVec.ofNat 3 q)
  H.setRing (BitVec.ofNat 3 q) { r with head := r.head + 1 }

theorem ring_setRing_same (H : Hart) (q : BitVec 3) (r : Ring) : (H.setRing q r).ring q = r := by
  simp [Hart.ring, Hart.setRing]

theorem ring_setRing_ne (H : Hart) {p q : BitVec 3} (h : p ≠ q) (r : Ring) : (H.setRing q r).ring p = H.ring p := by
  have hn : q.toNat ≠ p.toNat := fun e => h (BitVec.eq_of_toNat_eq e.symm)
  simp [Hart.ring, Hart.setRing, Vector.getElem_set_ne, hn]

/-- A hart that has taken operand A of a form (R291, R297). -/
def Hart.tookA (H : Hart) (w : VFields) (pair : Bool) : Hart :=
  if H.takesItem pair then
    let p := H.port H.pairPort
    { H with ports := H.ports.setIfInBounds H.pairPort { p with items := p.items.tail } }
  else if w.selNat 9 1 = 0 then H.popped w.va.toNat
  else H

/-- A hart that has taken operand B of a form (R291). -/
def Hart.tookB (H : Hart) (w : VFields) : Hart := if w.selNat 8 1 = 0 then H.popped w.vb.toNat else H

/-- The two harts differ at most in rings and in ports. -/
def FeedOnly (H K : Hart) : Prop := ∃ r p, K = { H with rings := r, ports := p }

theorem tookA_feedOnly (H : Hart) (w : VFields) (pair : Bool) : FeedOnly H (H.tookA w pair) := by
  unfold Hart.tookA
  split
  · exact ⟨H.rings, _, rfl⟩
  · split
    · exact ⟨_, H.ports, rfl⟩
    · exact ⟨H.rings, H.ports, rfl⟩

theorem tookB_feedOnly (H : Hart) (w : VFields) : FeedOnly H (H.tookB w) := by
  unfold Hart.tookB
  split
  · exact ⟨_, H.ports, rfl⟩
  · exact ⟨H.rings, H.ports, rfl⟩

theorem FeedOnly.trans {H K J : Hart} (h : FeedOnly H K) (k : FeedOnly K J) : FeedOnly H J := by
  obtain ⟨r, p, rfl⟩ := h
  obtain ⟨r', p', rfl⟩ := k
  exact ⟨r', p', rfl⟩

section
variable {H K : Hart}

theorem FeedOnly.takesItem (h : FeedOnly H K) (pair : Bool) : K.takesItem pair = H.takesItem pair := by
  obtain ⟨r, p, rfl⟩ := h
  rfl

theorem FeedOnly.acc (h : FeedOnly H K) : K.acc = H.acc := by
  obtain ⟨r, p, rfl⟩ := h
  rfl

theorem FeedOnly.pairPort (h : FeedOnly H K) : K.pairPort = H.pairPort := by
  obtain ⟨r, p, rfl⟩ := h
  rfl

end

/-- The bit of a selector as its one-bit field. -/
theorem selNat_one (w : VFields) (k : Nat) : w.selNat k 1 = (w.sel.getLsbD k).toNat := by
  unfold VFields.selNat fld
  rw [BitVec.extractLsb'_toNat, Nat.shiftRight_eq_div_pow, BitVec.getLsbD, Nat.toNat_testBit]

/-! #### The operands of a form -/

/-- What feeds a multiply-accumulate form that runs: the entries or the item that its operands come from, and room for the
item that it sends (R291, R297). -/
structure Fed (s : State) (w : VFields) (pair : Bool) (A B : List Byte) : Prop where
  kept : s.early = []
  paired : pair = true → s.me.paired = true
  entryA : s.me.takesItem pair = false → Claim.Entry s w.va.toNat (operandBytes w.fmt.toNat s.me.shapeM s.me.shapeK) A
  item : s.me.takesItem pair = true → ∃ rest, (s.me.port s.me.pairPort).items =
    .entryA s.me.shapeM s.me.shapeK w.fmt A :: rest
  entryB : Claim.Entry s w.vb.toNat (operandBytes w.fmtB s.me.shapeN s.me.shapeK) B
  apart : w.vb.toNat < 8 ∧ w.va.toNat < 8 ∧ w.va ≠ w.vb
  room : pair = true → s.me.takesItem pair = false → s.crossLoad (s.me.port s.me.pairPort) + A.length ≤ 65536

theorem pairLost_paired {pair : Bool} {s : State} (h : pair = true → s.me.paired = true) (G : Grp) :
    pairLost pair G s = .ok ((), G) s := by
  have hb : (pair && !s.me.paired && s.me.wait.ofPair) = false := by
    cases pair with
    | false => rfl
    | true => rw [h rfl]; rfl
  unfold pairLost
  rw [gop_bind_ok (gState_ok G s), hb]
  rfl

theorem mmaChecks_ok {s : State} {w : VFields} {pair : Bool} {A B : List Byte} (h : Fed s w pair A B) {G : Grp}
    (hG : G.h = s.me) : mmaChecks w pair G s = .ok ((), G) s := by
  have hb : (pair && !s.me.paired) = false := by
    cases pair with
    | false => rfl
    | true => rw [h.paired rfl]; rfl
  have hrest : (do
      ringCheck w.vb.toNat (operandBytes w.fmtB s.me.shapeN s.me.shapeK) pair
      if pair && !s.me.paired then unpairedTrap : GOp Unit) G s = .ok ((), G) s := by
    rw [gop_bind_ok (ringCheck_ok h.entryB hG), hb]
    rfl
  unfold mmaChecks
  rw [gop_bind_ok (pairLost_paired h.paired G), gop_bind_ok (gHart_ok G s), hG]
  cases ht : s.me.takesItem pair with
  | true => exact hrest
  | false =>
    rw [Bool.not_false, if_pos rfl, gop_bind_ok (ringCheck_ok (h.entryA ht) hG)]
    exact hrest

/-- Operand A is read or received (R291, R297). -/
theorem operandA_ok {s : State} {w : VFields} {pair : Bool} {A B : List Byte} (h : Fed s w pair A B) {G : Grp}
    (hG : G.h = s.me) (hg : G.held = []) : ∃ us t, Marked s t ∧ operandA w pair G s =
      .ok (A, { G with h := s.me.tookA w pair, used := us }) t := by
  unfold operandA Hart.tookA
  rw [gop_bind_ok (gHart_ok G s), hG]
  cases ht : s.me.takesItem pair with
  | true =>
    obtain ⟨rest, hi⟩ := h.item ht
    refine ⟨G.used, s, .refl s, ?_⟩
    simp only [if_true]
    unfold itemA
    rw [gop_bind_ok (gHart_ok G s), hG, gop_bind_ok (gState_ok G s), hi]
    dsimp only
    rw [gop_bind_ok (gCheck_ok (by simp) _ _ G s), gop_bind_ok (gMod_ok _ G s), hG]
    rfl
  | false =>
    obtain ⟨us, t, hm, hr⟩ := ringEntry_ok (h.entryA ht) h.kept (by rw [hG]) hg
    simp only [Bool.false_eq_true, if_false]
    rw [gop_bind_ok hr]
    by_cases hk : w.selNat 9 1 = 0
    · refine ⟨us, t, hm, ?_⟩
      rw [if_pos hk, if_pos hk]
      unfold popRing
      rw [gop_bind_ok (gMod_ok _ _ t)]
      simp only [Grp.reading, hG]
      rfl
    · refine ⟨us, t, hm, ?_⟩
      rw [if_neg hk, if_neg hk]
      simp only [Grp.reading, ← hG]
      rfl

/-- What a primary sends on as its form retires (R297). -/
def Hart.sentA (H : Hart) (w : VFields) (pair : Bool) (A : List Byte) : List (Nat × Item) :=
  if pair && !H.takesItem pair then [(H.pairPort, .entryA H.shapeM H.shapeK w.fmt A)] else []

theorem FeedOnly.sentA {H K : Hart} (h : FeedOnly H K) (w : VFields) (pair : Bool) (A : List Byte) :
    K.sentA w pair A = H.sentA w pair A := by
  obtain ⟨r, p, rfl⟩ := h
  rfl

theorem sendA_ok {w : VFields} {pair : Bool} {A : List Byte} {G : Grp} {t : State}
    (h : pair = true → G.h.takesItem pair = false → t.crossLoad (G.h.port G.h.pairPort) + A.length ≤ 65536) :
    sendA w pair A G t = .ok ((), { G with sends := G.sends ++ G.h.sentA w pair A }) t := by
  unfold sendA Hart.sentA
  rw [gop_bind_ok (gHart_ok G t)]
  by_cases hs : (pair && !G.h.takesItem pair) = true
  · obtain ⟨hp, ht⟩ := Bool.and_eq_true_iff.mp hs
    have hr := h hp (by simpa using ht)
    rw [if_pos hs, if_pos hs, gop_bind_ok (gState_ok G t), if_neg (Nat.not_lt.mpr hr)]
    rfl
  · rw [if_neg hs, if_neg hs, List.append_nil]
    rfl

/-- The value that an accumulator takes from its old one, with the flags (R99, R100). -/
def Hart.mmaValue (H : Hart) (integer : Bool) (w : VFields) (A B : List Byte) (p : Nat × Nat) (old : Nat) : Nat × Flags :=
  if integer then
    let d := dotInt A B w.fmt.toNat w.fmtB H.shapeK p.1 p.2
    (wrapInt 32 ((old : Int) + d.1), d.2)
  else
    mmaCell (fun k => mmaForm.mxValueOf w.fmt.toNat (operandElem A w.fmt.toNat H.shapeK p.1 k))
      (fun k => mmaForm.mxValueOf w.fmtB (operandElem B w.fmtB H.shapeK p.2 k))
      (fun b => operandScale A w.fmt.toNat H.shapeM H.shapeK p.1 b)
      (fun b => operandScale B w.fmtB H.shapeN H.shapeK p.2 b) old (List.range (H.shapeK / 32))

theorem mmaValue_lt (H : Hart) (integer : Bool) (w : VFields) (A B : List Byte) (p : Nat × Nat) {old : Nat}
    (h : old < 2 ^ 32) : (H.mmaValue integer w A B p old).1 < 2 ^ 32 := by
  unfold Hart.mmaValue
  cases integer with
  | true => exact wrapInt_lt _
  | false => exact mmaCell_lt h _

/-- The products of two operands added to the accumulators of the region, in the shape of a hart `D` (R99, R100). -/
def Hart.accumulated (H D : Hart) (integer : Bool) (w : VFields) (A B : List Byte) : Hart :=
  H.fill (fun p => D.mmaValue integer w A B p (H.acc p.1 p.2)) (Machine.region D.shapeM D.shapeN)

/-- The hart that a multiply-accumulate form leaves. -/
def Hart.multiplied (H : Hart) (integer : Bool) (w : VFields) (pair : Bool) (A B : List Byte) : Hart :=
  ((H.tookA w pair).tookB w).accumulated H integer w A B

theorem tookA_ports {H : Hart} {w : VFields} {pair : Bool} (h : H.takesItem pair = false) :
    (H.tookA w pair).ports = H.ports := by
  unfold Hart.tookA
  rw [h, if_neg Bool.false_ne_true]
  split <;> rfl

theorem tookB_ports (H : Hart) (w : VFields) : (H.tookB w).ports = H.ports := by
  unfold Hart.tookB
  split <;> rfl

theorem tookA_ring_ne {H : Hart} {w : VFields} {pair : Bool} {q : BitVec 3} (h : q ≠ BitVec.ofNat 3 w.va.toNat) :
    (H.tookA w pair).ring q = H.ring q := by
  unfold Hart.tookA
  split
  · rfl
  · split
    · exact ring_setRing_ne H h _
    · rfl

theorem tookB_ring_ne {H : Hart} {w : VFields} {q : BitVec 3} (h : q ≠ BitVec.ofNat 3 w.vb.toNat) :
    (H.tookB w).ring q = H.ring q := by
  unfold Hart.tookB
  split
  · exact ring_setRing_ne H h _
  · rfl

/-- Two ring registers name two rings (R292). -/
theorem ring_names_ne {a b : BitVec 5} (ha : a.toNat < 8) (hb : b.toNat < 8) (h : a ≠ b) :
    BitVec.ofNat 3 a.toNat ≠ BitVec.ofNat 3 b.toNat := by
  intro e
  have := congrArg BitVec.toNat e
  simp only [BitVec.toNat_ofNat] at this
  exact h (BitVec.eq_of_toNat_eq (by omega))

/-- A multiply-accumulate form that is fed completes (R99, R100, R293 to R297). -/
theorem mmaForm_ok {s : State} {w : VFields} {A B : List Byte} (integer : Bool)
    (h : Fed s w (w.selNat 7 1 == 1) A B) : ∃ us u, Marked s u ∧ mmaForm integer w s.openGroup s =
      .ok ((), { s.openGroup with
        h := s.me.multiplied integer w (w.selNat 7 1 == 1) A B
        sends := s.me.sentA w (w.selNat 7 1 == 1) A
        used := us }) u := by
  generalize hpair : (w.selNat 7 1 == 1) = pair at h
  obtain ⟨us, t, ⟨o, ho⟩, hA⟩ := operandA_ok h (G := s.openGroup) rfl rfl
  subst ho
  obtain ⟨hb, ha, hne⟩ := h.apart
  have hfeed := tookA_feedOnly s.me w pair
  have hring := tookA_ring_ne (H := s.me) (w := w) (pair := pair) (ring_names_ne hb ha hne.symm)
  obtain ⟨us', u, hu, hB⟩ := ringEntry_ok (Entry.marks (o := o) h.entryB) h.kept
    (G := { s.openGroup with h := s.me.tookA w pair, used := us }) hring rfl
  refine ⟨us', u, .trans ⟨o, rfl⟩ hu, ?_⟩
  have hfed := hfeed.trans (tookB_feedOnly (s.me.tookA w pair) w)
  have hroom (hp : pair = true) (ht : ((s.me.tookA w pair).tookB w).takesItem pair = false) :
      u.crossLoad (((s.me.tookA w pair).tookB w).port ((s.me.tookA w pair).tookB w).pairPort) + A.length ≤ 65536 := by
    obtain ⟨o', rfl⟩ := hu
    have hports : ((s.me.tookA w pair).tookB w).ports = s.me.ports := by
      rw [tookB_ports]
      exact tookA_ports (by rw [hfed.takesItem] at ht; exact ht)
    have hr := h.room hp (by rw [hfed.takesItem] at ht; exact ht)
    rw [hfed.pairPort]
    simp only [Hart.port, hports]
    exact hr
  have hsend := sendA_ok (w := w) (pair := pair) (A := A) (t := u)
    (G := { s.openGroup with h := (s.me.tookA w pair).tookB w, used := us' }) hroom
  have hrest := gop_bind_ok (f := fun _ => gMod (fun H => H.accumulated s.me integer w A B)) hsend
  rw [gMod_ok, hfed.sentA] at hrest
  unfold mmaForm
  rw [hpair, gop_bind_ok (gHart_ok s.openGroup s), gop_bind_ok (mmaChecks_ok h rfl), gop_bind_ok hA,
    show s.openGroup.h = s.me from rfl, gop_bind_ok hB]
  unfold Hart.multiplied
  unfold Hart.tookB at hrest ⊢
  by_cases hk : w.selNat 8 1 = 0
  · simp only [if_pos hk] at hrest ⊢
    exact (gop_bind_ok (gMod_ok _ _ _)).trans hrest
  · simp only [if_neg hk] at hrest ⊢
    exact hrest

end Sys2Proof.Machine

/-! ### Multiply-accumulate forms that run (R99, R100, R150, R297) -/

namespace Sys2Proof.Machine

/-! #### An item sent on -/

theorem port_of_some {H : Hart} {k : Nat} {p : Port} (h : H.ports[k]? = some p) : H.port k = p := by
  unfold Hart.port
  rw [h]
  rfl

theorem sendItem_mem (s : State) (k : Nat) (it : Item) : (s.sendItem k it).mem = s.mem := by
  unfold State.sendItem
  split <;> rfl

theorem sendItem_cur (s : State) (k : Nat) (it : Item) : (s.sendItem k it).cur = s.cur := by
  unfold State.sendItem
  split <;> rfl

theorem sendItem_me {s : State} {k : Nat} (h : (s.me.port k).peer ≠ s.cur) (it : Item) :
    (s.sendItem k it).me = s.me := by
  unfold State.me
  rw [sendItem_cur]
  unfold State.sendItem
  split
  · rename_i p hp
    rw [port_of_some hp] at h
    exact hart_updHart_ne s _ _ _ h.symm
  · rfl

theorem sendItem_peer {s : State} {k : Nat} {p q : Port} (hp : s.me.ports[k]? = some p)
    (hq : (s.hart p.peer).ports[p.peerPort]? = some q) (it : Item) :
    ((s.sendItem k it).hart p.peer).ports[p.peerPort]? = some { q with flight := q.flight ++ [it] } := by
  have hlt : p.peerPort < 4 := by
    by_contra hn
    rw [Vector.getElem?_eq_none (by omega)] at hq
    cases hq
  unfold State.sendItem
  rw [hp]
  dsimp only
  rw [hart_updHart_same, hq]
  dsimp only
  rw [Vector.getElem?_setIfInBounds_self_of_lt hlt]

/-! #### The runs -/

theorem AccOnly.ports {H K : Hart} (h : AccOnly H K) : K.ports = H.ports := by
  obtain ⟨v, d, c, rfl⟩ := h
  rfl

theorem multiplied_accOnly (H : Hart) (integer : Bool) (w : VFields) (pair : Bool) (A B : List Byte) :
    AccOnly ((H.tookA w pair).tookB w) (H.multiplied integer w pair A B) := fill_accOnly _ _ _

theorem multiplied_ports {H : Hart} {integer : Bool} {w : VFields} {pair : Bool} {A B : List Byte}
    (h : H.takesItem pair = false) : (H.multiplied integer w pair A B).ports = H.ports := by
  rw [(multiplied_accOnly H integer w pair A B).ports, tookB_ports, tookA_ports h]

/-- A multiply-accumulate form that is fed retires: its hart is the one that the form leaves, memory is untouched, and a
primary's entry is on its way to its peer (R99, R100, R297). -/
theorem mma_runs {i : Instr} {o : VOp} {s : State} {w : VFields} {A B : List Byte} (integer : Bool)
    (hx : exec i s = solo o w s) (ho : o ∈ matrixOps) (hform : oneForm s.oneCtx ⟨0, o, w⟩ = mmaForm integer w)
    (hi : Claim.Issues s o w) (h : Fed s w (w.selNat 7 1 == 1) A B)
    (hpeer : (w.selNat 7 1 == 1) = true → s.me.takesItem (w.selNat 7 1 == 1) = false →
      (s.me.port s.me.pairPort).peer ≠ s.cur) :
    ∃ t, exec i s = .next t ∧ t.mem = s.mem ∧
      (∃ H, t.me = (s.me.multiplied integer w (w.selNat 7 1 == 1) A B).left H) ∧
      ((w.selNat 7 1 == 1) = true → s.me.takesItem (w.selNat 7 1 == 1) = false → ∀ p q,
        s.me.ports[s.me.pairPort]? = some p → (s.hart p.peer).ports[p.peerPort]? = some q →
        (t.hart p.peer).ports[p.peerPort]? =
          some { q with flight := q.flight ++ [.entryA s.me.shapeM s.me.shapeK w.fmt A] }) := by
  obtain ⟨us, u, ⟨m, rfl⟩, hr⟩ := mmaForm_ok integer h
  generalize (w.selNat 7 1 == 1) = pair at h hpeer hr ⊢
  rw [← hform] at hr
  have hrun := exec_sends hx ho hi hr (.inl h.kept) rfl ⟨rfl, rfl, rfl⟩
  dsimp only at hrun
  by_cases hs : (pair && !s.me.takesItem pair) = true
  · obtain ⟨hp, ht⟩ := Bool.and_eq_true_iff.mp hs
    have ht : s.me.takesItem pair = false := by simpa using ht
    have hports := multiplied_ports (integer := integer) (w := w) (A := A) (B := B) ht
    rw [show s.me.sentA w pair A = [(s.me.pairPort, .entryA s.me.shapeM s.me.shapeK w.fmt A)] from if_pos hs] at hrun
    have hne := hpeer hp ht
    generalize s.me.multiplied integer w pair A B = K at hrun hports ⊢
    refine ⟨_, hrun, sendItem_mem _ _ _, ⟨(s.marks m).me, ?_⟩, fun _ _ p q hk hq => ?_⟩
    · rw [me_updMe, List.foldl_cons, List.foldl_nil, sendItem_me, me_updMe]
      · rfl
      · rw [me_updMe, Hart.port, hports]
        exact hne
    · rw [port_of_some hk] at hne
      rw [hart_updMe_ne _ _ _ (by rw [List.foldl_cons, List.foldl_nil, sendItem_cur]; exact hne)]
      refine sendItem_peer ?_ ?_ _
      · rw [me_updMe, hports]
        exact hk
      · rw [hart_updMe_ne (s.marks m) _ _ hne]
        exact hq
  · rw [show s.me.sentA w pair A = [] from if_neg hs] at hrun
    refine ⟨_, hrun, rfl, ⟨(s.marks m).me, ?_⟩, fun hp ht => absurd (by rw [ht, Bool.not_false, Bool.and_true]; exact hp) hs⟩
    rw [me_updMe, List.foldl_nil, me_updMe]
    rfl

/-! #### What a run leaves -/

theorem selNat_eq_one (w : VFields) (k : Nat) : (w.selNat k 1 == 1) = w.sel.getLsbD k := by
  rw [selNat_one]
  cases w.sel.getLsbD k <;> rfl

theorem selNat_eq_zero (w : VFields) (k : Nat) : (w.selNat k 1 = 0) = (w.sel.getLsbD k = false) := by
  rw [selNat_one]
  cases w.sel.getLsbD k <;> simp

/-- A form that takes the entry at the head of a ring moves HEAD, unless it is told to keep it (R291). -/
theorem head_popped (H : Hart) (q : Nat) (keep : Bool) :
    ((if keep = false then H.popped q else H).ring (BitVec.ofNat 3 q)).head =
      (H.ring (BitVec.ofNat 3 q)).head + (if keep then 0 else 1) := by
  cases keep with
  | true => simp
  | false =>
    rw [if_pos rfl, Hart.popped, ring_setRing_same]
    simp

theorem AccOnly.ring {H K : Hart} (h : AccOnly H K) : K.ring = H.ring := by
  obtain ⟨v, d, c, rfl⟩ := h
  rfl

section
variable {H K : Hart} {w : VFields} {pair : Bool}

theorem head_of_fed_b (hK : AccOnly ((H.tookA w pair).tookB w) K)
    (h : BitVec.ofNat 3 w.vb.toNat ≠ BitVec.ofNat 3 w.va.toNat) : (K.ring (BitVec.ofNat 3 w.vb.toNat)).head =
      (H.ring (BitVec.ofNat 3 w.vb.toNat)).head + (if w.sel.getLsbD 8 then 0 else 1) := by
  rw [hK.ring, Hart.tookB]
  simp only [selNat_eq_zero]
  rw [head_popped, tookA_ring_ne h]

theorem head_of_fed_a (hK : AccOnly ((H.tookA w pair).tookB w) K)
    (h : BitVec.ofNat 3 w.va.toNat ≠ BitVec.ofNat 3 w.vb.toNat) (ht : H.takesItem pair = false) :
    (K.ring (BitVec.ofNat 3 w.va.toNat)).head =
      (H.ring (BitVec.ofNat 3 w.va.toNat)).head + (if w.sel.getLsbD 9 then 0 else 1) := by
  rw [hK.ring, tookB_ring_ne h, Hart.tookA, ht, if_neg Bool.false_ne_true]
  simp only [selNat_eq_zero]
  exact head_popped H w.va.toNat _

theorem kept_of_fed (hK : AccOnly ((H.tookA w pair).tookB w) K) : Kept H K := by
  obtain ⟨r, p, e⟩ := (tookA_feedOnly H w pair).trans (tookB_feedOnly _ w)
  rw [e] at hK
  obtain ⟨hp, hl, hc, he⟩ := hK.kept
  exact ⟨hp, hl, hc, he⟩

/-- The scalar registers and the masks that a form with operands leaves. -/
theorem registers_of_fed (hK : AccOnly ((H.tookA w pair).tookB w) K) : K.x = H.x ∧ K.f = H.f ∧ K.m = H.m := by
  obtain ⟨r, p, e⟩ := (tookA_feedOnly H w pair).trans (tookB_feedOnly _ w)
  rw [e] at hK
  obtain ⟨v, d, c, rfl⟩ := hK
  exact ⟨rfl, rfl, rfl⟩

end

section
variable {H : Hart} {integer : Bool} {w : VFields} {pair : Bool} {A B : List Byte}

/-- Each accumulator of the region takes its value and every other keeps its own (R99, R100). -/
theorem acc_multiplied (hM : H.shapeM ≤ 128) (hN : H.shapeN ≤ 2 * H.lanes) {m n : Nat} (hm : m < 128)
    (hn : n < 2 * H.lanes) :
    (m < H.shapeM ∧ n < H.shapeN → (H.multiplied integer w pair A B).acc m n =
        (H.mmaValue integer w A B (m, n) (H.acc m n)).1) ∧
      (¬ (m < H.shapeM ∧ n < H.shapeN) → (H.multiplied integer w pair A B).acc m n = H.acc m n) := by
  obtain ⟨r, p, hK⟩ := (tookA_feedOnly H w pair).trans (tookB_feedOnly (H.tookA w pair) w)
  unfold Hart.multiplied Hart.accumulated
  rw [hK]
  obtain ⟨hin, hout⟩ := acc_fill_region (H := { H with rings := r, ports := p })
    (f := fun p => H.mmaValue integer w A B p (H.acc p.1 p.2)) hM hN hm hn
  refine ⟨fun h => ?_, hout⟩
  rw [show (H.mmaValue integer w A B (m, n) (H.acc m n)).1 = _ from
    (Nat.mod_eq_of_lt (mmaValue_lt H integer w A B (m, n) (acc_lt H m n))).symm]
  exact hin h

end

/-- The bits of a form with ring registers name two rings (R292). -/
theorem rings_of_ringFormOk {w : VFields} (h : ringFormOk w = true) :
    w.vb.toNat < 8 ∧ w.va.toNat < 8 ∧ w.va ≠ w.vb := by
  simp only [ringFormOk, ringReg, Bool.and_eq_true, decide_eq_true_eq, bne_iff_ne] at h
  obtain ⟨⟨⟨⟨⟨⟨⟨⟨ha, hb⟩, hne⟩, -⟩, -⟩, -⟩, -⟩, -⟩, -⟩ := h
  exact ⟨by omega, by omega, hne⟩

theorem ringFormOk_of_fieldsOk {o : VOp} {w : VFields} (ho : o = .mma ∨ o = .mmaInt ∨ o = .mtern ∨ o = .msound)
    (h : o.fieldsOk w = true) : ringFormOk w = true := by
  rcases ho with rfl | rfl | rfl | rfl <;> simp_all [VOp.fieldsOk]

/-- The hypotheses of the statement feed a form. -/
theorem fed_of {s : State} {o : VOp} {w : VFields} {A B : List Byte}
    (ho : o = .mma ∨ o = .mmaInt ∨ o = .mtern ∨ o = .msound) (hi : Claim.Issues s o w) (hk : Claim.NoneKept s)
    (hB : Claim.Entry s w.vb.toNat (operandBytes w.fmtB s.me.shapeN s.me.shapeK) B)
    (hA : w.sel.getLsbD 7 = false ∨ (s.me.paired = true ∧ s.me.primary = true ∧
        (s.me.port s.me.pairPort).peer ≠ s.cur ∧ s.crossLoad (s.me.port s.me.pairPort) + A.length ≤ 65536) →
      Claim.Entry s w.va.toNat (operandBytes w.fmt.toNat s.me.shapeM s.me.shapeK) A)
    (hp : w.sel.getLsbD 7 = true → s.me.paired = true ∧
      (s.me.primary = true → (s.me.port s.me.pairPort).peer ≠ s.cur ∧
        s.crossLoad (s.me.port s.me.pairPort) + A.length ≤ 65536) ∧
      (s.me.primary = false → ∃ rest, (s.me.port s.me.pairPort).items =
        .entryA s.me.shapeM s.me.shapeK w.fmt A :: rest)) : Fed s w (w.selNat 7 1 == 1) A B := by
  rw [selNat_eq_one]
  have htakes : s.me.takesItem (w.sel.getLsbD 7) = (w.sel.getLsbD 7 && s.me.paired && !s.me.primary) := rfl
  refine ⟨hk.1, fun h => (hp h).1, fun h => ?_, fun h => ?_, hB,
    rings_of_ringFormOk (ringFormOk_of_fieldsOk ho hi.fields), fun h ht => ?_⟩
  · cases hb : w.sel.getLsbD 7 with
    | false => exact hA (.inl hb)
    | true =>
      obtain ⟨hpaired, hprim, -⟩ := hp hb
      have hpr : s.me.primary = true := by
        rw [htakes, hb, hpaired] at h
        simpa using h
      exact hA (.inr ⟨hpaired, hpr, hprim hpr⟩)
  · simp only [htakes, Bool.and_eq_true, Bool.not_eq_true'] at h
    exact (hp h.1.1).2.2 h.2
  · obtain ⟨hpaired, hprim, -⟩ := hp h
    have hpr : s.me.primary = true := by
      rw [htakes, h, hpaired] at ht
      simpa using ht
    exact (hprim hpr).2

/-- A multiply-accumulate form that is fed retires with the products added (R99, R100, R291, R297). -/
theorem mma_retires {i : Instr} {o : VOp} {s : State} {w : VFields} {A B : List Byte} (integer : Bool)
    (hx : exec i s = solo o w s) (ho : o = .mma ∨ o = .mmaInt ∨ o = .mtern)
    (hform : oneForm s.oneCtx ⟨0, o, w⟩ = mmaForm integer w) (hi : Claim.Issues s o w)
    (hM : s.me.shapeM ≤ 128) (hN : s.me.shapeN ≤ 2 * s.me.lanes) (h : Fed s w (w.selNat 7 1 == 1) A B)
    (hp : w.sel.getLsbD 7 = true → s.me.primary = true → (s.me.port s.me.pairPort).peer ≠ s.cur) :
    ∃ t, exec i s = .next t ∧ Claim.Retired s t ∧ t.me.x = s.me.x ∧ t.me.f = s.me.f ∧ t.me.m = s.me.m ∧ t.mem = s.mem ∧
      (t.me.ring (BitVec.ofNat 3 w.vb.toNat)).head =
        (s.me.ring (BitVec.ofNat 3 w.vb.toNat)).head + (if w.sel.getLsbD 8 then 0 else 1) ∧
      (w.sel.getLsbD 7 = false ∨ s.me.primary = true → (t.me.ring (BitVec.ofNat 3 w.va.toNat)).head =
        (s.me.ring (BitVec.ofNat 3 w.va.toNat)).head + (if w.sel.getLsbD 9 then 0 else 1)) ∧
      (∀ m n, m < 128 → n < 2 * s.me.lanes →
        (m < s.me.shapeM ∧ n < s.me.shapeN → t.me.acc m n = (s.me.mmaValue integer w A B (m, n) (s.me.acc m n)).1) ∧
        (¬ (m < s.me.shapeM ∧ n < s.me.shapeN) → t.me.acc m n = s.me.acc m n)) ∧
      (w.sel.getLsbD 7 = true → s.me.primary = true → ∀ q,
        (s.hart (s.me.port s.me.pairPort).peer).ports[(s.me.port s.me.pairPort).peerPort]? = some q →
        s.me.ports[s.me.pairPort]? = some (s.me.port s.me.pairPort) →
        (t.hart (s.me.port s.me.pairPort).peer).ports[(s.me.port s.me.pairPort).peerPort]? =
          some { q with flight := q.flight ++ [.entryA s.me.shapeM s.me.shapeK w.fmt A] }) := by
  have hmx : o ∈ matrixOps := by rcases ho with rfl | rfl | rfl <;> decide
  obtain ⟨hvb, hva, hne⟩ := h.apart
  have hrings := ring_names_ne hva hvb hne
  have hpaired := h.paired
  have htakes : s.me.takesItem (w.selNat 7 1 == 1) = (w.sel.getLsbD 7 && s.me.paired && !s.me.primary) := by
    rw [selNat_eq_one]
    rfl
  have htook : w.sel.getLsbD 7 = false ∨ s.me.primary = true → s.me.takesItem (w.selNat 7 1 == 1) = false := by
    rw [htakes]
    rintro (h | h) <;> rw [h] <;> simp
  obtain ⟨t, hrun, hmem, ⟨J, hme⟩, hsent⟩ := mma_runs integer hx hmx hform hi h (fun hb ht => by
    rw [selNat_eq_one] at hb hpaired
    rw [htakes, hb, hpaired hb] at ht
    exact hp hb (by simpa using ht))
  have hfed := multiplied_accOnly s.me integer w (w.selNat 7 1 == 1) A B
  have hheadb := head_of_fed_b hfed hrings.symm
  have hheada := head_of_fed_a hfed hrings
  obtain ⟨hregx, hregf, hregm⟩ := registers_of_fed hfed
  refine ⟨t, hrun, retired_of_kept (kept_of_fed hfed) hme, ?_, ?_, ?_, hmem, ?_, fun ha => ?_,
    fun m n hm hn => ?_, fun hb hprim q hq hport => ?_⟩
  · rw [hme]
    exact hregx
  · rw [hme]
    exact hregf
  · rw [hme]
    exact hregm
  · rw [hme]
    exact hheadb
  · rw [hme]
    exact hheada (htook ha)
  · rw [hme]
    exact acc_multiplied hM hN hm hn
  · exact hsent (by rw [selNat_eq_one]; exact hb) (htook (.inr hprim)) _ q hport hq

/-! #### A form that finds a ring empty (R291) -/

theorem ringCheck_empty {s : State} {q need : Nat} {pair : Bool} {G : Grp} (hG : G.h = s.me)
    (hon : (s.me.ring (BitVec.ofNat 3 q)).on = true) (hneed : need ≤ (s.me.ring (BitVec.ofNat 3 q)).size)
    (hocc : (s.me.ring (BitVec.ofNat 3 q)).occ = 0) (hM : s.me.shapeM ≠ 0) (hN : s.me.shapeN ≠ 0) (hK : s.me.shapeK ≠ 0) :
    ringCheck q need pair G s = .error (.wait (.ring q (pair && s.me.paired))) s := by
  unfold ringCheck
  rw [gop_bind_ok (gHart_ok G s), hG, gop_bind_ok (gCheck_ok hon _ _ _ _),
    gop_bind_ok (gCheck_ok (decide_eq_true ⟨hM, hN, hK⟩) _ _ _ _), gop_bind_ok (gCheck_ok (decide_eq_true hneed) _ _ _ _),
    if_pos hocc]
  rfl

/-- An unpaired form whose checks end in a wait ends so. -/
theorem mmaForm_waits {s : State} {w : VFields} {x : Wait} {integer : Bool} {G : Grp} (hb : (w.selNat 7 1 == 1) = false)
    (h : mmaChecks w false G s = .error (.wait x) s) : mmaForm integer w G s = .error (.wait x) s := by
  unfold mmaForm
  rw [hb, gop_bind_ok (gHart_ok G s), gop_bind_error h]

/-- An unpaired form waits for the first of its rings that is empty. -/
theorem mmaChecks_waits {s : State} {w : VFields} {G : Grp} {x : Wait} (hG : G.h = s.me)
    (h : ringCheck w.va.toNat (operandBytes w.fmt.toNat s.me.shapeM s.me.shapeK) false G s = .error (.wait x) s ∨
      (ringCheck w.va.toNat (operandBytes w.fmt.toNat s.me.shapeM s.me.shapeK) false G s = .ok ((), G) s ∧
        ringCheck w.vb.toNat (operandBytes w.fmtB s.me.shapeN s.me.shapeK) false G s = .error (.wait x) s)) :
    mmaChecks w false G s = .error (.wait x) s := by
  unfold mmaChecks
  rw [gop_bind_ok (pairLost_paired (by simp) G), gop_bind_ok (gHart_ok G s), hG]
  rw [show s.me.takesItem false = false from rfl, Bool.not_false, if_pos rfl]
  rcases h with h | ⟨ha, hb⟩
  · exact gop_bind_error h
  · exact (gop_bind_ok ha).trans (gop_bind_error hb)

/-- An unpaired ternary form whose ring is empty waits at the ring. -/
theorem mtern_waits {s : State} {w : VFields} (hi : Claim.Issues s .mtern w) (hb : w.sel.getLsbD 7 = false)
    (hM : 0 < s.me.shapeM) (hN : 0 < s.me.shapeN) (hK : 0 < s.me.shapeK) {q : BitVec 5} (hq : q ∈ [w.va, w.vb])
    (hon : (s.me.ring (BitVec.ofNat 3 q.toNat)).on = true) (hocc : (s.me.ring (BitVec.ofNat 3 q.toNat)).occ = 0)
    (hA : ∃ A, q = w.va ∨ Claim.Entry s w.va.toNat (operandBytes w.fmt.toNat s.me.shapeM s.me.shapeK) A)
    (hneed : operandBytes (if q = w.va then w.fmt.toNat else w.fmtB) (if q = w.va then s.me.shapeM else s.me.shapeN)
      s.me.shapeK ≤ (s.me.ring (BitVec.ofNat 3 q.toNat)).size) :
    exec (.mtern w) s = .next (s.waitIn (.ring q.toNat false)) := by
  have hform : oneForm s.oneCtx ⟨0, .mtern, w⟩ s.openGroup s = .error (.wait (.ring q.toNat false)) s := by
    show mmaForm true w s.openGroup s = _
    refine mmaForm_waits (by rw [selNat_eq_one, hb]) (mmaChecks_waits rfl ?_)
    by_cases he : q = w.va
    · subst he
      rw [if_pos rfl, if_pos rfl] at hneed
      exact .inl (ringCheck_empty rfl hon hneed hocc hM.ne' hN.ne' hK.ne')
    · have hqb : q = w.vb := by simpa [he] using hq
      obtain ⟨A, hA⟩ := hA
      rw [if_neg he, if_neg he] at hneed
      subst hqb
      exact .inr ⟨ringCheck_ok (hA.resolve_left he) rfl, ringCheck_empty rfl hon hneed hocc hM.ne' hN.ne' hK.ne'⟩
  show solo .mtern w s = _
  rw [solo_matrix (by decide) hi, runOneGroup_wait hform (by simp)]

end Sys2Proof.Machine

/-! ### Exchanges (R297, R300) -/

namespace Sys2Proof.Machine

/-- The value that an accumulator takes in an exchange, with the flags (R300). -/
def Hart.exchanged (H P : Hart) (add : Bool) (fmt : BitVec 5) (rm : BitVec 3) (p : Nat × Nat) : Nat × Flags :=
  if !add then (P.acc p.1 p.2, 0)
  else if fmt = 0 then ((H.acc p.1 p.2 + P.acc p.1 p.2) % 2 ^ 32, 0)
  else
    let x := (fmtF32.decode false (H.acc p.1 p.2)).add (H.rmode rm == .rdn) (fmtF32.decode false (P.acc p.1 p.2))
    let y := fmtF32.round (.mode (H.rmode rm)) false false x.1
    (y.1, x.2 ||| y.2)

theorem exchange_eq_fill (H P : Hart) (add : Bool) (fmt : BitVec 5) (rm : BitVec 3) :
    H.exchange P add fmt rm = H.fill (H.exchanged P add fmt rm) (region H.shapeM H.shapeN) := rfl

theorem exchange_accOnly (H P : Hart) (add : Bool) (fmt : BitVec 5) (rm : BitVec 3) :
    AccOnly H (H.exchange P add fmt rm) := fill_accOnly _ _ _

theorem exchanged_lt (H P : Hart) (add : Bool) (fmt : BitVec 5) (rm : BitVec 3) (p : Nat × Nat) :
    (H.exchanged P add fmt rm p).1 < 2 ^ 32 := by
  unfold Hart.exchanged
  split
  · exact acc_lt P p.1 p.2
  · split
    · exact Nat.mod_lt _ (Nat.two_pow_pos 32)
    · exact round_f32_lt _ _

theorem acc_exchange {H : Hart} (hM : H.shapeM ≤ 128) (hN : H.shapeN ≤ 2 * H.lanes) {m n : Nat} (hm : m < H.shapeM)
    (hn : n < H.shapeN) (P : Hart) (add : Bool) (fmt : BitVec 5) (rm : BitVec 3) :
    (H.exchange P add fmt rm).acc m n = (H.exchanged P add fmt rm (m, n)).1 := by
  rw [exchange_eq_fill, (acc_fill_region hM hN (by omega) (by omega)).1 ⟨hm, hn⟩]
  exact Nat.mod_eq_of_lt (exchanged_lt H P add fmt rm (m, n))

/-- The hart at the other end of the crossing of a pair. -/
def State.mate (s : State) : HartId := (s.me.port s.me.pairPort).peer

/-! #### A convoy of one slot that traps (R48) -/

section
variable (s : State) (h : HartId)

theorem forget_mem : (s.forget h false).mem = s.mem := by
  unfold State.forget State.forgetWhere
  split <;> rfl

theorem forget_cur : (s.forget h false).cur = s.cur := by
  unfold State.forget State.forgetWhere
  split <;> rfl

theorem hart_forget (k : HartId) : (s.forget h false).hart k = s.hart k := by
  unfold State.forget State.forgetWhere
  split <;> rfl

theorem me_forget : (s.forget h false).me = s.me := by
  unfold State.me
  rw [forget_cur, hart_forget]

/-- The only slot of a convoy traps: what was read early is given up, and the hart takes the trap. -/
theorem stopConvoy_trap (c : Cause) (v : Word) :
    s.stopConvoy 0 0 (.trap c v) = (s.forget s.cur false).updMe (fun H => H.trapOne c v) := by
  have hv : vstartOf true 0 0 = 0x40000 := by decide
  unfold State.stopConvoy State.trap
  dsimp only
  rw [updMe_updMe, hv]
  rfl

end

section
variable {s : State} {w : VFields}

theorem mxchgForm_waits (hp : s.me.paired = true) (hitems : (s.me.port s.me.pairPort).items = [])
    (hw : ∀ a f r, (s.hart s.mate).wait ≠ .mxchg a f r) :
    mxchgForm w s.openGroup s = .error (.wait (.mxchg (w.sel.getLsbD 8) w.fmt w.rm)) s := by
  unfold mxchgForm
  rw [gop_bind_ok (gHart_ok _ s), show s.openGroup.h = s.me from rfl, hp, Bool.not_true, if_neg Bool.false_ne_true]
  refine (gop_bind_ok (gState_ok _ s)).trans ?_
  rw [hitems, selNat_eq_one]
  dsimp only
  unfold State.mate at hw
  generalize (s.hart (s.me.port s.me.pairPort).peer).wait = x at hw ⊢
  cases x with
  | mxchg a f r => exact absurd rfl (hw a f r)
  | _ => rfl

/-- The harts meet: both wait in the exchange, and nothing is before it on the crossing (R297). -/
structure Meeting (s : State) (add : Bool) (fmt : BitVec 5) (rm : BitVec 3) : Prop where
  paired : s.me.paired = true
  items : (s.me.port s.me.pairPort).items = []
  flight : (s.me.port s.me.pairPort).flight = []
  wait : (s.hart s.mate).wait = .mxchg add fmt rm
  run : (s.hart s.mate).run = .waiting
  itemsThere : ((s.hart s.mate).port (s.me.port s.me.pairPort).peerPort).items = []
  flightThere : ((s.hart s.mate).port (s.me.port s.me.pairPort).peerPort).flight = []

theorem mxchgForm_meets {fmt' : BitVec 5} {rm' : BitVec 3} {add' : Bool} (h : Meeting s add' fmt' rm')
    (hM : s.me.shapeM = (s.hart s.mate).shapeM) (hN : s.me.shapeN = (s.hart s.mate).shapeN)
    (ha : w.sel.getLsbD 8 = add') (hf : w.fmt = fmt') : mxchgForm w s.openGroup s =
      .ok ((), { s.openGroup with h := s.me.exchange (s.hart s.mate) add' w.fmt w.rm })
        (s.updHart s.mate (fun P => (P.exchange s.me add' w.fmt rm').retireOne)) := by
  obtain ⟨hp, hi, hfl, hw, hr, hit, hft⟩ := h
  unfold mxchgForm
  rw [gop_bind_ok (gHart_ok _ s), show s.openGroup.h = s.me from rfl, hp, Bool.not_true, if_neg Bool.false_ne_true]
  refine (gop_bind_ok (gState_ok _ s)).trans ?_
  unfold State.mate at *
  rw [hi, selNat_eq_one, hw]
  dsimp only
  rw [if_pos ⟨hr, by rw [hfl]; rfl, by rw [hit]; rfl, by rw [hft]; rfl⟩, if_pos ⟨hM, hN, ha, hf⟩]
  subst ha
  subst hf
  rfl

/-- A mismatch of the two forms traps in both harts (R297, R300). -/
theorem mxchgForm_clashes {fmt' : BitVec 5} {rm' : BitVec 3} {add' : Bool} (h : Meeting s add' fmt' rm')
    (hne : ¬ ((s.hart s.mate).shapeM = s.me.shapeM ∧ (s.hart s.mate).shapeN = s.me.shapeN ∧ add' = w.sel.getLsbD 8 ∧
      fmt' = w.fmt)) : mxchgForm w s.openGroup s =
      .error (.trap .matrixShape 0) (s.updHart s.mate (fun P => P.trapOne .matrixShape 0)) := by
  obtain ⟨hp, hi, hfl, hw, hr, hit, hft⟩ := h
  unfold mxchgForm
  rw [gop_bind_ok (gHart_ok _ s), show s.openGroup.h = s.me from rfl, hp, Bool.not_true, if_neg Bool.false_ne_true]
  refine (gop_bind_ok (gState_ok _ s)).trans ?_
  unfold State.mate at *
  rw [hi, selNat_eq_one, hw]
  dsimp only
  rw [if_pos ⟨hr, by rw [hfl]; rfl, by rw [hit]; rfl, by rw [hft]; rfl⟩,
    if_neg fun e => hne ⟨e.1.symm, e.2.1.symm, e.2.2.1.symm, e.2.2.2.symm⟩]
  rfl

/-! #### The runs -/

theorem mxchg_waits (hi : Claim.Issues s .mxchg w) (hp : s.me.paired = true)
    (hitems : (s.me.port s.me.pairPort).items = []) (hw : ∀ a f r, (s.hart s.mate).wait ≠ .mxchg a f r) :
    exec (.mxchg w) s = .next (s.waitIn (.mxchg (w.sel.getLsbD 8) w.fmt w.rm)) := by
  have hform : oneForm s.oneCtx ⟨0, .mxchg, w⟩ s.openGroup s = _ := mxchgForm_waits hp hitems hw
  show solo .mxchg w s = _
  rw [solo_matrix (by decide) hi, runOneGroup_wait hform (by simp)]

theorem mxchg_meets (hi : Claim.Issues s .mxchg w) {fmt' : BitVec 5} {rm' : BitVec 3} {add' : Bool}
    (h : Meeting s add' fmt' rm') (hne : s.mate ≠ s.cur)
    (hM : s.me.shapeM = (s.hart s.mate).shapeM) (hN : s.me.shapeN = (s.hart s.mate).shapeN)
    (ha : w.sel.getLsbD 8 = add') (hf : w.fmt = fmt') :
    ∃ t, exec (.mxchg w) s = .next t ∧ Claim.Retired s t ∧ t.mem = s.mem ∧
      (∃ H, t.me = (s.me.exchange (s.hart s.mate) add' w.fmt w.rm).left H) ∧
      t.hart s.mate = ((s.hart s.mate).exchange s.me add' w.fmt rm').retireOne := by
  have hform : oneForm s.oneCtx ⟨0, .mxchg, w⟩ s.openGroup s = _ := mxchgForm_meets h hM hN ha hf
  have hme := me_updMe (s.updHart s.mate (fun P => (P.exchange s.me add' w.fmt rm').retireOne))
    (s.me.exchange (s.hart s.mate) add' w.fmt w.rm).left
  refine ⟨_, exec_plain rfl (by decide) hi hform (.inr rfl) rfl rfl ⟨rfl, rfl, rfl⟩, ?_, rfl, ⟨_, hme⟩, ?_⟩
  · exact retired_of_kept (exchange_accOnly _ _ _ _ _).kept hme
  · rw [hart_updMe_ne _ _ _ (by rw [updHart_cur]; exact hne), hart_updHart_same]

theorem mxchg_clashes (hi : Claim.Issues s .mxchg w) {fmt' : BitVec 5} {rm' : BitVec 3} {add' : Bool}
    (h : Meeting s add' fmt' rm') (hne : s.mate ≠ s.cur)
    (hx : ¬ ((s.hart s.mate).shapeM = s.me.shapeM ∧ (s.hart s.mate).shapeN = s.me.shapeN ∧ add' = w.sel.getLsbD 8 ∧
      fmt' = w.fmt)) :
    ∃ t, exec (.mxchg w) s = .next t ∧ t.mem = s.mem ∧ t.me = s.me.trapOne .matrixShape 0 ∧
      t.hart s.mate = (s.hart s.mate).trapOne .matrixShape 0 := by
  have hform : oneForm s.oneCtx ⟨0, .mxchg, w⟩ s.openGroup s = _ := mxchgForm_clashes h hx
  have hrun : exec (.mxchg w) s = .next ((s.updHart s.mate (fun P => P.trapOne .matrixShape 0)).stopConvoy 0 0
      (.trap .matrixShape 0)) := by
    show solo .mxchg w s = _
    rw [solo_matrix (by decide) hi, runOneGroup_trap hform]
  rw [stopConvoy_trap] at hrun
  refine ⟨_, hrun, forget_mem _ _, ?_, ?_⟩
  · rw [me_updMe, me_forget]
    exact congrArg (fun H : Hart => H.trapOne .matrixShape 0) (hart_updHart_ne s _ _ _ hne.symm)
  · rw [hart_updMe_ne _ _ _ (by rw [forget_cur]; exact hne), hart_forget, hart_updHart_same]

/-- What the accumulators of two harts hold after an exchange of a kind (R300). -/
theorem mxchg_exchanges (hi : Claim.Issues s .mxchg w) {rm' : BitVec 3} (h : Meeting s (w.sel.getLsbD 8) w.fmt rm')
    (hne : s.mate ≠ s.cur) (hM : (s.hart s.mate).shapeM = s.me.shapeM) (hN : (s.hart s.mate).shapeN = s.me.shapeN)
    (hL : (s.hart s.mate).lanes = s.me.lanes) (hM' : s.me.shapeM ≤ 128) (hN' : s.me.shapeN ≤ 2 * s.me.lanes) :
    ∃ t, exec (.mxchg w) s = .next t ∧ Claim.Retired s t ∧ t.mem = s.mem ∧
      (t.hart s.mate).pc = (s.hart s.mate).pc + 12 ∧ (t.hart s.mate).run = .running ∧
      ∀ m n, m < s.me.shapeM ∧ n < s.me.shapeN →
        t.me.acc m n = (s.me.exchanged (s.hart s.mate) (w.sel.getLsbD 8) w.fmt w.rm (m, n)).1 ∧
        (t.hart s.mate).acc m n = ((s.hart s.mate).exchanged s.me (w.sel.getLsbD 8) w.fmt rm' (m, n)).1 := by
  obtain ⟨t, hrun, hret, hmem, ⟨J, hme⟩, hpeer⟩ := mxchg_meets hi h hne hM.symm hN.symm rfl rfl
  obtain ⟨hpc, -, -, -⟩ := (exchange_accOnly (s.hart s.mate) s.me (w.sel.getLsbD 8) w.fmt rm').kept
  refine ⟨t, hrun, hret, hmem, ?_, by rw [hpeer]; rfl, fun m n hmn => ⟨?_, ?_⟩⟩
  · rw [hpeer]
    exact congrArg (· + 12) hpc
  · rw [hme]
    exact acc_exchange hM' hN' hmn.1 hmn.2 _ _ _ _
  · rw [hpeer]
    exact acc_exchange (by rw [hM]; exact hM') (by rw [hN, hL]; exact hN') (by rw [hM]; exact hmn.1)
      (by rw [hN]; exact hmn.2) _ _ _ _

theorem exchanged_sum_f32 (H P : Hart) {fmt : BitVec 5} (hf : fmt ≠ 0) (rm : BitVec 3) (p : Nat × Nat) :
    (H.exchanged P true fmt rm p).1 = (fmtF32.round (.mode (H.rmode rm)) false false
      ((fmtF32.decode false (H.acc p.1 p.2)).add (H.rmode rm == .rdn) (fmtF32.decode false (P.acc p.1 p.2))).1).1 := by
  unfold Hart.exchanged
  rw [if_neg (by simp), if_neg hf]

end

end Sys2Proof.Machine

/-! ### What a write of bytes leaves under a key (R105, R117) -/

namespace Sys2Proof.Machine

theorem assoc_assocSet {κ α : Type} [DecidableEq κ] (l : List (κ × α)) (k j : κ) (a : α) :
    assoc (assocSet l k a) j = if j = k then some a else assoc l j := by
  induction l with
  | nil =>
    by_cases h : j = k
    · simp [assocSet, assoc, h]
    · simp [assocSet, assoc, h, Ne.symm h]
  | cons e t ih =>
    obtain ⟨i, b⟩ := e
    by_cases hi : i = k
    · subst hi
      by_cases hj : j = i
      · simp [assocSet, assoc, hj]
      · simp [assocSet, assoc, hj, Ne.symm hj]
    · by_cases hj : i = j
      · subst hj
        simp [assocSet, assoc, hi]
      · simp [assocSet, assoc, hi, hj, ih]

/-- A sector is encrypted as a whole (R105, R116). -/
theorem encrypted_of_sector {a c : Nat} (h : a / 32 = c / 32) : encrypted a = encrypted c := by
  have hr (n : Nat) (k : Nat) (hk : k % 32 = 0) : (a < k ↔ c < k) ∧ n = n := ⟨by omega, rfl⟩
  have h1 : (a < 0x6000000000) = (c < 0x6000000000) := by simp only [eq_iff_iff]; omega
  have h2 : (a < 0x8000000000) = (c < 0x8000000000) := by simp only [eq_iff_iff]; omega
  have h3 : (a < 0x8038000000) = (c < 0x8038000000) := by simp only [eq_iff_iff]; omega
  have h4 : (a < 0x10000000000) = (c < 0x10000000000) := by simp only [eq_iff_iff]; omega
  have h5 : (a < 0x40000000000) = (c < 0x40000000000) := by simp only [eq_iff_iff]; omega
  have h6 : (a < 0x1000000000000) = (c < 0x1000000000000) := by simp only [eq_iff_iff]; omega
  have h7 : (a < 0xF000000000000) = (c < 0xF000000000000) := by simp only [eq_iff_iff]; omega
  have h8 : (a < 0xF800000000000) = (c < 0xF800000000000) := by simp only [eq_iff_iff]; omega
  have h9 : (a < 0x10000000000000) = (c < 0x10000000000000) := by simp only [eq_iff_iff]; omega
  unfold encrypted regionOf
  simp only [h1, h2, h3, h4, h5, h6, h7, h8, h9]

theorem memBytes_congr {m m' : List Host.Cell} {a n : Nat} (h : ∀ i < n, memByte m (a + i) = memByte m' (a + i)) :
    memBytes m a n = memBytes m' a n := by
  induction n generalizing a with
  | zero => rfl
  | succ n ih =>
    have h0 := h 0 (by omega)
    rw [memBytes, memBytes, ih fun i hi => by
      have := h (i + 1) (by omega)
      rwa [show a + (i + 1) = a + 1 + i by omega] at this, show a = a + 0 from rfl, h0]

/-- The byte at a place depends on its sector's bytes and key alone (R117). -/
theorem byteUnder_congr {s t : State} {a : Nat} (hk : t.keys = s.keys)
    (hs : assoc t.sectorKey (a / 32) = assoc s.sectorKey (a / 32))
    (hm : ∀ c, c / 32 = a / 32 → memByte t.mem c = memByte s.mem c) (key : Nat) :
    t.byteUnder a key = s.byteUnder a key := by
  have hb : memBytes t.mem (a / 32 * 32) 32 = memBytes s.mem (a / 32 * 32) 32 :=
    memBytes_congr fun i hi => hm _ (by omega)
  have hkey : t.key key = s.key key := by
    unfold State.key
    rw [hk]
  unfold State.byteUnder
  rw [hs, hm a rfl, hb, hkey]

theorem length_bytesUnder (s : State) (c key n : Nat) : (s.bytesUnder c key n).length = n := by
  induction n generalizing c with
  | zero => rfl
  | succ n ih => rw [State.bytesUnder, List.length_cons, ih]

theorem getElem_bytesUnder (s : State) (c key n i : Nat) (h : i < (s.bytesUnder c key n).length) :
    (s.bytesUnder c key n)[i] = s.byteUnder (c + i) key := by
  induction n generalizing c i with
  | zero => simp [State.bytesUnder] at h
  | succ n ih =>
    cases i with
    | zero => rfl
    | succ i =>
      simp only [State.bytesUnder, List.getElem_cons_succ]
      rw [ih, show c + 1 + i = c + (i + 1) by omega]

theorem memByte_memPutAll {m : List Host.Cell} (h : Memory.wf m = true) (a : Nat) (bs : List Byte) {i : Nat}
    (hi : i < bs.length) : memByte (memPutAll m a bs) (a + i) = bs[i] := by
  induction bs generalizing m a i with
  | nil => simp at hi
  | cons b t ih =>
    cases i with
    | zero =>
      rw [Nat.add_zero, memPutAll, memByte_memPutAll_ne (memPut_wf h a b) _ _ _ (by omega),
        memByte_memPut_same h, List.getElem_cons_zero]
    | succ i =>
      rw [memPutAll, show a + (i + 1) = a + 1 + i by omega, ih (memPut_wf h a b) (a + 1) (by simpa using hi)]
      rfl

/-! #### A sector put under a key -/

section
variable {s : State} {sector key : Nat}

theorem rekey_keys : (s.rekey sector key).keys = s.keys := by
  unfold State.rekey
  split
  · split <;> rfl
  · rfl

theorem assoc_rekey_same : assoc (s.rekey sector key).sectorKey sector = some (s.key key) := by
  unfold State.rekey
  split
  · rename_i k h
    split
    · rename_i hk
      rw [h, hk]
    · rw [assoc_assocSet, if_pos rfl]
  · rw [assoc_assocSet, if_pos rfl]

theorem assoc_rekey_ne {q : Nat} (hq : q ≠ sector) :
    assoc (s.rekey sector key).sectorKey q = assoc s.sectorKey q := by
  unfold State.rekey
  split
  · split
    · rfl
    · rw [assoc_assocSet, if_neg hq]
  · rw [assoc_assocSet, if_neg hq]

theorem rekey_of_held (h : ∀ k, assoc s.sectorKey sector = some k → k = s.key key) :
    (s.rekey sector key).mem = s.mem := by
  unfold State.rekey
  split
  · rename_i k hk
    rw [if_pos (h k hk)]
  · rfl

theorem rekey_of_other {k : KeySlot} (hk : assoc s.sectorKey sector = some k) (hne : k ≠ s.key key) :
    (s.rekey sector key).mem = memPutAll s.mem (sector * 32) (s.bytesUnder (sector * 32) key 32) := by
  unfold State.rekey
  rw [hk]
  dsimp only
  rw [if_neg hne]

theorem byteUnder_of_held {a : Nat} (h : ∀ k, assoc s.sectorKey (a / 32) = some k → k = s.key key) :
    s.byteUnder a key = memByte s.mem a := by
  unfold State.byteUnder
  split
  · split
    · rename_i k hk
      rw [if_pos (h k hk)]
    · rfl
  · rfl

theorem memByte_rekey_ne (h : Memory.wf s.mem = true) {a : Nat} (ha : a / 32 ≠ sector) :
    memByte (s.rekey sector key).mem a = memByte s.mem a := by
  by_cases hk : ∀ k, assoc s.sectorKey sector = some k → k = s.key key
  · rw [rekey_of_held hk]
  · push Not at hk
    obtain ⟨k, hk, hne⟩ := hk
    rw [rekey_of_other hk hne]
    exact memByte_memPutAll_ne h _ _ _ (by rw [length_bytesUnder]; omega)

/-- A sector put under a key holds what it reads as under that key. -/
theorem memByte_rekey_same (h : Memory.wf s.mem = true) {a : Nat} (ha : a / 32 = sector) :
    memByte (s.rekey sector key).mem a = s.byteUnder a key := by
  subst ha
  by_cases hk : ∀ k, assoc s.sectorKey (a / 32) = some k → k = s.key key
  · rw [rekey_of_held hk, byteUnder_of_held hk]
  · push Not at hk
    obtain ⟨k, hk, hne⟩ := hk
    have hlt : a % 32 < (s.bytesUnder (a / 32 * 32) key 32).length := by
      rw [length_bytesUnder]
      omega
    have hput := memByte_memPutAll h (a / 32 * 32) _ hlt
    rw [getElem_bytesUnder, show a / 32 * 32 + a % 32 = a by omega] at hput
    rw [rekey_of_other hk hne, hput]

end

/-! #### One byte written -/

section
variable {s : State} (h : Memory.wf s.mem = true) (cell key : Nat) (b : Byte)
include h

theorem byteUnder_putByte_far {a : Nat} (ha : a / 32 ≠ cell / 32) (k : Nat) :
    (s.putByte cell key b).byteUnder a k = s.byteUnder a k := by
  have hne (c : Nat) (hc : c / 32 = a / 32) : c ≠ cell := fun e => ha (by rw [← hc, e])
  unfold State.putByte
  dsimp only
  split
  · refine byteUnder_congr (s := s) ?_ ?_ (fun c hc => ?_) k
    · exact rekey_keys
    · exact assoc_rekey_ne ha
    · exact (memByte_memPut_ne (rekey_wf h _ _) _ _ _ (hne c hc)).trans (memByte_rekey_ne h (by rw [hc]; exact ha))
  · refine byteUnder_congr (s := s) ?_ ?_ (fun c hc => ?_) k
    · rfl
    · rfl
    · exact memByte_memPut_ne h _ _ _ (hne c hc)

/-- Under the key of the write, the sector of the cell holds what it read as, and the byte at the cell. -/
theorem byteUnder_putByte_near {a : Nat} (ha : a / 32 = cell / 32) :
    (s.putByte cell key b).byteUnder a key = if a = cell then b else s.byteUnder a key := by
  have he := encrypted_of_sector ha
  by_cases hc : encrypted cell = true
  · have hs : assoc (s.putByte cell key b).sectorKey (a / 32) = some (s.key key) := by
      unfold State.putByte
      rw [if_pos hc, ha]
      exact assoc_rekey_same
    have hk : (s.putByte cell key b).key key = s.key key := by
      unfold State.putByte State.key
      rw [if_pos hc]
      rw [rekey_keys]
    have hm : (s.putByte cell key b).byteUnder a key = memByte (s.putByte cell key b).mem a := by
      unfold State.byteUnder
      rw [he, if_pos hc, hs, hk]
      dsimp only
      rw [if_pos rfl]
    rw [hm]
    unfold State.putByte
    rw [if_pos hc]
    split
    · rename_i e
      rw [e]
      exact memByte_memPut_same (rekey_wf h _ _) _ _
    · rename_i e
      exact (memByte_memPut_ne (rekey_wf h _ _) _ _ _ e).trans (memByte_rekey_same h ha)
  · exact byteUnder_putByte_plain h key b (by simpa using hc) a key (by rw [he]; simpa using hc)

theorem byteUnder_putByte (a : Nat) :
    (s.putByte cell key b).byteUnder a key = if a = cell then b else s.byteUnder a key := by
  by_cases ha : a / 32 = cell / 32
  · exact byteUnder_putByte_near h cell key b ha
  · rw [byteUnder_putByte_far h cell key b ha, if_neg fun e => ha (by rw [e])]

end

end Sys2Proof.Machine

/-! ### The stores of a group that are performed at once (R46, R264, R338) -/

namespace Sys2Proof.Machine

/-! #### The byte that a store writes at a cell -/

/-- The byte that a list of bytes from a cell up has for a cell. -/
def byteAt (cell : Nat) (bs : List (Option Byte)) (a : Nat) : Option Byte :=
  if cell ≤ a then (bs[a - cell]?).join else none

theorem at_eq_byteAt (d : Delayed) (a : Nat) : d.at a = byteAt d.pa d.bytes a := rfl

theorem byteAt_nil (cell a : Nat) : byteAt cell [] a = none := by
  unfold byteAt
  simp

theorem byteAt_cons (cell : Nat) (b : Option Byte) (t : List (Option Byte)) (a : Nat) :
    byteAt cell (b :: t) a = if a = cell then b else byteAt (cell + 1) t a := by
  unfold byteAt
  by_cases he : a = cell
  · subst he
    simp
  · by_cases hl : cell ≤ a
    · rw [if_pos hl, if_neg he, if_pos (by omega), show a - cell = a - (cell + 1) + 1 by omega,
        List.getElem?_cons_succ]
    · rw [if_neg hl, if_neg he, if_neg (by omega)]

theorem byteAt_outside {cell : Nat} {bs : List (Option Byte)} {a : Nat} (h : a < cell ∨ cell + bs.length ≤ a) :
    byteAt cell bs a = none := by
  unfold byteAt
  split
  · rw [List.getElem?_eq_none (by omega)]
    rfl
  · rfl

/-! #### Bytes written from a cell up -/

section
variable {s : State} (h : Memory.wf s.mem = true) (cell key : Nat) (bs : List (Option Byte))
include h

/-- Under the key of a write, each cell that it names holds its byte, and every other cell what it held (R117). -/
theorem byteUnder_putSome (a : Nat) :
    (s.putSome cell key bs).byteUnder a key = (byteAt cell bs a).getD (s.byteUnder a key) := by
  induction bs generalizing s cell with
  | nil => rw [byteAt_nil]; rfl
  | cons b t ih =>
    rw [byteAt_cons]
    cases b with
    | none =>
      rw [show s.putSome cell key (none :: t) = s.putSome (cell + 1) key t from rfl, ih h]
      split
      · rename_i e
        rw [byteAt_outside (by omega)]
      · rfl
    | some b =>
      rw [show s.putSome cell key (some b :: t) = (s.putByte cell key b).putSome (cell + 1) key t from rfl,
        ih (putByte_wf h _ _ _), byteUnder_putByte h]
      split
      · rename_i e
        rw [byteAt_outside (by omega)]
        rfl
      · rfl

/-- Under every key, a sector that a write does not touch holds what it held. -/
theorem byteUnder_putSome_far {a : Nat} (ha : ∀ c, c / 32 = a / 32 → byteAt cell bs c = none) (k : Nat) :
    (s.putSome cell key bs).byteUnder a k = s.byteUnder a k := by
  induction bs generalizing s cell with
  | nil => rfl
  | cons b t ih =>
    have ht (c : Nat) (hc : c / 32 = a / 32) : byteAt (cell + 1) t c = none := by
      have := ha c hc
      rw [byteAt_cons] at this
      by_cases he : c = cell
      · exact byteAt_outside (by omega)
      · rwa [if_neg he] at this
    cases b with
    | none => exact ih h _ ht
    | some b =>
      have hne : a / 32 ≠ cell / 32 := fun e => by
        have := ha cell e.symm
        rw [byteAt_cons, if_pos rfl] at this
        cases this
      exact (ih (putByte_wf h _ _ _) _ ht).trans (byteUnder_putByte_far h cell key b hne k)

end

/-! #### What a store changes -/

/-- A state with memory, its keys, its releases and its poison replaced. -/
def State.restored (s : State) (m : List Host.Cell) (k : List (Nat × KeySlot)) (r : List Rel) (p : List Nat) : State :=
  { s with mem := m, sectorKey := k, rels := r, poison := p }

/-- A hart with the timing of its next stores replaced. -/
def Hart.withDelays (H : Hart) (D : List Bool) : Hart := { H with delays := D }

/-- Two states differ at most in memory, its keys, releases and poison, and in how the hart's next stores are performed. -/
def StoreOnly (s t : State) : Prop :=
  ∃ m k r p D, t = (s.restored m k r p).updMe (fun H => H.withDelays D)

/-- No store is outstanding, the hart's stores are performed at once, nothing read early is kept, and memory is in its
canonical form. -/
structure Calm (s : State) : Prop where
  none : s.delayed = []
  once : ∀ b ∈ s.me.delays, b = false
  kept : s.early = []
  wf : Memory.wf s.mem = true

theorem updMe_id (s : State) : s.updMe id = s := by
  unfold State.updMe State.updHart State.hart
  simp

theorem withDelays_same (s : State) : s.updMe (fun H => H.withDelays s.me.delays) = s :=
  (updMe_congr (f := fun H => H.withDelays s.me.delays) (g := id) rfl).trans (updMe_id s)

theorem StoreOnly.refl (s : State) : StoreOnly s s :=
  ⟨s.mem, s.sectorKey, s.rels, s.poison, s.me.delays, (withDelays_same s).symm⟩

theorem restored_only (s : State) (m : List Host.Cell) (k : List (Nat × KeySlot)) (r : List Rel) (p : List Nat) :
    StoreOnly s (s.restored m k r p) :=
  ⟨m, k, r, p, s.me.delays, (withDelays_same (s.restored m k r p)).symm⟩

theorem restored_updMe (s : State) (f : Hart → Hart) (m : List Host.Cell) (k : List (Nat × KeySlot)) (r : List Rel)
    (p : List Nat) : (s.updMe f).restored m k r p = (s.restored m k r p).updMe f := rfl

theorem StoreOnly.trans {s t u : State} (h : StoreOnly s t) (k : StoreOnly t u) : StoreOnly s u := by
  obtain ⟨m, k', r, p, D, rfl⟩ := h
  obtain ⟨m', k'', r', p', D', rfl⟩ := k
  refine ⟨m', k'', r', p', D', ?_⟩
  rw [restored_updMe, updMe_updMe]
  rfl

theorem putSome_eq (s : State) (cell key : Nat) (bs : List (Option Byte)) :
    ∃ m k, s.putSome cell key bs = { s with mem := m, sectorKey := k } := by
  induction bs generalizing s cell with
  | nil => exact ⟨s.mem, s.sectorKey, rfl⟩
  | cons b t ih =>
    cases b with
    | none => exact ih s (cell + 1)
    | some b =>
      obtain ⟨m, k, hp⟩ : ∃ m k, s.putByte cell key b = { s with mem := m, sectorKey := k } := by
        unfold State.putByte State.rekey
        split
        · split
          · split
            · exact ⟨_, s.sectorKey, rfl⟩
            · exact ⟨_, _, rfl⟩
          · exact ⟨_, _, rfl⟩
        · exact ⟨_, s.sectorKey, rfl⟩
      obtain ⟨m', k', ht⟩ := ih (s.putByte cell key b) (cell + 1)
      refine ⟨m', k', ?_⟩
      rw [show s.putSome cell key (some b :: t) = (s.putByte cell key b).putSome (cell + 1) key t from rfl, ht, hp]

theorem noteWrites_eq (s : State) (rs : List (Nat × Nat)) :
    ∃ r, rs.foldl (fun s r => s.noteWrite r.1 r.2) s = { s with rels := r } := by
  induction rs generalizing s with
  | nil => exact ⟨s.rels, rfl⟩
  | cons e t ih =>
    obtain ⟨r, hr⟩ : ∃ r, s.noteWrite e.1 e.2 = { s with rels := r } := by
      unfold State.noteWrite
      split
      · exact ⟨s.rels, rfl⟩
      · exact ⟨_, rfl⟩
    obtain ⟨r', ht⟩ := ih (s.noteWrite e.1 e.2)
    exact ⟨r', by rw [List.foldl_cons, ht, hr]⟩

theorem noteReleases_eq (s : State) (who : Agent) (scope : Nat) (rs : List (Nat × Nat)) :
    ∃ r, rs.foldl (fun s r => s.noteRelease who scope r.1 r.2) s = { s with rels := r } := by
  induction rs generalizing s with
  | nil => exact ⟨s.rels, rfl⟩
  | cons e t ih =>
    obtain ⟨r, ht⟩ := ih (s.noteRelease who scope e.1 e.2)
    exact ⟨r, ht⟩

/-- A store performed is its bytes written, and releases noted. -/
theorem performStore_eq (s : State) (d : Delayed) :
    ∃ r r', s.performStore d = { ({ s with rels := r } : State).putSome d.pa d.key d.bytes with rels := r' } := by
  obtain ⟨r, hr⟩ := noteWrites_eq s d.runs
  unfold State.performStore
  rw [hr]
  cases d.rel with
  | none => exact ⟨r, _, rfl⟩
  | some scope =>
    obtain ⟨r', hr'⟩ := noteReleases_eq (({ s with rels := r } : State).putSome d.pa d.key d.bytes) (.hart d.hart) scope d.runs
    exact ⟨r, r', hr'⟩

theorem performStore_only (s : State) (d : Delayed) :
    ∃ m k r, s.performStore d = s.restored m k r s.poison := by
  obtain ⟨r, r', h⟩ := performStore_eq s d
  obtain ⟨m, k, hp⟩ := putSome_eq { s with rels := r } d.pa d.key d.bytes
  exact ⟨m, k, r', by rw [h, hp]; rfl⟩

/-- What a reader finds after the stores `ds`, performed in an order of their own (R117). A sector that none touches reads
as before; under the key of them all, a byte that none names reads as before, and every other byte is the byte of a store
that names it. -/
structure Laid (s t : State) (ds : List Delayed) : Prop where
  far : ∀ a key, (∀ d ∈ ds, ∀ c, c / 32 = a / 32 → d.at c = none) → t.byteUnder a key = s.byteUnder a key
  near : ∀ key, (∀ d ∈ ds, d.key = key) → ∀ a, (t.byteUnder a key = s.byteUnder a key ∧ ∀ d ∈ ds, d.at a = none) ∨
    ∃ d ∈ ds, d.at a = some (t.byteUnder a key)

/-- The stores `ds` performed from one state to another, and nothing else. -/
structure Stores (s t : State) (ds : List Delayed) : Prop extends Laid s t ds where
  calm : Calm t
  only : StoreOnly s t

theorem Stores.nil {s : State} (h : Calm s) : Stores s s [] :=
  ⟨⟨fun _ _ _ => rfl, fun _ _ _ => .inl ⟨rfl, by simp⟩⟩, h, .refl s⟩

theorem Stores.trans {s t u : State} {ds es : List Delayed} (h : Stores s t ds) (k : Stores t u es) :
    Stores s u (ds ++ es) := by
  refine ⟨⟨fun a key hn => ?_, fun key hk a => ?_⟩, k.calm, h.only.trans k.only⟩
  · rw [k.far a key fun d hd => hn d (List.mem_append_right _ hd), h.far a key fun d hd => hn d (List.mem_append_left _ hd)]
  · rcases k.near key (fun d hd => hk d (List.mem_append_right _ hd)) a with ⟨he, hn⟩ | ⟨d, hd, hb⟩
    · rcases h.near key (fun d hd => hk d (List.mem_append_left _ hd)) a with ⟨he', hn'⟩ | ⟨d, hd, hb⟩
      · refine .inl ⟨he.trans he', fun d hd => ?_⟩
        rcases List.mem_append.mp hd with hd | hd
        · exact hn' d hd
        · exact hn d hd
      · exact .inr ⟨d, List.mem_append_left _ hd, by rw [he]; exact hb⟩
    · exact .inr ⟨d, List.mem_append_right _ hd, hb⟩

/-- The stores `ws` write what the stores `ds` write: under keys of theirs, bytes of theirs, and at every cell of theirs. -/
structure Covers (ws ds : List Delayed) : Prop where
  key : ∀ w ∈ ws, ∃ d ∈ ds, d.key = w.key
  byte : ∀ w ∈ ws, ∀ a b, w.at a = some b → ∃ d ∈ ds, d.at a = some b
  cell : ∀ d ∈ ds, ∀ a b, d.at a = some b → ∃ w ∈ ws, ∃ b', w.at a = some b'

theorem Covers.refl (ds : List Delayed) : Covers ds ds :=
  ⟨fun w hw => ⟨w, hw, rfl⟩, fun w hw _ _ h => ⟨w, hw, h⟩, fun d hd _ b h => ⟨d, hd, b, h⟩⟩

theorem Covers.append {ws ds ws' ds' : List Delayed} (h : Covers ws ds) (k : Covers ws' ds') :
    Covers (ws ++ ws') (ds ++ ds') := by
  refine ⟨fun w hw => ?_, fun w hw a b hb => ?_, fun d hd a b hb => ?_⟩
  · rcases List.mem_append.mp hw with hw | hw
    · obtain ⟨d, hd, he⟩ := h.key w hw
      exact ⟨d, List.mem_append_left _ hd, he⟩
    · obtain ⟨d, hd, he⟩ := k.key w hw
      exact ⟨d, List.mem_append_right _ hd, he⟩
  · rcases List.mem_append.mp hw with hw | hw
    · obtain ⟨d, hd, he⟩ := h.byte w hw a b hb
      exact ⟨d, List.mem_append_left _ hd, he⟩
    · obtain ⟨d, hd, he⟩ := k.byte w hw a b hb
      exact ⟨d, List.mem_append_right _ hd, he⟩
  · rcases List.mem_append.mp hd with hd | hd
    · obtain ⟨w, hw, he⟩ := h.cell d hd a b hb
      exact ⟨w, List.mem_append_left _ hw, he⟩
    · obtain ⟨w, hw, he⟩ := k.cell d hd a b hb
      exact ⟨w, List.mem_append_right _ hw, he⟩

theorem Covers.of_mem {ws ds es : List Delayed} (h : Covers ws ds) (hm : ∀ d, d ∈ ds ↔ d ∈ es) : Covers ws es :=
  ⟨fun w hw => (h.key w hw).imp fun d hd => ⟨(hm d).mp hd.1, hd.2⟩,
    fun w hw a b hb => (h.byte w hw a b hb).imp fun d hd => ⟨(hm d).mp hd.1, hd.2⟩,
    fun d hd => h.cell d ((hm d).mpr hd)⟩

theorem Stores.cover {s t : State} {ws ds : List Delayed} (h : Stores s t ws) (k : Covers ws ds) : Stores s t ds := by
  refine ⟨⟨fun a key hn => h.far a key fun w hw c hc => ?_, fun key hk a => ?_⟩, h.calm, h.only⟩
  · by_contra hne
    obtain ⟨b, hb⟩ := Option.ne_none_iff_exists'.mp hne
    obtain ⟨d, hd, hb'⟩ := k.byte w hw c b hb
    rw [hn d hd c hc] at hb'
    cases hb'
  · have hkey (w : Delayed) (hw : w ∈ ws) : w.key = key := by
      obtain ⟨d, hd, he⟩ := k.key w hw
      rw [← he]
      exact hk d hd
    rcases h.near key hkey a with ⟨he, hn⟩ | ⟨w, hw, hb⟩
    · refine .inl ⟨he, fun d hd => ?_⟩
      by_contra hne
      obtain ⟨b, hb⟩ := Option.ne_none_iff_exists'.mp hne
      obtain ⟨w, hw, b', hb'⟩ := k.cell d hd a b hb
      rw [hn w hw] at hb'
      cases hb'
    · exact .inr (k.byte w hw a _ hb)

/-! #### One store performed at once -/

theorem Calm.restored {s : State} (h : Calm s) {m : List Host.Cell} {k : List (Nat × KeySlot)} {r : List Rel}
    {p : List Nat} (hm : Memory.wf m = true) : Calm (s.restored m k r p) := ⟨h.none, h.once, h.kept, hm⟩

theorem Calm.withDelays {s : State} (h : Calm s) {D : List Bool} (hD : ∀ b ∈ D, b = false) :
    Calm (s.updMe (fun H => H.withDelays D)) :=
  ⟨h.none, by rw [me_updMe]; exact hD, h.kept, h.wf⟩

/-- A store performed (R337): its bytes, whatever else is noted of it. -/
theorem performStore_stores {s : State} (h : Calm s) {d e : Delayed} (hp : e.pa = d.pa) (hb : e.bytes = d.bytes)
    (hk : e.key = d.key) : Stores s (s.performStore e) [d] := by
  have hw := performStore_wf h.wf e
  obtain ⟨r, r', he⟩ := performStore_eq s e
  obtain ⟨m, k, r'', ho⟩ := performStore_only s e
  have hby (a key : Nat) : (s.performStore e).byteUnder a key =
      (({ s with rels := r } : State).putSome d.pa d.key d.bytes).byteUnder a key := by
    rw [he, hp, hb, hk]
    rfl
  refine ⟨⟨fun a key hn => ?_, fun key hkey a => ?_⟩, ?_, ho ▸ restored_only s m k r'' s.poison⟩
  · rw [hby, byteUnder_putSome_far (by exact h.wf) _ _ _ (hn d List.mem_cons_self)]
    rfl
  · obtain rfl := hkey d List.mem_cons_self
    have hput := byteUnder_putSome (s := { s with rels := r }) h.wf d.pa d.key d.bytes a
    rw [hby, hput, ← at_eq_byteAt]
    cases hat : d.at a with
    | none => exact .inl ⟨rfl, by simpa using hat⟩
    | some b => exact .inr ⟨d, List.mem_cons_self, by rw [hat]; rfl⟩
  · rw [ho] at hw ⊢
    exact h.restored hw

theorem storeNow_stores {s : State} (h : Calm s) (d : Delayed) : Stores s (s.storeNow d) [d] := by
  unfold State.storeNow State.forgetAt
  rw [forgetWhere_none h.kept]
  dsimp only
  rw [drain_none h.none]
  exact performStore_stores h rfl rfl rfl

theorem delays_stores {s : State} (h : Calm s) {D : List Bool} (hD : ∀ b ∈ D, b = false) :
    Stores s (s.updMe (fun H => H.withDelays D)) [] :=
  ⟨⟨fun _ _ _ => rfl, fun _ _ _ => .inl ⟨rfl, by simp⟩⟩, h.withDelays hD,
    ⟨s.mem, s.sectorKey, s.rels, s.poison, D, rfl⟩⟩

/-- A store of the hart's vector side is performed at once. -/
theorem store_stores {s : State} (h : Calm s) (d : Delayed) :
    Stores s (s.store s.cur false d.pa d.key d.bytes d.rel) [d] := by
  have htail := delays_stores h (D := s.me.delays.tail) fun b hb => h.once b (List.mem_of_mem_tail hb)
  have hperform := performStore_stores htail.calm (d := d)
    (e := ⟨s.cur, false, 0, d.pa, d.bytes, d.key, d.rel, false⟩) rfl rfl rfl
  unfold State.store State.forgetAt
  rw [forgetWhere_none h.kept]
  dsimp only
  split
  · rename_i t ht
    exact absurd (h.once true (by rw [State.me, ht]; exact List.mem_cons_self)) (by simp)
  · rw [drain_none (s := s.updHart s.cur (fun H => { H with delays := H.delays.tail })) h.none]
    exact htail.trans hperform

end Sys2Proof.Machine

/-! ### The commit of the stores of a group (R46, R264, R338) -/

namespace Sys2Proof.Machine

/-! #### Stores gathered into granules -/

theorem length_layBytes_le {n off : Nat} {bs new : List (Option Byte)} (h : n ≤ bs.length) (ho : off ≤ n) :
    n ≤ (layBytes bs off new).length := by
  unfold layBytes
  simp only [List.length_append, List.length_take, List.length_drop]
  omega

/-- Bytes laid over others have the place, and the others the rest. -/
theorem byteAt_layBytes {g off : Nat} {bs new : List (Option Byte)} (ho : off ≤ bs.length) (a : Nat) :
    byteAt g (layBytes bs off new) a =
      if g + off ≤ a ∧ a < g + off + new.length then byteAt (g + off) new a else byteAt g bs a := by
  have hlen : (bs.take off).length = off := by
    rw [List.length_take]
    omega
  unfold byteAt layBytes
  by_cases hg : g ≤ a
  · rw [if_pos hg, if_pos hg, List.append_assoc]
    by_cases h1 : a - g < off
    · rw [List.getElem?_append_left (by omega), if_neg (by omega), List.getElem?_take_of_lt h1]
    · rw [List.getElem?_append_right (by omega), hlen]
      by_cases h2 : a - g - off < new.length
      · rw [List.getElem?_append_left h2, if_pos (by omega), if_pos (by omega), show a - (g + off) = a - g - off by omega]
      · rw [List.getElem?_append_right (by omega), if_neg (by omega), List.getElem?_drop,
          show off + new.length + (a - g - off - new.length) = a - g by omega]
  · rw [if_neg hg, if_neg hg, if_neg (by omega)]

/-- A store that writes each of its bytes. -/
def Delayed.whole (d : Delayed) : Prop := ∀ b ∈ d.bytes, ∃ x, b = some x

theorem byteAt_of_whole {d : Delayed} (h : d.whole) {a : Nat} (h1 : d.pa ≤ a) (h2 : a < d.pa + d.bytes.length) :
    ∃ x, d.at a = some x := by
  have hlt : a - d.pa < d.bytes.length := by omega
  obtain ⟨x, hx⟩ := h _ (List.getElem_mem hlt)
  refine ⟨x, ?_⟩
  unfold Delayed.at
  rw [if_pos h1, List.getElem?_eq_getElem hlt, hx]
  rfl

theorem at_range {d : Delayed} {a : Nat} {b : Byte} (h : d.at a = some b) : d.pa ≤ a ∧ a < d.pa + d.bytes.length := by
  by_contra hn
  rw [at_eq_byteAt, byteAt_outside (by omega)] at h
  cases h

/-- A store laid over a gathered one. -/
theorem lay_covers {e d : Delayed} {g n : Nat} (hw : d.whole) (hg : d.pa / n * n = g) (hn : 0 < n) (hp : e.pa = g)
    (hk : e.key = d.key) (hl : n ≤ e.bytes.length) :
    Covers [{ e with bytes := layBytes e.bytes (d.pa - g) d.bytes }] [e, d] := by
  have hoff : g + (d.pa - g) = d.pa := by
    have := Nat.div_mul_le_self d.pa n
    omega
  have hlt : d.pa - g < n := by
    have := Nat.div_add_mod d.pa n
    have := Nat.mod_lt d.pa hn
    rw [Nat.mul_comm] at hg
    omega
  have hat (a : Nat) : ({ e with bytes := layBytes e.bytes (d.pa - g) d.bytes } : Delayed).at a =
      if d.pa ≤ a ∧ a < d.pa + d.bytes.length then d.at a else e.at a := by
    rw [at_eq_byteAt]
    dsimp only
    rw [hp, byteAt_layBytes (by omega), hoff, at_eq_byteAt e, hp]
    rfl
  refine ⟨fun w hw' => ?_, fun w hw' a b hb => ?_, fun x hx a b hb => ?_⟩
  · obtain rfl := List.mem_singleton.mp hw'
    exact ⟨e, by simp, rfl⟩
  · obtain rfl := List.mem_singleton.mp hw'
    rw [hat] at hb
    split at hb
    · exact ⟨d, by simp, hb⟩
    · exact ⟨e, by simp, hb⟩
  · refine ⟨_, List.mem_singleton_self _, ?_⟩
    rw [hat]
    split
    · rename_i hr
      exact byteAt_of_whole hw hr.1 hr.2
    · rename_i hr
      rcases List.mem_cons.mp hx with rfl | hx
      · exact ⟨b, hb⟩
      · obtain rfl := List.mem_singleton.mp hx
        exact absurd (at_range hb) hr

/-- Stores gathered, each with the bytes of a granule at least. -/
def Gathered (n : Nat) (acc : List Delayed) : Prop := ∀ e ∈ acc, n ≤ e.bytes.length

theorem gatherStore_gathered {n : Nat} (hn : 0 < n) {acc : List Delayed} (h : Gathered n acc) (d : Delayed) :
    Gathered n (gatherStore n acc d) := by
  have hlt : d.pa - d.pa / n * n ≤ n := by
    rw [Nat.mul_comm, ← Nat.mod_def]
    exact (Nat.mod_lt d.pa hn).le
  induction acc with
  | nil =>
    intro e he
    obtain rfl := List.mem_singleton.mp he
    exact length_layBytes_le (by simp) hlt
  | cons x t ih =>
    intro e he
    unfold gatherStore at he
    dsimp only at he
    split at he
    · rcases List.mem_cons.mp he with rfl | he
      · exact length_layBytes_le (h x List.mem_cons_self) hlt
      · exact h e (List.mem_cons_of_mem _ he)
    · rcases List.mem_cons.mp he with rfl | he
      · exact h _ List.mem_cons_self
      · exact ih (fun y hy => h y (List.mem_cons_of_mem _ hy)) e he

/-- A store gathered into others writes what they and it write. -/
theorem gatherStore_covers {n : Nat} (hn : 0 < n) {acc : List Delayed} (h : Gathered n acc) {d : Delayed} (hw : d.whole) :
    Covers (gatherStore n acc d) (acc ++ [d]) := by
  induction acc with
  | nil =>
    have hl := lay_covers (e := { d with pa := d.pa / n * n, bytes := List.replicate n none }) hw rfl hn rfl rfl (by simp)
    refine ⟨fun w hw' => ⟨d, by simp, ?_⟩, fun w hw' a b hb => ?_, fun x hx => ?_⟩
    · obtain rfl := List.mem_singleton.mp hw'
      rfl
    · obtain ⟨x, hx, he⟩ := hl.byte w hw' a b hb
      rcases List.mem_cons.mp hx with rfl | hx
      · rw [at_eq_byteAt] at he
        unfold byteAt at he
        dsimp only at he
        split at he
        · rw [List.getElem?_replicate] at he
          split at he <;> cases he
        · cases he
      · exact ⟨x, hx, he⟩
    · exact hl.cell x (List.mem_cons_of_mem _ hx)
  | cons e t ih =>
    have ht : Gathered n t := fun y hy => h y (List.mem_cons_of_mem _ hy)
    unfold gatherStore
    dsimp only
    split
    · rename_i he
      have hl := (lay_covers hw rfl hn he.1 he.2 (h e List.mem_cons_self)).append (Covers.refl t)
      exact hl.of_mem fun x => by simp only [List.mem_append, List.mem_cons, List.not_mem_nil]; tauto
    · exact (Covers.refl [e]).append (ih ht)

/-- The bytes that a later store writes leave the gathered stores (R265). -/
theorem under_covers (acc : List Delayed) (d : Delayed) :
    Covers (d :: acc.map (fun e => e.under d)) (acc ++ [d]) := by
  have hat (e : Delayed) (a : Nat) : (e.under d).at a = if (d.at a).isSome then none else e.at a := by
    unfold Delayed.under
    rw [at_eq_byteAt, at_eq_byteAt e]
    unfold byteAt
    dsimp only
    by_cases hp : e.pa ≤ a
    · rw [if_pos hp, if_pos hp, List.getElem?_mapIdx, show e.pa + (a - e.pa) = a by omega]
      cases e.bytes[a - e.pa]? with
      | none => simp
      | some b => rfl
    · rw [if_neg hp, if_neg hp, ite_self]
  refine ⟨fun w hw => ?_, fun w hw a b hb => ?_, fun x hx a b hb => ?_⟩
  · rcases List.mem_cons.mp hw with rfl | hw
    · exact ⟨w, by simp, rfl⟩
    · obtain ⟨e, he, rfl⟩ := List.mem_map.mp hw
      exact ⟨e, List.mem_append_left _ he, rfl⟩
  · rcases List.mem_cons.mp hw with rfl | hw
    · exact ⟨w, by simp, hb⟩
    · obtain ⟨e, he, rfl⟩ := List.mem_map.mp hw
      rw [hat] at hb
      split at hb
      · cases hb
      · exact ⟨e, List.mem_append_left _ he, hb⟩
  · by_cases hd : (d.at a).isSome = true
    · obtain ⟨b', hb'⟩ := Option.isSome_iff_exists.mp hd
      exact ⟨d, List.mem_cons_self, b', hb'⟩
    · rcases List.mem_append.mp hx with hx | hx
      · refine ⟨x.under d, List.mem_cons_of_mem _ (List.mem_map.mpr ⟨x, hx, rfl⟩), b, ?_⟩
        rw [hat, if_neg hd]
        exact hb
      · obtain rfl := List.mem_singleton.mp hx
        rw [hb] at hd
        exact absurd rfl hd

theorem under_gathered {n : Nat} {acc : List Delayed} (h : Gathered n acc) (d : Delayed) :
    Gathered n (acc.map (fun e => e.under d)) := by
  intro e he
  obtain ⟨x, hx, rfl⟩ := List.mem_map.mp he
  unfold Delayed.under
  simpa using h x hx

/-! #### The stores leave the group -/

theorem storeAll_stores {s : State} {f : State → Delayed → State} (h : Calm s)
    (hf : ∀ t d, Calm t → Stores t (f t d) [d]) (ds : List Delayed) : Stores s (ds.foldl f s) ds := by
  induction ds generalizing s with
  | nil => exact .nil h
  | cons d t ih =>
    have h1 := hf s d h
    exact h1.trans (ih h1.calm)

theorem flushStores_stores {s : State} (h : Calm s) (ds : List Delayed) : Stores s (s.flushStores ds) ds := by
  unfold State.flushStores
  dsimp only
  generalize s.poison.filter (fun q => wholeSector ds q) = clean
  have hp : Stores s (s.restored s.mem s.sectorKey s.rels (s.poison.filter (fun q => !clean.contains q))) [] :=
    ⟨⟨fun _ _ _ => rfl, fun _ _ _ => .inl ⟨rfl, by simp⟩⟩, h.restored h.wf, restored_only _ _ _ _ _⟩
  refine hp.trans (storeAll_stores hp.calm (fun t d ht => ?_) ds)
  split
  · exact storeNow_stores ht d
  · exact store_stores ht d

/-- A store of the group that is plain or element-ordered. -/
def Held.simple (e : Held) : Prop := (e.how = .plain ∨ e.how = .ordered) ∧ e.d.whole

/-- The stores of one slot are performed, plain ones by granules and ordered ones in their turn (R264, R265, R338). -/
theorem commitHeld_stores {s : State} (h : Calm s) {slot : Nat} {es : List Held} (hs : ∀ e ∈ es, e.slot = slot)
    (hw : ∀ e ∈ es, e.simple) {acc : List Delayed} (ha : Gathered 16 acc) :
    Stores s (s.commitHeld acc slot es) (acc ++ es.map (fun e => e.d)) := by
  induction es generalizing s acc with
  | nil =>
    rw [List.map_nil, List.append_nil]
    exact flushStores_stores h acc
  | cons e t ih =>
    have hslot := hs e List.mem_cons_self
    obtain ⟨hhow, hwhole⟩ := hw e List.mem_cons_self
    have hs' (x : Held) (hx : x ∈ t) : x.slot = slot := hs x (List.mem_cons_of_mem _ hx)
    have hw' (x : Held) (hx : x ∈ t) : x.simple := hw x (List.mem_cons_of_mem _ hx)
    have hstep : s.commitHeld acc slot (e :: t) = if e.how = .plain then s.commitHeld (gatherStore 16 acc e.d) slot t
        else (s.performHeld e).commitHeld (acc.map (fun d => d.under e.d)) slot t := by
      conv_lhs => unfold State.commitHeld
      simp only [hslot, bne_self_eq_false, Bool.false_eq_true, if_false]
      cases e.d.rel <;> rfl
    rw [hstep]
    rcases hhow with hp | ho
    · rw [if_pos hp]
      refine (ih h hs' hw' (gatherStore_gathered (by decide) ha e.d)).cover ?_
      refine ((gatherStore_covers (by decide) ha hwhole).append (Covers.refl _)).of_mem fun x => ?_
      simp only [List.mem_append, List.mem_cons, List.map_cons, List.not_mem_nil]
      tauto
    · have hperf : s.performHeld e = s.storeNow e.d := by
        unfold State.performHeld
        rw [ho]
      rw [if_neg (by rw [ho]; decide), hperf]
      have hnow := storeNow_stores h e.d
      refine (hnow.trans (ih hnow.calm hs' hw' (under_gathered ha e.d))).cover ?_
      rw [← List.append_assoc]
      refine ((under_covers acc e.d).append (Covers.refl _)).of_mem fun x => ?_
      simp only [List.mem_append, List.mem_cons, List.map_cons, List.not_mem_nil]
      tauto

end Sys2Proof.Machine

/-! ### Matrix forms whose group holds stores (R46, R48, R264) -/

namespace Sys2Proof.Machine

/-! #### Stores of elements -/

theorem length_bytesOf (n v : Nat) : (bytesOf n v).length = n := by
  induction n generalizing v with
  | zero => rfl
  | succ n ih => rw [bytesOf, List.length_cons, ih]

/-- The store of an element's value, of the vector side of a hart. -/
def elemStore (h : HartId) (size cell key v : Nat) (rel : Option Nat) : Delayed :=
  ⟨h, false, 0, cell, (bytesOf size v).map some, key, rel, false⟩

theorem elemStore_whole (h : HartId) (size cell key v : Nat) (rel : Option Nat) :
    (elemStore h size cell key v rel).whole := by
  intro b hb
  obtain ⟨x, -, rfl⟩ := List.mem_map.mp hb
  exact ⟨x, rfl⟩

theorem at_elemStore_in {h : HartId} {size cell key v : Nat} {rel : Option Nat} {i : Nat} (hi : i < size) :
    (elemStore h size cell key v rel).at (cell + i) = some ((bytesOf size v)[i]'(by rw [length_bytesOf]; exact hi)) := by
  unfold Delayed.at elemStore
  dsimp only
  rw [if_pos (by omega), show cell + i - cell = i by omega,
    List.getElem?_eq_getElem (by rw [List.length_map, length_bytesOf]; exact hi), List.getElem_map]
  rfl

theorem at_elemStore_out {h : HartId} {size cell key v : Nat} {rel : Option Nat} {a : Nat}
    (ha : a < cell ∨ cell + size ≤ a) : (elemStore h size cell key v rel).at a = none := by
  rw [at_eq_byteAt]
  refine byteAt_outside ?_
  unfold elemStore
  dsimp only
  rw [List.length_map, length_bytesOf]
  exact ha

section
variable {α : Type} {s t : State} {h : HartId} {size : Nat} {C K V : α → Nat} {R : α → Option Nat} {xs : List α}

/-- Sectors that no element touches read as before under every key. -/
theorem Laid.far_elements (hl : Laid s t (xs.map (fun x => elemStore h size (C x) (K x) (V x) (R x)))) (h0 : 0 < size)
    {a : Nat} (ha : ∀ x ∈ xs, a / 32 < C x / 32 ∨ (C x + size - 1) / 32 < a / 32) (key : Nat) :
    t.byteUnder a key = s.byteUnder a key := by
  refine hl.far a key fun d hd c hc => ?_
  obtain ⟨x, hx, rfl⟩ := List.mem_map.mp hd
  have hr := ha x hx
  refine at_elemStore_out ?_
  by_contra hn
  have h1 : C x / 32 ≤ c / 32 := Nat.div_le_div_right (by omega)
  have h2 : c / 32 ≤ (C x + size - 1) / 32 := Nat.div_le_div_right (by omega)
  omega

theorem Laid.near_elements (hl : Laid s t (xs.map (fun x => elemStore h size (C x) (K x) (V x) (R x)))) {key : Nat}
    (hk : ∀ x ∈ xs, K x = key) (a : Nat) : (t.byteUnder a key = s.byteUnder a key ∧
      ∀ x ∈ xs, (elemStore h size (C x) (K x) (V x) (R x)).at a = none) ∨
      ∃ x ∈ xs, (elemStore h size (C x) (K x) (V x) (R x)).at a = some (t.byteUnder a key) := by
  have hkey (d : Delayed) (hd : d ∈ xs.map (fun x => elemStore h size (C x) (K x) (V x) (R x))) : d.key = key := by
    obtain ⟨x, hx, rfl⟩ := List.mem_map.mp hd
    exact hk x hx
  rcases hl.near key hkey a with ⟨he, hn⟩ | ⟨d, hd, hb⟩
  · exact .inl ⟨he, fun x hx => hn _ (List.mem_map.mpr ⟨x, hx, rfl⟩)⟩
  · obtain ⟨x, hx, rfl⟩ := List.mem_map.mp hd
    exact .inr ⟨x, hx, hb⟩

/-- A byte outside the elements reads as before under their key. -/
theorem Laid.outside_elements (hl : Laid s t (xs.map (fun x => elemStore h size (C x) (K x) (V x) (R x)))) {key : Nat}
    (hk : ∀ x ∈ xs, K x = key) {a : Nat} (ha : ∀ x ∈ xs, a < C x ∨ C x + size ≤ a) :
    t.byteUnder a key = s.byteUnder a key := by
  rcases hl.near_elements hk a with ⟨he, -⟩ | ⟨x, hx, hb⟩
  · exact he
  · rw [at_elemStore_out (ha x hx)] at hb
    cases hb

/-- An element that no other overlaps holds its value (R264). -/
theorem Laid.element (hl : Laid s t (xs.map (fun x => elemStore h size (C x) (K x) (V x) (R x)))) {key : Nat}
    (hk : ∀ x ∈ xs, K x = key) {x : α} (hx : x ∈ xs)
    (hd : ∀ y ∈ xs, y ≠ x → C y + size ≤ C x ∨ C x + size ≤ C y) :
    t.bytesUnder (C x) key size = bytesOf size (V x) := by
  refine List.ext_getElem (by rw [length_bytesUnder, length_bytesOf]) fun i hi hi' => ?_
  have hlt : i < size := by rwa [length_bytesOf] at hi'
  rw [getElem_bytesUnder]
  rcases hl.near_elements hk (C x + i) with ⟨-, hn⟩ | ⟨y, hy, hb⟩
  · have := hn x hx
    rw [at_elemStore_in hlt] at this
    cases this
  · by_cases hyx : y = x
    · subst hyx
      rw [at_elemStore_in hlt] at hb
      exact (Option.some.inj hb).symm
    · have := hd y hy hyx
      rw [at_elemStore_out (by omega)] at hb
      cases hb

end

/-! #### The run -/

theorem Calm.of_atOnce {s : State} (h : Claim.AtOnce s) (hw : Memory.wf s.mem = true) : Calm s := by
  obtain ⟨hd, hb, hk, -⟩ := h
  exact ⟨hd, hb, hk, hw⟩

theorem release_none {s : State} (h : s.delayed = []) (k : HartId) (b : Bool) (scope : Nat) : s.release k b scope = s := by
  unfold State.release State.raise
  rw [h]
  rfl

/-- A group's stores of its only slot begin with a release that has nothing to wait for. -/
theorem commitHeld_begin {s : State} (h : Calm s) {es : List Held} (hs : ∀ e ∈ es, e.slot = 0) :
    s.commitHeld [] 4 es = s.commitHeld [] 0 es := by
  cases es with
  | nil => rfl
  | cons e t =>
    have he := hs e List.mem_cons_self
    unfold State.commitHeld
    simp only [he, flushStores_nil, ite_self, release_none h.none]

/-- The hart of a group, with the timing of stores of the hart as it stands. -/
theorem calm_updMe {s : State} (h : Calm s) (K : Hart) : Calm (s.updMe (fun H => { K with delays := H.delays })) :=
  ⟨h.none, by rw [me_updMe]; exact h.once, h.kept, h.wf⟩

/-- A matrix form whose group holds stores retires with the hart that its group leaves and its stores performed (R46,
R264). -/
theorem exec_stores {i : Instr} {o : VOp} {w : VFields} {s : State} {G : Grp} (hx : exec i s = solo o w s)
    (ho : o ∈ matrixOps) (hi : Claim.Issues s o w) (hr : oneForm s.oneCtx ⟨0, o, w⟩ s.openGroup s = .ok ((), G) s)
    (hc : Calm s) (hh : ∀ e ∈ G.held, e.slot = 0 ∧ e.simple) (hs : G.sends = []) (hG : G.Plain) :
    ∃ t, exec i s = .next t ∧ (∃ H, t.me = G.h.left H) ∧ t.full = s.full ∧ t.landings = s.landings ∧
      Laid s t (G.held.map (fun e => e.d)) := by
  have hcalm := calm_updMe hc G.h
  have hst := commitHeld_stores hcalm (fun e he => (hh e he).1) (fun e he => (hh e he).2) (acc := []) (by simp [Gathered])
  have hcommit : s.commitGroup G = (s.updMe (fun H => { G.h with delays := H.delays })).commitHeld [] 0 G.held := by
    unfold State.commitGroup
    rw [hs]
    dsimp only
    rw [forgetWhere_none hcalm.kept, commitHeld_begin hcalm fun e he => (hh e he).1]
    rfl
  rw [List.nil_append] at hst
  generalize (s.updMe (fun H => { G.h with delays := H.delays })).commitHeld [] 0 G.held = u at hst hcommit
  have hrun : exec i s = .next (u.updMe Hart.passed) := by
    rw [hx, solo_matrix ho hi, runOneGroup_done hr, hcommit, retireConvoy_plain hG]
  obtain ⟨⟨hfar, hnear⟩, -, m, k, r, p, D, rfl⟩ := hst
  refine ⟨_, hrun, ⟨G.h.withDelays D, ?_⟩, rfl, rfl, ⟨fun a key hn => ?_, fun key hk a => ?_⟩⟩
  · rw [me_updMe, me_updMe]
    exact (congrArg (fun H : Hart => (H.withDelays D).passed) (me_updMe s (fun H => G.h.withDelays H.delays))).trans rfl
  · exact hfar a key hn
  · exact hnear key hk a

end Sys2Proof.Machine

/-! ### `mst` (R101, R299) -/

namespace Sys2Proof.Machine

/-- The store that the only slot of a convoy holds for an element (R264, R265). -/
def heldAt (h : HartId) (H : Hart) (size v : Nat) (rel : Option Nat) (p : At) : Held :=
  ⟨0, elemStore h size p.cell p.leaf.key v rel, H.ordered p⟩

theorem heldAt_simple (h : HartId) (H : Hart) (size v : Nat) (rel : Option Nat) (p : At) :
    (heldAt h H size v rel p).slot = 0 ∧ (heldAt h H size v rel p).simple := by
  refine ⟨rfl, ?_, elemStore_whole _ _ _ _ _ _⟩
  unfold heldAt Hart.ordered
  dsimp only
  split
  · exact .inr rfl
  · exact .inl rfl

theorem hold_ok (s : State) (G : Grp) (H : Hart) (p : At) (size v : Nat) (rel : Bool) :
    hold s.oneCtx p size v (H.ordered p) rel G s = .ok ((), { G with held := G.held ++
      [heldAt s.cur H size v (if rel then some G.h.vscope else none) p] }) s := rfl

theorem raiseM_raiseM (H : Hart) (f g : Flags) : (H.raiseM f).raiseM g = H.raiseM (f ||| g) := by
  unfold Hart.raiseM
  simp only [BitVec.setWidth_or, BitVec.or_assoc]

theorem zero_or_flags (f : Flags) : 0 ||| f = f := BitVec.zero_or

/-- Flags gathered from a start are the start with the flags gathered. -/
theorem foldl_flags {α : Type} (f : α → Flags) (xs : List α) (a : Flags) :
    xs.foldl (fun g x => g ||| f x) a = a ||| xs.foldl (fun g x => g ||| f x) 0 := by
  induction xs generalizing a with
  | nil => simp
  | cons x t ih => rw [List.foldl_cons, List.foldl_cons, ih, ih (0 ||| f x), zero_or_flags, BitVec.or_assoc]

/-- The element of an index that has been found at a leaf and a cell. -/
def elemAt (addr : Nat → Word) (L : Nat → Leaf) (C : Nat → Nat) (i : Nat) : At := ⟨i, addr i, L i, C i⟩

/-- The stores that `mst` holds, and the flags that it raises (R299). -/
theorem mstEach_ok {s : State} {H : Hart} {addr : Nat → Word} {L : Nat → Leaf} {C : Nat → Nat} {size : Nat} {rel : Bool}
    {v : Nat → Nat × Flags} (is : List Nat) (G : Grp) :
    (is.map (elemAt addr L C)).forM (fun p => (do
        hold s.oneCtx p size (v p.i).1 (H.ordered p) rel
        gMod (fun H => H.raiseM (v p.i).2) : GOp Unit)) G s =
      .ok ((), { G with
        h := G.h.raiseM (is.foldl (fun f i => f ||| (v i).2) 0)
        held := G.held ++ is.map (fun i =>
          heldAt s.cur H size (v i).1 (if rel then some G.h.vscope else none) (elemAt addr L C i)) }) s := by
  induction is generalizing G with
  | nil =>
    rw [List.map_nil, List.map_nil, List.append_nil, List.foldl_nil, raiseM_zero]
    rfl
  | cons i t ih =>
    rw [List.map_cons, List.forM_eq_forM, List.forM_cons]
    refine (gop_bind_ok ((gop_bind_ok (hold_ok s G H _ size _ rel)).trans (gMod_ok _ _ s))).trans ?_
    refine (ih _).trans ?_
    dsimp only
    rw [raiseM_raiseM, List.foldl_cons, foldl_flags _ t (0 ||| (v i).2), zero_or_flags, List.map_cons, List.append_assoc,
      List.singleton_append]
    rfl

/-- The hart that `mst` leaves (R299). -/
def Hart.storedFrom (H : Hart) (w : VFields) (fl : Flags) : Hart :=
  if w.sel.getLsbD 7 then (H.raiseM fl).zeroAcc else H.raiseM fl

section
variable {s : State} {w : VFields} {L : Nat → Leaf} {C : Nat → Nat}

/-- The address, the value and the flags of the elements of `mst` (R299). -/
def Hart.mstAddr (H : Hart) (w : VFields) (i : Nat) : Word :=
  H.getX w.vc + BitVec.ofNat 64 (i / H.shapeN) * H.getX w.vb + BitVec.ofNat 64 (i % H.shapeN * 2 ^ w.width.toNat)

def Hart.mstElem (H : Hart) (w : VFields) (i : Nat) : Nat × Flags :=
  mstValue H w (fmtF32.decode false (unbox fmtF32 (H.getF w.va))) (H.acc (i / H.shapeN) (i % H.shapeN))

theorem mstForm_ok
    (hr : Claim.Reaches s .write (2 ^ w.width.toNat) (s.me.mstAddr w) (fun i => i < s.me.shapeM * s.me.shapeN) L C) :
    ∃ rel, mstForm s.oneCtx w s.openGroup s = .ok ((), { s.openGroup with
      h := s.me.storedFrom w ((List.range (s.me.shapeM * s.me.shapeN)).foldl (fun f i => f ||| (s.me.mstElem w i).2) 0)
      held := (List.range (s.me.shapeM * s.me.shapeN)).map (fun i =>
        heldAt s.cur s.me (2 ^ w.width.toNat) (s.me.mstElem w i).1 rel (elemAt (s.me.mstAddr w) L C i)) }) s := by
  refine ⟨if w.selNat 6 1 == 1 then some s.me.vscope else none, ?_⟩
  have hra := reachAll_ok hr s.openGroup (is := List.range (s.me.shapeM * s.me.shapeN)) fun i hi => List.mem_range.mp hi
  have heach := mstEach_ok (s := s) (H := s.me) (addr := s.me.mstAddr w) (L := L) (C := C) (size := 2 ^ w.width.toNat)
    (rel := w.selNat 6 1 == 1) (v := s.me.mstElem w) (List.range (s.me.shapeM * s.me.shapeN)) s.openGroup
  unfold mstForm
  refine (gop_bind_ok (gHart_ok _ s)).trans ?_
  refine (gop_bind_ok hra).trans ?_
  have hz (G : Grp) (fl : Flags) (hG : G.h = s.me.raiseM fl) :
      (do if w.selNat 7 1 = 1 then gMod Hart.zeroAcc : GOp Unit) G s = .ok ((), { G with h := s.me.storedFrom w fl }) s := by
    unfold Hart.storedFrom
    cases hb : w.sel.getLsbD 7 with
    | false =>
      rw [if_neg (by rw [selNat_one, hb]; decide), if_neg Bool.false_ne_true, ← hG]
      rfl
    | true =>
      rw [if_pos (by rw [selNat_one, hb]; rfl), if_pos rfl, ← hG]
      rfl
  refine (gop_bind_ok heach).trans ?_
  exact hz _ _ rfl

/-- What a run of `mst` leaves: its hart, and the bytes of its elements. -/
theorem mst_runs (hi : Claim.Issues s .mst w)
    (hr : Claim.Reaches s .write (2 ^ w.width.toNat) (s.me.mstAddr w) (fun i => i < s.me.shapeM * s.me.shapeN) L C)
    (hc : Calm s) : ∃ t, exec (.mst w) s = .next t ∧
      (∃ H, t.me = (s.me.storedFrom w ((List.range (s.me.shapeM * s.me.shapeN)).foldl
        (fun f i => f ||| (s.me.mstElem w i).2) 0)).left H) ∧ t.full = s.full ∧ t.landings = s.landings ∧
      ∃ rel, Laid s t ((List.range (s.me.shapeM * s.me.shapeN)).map (fun i =>
        elemStore s.cur (2 ^ w.width.toNat) (C i) (L i).key (s.me.mstElem w i).1 rel)) := by
  obtain ⟨rel, hform⟩ := mstForm_ok hr
  obtain ⟨t, hrun, hme, hfull, hland, hlaid⟩ := exec_stores (i := .mst w) rfl (by decide) hi hform hc
    (fun e he => by
      obtain ⟨i, -, rfl⟩ := List.mem_map.mp he
      exact heldAt_simple _ _ _ _ _ _) rfl ⟨rfl, rfl, rfl⟩
  rw [List.map_map] at hlaid
  exact ⟨t, hrun, hme, hfull, hland, rel, hlaid⟩

theorem storedFrom_accOnly (H : Hart) (w : VFields) (fl : Flags) : AccOnly H (H.storedFrom w fl) := by
  have hr := raiseM_accOnly H fl
  unfold Hart.storedFrom
  split
  · rw [zeroAcc_eq]
    exact hr.trans (fill_accOnly _ _ _)
  · exact hr

theorem left_csr {K : Hart} (h : K.csr.vstart = 0) (H : Hart) : (K.left H).csr = K.csr := by
  show { K.csr with vstart := 0 } = K.csr
  rw [← h]

theorem mst_stored (hi : Claim.Issues s .mst w)
    (hr : Claim.Reaches s .write (2 ^ w.width.toNat) (s.me.mstAddr w) (fun i => i < s.me.shapeM * s.me.shapeN) L C)
    (hc : Calm s) (hb : w.sel.getLsbD 7 = false) :
    Claim.Stored (.mst w) s ((List.range (s.me.shapeM * s.me.shapeN)).foldl (fun f i => f ||| (s.me.mstElem w i).2) 0)
      (2 ^ w.width.toNat) (fun i => i < s.me.shapeM * s.me.shapeN) L C (fun i => (s.me.mstElem w i).1) := by
  obtain ⟨t, hrun, ⟨J, hme⟩, hfull, hland, rel, hlaid⟩ := mst_runs hi hr hc
  have hret := retired_of_kept (storedFrom_accOnly s.me w _).kept hme
  rw [Hart.storedFrom, hb, if_neg Bool.false_ne_true] at hme
  refine ⟨t, hrun, hret, ?_, ?_, ?_, ?_, ?_, hfull, congrArg Claim.bare hland, fun a key ha => ?_, fun key hk =>
    ⟨fun k hkon hd => ?_, fun a ha => ?_⟩⟩
  · rw [hme]
    exact left_csr (by exact hi.start) J
  · rw [hme]
    rfl
  · rw [hme]
    rfl
  · rw [hme]
    rfl
  · rw [hme]
    rfl
  · exact hlaid.far_elements (Nat.two_pow_pos _) (fun i hi => ha i (List.mem_range.mp hi)) key
  · exact hlaid.element (fun i hi => hk i (List.mem_range.mp hi)) (List.mem_range.mpr hkon)
      (fun j hj hne => hd j (List.mem_range.mp hj) hne)
  · exact hlaid.outside_elements (fun i hi => hk i (List.mem_range.mp hi)) (fun i hi => ha i (List.mem_range.mp hi))

theorem mst_zeroes (hi : Claim.Issues s .mst w)
    (hr : Claim.Reaches s .write (2 ^ w.width.toNat) (s.me.mstAddr w) (fun i => i < s.me.shapeM * s.me.shapeN) L C)
    (hc : Calm s) (hb : w.sel.getLsbD 7 = true) (hM : s.me.shapeM ≤ 128) (hN : s.me.shapeN ≤ 2 * s.me.lanes) :
    ∃ t, exec (.mst w) s = .next t ∧ Claim.Retired s t ∧
      ∀ m n, m < s.me.shapeM ∧ n < s.me.shapeN → t.me.acc m n = 0 := by
  obtain ⟨t, hrun, ⟨J, hme⟩, -, -, -⟩ := mst_runs hi hr hc
  have hret := retired_of_kept (storedFrom_accOnly s.me w _).kept hme
  refine ⟨t, hrun, hret, fun m n hmn => ?_⟩
  rw [Hart.storedFrom, hb, if_pos rfl, zeroAcc_eq] at hme
  rw [hme]
  exact (acc_fill_region (H := s.me.raiseM _) (f := fun _ => (0, 0)) hM hN (lt_of_lt_of_le hmn.1 hM)
    (lt_of_lt_of_le hmn.2 hN)).1 hmn

end

end Sys2Proof.Machine

/-! ### The words of a record (R304, R305) -/

namespace Sys2Proof.Machine

/-! #### Numbers as bytes -/

theorem natOf_bytesOf (n v : Nat) : natOf (bytesOf n v) = v % 256 ^ n := by
  induction n generalizing v with
  | zero => simp [bytesOf, natOf, Nat.mod_one]
  | succ n ih =>
    rw [bytesOf, show natOf (BitVec.ofNat 8 v :: bytesOf n (v / 256)) =
      (BitVec.ofNat 8 v).toNat + 256 * natOf (bytesOf n (v / 256)) from rfl, ih, BitVec.toNat_ofNat, pow_succ' 256]
    exact Nat.mod_mul.symm

theorem natOf_lt (bs : List Byte) : natOf bs < 256 ^ bs.length := by
  induction bs with
  | nil => simp [natOf]
  | cons b t ih =>
    have hb : b.toNat < 256 := b.isLt
    rw [show natOf (b :: t) = b.toNat + 256 * natOf t from rfl, List.length_cons, pow_succ']
    omega

/-- Numbers as words, one after another. -/
def wordsOf (xs : List Nat) : List Byte := xs.flatMap (bytesOf 4)

theorem length_wordsOf (xs : List Nat) : (wordsOf xs).length = 4 * xs.length := by
  induction xs with
  | nil => rfl
  | cons x t ih =>
    rw [wordsOf, List.flatMap_cons, List.length_append, length_bytesOf, ← wordsOf, ih, List.length_cons]
    omega

theorem drop_wordsOf (xs : List Nat) (k : Nat) : (wordsOf xs).drop (4 * k) = wordsOf (xs.drop k) := by
  induction k generalizing xs with
  | zero => rfl
  | succ k ih =>
    cases xs with
    | nil => simp [wordsOf]
    | cons x t =>
      rw [show 4 * (k + 1) = (bytesOf 4 x).length + 4 * k by rw [length_bytesOf]; omega, wordsOf, List.flatMap_cons,
        ← List.drop_drop, List.drop_left]
      exact ih t

/-- A list of words from one of them on. -/
theorem wordsOf_from {xs : List Nat} {k : Nat} (hk : k < xs.length) :
    (wordsOf xs).drop (4 * k) = bytesOf 4 xs[k] ++ wordsOf (xs.drop (k + 1)) := by
  rw [drop_wordsOf, List.drop_eq_getElem_cons hk]
  rfl

theorem leAt_wordsOf {xs : List Nat} {k : Nat} (hk : k < xs.length) (hx : xs[k] < 2 ^ 32) :
    leAt (wordsOf xs) (4 * k) 4 = xs[k] := by
  have h : leAt (wordsOf xs) (4 * k) 4 = natOf (bytesOf 4 xs[k]) := by
    unfold leAt
    rw [wordsOf_from hk, List.take_left' (length_bytesOf 4 _)]
    rfl
  rw [h, natOf_bytesOf]
  exact Nat.mod_eq_of_lt hx

/-- The two halves of a word. -/
theorem leAt_wordsOf_low {xs : List Nat} {k : Nat} (hk : k < xs.length) :
    leAt (wordsOf xs) (4 * k) 2 = xs[k] % 65536 := by
  have h : leAt (wordsOf xs) (4 * k) 2 = natOf (bytesOf 2 xs[k]) := by
    unfold leAt
    rw [wordsOf_from hk]
    rfl
  rw [h, natOf_bytesOf]
  rfl

theorem leAt_wordsOf_high {xs : List Nat} {k : Nat} (hk : k < xs.length) :
    leAt (wordsOf xs) (4 * k + 2) 2 = xs[k] / 65536 % 65536 := by
  have h : leAt (wordsOf xs) (4 * k + 2) 2 = natOf (bytesOf 2 (xs[k] / 256 / 256)) := by
    unfold leAt
    rw [← List.drop_drop, wordsOf_from hk]
    rfl
  rw [h, natOf_bytesOf, Nat.div_div_eq_div_mul]
  rfl

/-! #### Words read -/

/-- A word of memory under a key. -/
def State.word (s : State) (c key : Nat) : Nat := natOf (s.bytesUnder c key 4)

theorem word_lt (s : State) (c key : Nat) : s.word c key < 2 ^ 32 := by
  have h := natOf_lt (s.bytesUnder c key 4)
  rwa [length_bytesUnder] at h

theorem vseen_of_none {s : State} (h : s.delayed = []) (l : Leaf) (c n : Nat) :
    Claim.vseen s l c n = natOf (s.bytesUnder c l.key n) := by
  unfold Claim.vseen State.read State.seen
  rw [h]
  rfl

section
variable {s : State} {va : Word} {L : Nat → Leaf} {C : Nat → Nat}

/-- Words read from an address up, where no store is outstanding (R263). -/
theorem readWords_ok {n : Nat} {G : Grp} (hd : s.delayed = []) (he : s.early = [])
    (hr : Claim.Reaches s .read 4 (fun k => va + BitVec.ofNat 64 (4 * k)) (fun k => k < n) L C)
    (hp : ∀ k < n, s.poisoned (L k).pa 4 = false) (hg : G.held = []) : ∃ us, readVa va 4 (4 * n) G s =
      .ok (wordsOf ((List.range n).map (fun k => s.word (C k) (L k).key)), G.reading us) s := by
  have hn : (4 * n + 3) / 4 = n := by omega
  obtain ⟨us, t, hm, ht⟩ := readVa_ok (va := va) (n := 4 * n) (L := L) (C := C) (G := G) he (by rw [hn]; exact hr)
    (by rw [hn]; exact hp) hg
  obtain rfl := hm.eq_of_none hd
  have hw : (List.range n).flatMap (fun k => bytesOf 4 (Claim.vseen t (L k) (C k) 4)) =
      wordsOf ((List.range n).map (fun k => t.word (C k) (L k).key)) := by
    unfold wordsOf State.word
    rw [List.flatMap_map]
    simp only [vseen_of_none hd]
  refine ⟨us, ?_⟩
  rw [ht, hn, hw, List.take_of_length_le (by rw [length_wordsOf, List.length_map, List.length_range])]

/-- Words of a run that nothing stops, from one of them on. -/
theorem reaches_from {kind : Kind} {n N : Nat} (j : Nat)
    (hr : Claim.Reaches s kind 4 (fun k => va + BitVec.ofNat 64 (4 * k)) (fun k => k < N) L C) (hn : j + n ≤ N) {a : Word}
    (ha : a = va + BitVec.ofNat 64 (4 * j)) :
    Claim.Reaches s kind 4 (fun k => a + BitVec.ofNat 64 (4 * k)) (fun k => k < n) (fun k => L (j + k)) (fun k => C (j + k)) := by
  have haddr (k : Nat) : a + BitVec.ofNat 64 (4 * k) = va + BitVec.ofNat 64 (4 * (j + k)) := by
    rw [ha, BitVec.add_assoc, Nat.mul_add, BitVec.ofNat_add]
  exact ⟨fun k hk => by rw [haddr]; exact hr.aligned (j + k) (by omega),
    fun k hk => by rw [haddr]; exact hr.reached (j + k) (by omega), fun k hk => hr.served (j + k) (by omega)⟩

/-! #### Words held as stores -/

/-- Numbers with the words of a record that they are for. -/
def placed (j : Nat) (vs : List Nat) : List (Nat × Nat) := (List.range vs.length).map (fun k => (j + k, vs.getD k 0))

theorem mem_placed {j : Nat} {vs : List Nat} {p : Nat × Nat} :
    p ∈ placed j vs ↔ j ≤ p.1 ∧ vs[p.1 - j]? = some p.2 := by
  unfold placed
  constructor
  · intro h
    obtain ⟨k, hk, rfl⟩ := List.mem_map.mp h
    have hk := List.mem_range.mp hk
    refine ⟨by simp, ?_⟩
    dsimp only
    rw [show j + k - j = k by omega, List.getD_eq_getElem _ _ hk, List.getElem?_eq_getElem hk]
  · rintro ⟨hj, hv⟩
    obtain ⟨hlt, he⟩ := List.getElem?_eq_some_iff.mp hv
    refine List.mem_map.mpr ⟨p.1 - j, List.mem_range.mpr hlt, ?_⟩
    rw [List.getD_eq_getElem _ _ hlt, he]
    exact Prod.ext (by dsimp only; omega) rfl

theorem holdEach_ok {s : State} {H : Hart} (f : At → Nat) (ps : List At) (G : Grp) :
    ps.forM (fun p => hold s.oneCtx p 4 (f p) (H.ordered p) false) G s =
      .ok ((), { G with held := G.held ++ ps.map (fun p => heldAt s.cur H 4 (f p) none p) }) s := by
  induction ps generalizing G with
  | nil =>
    rw [List.map_nil, List.append_nil]
    rfl
  | cons p t ih =>
    rw [List.forM_eq_forM, List.forM_cons]
    refine (gop_bind_ok (hold_ok s G H p 4 (f p) false)).trans ((ih _).trans ?_)
    rw [List.map_cons, List.append_assoc, List.singleton_append]
    rfl

/-- Words are held as stores (R304, R305). -/
theorem holdWords_ok {N j : Nat} {vs : List Nat} {G : Grp} {a : Word}
    (hr : Claim.Reaches s .write 4 (fun k => va + BitVec.ofNat 64 (4 * k)) (fun k => k < N) L C)
    (hn : j + vs.length ≤ N) (ha : a = va + BitVec.ofNat 64 (4 * j)) : ∃ es, holdWords s.oneCtx a vs G s =
      .ok ((), { G with held := G.held ++ es }) s ∧ (∀ e ∈ es, e.slot = 0 ∧ e.simple) ∧
        es.map (fun e => e.d) = (placed j vs).map (fun p => elemStore s.cur 4 (C p.1) (L p.1).key p.2 none) := by
  have hr' := reaches_from j hr hn ha
  have hra := reachAll_ok hr' G (is := List.range vs.length) fun i hi => List.mem_range.mp hi
  have heach := holdEach_ok (s := s) (H := G.h) (fun p => vs.getD p.i 0)
    ((List.range vs.length).map (fun k => ⟨k, a + BitVec.ofNat 64 (4 * k), L (j + k), C (j + k)⟩)) G
  have hrun : holdWords s.oneCtx a vs G s = _ := (gop_bind_ok (gHart_ok G s)).trans ((gop_bind_ok hra).trans heach)
  refine ⟨_, hrun, fun e he => ?_, ?_⟩
  · obtain ⟨p, -, rfl⟩ := List.mem_map.mp he
    exact heldAt_simple _ _ _ _ _ _
  · unfold placed
    rw [List.map_map, List.map_map, List.map_map]
    rfl

end

end Sys2Proof.Machine

/-! ### `msound` (R303, R304) -/

namespace Sys2Proof.Machine

/-- The value and the flags of an accumulator of a sounding (R303). -/
def soundValue (A B : List Byte) (K : Nat) (p : Nat × Nat) : Nat × Flags :=
  let d := dotInt A B 0 14 K p.1 p.2
  (wrapInt 32 d.1, d.2)

/-- The hart that a sounding leaves (R303). -/
def Hart.sounded (H : Hart) (w : VFields) (A B : List Byte) : Hart :=
  ((H.tookA w false).tookB w).fill (soundValue A B H.shapeK) (Machine.region H.shapeM H.shapeN)

/-- The sum of the magnitudes of a row of operand A (R304). -/
def Hart.rowSum (H : Hart) (A : List Byte) (m : Nat) : Nat :=
  ((List.range H.shapeK).map (fun k => (operandInt 0 (operandElem A 0 H.shapeK m k)).1.natAbs)).sum

/-- The neurons of which a hart's accumulators pass the threshold (R303). -/
def Hart.soundActive (H K : Hart) : List Nat :=
  (List.range H.shapeN).filter (fun n => (List.range H.shapeM).any (fun m =>
    decide (signedNat 32 (fld H.csr.soundt 0 32).toNat < signedNat 32 (K.acc m n))))

/-- The numbers of a sounding's record, with the words that they are for (R304). -/
def Hart.soundRecord (H K : Hart) (A : List Byte) : List (Nat × Nat) :=
  placed 0 ([(H.soundActive K).length, 0, H.shapeM + 65536 * H.shapeN] ++ List.replicate 13 0) ++
    placed 16 ((List.range H.shapeM).map (H.rowSum A)) ++ placed 144 (H.soundActive K)

theorem soundActive_length (H K : Hart) : (H.soundActive K).length ≤ H.shapeN := by
  have := List.length_filter_le (fun n => (List.range H.shapeM).any (fun m =>
    decide (signedNat 32 (fld H.csr.soundt 0 32).toNat < signedNat 32 (K.acc m n)))) (List.range H.shapeN)
  rwa [List.length_range] at this

/-- A ring popped where a condition holds. -/
theorem popIf_ok {q : Nat} {c : Prop} [Decidable c] {β : Type} {k : PUnit → GOp β} {G : Grp} {s : State}
    {r : EStateM.Result Stop State (β × Grp)} (h : k ⟨⟩ { G with h := if c then G.h.popped q else G.h } s = r) :
    (if c then popRing q >>= k else k ⟨⟩) G s = r := by
  by_cases hc : c
  · rw [if_pos hc]
    rw [if_pos hc] at h
    exact (gop_bind_ok (gMod_ok _ _ _)).trans h
  · rw [if_neg hc]
    rw [if_neg hc] at h
    exact h

section
variable {s : State} {w : VFields} {A B : List Byte} {L : Nat → Leaf} {C : Nat → Nat}

theorem msoundForm_ok (hc : Calm s) (hA : Claim.Entry s w.va.toNat (operandBytes 0 s.me.shapeM s.me.shapeK) A)
    (hB : Claim.Entry s w.vb.toNat (operandBytes 14 s.me.shapeN s.me.shapeK) B)
    (hM : s.me.shapeM ≤ 128) (hN : s.me.shapeN ≤ 2 * s.me.lanes)
    (hr : Claim.Reaches s .write 4 (fun k => s.me.getX w.vc + BitVec.ofNat 64 (4 * k)) (fun k => k < 1168) L C)
    (hrec : recordCheck (s.me.getX w.vc) s.openGroup s = .ok ((), s.openGroup) s) :
    ∃ us es, msoundForm s.oneCtx w s.openGroup s =
      .ok ((), { s.openGroup with h := s.me.sounded w A B, used := us, held := es }) s ∧
      (∀ e ∈ es, e.slot = 0 ∧ e.simple) ∧ es.map (fun e => e.d) = (s.me.soundRecord (s.me.sounded w A B) A).map
        (fun p => elemStore s.cur 4 (C p.1) (L p.1).key p.2 none) := by
  obtain ⟨us, t, hm, hEA⟩ := ringEntry_ok hA hc.kept (G := s.openGroup) rfl rfl
  rw [hm.eq_of_none hc.none] at hEA
  obtain ⟨us', t', hm', hEB⟩ := ringEntry_ok hB hc.kept (G := s.openGroup.reading us) rfl rfl
  rw [hm'.eq_of_none hc.none] at hEB
  have hl := lanes_le s.me
  have hact := soundActive_length s.me (s.me.sounded w A B)
  obtain ⟨e1, h1, hs1, hd1⟩ := holdWords_ok (j := 0) (a := s.me.getX w.vc)
    (vs := [(s.me.soundActive (s.me.sounded w A B)).length, 0, s.me.shapeM + 65536 * s.me.shapeN] ++ List.replicate 13 0)
    (G := { s.openGroup with h := s.me.sounded w A B, used := us' }) hr (by simp) (by simp)
  obtain ⟨e2, h2, hs2, hd2⟩ := holdWords_ok (j := 16) (a := s.me.getX w.vc + 64)
    (vs := (List.range s.me.shapeM).map (s.me.rowSum A))
    (G := { s.openGroup with h := s.me.sounded w A B, used := us', held := e1 }) hr (by simp; omega) rfl
  obtain ⟨e3, h3, hs3, hd3⟩ := holdWords_ok (j := 144) (a := s.me.getX w.vc + 576)
    (vs := s.me.soundActive (s.me.sounded w A B))
    (G := { s.openGroup with h := s.me.sounded w A B, used := us', held := e1 ++ e2 }) hr (by omega) rfl
  refine ⟨us', e1 ++ e2 ++ e3, ?_, fun e he => ?_, ?_⟩
  · unfold msoundForm
    refine (gop_bind_ok (gHart_ok _ _)).trans ?_
    refine (gop_bind_ok (ringCheck_ok hA rfl)).trans ?_
    refine (gop_bind_ok (ringCheck_ok hB rfl)).trans ?_
    refine (gop_bind_ok hrec).trans ?_
    refine (gop_bind_ok hEA).trans ?_
    refine (gop_bind_ok hEB).trans ?_
    refine popIf_ok ?_
    refine popIf_ok ?_
    refine (gop_bind_ok (gMod_ok _ _ _)).trans ?_
    refine (gop_bind_ok (gHart_ok _ _)).trans ?_
    refine (gop_bind_ok h1).trans ?_
    refine (gop_bind_ok h2).trans ?_
    exact h3
  · rcases List.mem_append.mp he with he | he
    · rcases List.mem_append.mp he with he | he
      · exact hs1 e he
      · exact hs2 e he
    · exact hs3 e he
  · rw [List.map_append, List.map_append, hd1, hd2, hd3]
    unfold Hart.soundRecord
    rw [List.map_append, List.map_append]

end

/-! #### What the words of a record hold -/

/-- No two numbers are for one word. -/
def Functional (ps : List (Nat × Nat)) : Prop := ∀ p ∈ ps, ∀ q ∈ ps, p.1 = q.1 → p = q

theorem placed_range {j : Nat} {vs : List Nat} {p : Nat × Nat} (h : p ∈ placed j vs) :
    j ≤ p.1 ∧ p.1 < j + vs.length := by
  obtain ⟨hj, hv⟩ := mem_placed.mp h
  obtain ⟨hlt, -⟩ := List.getElem?_eq_some_iff.mp hv
  omega

theorem placed_functional (j : Nat) (vs : List Nat) : Functional (placed j vs) := by
  intro p hp q hq h
  obtain ⟨-, hv⟩ := mem_placed.mp hp
  obtain ⟨-, hv'⟩ := mem_placed.mp hq
  rw [h, hv'] at hv
  exact Prod.ext h (Option.some.inj hv).symm

theorem Functional.append {ps qs : List (Nat × Nat)} (hp : Functional ps) (hq : Functional qs)
    (h : ∀ p ∈ ps, ∀ q ∈ qs, p.1 ≠ q.1) : Functional (ps ++ qs) := by
  intro p hpm q hqm he
  rcases List.mem_append.mp hpm with hp' | hp' <;> rcases List.mem_append.mp hqm with hq' | hq'
  · exact hp p hp' q hq' he
  · exact absurd he (h p hp' q hq')
  · exact absurd he.symm (h q hq' p hp')
  · exact hq p hp' q hq' he

/-- Each word of a record that is written holds its number (R264). -/
theorem Laid.word {s t : State} {h : HartId} {L : Nat → Leaf} {c key : Nat} {ps : List (Nat × Nat)}
    (hl : Laid s t (ps.map (fun p => elemStore h 4 (c + 4 * p.1) (L p.1).key p.2 none)))
    (hk : ∀ p ∈ ps, (L p.1).key = key) (hf : Functional ps) {p : Nat × Nat} (hp : p ∈ ps) (hv : p.2 < 2 ^ 32) :
    t.word (c + 4 * p.1) key = p.2 := by
  unfold State.word
  rw [hl.element hk hp fun q hq hne => ?_, natOf_bytesOf]
  · exact Nat.mod_eq_of_lt hv
  · have : q.1 ≠ p.1 := fun e => hne (hf q hq p hp e)
    omega

section
variable {H K : Hart} {A : List Byte}

theorem soundRecord_functional (hM : H.shapeM ≤ 128) : Functional (H.soundRecord K A) := by
  refine ((placed_functional _ _).append (placed_functional _ _) fun p hp q hq => ?_).append (placed_functional _ _)
    fun p hp q hq => ?_
  · have h1 := placed_range hp
    have h2 := placed_range hq
    simp only [List.length_append, List.length_cons, List.length_nil, List.length_replicate] at h1
    omega
  · have h2 := placed_range hq
    rcases List.mem_append.mp hp with hp | hp
    · have h1 := placed_range hp
      simp only [List.length_append, List.length_cons, List.length_nil, List.length_replicate] at h1
      omega
    · have h1 := placed_range hp
      simp only [List.length_map, List.length_range] at h1
      omega

theorem soundRecord_range (hM : H.shapeM ≤ 128) (hN : H.shapeN ≤ 2 * H.lanes) {p : Nat × Nat}
    (h : p ∈ H.soundRecord K A) : p.1 < 1168 := by
  have hl := lanes_le H
  have ha := soundActive_length H K
  rcases List.mem_append.mp h with h | h
  · rcases List.mem_append.mp h with h | h
    · have h1 := placed_range h
      simp only [List.length_append, List.length_cons, List.length_nil, List.length_replicate] at h1
      omega
    · have h1 := placed_range h
      simp only [List.length_map, List.length_range] at h1
      omega
  · have h1 := placed_range h
    omega

theorem mem_soundRecord_head {k v : Nat} (h : ([(H.soundActive K).length, 0, H.shapeM + 65536 * H.shapeN] : List Nat)[k]? = some v) :
    (k, v) ∈ H.soundRecord K A := by
  refine List.mem_append_left _ (List.mem_append_left _ (mem_placed.mpr ⟨Nat.zero_le _, ?_⟩))
  obtain ⟨hlt, he⟩ := List.getElem?_eq_some_iff.mp h
  rw [List.getElem?_append_left (by simpa using hlt)]
  exact h

theorem mem_soundRecord_row {m : Nat} (hm : m < H.shapeM) : (16 + m, H.rowSum A m) ∈ H.soundRecord K A := by
  refine List.mem_append_left _ (List.mem_append_right _ (mem_placed.mpr ⟨Nat.le_add_right _ _, ?_⟩))
  dsimp only
  rw [Nat.add_sub_cancel_left, List.getElem?_map, List.getElem?_range hm]
  rfl

theorem mem_soundRecord_active {k n : Nat} (h : (H.soundActive K)[k]? = some n) :
    (144 + k, n) ∈ H.soundRecord K A := by
  refine List.mem_append_right _ (mem_placed.mpr ⟨Nat.le_add_right _ _, ?_⟩)
  dsimp only
  rw [Nat.add_sub_cancel_left]
  exact h

theorem shapeK_lt (H : Hart) : H.shapeK < 65536 := (fld H.csr.tshape 32 16).isLt

theorem operandElem_lt (bs : List Byte) (K m k : Nat) : operandElem bs 0 K m k < 256 := Nat.mod_lt _ (by decide)

theorem operandInt_natAbs (bs : List Byte) (K m k : Nat) : (operandInt 0 (operandElem bs 0 K m k)).1.natAbs ≤ 256 := by
  have h := operandElem_lt bs K m k
  unfold operandInt signedNat
  split <;> omega

theorem rowSum_lt (H : Hart) (A : List Byte) (m : Nat) : H.rowSum A m < 2 ^ 32 := by
  have hs := List.sum_le_card_nsmul ((List.range H.shapeK).map
    (fun k => (operandInt 0 (operandElem A 0 H.shapeK m k)).1.natAbs)) 256 (by
      intro x hx
      obtain ⟨k, -, rfl⟩ := List.mem_map.mp hx
      exact operandInt_natAbs A H.shapeK m k)
  rw [List.length_map, List.length_range, smul_eq_mul] at hs
  have := shapeK_lt H
  unfold Hart.rowSum
  omega

end

/-! #### The run -/

theorem wrapInt_eq (v : Int) : wrapInt 32 v = (v % 2 ^ 32).toNat := by
  unfold wrapInt
  norm_num

theorem sounded_accOnly (H : Hart) (w : VFields) (A B : List Byte) :
    AccOnly ((H.tookA w false).tookB w) (H.sounded w A B) := fill_accOnly _ _ _

theorem acc_sounded {H : Hart} (hM : H.shapeM ≤ 128) (hN : H.shapeN ≤ 2 * H.lanes) (w : VFields) (A B : List Byte)
    {m n : Nat} (hm : m < H.shapeM) (hn : n < H.shapeN) :
    (H.sounded w A B).acc m n = ((dotInt A B 0 14 H.shapeK m n).1 % 2 ^ 32).toNat := by
  obtain ⟨r, p, hK⟩ := (tookA_feedOnly H w false).trans (tookB_feedOnly (H.tookA w false) w)
  have hf := (acc_fill_region (H := { H with rings := r, ports := p }) (f := soundValue A B H.shapeK) hM hN
    (lt_of_lt_of_le hm hM) (lt_of_lt_of_le hn hN)).1 ⟨hm, hn⟩
  unfold Hart.sounded
  rw [hK, hf, ← wrapInt_eq]
  exact Nat.mod_eq_of_lt (wrapInt_lt _)

theorem fld_low_toNat (x : Word) : (fld x 0 32).toNat = x.toNat % 2 ^ 32 := by
  unfold fld
  rw [BitVec.extractLsb'_toNat, Nat.shiftRight_zero]

/-- The neurons that a sounding finds active are those of which some sum of products passes the threshold (R303). -/
theorem soundActive_sounded {H : Hart} (hM : H.shapeM ≤ 128) (hN : H.shapeN ≤ 2 * H.lanes) (w : VFields)
    (A B : List Byte) : H.soundActive (H.sounded w A B) = (List.range H.shapeN).filter (fun n =>
      (List.range H.shapeM).any (fun m => decide (signedNat 32 (H.csr.soundt.toNat % 2 ^ 32) <
        signedNat 32 ((dotInt A B 0 14 H.shapeK m n).1 % 2 ^ 32).toNat))) := by
  unfold Hart.soundActive
  rw [fld_low_toNat]
  refine List.filter_congr fun n hn => ?_
  rw [Bool.eq_iff_iff, List.any_eq_true, List.any_eq_true]
  refine exists_congr fun m => and_congr_right fun hm => ?_
  rw [acc_sounded hM hN w A B (List.mem_range.mp hm) (List.mem_range.mp hn)]

section
variable {s : State} {w : VFields} {A B : List Byte} {L : Nat → Leaf} {c key : Nat}

/-- What a run of `msound` leaves: its hart, and the words of its record (R303, R304). -/
theorem msound_runs (hi : Claim.Issues s .msound w) (hc : Calm s)
    (hA : Claim.Entry s w.va.toNat (operandBytes 0 s.me.shapeM s.me.shapeK) A)
    (hB : Claim.Entry s w.vb.toNat (operandBytes 14 s.me.shapeN s.me.shapeK) B)
    (hM : s.me.shapeM ≤ 128) (hN : s.me.shapeN ≤ 2 * s.me.lanes)
    (hr : Claim.Reaches s .write 4 (fun k => s.me.getX w.vc + BitVec.ofNat 64 (4 * k)) (fun k => k < 1168) L
      (fun k => c + 4 * k)) (hkey : ∀ k < 1168, (L k).key = key)
    (hrec : recordCheck (s.me.getX w.vc) s.openGroup s = .ok ((), s.openGroup) s) :
    ∃ t, exec (.msound w) s = .next t ∧ (∃ H, t.me = (s.me.sounded w A B).left H) ∧
      ∀ p ∈ s.me.soundRecord (s.me.sounded w A B) A, p.2 < 2 ^ 32 → t.word (c + 4 * p.1) key = p.2 := by
  obtain ⟨us, es, hform, hsimple, hes⟩ := msoundForm_ok hc hA hB hM hN hr hrec
  obtain ⟨t, hrun, hme, -, -, hlaid⟩ := exec_stores (i := .msound w) rfl (by decide) hi hform hc hsimple rfl ⟨rfl, rfl, rfl⟩
  rw [hes] at hlaid
  exact ⟨t, hrun, hme, fun p hp hv => hlaid.word (fun q hq => hkey q.1 (soundRecord_range hM hN hq))
    (soundRecord_functional hM) hp hv⟩

/-- `msound` writes the record of a tile (R303, R304). -/
theorem msound_retires (hi : Claim.Issues s .msound w) (hc : Calm s)
    (hA : Claim.Entry s w.va.toNat (operandBytes 0 s.me.shapeM s.me.shapeK) A)
    (hB : Claim.Entry s w.vb.toNat (operandBytes 14 s.me.shapeN s.me.shapeK) B)
    (hM : s.me.shapeM ≤ 128) (hN : s.me.shapeN ≤ 2 * s.me.lanes)
    (hr : Claim.Reaches s .write 4 (fun k => s.me.getX w.vc + BitVec.ofNat 64 (4 * k)) (fun k => k < 1168) L
      (fun k => c + 4 * k)) (hkey : ∀ k < 1168, (L k).key = key)
    (hrec : recordCheck (s.me.getX w.vc) s.openGroup s = .ok ((), s.openGroup) s) :
    ∃ t, exec (.msound w) s = .next t ∧ Claim.Retired s t ∧ t.me.x = s.me.x ∧
      (t.me.ring (BitVec.ofNat 3 w.va.toNat)).head =
        (s.me.ring (BitVec.ofNat 3 w.va.toNat)).head + (if w.sel.getLsbD 9 then 0 else 1) ∧
      (t.me.ring (BitVec.ofNat 3 w.vb.toNat)).head =
        (s.me.ring (BitVec.ofNat 3 w.vb.toNat)).head + (if w.sel.getLsbD 8 then 0 else 1) ∧
      (∀ m n, m < s.me.shapeM ∧ n < s.me.shapeN →
        t.me.acc m n = ((dotInt A B 0 14 s.me.shapeK m n).1 % 2 ^ 32).toNat) ∧
      t.word (c + 4 * 0) key = (s.me.soundActive (s.me.sounded w A B)).length ∧ t.word (c + 4 * 1) key = 0 ∧
      t.word (c + 4 * 2) key = s.me.shapeM + 65536 * s.me.shapeN ∧
      (∀ m < s.me.shapeM, t.word (c + 4 * (16 + m)) key = s.me.rowSum A m) ∧
      (∀ k n, (s.me.soundActive (s.me.sounded w A B))[k]? = some n → t.word (c + 4 * (144 + k)) key = n) := by
  obtain ⟨hvb, hva, hne⟩ := rings_of_ringFormOk (ringFormOk_of_fieldsOk (.inr (.inr (.inr rfl))) hi.fields)
  have hrings := ring_names_ne hva hvb hne
  have hfed := sounded_accOnly s.me w A B
  have hheada := head_of_fed_a hfed hrings rfl
  have hheadb := head_of_fed_b hfed hrings.symm
  have hl := lanes_le s.me
  have hact := soundActive_length s.me (s.me.sounded w A B)
  obtain ⟨t, hrun, ⟨J, hme⟩, hword⟩ := msound_runs hi hc hA hB hM hN hr hkey hrec
  refine ⟨t, hrun, retired_of_kept (kept_of_fed hfed) hme, ?_, ?_, ?_, fun m n hmn => ?_, ?_, ?_, ?_, fun m hm => ?_,
    fun k n hk => ?_⟩
  · rw [hme]
    exact (registers_of_fed hfed).1
  · rw [hme]
    exact hheada
  · rw [hme]
    exact hheadb
  · rw [hme]
    exact acc_sounded hM hN w A B hmn.1 hmn.2
  · exact hword (0, _) (mem_soundRecord_head rfl) (by dsimp only; omega)
  · exact hword (1, 0) (mem_soundRecord_head rfl) (by decide)
  · exact hword (2, _) (mem_soundRecord_head rfl) (by dsimp only; omega)
  · exact hword (16 + m, _) (mem_soundRecord_row hm) (rowSum_lt _ _ _)
  · have hn : n < s.me.shapeN := List.mem_range.mp (List.mem_of_mem_filter (List.mem_of_getElem? hk))
    exact hword (144 + k, n) (mem_soundRecord_active hk) (by dsimp only; omega)

end

end Sys2Proof.Machine

/-! ### `mcheck` (R305, R306) -/

namespace Sys2Proof.Machine

/-- The words of a run of `n` from word `j` on of a place. -/
def State.words (s : State) (c key j n : Nat) : List Nat := (List.range n).map (fun k => s.word (c + 4 * (j + k)) key)

/-- A word of a run of words. -/
theorem leAt_wordsOf_range {g : Nat → Nat} {n k : Nat} (hk : k < n) (hg : g k < 2 ^ 32) :
    leAt (wordsOf ((List.range n).map g)) (4 * k) 4 = g k := by
  have hlt : k < ((List.range n).map g).length := by rwa [List.length_map, List.length_range]
  have he : ((List.range n).map g)[k] = g k := by rw [List.getElem_map, List.getElem_range]
  rw [leAt_wordsOf hlt (by rw [he]; exact hg), he]

/-- The halves of a word of a run of words. -/
theorem halves_wordsOf_range {g : Nat → Nat} {n k : Nat} (hk : k < n) :
    leAt (wordsOf ((List.range n).map g)) (4 * k) 2 = g k % 65536 ∧
      leAt (wordsOf ((List.range n).map g)) (4 * k + 2) 2 = g k / 65536 % 65536 := by
  have hlt : k < ((List.range n).map g).length := by rwa [List.length_map, List.length_range]
  have he : ((List.range n).map g)[k] = g k := by rw [List.getElem_map, List.getElem_range]
  rw [leAt_wordsOf_low hlt, leAt_wordsOf_high hlt, he]
  exact ⟨rfl, rfl⟩

section
variable {s : State} {w : VFields} {L T : Nat → Leaf} {c ct key : Nat}

/-- What `mcheck` reads and writes is in reach, and nothing stops it (R305). -/
structure Checkable (s : State) (w : VFields) (L T : Nat → Leaf) (c ct key : Nat) : Prop where
  calm : Calm s
  write : Claim.Reaches s .write 4 (fun k => s.me.getX w.vc + BitVec.ofNat 64 (4 * k)) (fun k => k < 1168) L
    (fun k => c + 4 * k)
  keys : ∀ k < 1168, (L k).key = key
  record : recordCheck (s.me.getX w.vc) s.openGroup s = .ok ((), s.openGroup) s
  place : (s.me.getX w.va).toNat % 64 = 0
  read : Claim.Reaches s .read 4 (fun k => s.me.getX w.vc + BitVec.ofNat 64 (4 * k)) (fun k => k < 1168) L
    (fun k => c + 4 * k)
  clean : ∀ k < 1168, s.poisoned (L k).pa 4 = false
  table : Claim.Reaches s .read 4 (fun k => s.me.getX w.va + BitVec.ofNat 64 (4 * k)) (fun k => k < 16 + 4 * s.me.shapeN) T
    (fun k => ct + 4 * k)
  cleanTable : ∀ k < 16 + 4 * s.me.shapeN, s.poisoned (T k).pa 4 = false
  shape : s.word (c + 4 * 2) key = s.me.shapeM + 65536 * s.me.shapeN
  rows : s.me.shapeM ≤ 128
  columns : s.me.shapeN ≤ 2 * s.me.lanes

/-- Words of the record read from one of them on. -/
theorem readRecord_ok (h : Checkable s w L T c ct key) {j n : Nat} (hn : j + n ≤ 1168) {a : Word}
    (ha : a = s.me.getX w.vc + BitVec.ofNat 64 (4 * j)) {G : Grp} (hg : G.held = []) :
    ∃ us, readVa a 4 (4 * n) G s = .ok (wordsOf (s.words c key j n), G.reading us) s := by
  obtain ⟨us, hr⟩ := readWords_ok (G := G) h.calm.none h.calm.kept (reaches_from j h.read hn ha)
    (fun k hk => h.clean (j + k) (by omega)) hg
  have hw : (List.range n).map (fun k => s.word (c + 4 * (j + k)) (L (j + k)).key) = s.words c key j n :=
    List.map_congr_left fun k hk => by rw [h.keys (j + k) (by have := List.mem_range.mp hk; omega)]
  refine ⟨us, ?_⟩
  rw [← hw]
  exact hr

/-- The coefficient table read (R305). -/
theorem readTable_ok (h : Checkable s w L T c ct key) {G : Grp} (hg : G.held = []) :
    ∃ us, readVa (s.me.getX w.va) 4 (64 + 16 * s.me.shapeN) G s =
      .ok (wordsOf ((List.range (16 + 4 * s.me.shapeN)).map (fun k => s.word (ct + 4 * k) (T k).key)), G.reading us) s := by
  have he : 64 + 16 * s.me.shapeN = 4 * (16 + 4 * s.me.shapeN) := by omega
  rw [he]
  exact readWords_ok h.calm.none h.calm.kept h.table h.cleanTable hg

/-- The neurons that the record lists (R304). -/
def State.soundListed (s : State) (c key : Nat) : List Nat :=
  (List.range (min (s.word (c + 4 * 0) key) s.me.shapeN)).map (fun k => s.word (c + 4 * (144 + k)) key)

/-- A coefficient of the table (R305). -/
def State.coefficient (s : State) (T : Nat → Leaf) (ct k : Nat) : FVal :=
  fmtF32.decode false (s.word (ct + 4 * k) (T k).key)

/-- The neurons to replay where the coefficients are in order (R306). -/
def State.replayed (s : State) (T : Nat → Leaf) (c ct key : Nat) : List Nat :=
  (List.range s.me.shapeN).filter (fun n => !(s.soundListed c key).contains n && (List.range s.me.shapeM).any (fun m =>
    (fmtF32.decode false (s.me.csr.sounde.toNat % 2 ^ 32)).cmp (soundBound (s.coefficient T ct 0) (s.coefficient T ct (16 + 4 * n))
      (s.coefficient T ct (17 + 4 * n)) (s.coefficient T ct (18 + 4 * n)) (s.me.acc m n) (s.word (c + 4 * (16 + m)) key)) ==
        some .lt))

/-- The coefficients and the limit are finite, and those that may not be negative are not (R306). -/
structure InOrder (s : State) (T : Nat → Leaf) (ct : Nat) : Prop where
  limit : (fmtF32.decode false (s.me.csr.sounde.toNat % 2 ^ 32)).finite = true
  limit0 : (fmtF32.decode false (s.me.csr.sounde.toNat % 2 ^ 32)).below0 = false
  delta : (s.coefficient T ct 0).finite = true
  delta0 : (s.coefficient T ct 0).below0 = false
  rest : ∀ n < s.me.shapeN, (s.coefficient T ct (16 + 4 * n)).finite = true ∧
    (s.coefficient T ct (17 + 4 * n)).finite = true ∧ (s.coefficient T ct (17 + 4 * n)).below0 = false ∧
    (s.coefficient T ct (18 + 4 * n)).finite = true ∧ (s.coefficient T ct (18 + 4 * n)).below0 = false

/-! #### The check of what has been read -/

/-- A coefficient of a table that has been read. -/
def coefAt (t : List Byte) (off : Nat) : FVal := fmtF32.decode false (leAt t off 4)

/-- The limit of a check (R306). -/
def Hart.soundLimit (H : Hart) : FVal := fmtF32.decode false (fld H.csr.sounde 0 32).toNat

/-- A neuron's coefficients are out of order (R306). -/
def Hart.soundBad (H : Hart) (t : List Byte) (n : Nat) : Bool :=
  let o := 64 + 16 * n
  !((coefAt t 0).finite && (coefAt t (o + 4)).finite && (coefAt t (o + 8)).finite && (coefAt t o).finite)
    || (coefAt t 0).below0 || (coefAt t (o + 4)).below0 || (coefAt t (o + 8)).below0 || H.soundLimit.isNan
    || H.soundLimit.below0

/-- The neurons that are not listed. -/
def Hart.soundRest (H : Hart) (active : List Nat) : List Nat :=
  (List.range H.shapeN).filter (fun n => !active.contains n)

/-- The neurons to replay, from what has been read (R306). -/
def Hart.soundReplay (H : Hart) (t lam : List Byte) (active : List Nat) : List Nat :=
  (H.soundRest active).filter (fun n => H.soundBad t n || (List.range H.shapeM).any (fun m =>
    let o := 64 + 16 * n
    H.soundLimit.cmp (soundBound (coefAt t 0) (coefAt t o) (coefAt t (o + 4)) (coefAt t (o + 8)) (H.acc m n)
      (leAt lam (4 * m) 4)) == some .lt))

/-- The table and the rows as they are read. -/
def State.soundTable (s : State) (T : Nat → Leaf) (ct : Nat) : List Byte :=
  wordsOf ((List.range (16 + 4 * s.me.shapeN)).map (fun k => s.word (ct + 4 * k) (T k).key))

theorem coefAt_soundTable (s : State) (T : Nat → Leaf) (ct : Nat) {k off : Nat} (hk : k < 16 + 4 * s.me.shapeN)
    (ho : off = 4 * k) : coefAt (s.soundTable T ct) off = s.coefficient T ct k := by
  unfold coefAt State.soundTable State.coefficient
  rw [ho, leAt_wordsOf_range (g := fun k => s.word (ct + 4 * k) (T k).key) hk (word_lt _ _ _)]

/-- The coefficients of a neuron (R305). -/
theorem coefAt_neuron (s : State) (T : Nat → Leaf) (ct : Nat) {n : Nat} (hn : n < s.me.shapeN) :
    coefAt (s.soundTable T ct) 0 = s.coefficient T ct 0 ∧
      coefAt (s.soundTable T ct) (64 + 16 * n) = s.coefficient T ct (16 + 4 * n) ∧
      coefAt (s.soundTable T ct) (64 + 16 * n + 4) = s.coefficient T ct (17 + 4 * n) ∧
      coefAt (s.soundTable T ct) (64 + 16 * n + 8) = s.coefficient T ct (18 + 4 * n) :=
  ⟨coefAt_soundTable s T ct (by omega) rfl, coefAt_soundTable s T ct (by omega) (by omega),
    coefAt_soundTable s T ct (by omega) (by omega), coefAt_soundTable s T ct (by omega) (by omega)⟩

theorem not_nan_of_finite {v : FVal} (h : v.finite = true) : v.isNan = false := by
  cases v with
  | num neg m e => rfl
  | _ => cases h

theorem soundBad_of_inOrder (h : InOrder s T ct) {n : Nat} (hn : n < s.me.shapeN) :
    s.me.soundBad (s.soundTable T ct) n = false := by
  obtain ⟨hl, hl0, hd, hd0, hr⟩ := h
  obtain ⟨h16, h17, h170, h18, h180⟩ := hr n hn
  obtain ⟨c0, c16, c17, c18⟩ := coefAt_neuron s T ct hn
  unfold Hart.soundBad Hart.soundLimit
  dsimp only
  rw [fld_low_toNat, c0, c16, c17, c18, hd, h17, h18, h16, hd0, h170, h180,
    not_nan_of_finite hl, hl0]
  rfl

theorem soundReplay_eq (h : InOrder s T ct) :
    s.me.soundReplay (s.soundTable T ct) (wordsOf (s.words c key 16 s.me.shapeM)) (s.soundListed c key) =
      s.replayed T c ct key := by
  unfold Hart.soundReplay Hart.soundRest State.replayed
  rw [List.filter_filter]
  refine List.filter_congr fun n hn => ?_
  have hn := List.mem_range.mp hn
  obtain ⟨c0, c16, c17, c18⟩ := coefAt_neuron s T ct hn
  have hany : (List.range s.me.shapeM).any (fun m =>
      let o := 64 + 16 * n
      s.me.soundLimit.cmp (soundBound (coefAt (s.soundTable T ct) 0) (coefAt (s.soundTable T ct) o)
        (coefAt (s.soundTable T ct) (o + 4)) (coefAt (s.soundTable T ct) (o + 8)) (s.me.acc m n)
        (leAt (wordsOf (s.words c key 16 s.me.shapeM)) (4 * m) 4)) == some .lt) =
      (List.range s.me.shapeM).any (fun m => (fmtF32.decode false (s.me.csr.sounde.toNat % 2 ^ 32)).cmp
        (soundBound (s.coefficient T ct 0) (s.coefficient T ct (16 + 4 * n)) (s.coefficient T ct (17 + 4 * n))
          (s.coefficient T ct (18 + 4 * n)) (s.me.acc m n) (s.word (c + 4 * (16 + m)) key)) == some .lt) := by
    rw [Bool.eq_iff_iff, List.any_eq_true, List.any_eq_true]
    refine exists_congr fun m => and_congr_right fun hm => ?_
    have hm := List.mem_range.mp hm
    unfold State.words Hart.soundLimit
    dsimp only
    rw [fld_low_toNat, leAt_wordsOf_range (g := fun k => s.word (c + 4 * (16 + k)) key) hm (word_lt _ _ _), c0, c16, c17,
      c18]
  rw [soundBad_of_inOrder h hn, Bool.false_or, hany, Bool.and_comm]

/-- The numbers that a check writes into its record, with the words that they are for (R305). -/
def State.checkRecord (s : State) (T : Nat → Leaf) (c ct key : Nat) : List (Nat × Nat) :=
  Machine.placed 1 [(s.replayed T c ct key).length] ++ Machine.placed 656 (s.replayed T c ct key)

theorem replayed_length (s : State) (T : Nat → Leaf) (c ct key : Nat) : (s.replayed T c ct key).length ≤ s.me.shapeN := by
  unfold State.replayed
  exact (List.length_filter_le _ _).trans (by rw [List.length_range])

/-- The shape that the record names is the hart's (R305). -/
theorem shape_of_record (h : Checkable s w L T c ct key) :
    (leAt (wordsOf (s.words c key 0 16)) 8 2 == s.me.shapeM && leAt (wordsOf (s.words c key 0 16)) 10 2 == s.me.shapeN) =
      true := by
  obtain ⟨hlow, hhigh⟩ := halves_wordsOf_range (g := fun k => s.word (c + 4 * (0 + k)) key) (n := 16) (k := 2) (by decide)
  have hw := h.shape
  have hl := lanes_le s.me
  have hcol := h.columns
  have hrow := h.rows
  rw [Nat.zero_add, hw] at hlow hhigh
  rw [Bool.and_eq_true, beq_iff_eq, beq_iff_eq]
  exact ⟨hlow.trans (by omega), hhigh.trans (by omega)⟩

/-- The count that the record names, as far as the hart has neurons. -/
theorem count_of_record (s : State) (c key : Nat) :
    Nat.min (leAt (wordsOf (s.words c key 0 16)) 0 4) s.me.shapeN = min (s.word (c + 4 * 0) key) s.me.shapeN :=
  congrArg (fun x => min x s.me.shapeN)
    (leAt_wordsOf_range (g := fun k => s.word (c + 4 * (0 + k)) key) (n := 16) (k := 0) (by decide) (word_lt _ _ _))

/-- The neurons that the record lists, as they are read. -/
theorem listed_of_record (s : State) (c key : Nat) : (List.range (min (s.word (c + 4 * 0) key) s.me.shapeN)).map (fun k =>
      leAt (wordsOf (s.words c key 144 (min (s.word (c + 4 * 0) key) s.me.shapeN))) (4 * k) 4) = s.soundListed c key :=
  List.map_congr_left fun _ hk => leAt_wordsOf_range (g := fun k => s.word (c + 4 * (144 + k)) key) (List.mem_range.mp hk)
    (word_lt _ _ _)

/-- No neuron's coefficients are out of order. -/
theorem none_bad (h : InOrder s T ct) {active : List Nat} :
    (s.me.soundRest active).any (s.me.soundBad (s.soundTable T ct)) = false := by
  refine List.any_eq_false.mpr fun n hn => ?_
  rw [soundBad_of_inOrder h (List.mem_range.mp (List.mem_of_mem_filter hn))]
  exact Bool.false_ne_true

theorem mcheckForm_ok (h : Checkable s w L T c ct key) (ho : InOrder s T ct) : ∃ us es,
    mcheckForm s.oneCtx w s.openGroup s = .ok ((), { s.openGroup with used := us, held := es }) s ∧
      (∀ e ∈ es, e.slot = 0 ∧ e.simple) ∧ es.map (fun e => e.d) = (s.checkRecord T c ct key).map
        (fun p => elemStore s.cur 4 (c + 4 * p.1) (L p.1).key p.2 none) := by
  have hl := lanes_le s.me
  have hcol := h.columns
  have hrow := h.rows
  have hlen := replayed_length s T c ct key
  obtain ⟨u1, h1⟩ := readRecord_ok h (j := 0) (n := 16) (by omega) (a := s.me.getX w.vc) (by simp) (G := s.openGroup) rfl
  obtain ⟨u2, h2⟩ := readTable_ok h (G := s.openGroup.reading u1) rfl
  obtain ⟨u3, h3⟩ := readRecord_ok h (j := 16) (n := s.me.shapeM) (by omega) (a := s.me.getX w.vc + 64) rfl
    (G := s.openGroup.reading u2) rfl
  obtain ⟨u4, h4⟩ := readRecord_ok h (j := 144) (n := min (s.word (c + 4 * 0) key) s.me.shapeN) (by omega)
    (a := s.me.getX w.vc + 576) rfl (G := s.openGroup.reading u3) rfl
  obtain ⟨e1, h5, hs1, hd1⟩ := holdWords_ok (j := 1) (a := s.me.getX w.vc + 4) (vs := [(s.replayed T c ct key).length])
    (G := s.openGroup.reading u4) h.write (by simp) rfl
  obtain ⟨e2, h6, hs2, hd2⟩ := holdWords_ok (j := 656) (a := s.me.getX w.vc + 2624) (vs := s.replayed T c ct key)
    (G := { s.openGroup with used := u4, held := e1 }) h.write (by omega) rfl
  refine ⟨u4, e1 ++ e2, ?_, fun e he => ?_, ?_⟩
  · unfold mcheckForm
    refine (gop_bind_ok (gHart_ok _ _)).trans ?_
    refine (gop_bind_ok h.record).trans ?_
    refine (gop_bind_ok (gCheck_ok (decide_eq_true h.place) _ _ _ _)).trans ?_
    refine (gop_bind_ok h1).trans ?_
    refine (gop_bind_ok (gCheck_ok (shape_of_record h) _ _ _ _)).trans ?_
    refine (gop_bind_ok h2).trans ?_
    refine (gop_bind_ok h3).trans ?_
    rw [show s.openGroup.h = s.me from rfl, count_of_record]
    refine (gop_bind_ok h4).trans ?_
    rw [listed_of_record]
    rw [← soundReplay_eq ho] at h5 h6
    refine (gop_bind_ok h5).trans ?_
    refine (gop_bind_ok h6).trans ?_
    exact (congrArg (fun b : Bool => (if b then gMod (fun H => { H with csr := { H.csr with mstat := setBit H.csr.mstat 8 true } })
      else pure () : GOp Unit) { s.openGroup with used := u4, held := e1 ++ e2 } s) (none_bad ho)).trans rfl
  · rcases List.mem_append.mp he with he | he
    · exact hs1 e he
    · exact hs2 e he
  · rw [List.map_append, hd1, hd2]
    unfold State.checkRecord
    rw [List.map_append]

/-! #### The run -/

theorem checkRecord_functional : Functional (s.checkRecord T c ct key) := by
  refine (placed_functional _ _).append (placed_functional _ _) fun p hp q hq => ?_
  have h1 := placed_range hp
  have h2 := placed_range hq
  rw [List.length_singleton] at h1
  omega

theorem checkRecord_range (hN : s.me.shapeN ≤ 2 * s.me.lanes) {p : Nat × Nat} (h : p ∈ s.checkRecord T c ct key) :
    p.1 < 1168 := by
  have hl := lanes_le s.me
  have hlen := replayed_length s T c ct key
  rcases List.mem_append.mp h with h | h
  · have h1 := placed_range h
    rw [List.length_singleton] at h1
    omega
  · have h1 := placed_range h
    omega

/-- `mcheck` lists the neurons to replay (R305, R306). -/
theorem mcheck_retires (hi : Claim.Issues s .mcheck w) (h : Checkable s w L T c ct key) (ho : InOrder s T ct) :
    ∃ t, exec (.mcheck w) s = .next t ∧ Claim.Retired s t ∧ t.me.v = s.me.v ∧ t.me.x = s.me.x ∧ t.me.csr = s.me.csr ∧
      t.word (c + 4 * 1) key = (s.replayed T c ct key).length ∧
      (∀ k n, (s.replayed T c ct key)[k]? = some n → t.word (c + 4 * (656 + k)) key = n) := by
  have hl := lanes_le s.me
  have hcol := h.columns
  have hlen := replayed_length s T c ct key
  obtain ⟨us, es, hform, hsimple, hes⟩ := mcheckForm_ok h ho
  obtain ⟨t, hrun, ⟨J, hme⟩, -, -, hlaid⟩ :=
    exec_stores (i := .mcheck w) rfl (by decide) hi hform h.calm hsimple rfl ⟨rfl, rfl, rfl⟩
  rw [hes] at hlaid
  have hword {p : Nat × Nat} (hp : p ∈ s.checkRecord T c ct key) (hv : p.2 < 2 ^ 32) : t.word (c + 4 * p.1) key = p.2 :=
    hlaid.word (fun q hq => h.keys q.1 (checkRecord_range hcol hq)) checkRecord_functional hp hv
  refine ⟨t, hrun, retired_of_kept (AccOnly.refl s.me).kept hme, ?_, ?_, ?_, ?_, fun k n hk => ?_⟩
  · rw [hme]
    rfl
  · rw [hme]
    rfl
  · rw [hme]
    exact left_csr (by exact hi.start) J
  · exact hword (p := (1, _)) (List.mem_append_left _ (mem_placed.mpr ⟨Nat.le_refl 1, rfl⟩)) (by dsimp only; omega)
  · have hn : n < s.me.shapeN := List.mem_range.mp (List.mem_of_mem_filter (List.mem_of_getElem? hk))
    refine hword (p := (656 + k, n)) (List.mem_append_right _ (mem_placed.mpr ⟨Nat.le_add_right _ _, ?_⟩)) (by
      dsimp only
      omega)
    dsimp only
    rw [Nat.add_sub_cancel_left]
    exact hk

end

end Sys2Proof.Machine

/-! ### Matrix forms (R99, R100, R290 to R306) -/

namespace Sys2Proof.Machine

/-- An integer accumulator takes its old value and the sum of products, to 32 bits (R100). -/
theorem mmaValue_integer (H : Hart) (w : VFields) (A B : List Byte) (p : Nat × Nat) (old : Nat) :
    (H.mmaValue true w A B p old).1 = (((old : Int) + ((List.range H.shapeK).map (fun k =>
      (operandInt w.fmt.toNat (operandElem A w.fmt.toNat H.shapeK p.1 k)).1 *
        (operandInt w.fmtB (operandElem B w.fmtB H.shapeK p.2 k)).1)).sum) % 2 ^ 32).toNat := by
  rw [← dotInt_fst, ← wrapInt_eq]
  rfl

end Sys2Proof.Machine

section
open Sys2Proof Sys2Proof.Machine

/-- Settles O51: each form runs as the only slot of a convoy of one group. Its checks and reads leave the machine but for
the marks of stores returned, so that its group's hart is written out accumulator by accumulator, and its stores are
performed in an order that elements that do not overlap cannot tell. -/
theorem matrixForms : Obligations.MatrixForms := by
  unfold Obligations.MatrixForms
  intro s w H M N K inRegion fa fb ea eb port popped hM hN h0 h1 h2
  refine ⟨fun A B hk hB hA hp => ?_, fun q hq hon hocc hb hi hA hneed => mtern_waits hi hb h0 h1 h2 hq hon hocc hA hneed,
    fun hi => mzero_runs hM hN h0 h1 h2 hi, ?_, ?_, ?_⟩
  · have hpeer (hb : w.sel.getLsbD 7 = true) (hpr : H.primary = true) : port.peer ≠ s.cur := ((hp hb).2.1 hpr).1
    refine ⟨fun e he hi => ?_, fun hi => ?_⟩
    · rcases List.mem_cons.mp he with rfl | he
      · have hret := mma_retires true (i := .mmaInt w) rfl (.inr (.inl rfl)) rfl hi hM hN
          (fed_of (.inr (.inl rfl)) hi hk hB hA hp) hpeer
        simp only [mmaValue_integer] at hret
        exact hret
      · obtain rfl := List.mem_singleton.mp he
        have hret := mma_retires true (i := .mtern w) rfl (.inr (.inr rfl)) rfl hi hM hN
          (fed_of (.inr (.inr (.inl rfl))) hi hk hB hA hp) hpeer
        simp only [mmaValue_integer] at hret
        exact hret
    · obtain ⟨t, hrun, hret, hx, hf, hm, hmem, hpb, hpa, hacc, -⟩ :=
        mma_retires false (i := .mma w) rfl (.inl rfl) rfl hi hM hN (fed_of (.inl rfl) hi hk hB hA hp) hpeer
      exact ⟨t, hrun, hret, hx, hf, hm, hmem, hpb, hpa, hacc⟩
  · intro size T addr v L C hi hr ha hwf
    have hc := Calm.of_atOnce ha hwf
    exact ⟨mst_stored hi hr hc, fun hb => mst_zeroes hi hr hc hb hM hN⟩
  · intro P q add hi hp hne hitems
    refine ⟨fun hw => mxchg_waits hi hp hitems hw, fun rm' hw hr hf hqi hqf hPM hPN hPL => ?_,
      fun add' fmt' rm' hw hr hf hqi hqf hx => ?_⟩
    · obtain ⟨t, hrun, hret, hmem, hpc, hgo, hacc⟩ :=
        mxchg_exchanges hi ⟨hp, hitems, hf, hw, hr, hqi, hqf⟩ hne hPM hPN hPL hM hN
      refine ⟨t, hrun, hret, hmem, hpc, hgo, fun m n hmn => ?_⟩
      obtain ⟨hmine, hpeers⟩ := hacc m n hmn
      refine ⟨fun hadd => ?_, fun hadd hfmt => ?_, fun hadd hfmt => ?_⟩
      · rw [show w.sel.getLsbD 8 = false from hadd] at hmine hpeers
        exact ⟨hmine, hpeers⟩
      · rw [show w.sel.getLsbD 8 = true from hadd, exchanged_sum_f32 _ _ hfmt] at hmine hpeers
        exact ⟨hmine, hpeers⟩
      · rw [show w.sel.getLsbD 8 = true from hadd, hfmt] at hmine hpeers
        exact ⟨hmine, hpeers.trans (congrArg (· % 2 ^ 32) (Nat.add_comm _ _))⟩
    · obtain ⟨t, hrun, hmem, hme, hpeer⟩ := mxchg_clashes hi ⟨hp, hitems, hf, hw, hr, hqi, hqf⟩ hne hx
      have hpeer : t.hart port.peer = _ := hpeer
      refine ⟨t, hrun, ?_, ?_, ?_, ?_, hmem, fun m n => ⟨?_, ?_⟩⟩
      · rw [hme]
        rfl
      · rw [hme]
        rfl
      · rw [hpeer]
        rfl
      · rw [hpeer]
        rfl
      · rw [hme]
        rfl
      · rw [hpeer]
        rfl
  · intro rec_ dot L c key ha hwf hr hkey hrec word
    have hc := Calm.of_atOnce ha hwf
    refine ⟨fun A B hi hA hB => ?_, fun T ct hi hplace hread hclean htab hcleanTab hshape => ?_⟩
    · have hret := msound_retires hi hc hA hB hM hN hr hkey hrec
      rw [soundActive_sounded hM hN] at hret
      simp only [dotInt_fst] at hret
      exact hret
    · intro f limit active hord
      obtain ⟨hl, hl0, hd, hd0, hrest⟩ := hord
      exact mcheck_retires hi ⟨hc, hr, hkey, hrec, hplace, hread, hclean, htab, hcleanTab, hshape, hM, hN⟩
        ⟨hl, hl0, hd, hd0, hrest⟩

end
